-- ==== Sys2Proof/Word.lean ====
section
/-!
DEFINITION. The word types of the block and the plainest operations on them: little-endian and most-significant-first
byte strings (R5), bit ranges of a record (R4), serial comparison of 32-bit frame numbers (R46).
-/
namespace Sys2Proof

/-- One byte. -/
abbrev Byte := BitVec 8

/-- A string of bytes, lowest address (or first byte on the wire) first. -/
abbrev Bytes := List Byte

/-- Bits high:low of a record, as a number (R4: bit 0 is the least significant bit). -/
def bitsOf {n : Nat} (r : BitVec n) (high low : Nat) : Nat :=
  r.toNat / 2 ^ low % 2 ^ (high + 1 - low)

/-- One bit of a record. -/
def bitOf {n : Nat} (r : BitVec n) (i : Nat) : Bool :=
  r.toNat / 2 ^ i % 2 == 1

/-- The number a little-endian byte string spells (R5). -/
def leNat : Bytes → Nat
  | [] => 0
  | b :: bs => b.toNat + 256 * leNat bs

/-- A number as k little-endian bytes (R5). -/
def leBytes : Nat → Nat → Bytes
  | 0, _ => []
  | k + 1, v => BitVec.ofNat 8 v :: leBytes k (v / 256)

/-- The number a most-significant-first byte string spells (R5: fabric and Phoaz frames). -/
def beNat (bs : Bytes) : Nat := bs.foldl (fun a b => a * 256 + b.toNat) 0

/-- A number as k bytes, most significant first (R5). -/
def beBytes (k v : Nat) : Bytes := (leBytes k v).reverse

/-- Serial comparison of 32-bit numbers (R46): `a` is later than `b`. -/
def serialLater (a b : BitVec 32) : Bool :=
  let d := (a - b).toNat
  d != 0 && d < 2 ^ 31

/-- Ceiling division; zero divisors answer 0 and are guarded by every caller. -/
def ceilDiv (a b : Nat) : Nat := (a + (b - 1)) / b

/-- Two's-complement reading of a field of w bits. -/
def signed (w v : Nat) : Int :=
  if v % 2 ^ w < 2 ^ (w - 1) then (v % 2 ^ w : Nat) else ((v % 2 ^ w : Nat) : Int) - (2 ^ w : Nat)

/-- Two's-complement spelling of an integer in w bits. -/
def unsigned (w : Nat) (v : Int) : Nat := (v % ((2 ^ w : Nat) : Int)).toNat

/-- Pack fields, given from the least significant upwards as (width, value), into a number (R4). -/
def packFields : List (Nat × Nat) → Nat
  | [] => 0
  | (w, v) :: fs => v % 2 ^ w + 2 ^ w * packFields fs

/-- Cut a number into fields of the given widths, least significant first (R4). -/
def unpackFields : List Nat → Nat → List Nat
  | [], _ => []
  | w :: ws, v => v % 2 ^ w :: unpackFields ws (v / 2 ^ w)

end Sys2Proof
end

