-- ==== Sys2Proof/Syntax.lean ====
section
/-!
DEFINITION. The commands of the block (spec/opcode_table.json): one constructor of `Instr` per row, in the table's order,
and the types of their operands. A command is an event of the engine's outside world or of its own units; what a rule
cannot compute from state (whether a tag verifies, whether a test vector passes) is an operand.
-/
namespace Sys2Proof

/-- The agents of Table 00-3; the codes 8 to 15 are never stamped (R1). -/
inductive Agent
  | hostNs | hostS | docent | curator | field | partner | debug | selftest
  deriving DecidableEq, Repr

/-- The 4-bit agent ID of Table 00-3. -/
def Agent.code : Agent → Nat
  | .hostNs => 0 | .hostS => 1 | .docent => 2 | .curator => 3
  | .field => 4 | .partner => 5 | .debug => 6 | .selftest => 7

/-- The path on which a control-window access arrives (R1, R58): the carrier's non-secure or secure path, or the debug
path. The SECURE bit of the transaction header chooses between the first two. -/
inductive CwPath
  | hostNs | hostS | debug
  deriving DecidableEq, Repr

/-- The stamp of an access, taken from its path and from nothing else (R1, R58). -/
def CwPath.agent : CwPath → Agent
  | .hostNs => .hostNs | .hostS => .hostS | .debug => .debug

/-- The four ports F0 to F3. -/
abbrev Port := Fin 4

/-- The four job numbers (Table 04-4). -/
abbrev JobId := Fin 4

/-- The host agents, which own queue pairs and tags (R73, R89). -/
inductive Host2
  | ns | s
  deriving DecidableEq, Repr

def Host2.agent : Host2 → Agent
  | .ns => .hostNs | .s => .hostS

/-- The parts of Table 02-1 that have a repair budget. -/
inductive RepairPart
  | ucieLane | opticalLane | laser | cipherPair | docentCore | updateLane | galleryRow
  deriving DecidableEq, Repr

/-- Repair budget of a part in frames (Table 02-1). -/
def RepairPart.budget : RepairPart → Nat
  | .ucieLane => 3 | .opticalLane => 3 | .laser => 3 | .cipherPair => 1
  | .docentCore => 2 | .updateLane => 1 | .galleryRow => 2

/-- The fields of a received IEEE 1588 message that the engine uses (R37, R40). Timestamps are the 80-bit PTP
timestamps of Table 02-5 and the correction is the message's correctionField (2^-16 ns units, two's complement). -/
structure PtpHeader where
  domain     : BitVec 8
  seqId      : BitVec 16
  source     : BitVec 80
  correction : BitVec 64
  deriving DecidableEq, Repr

/-- The body of an Announce message: the dataset the best master clock algorithm compares (R37, R40). -/
structure AnnounceBody where
  priority1    : BitVec 8
  clockClass   : BitVec 8
  accuracy     : BitVec 8
  variance     : BitVec 16
  priority2    : BitVec 8
  gmIdentity   : BitVec 64
  stepsRemoved : BitVec 16
  deriving DecidableEq, Repr

/-- What the hardware observes in the frame that a FRAME_BOUNDARY closes: outcomes of physical tests, which no rule
computes from state. Each is an input of the command. -/
structure FrameObs where
  /-- The self-test step of this frame found a failing part: its PART_ID, and the row of a Gallery bank (R104). -/
  selftestFail : Option (BitVec 16 × BitVec 15)
  /-- Pinned Docent cores, by physical index, that were in the spare pool and failed item 6 at this boundary (R447). -/
  pinFail : List (BitVec 16)
  /-- Docent cores whose context drain was late (R358). -/
  lateDrain : List (BitVec 5)
  /-- H2E doorbell bits that firmware took in this frame (Table 14-7). -/
  bellsTaken : List (Fin 16 × BitVec 32)
  /-- Temperature band of the logic-die sensor of the block of each part class 1 to 12 (R444). -/
  bands : Vector (BitVec 2) 12
  /-- Cycles of the frame in which the update unit had a group whose operands had not all arrived, besides those of a
  LANE_GROUP_ISSUE (R126). -/
  starved : BitVec 18
  /-- Retries of the D2D adapter (R72, D2D_ADAPTER_RETRY_COUNT). -/
  adapterRetries : BitVec 32
  /-- Single-bit errors that the consumers of Gallery words corrected in flight (R192, R193). -/
  corrected : BitVec 32
  deriving DecidableEq, Repr

/-- A frame in which no physical test failed, at a temperature below 50 °C. -/
def FrameObs.quiet : FrameObs := ⟨none, [], [], [], Vector.replicate 12 0, 0, 0, 0⟩

/-- Whether a carrier request reads or writes (Table 03-3). -/
inductive MemKind
  | read | write
  deriving DecidableEq, Repr

/-- The wake events of R101. -/
inductive WakeEvent
  | sqTail | mailbox | odWrite | phoaz
  /-- Incoming signal on a fabric port, a wake event in E1 and E2 only. -/
  | portSignal
  deriving DecidableEq, Repr

/-- What the hardware observes while a block is encoded (R180, R181). -/
inductive EncObs
  /-- Emitted and not found wrong. -/
  | clean
  /-- The verify lane's decode differs; which of the emitting and the verify lane fails the item 3 vectors. -/
  | verifyMismatch (emitterFails verifierFails : Bool)
  /-- An uncorrectable word in the block store. -/
  | storeUe
  deriving DecidableEq, Repr

/-- What holds the Gallery word found bad. The spec gives no placement of objects in slots, so the command names the
object (R193, Table 08-4). -/
inductive UeVictim
  /-- A slot no region holds, or a word of no live object. -/
  | unused
  /-- A stream buffer: task, Holding and the carrier address of the word's granule. -/
  | stream (task : Nat) (holding : BitVec 12) (addr : BitVec 64)
  /-- Statistics or snapshot of a task; both copies bad. -/
  | stats (task : Nat) (both : Bool)
  /-- Own Ledger staging of a job's step: the Holding and the carrier address of the granule that it was staged from, when
  that source is unchanged since. -/
  | ledgerOwn (job : Fin 4) (step : BitVec 64) (source : Option (BitVec 12 × BitVec 64))
  /-- A partner's record of a job's step. -/
  | ledgerPartner (job : Fin 4) (step : BitVec 64)
  /-- A Leaf in quarantine, by its number. -/
  | quarantine (leaf : Nat)
  /-- An object in Vault egress, by its number. -/
  | egress (object : Nat)
  /-- The SYSTEM region. -/
  | system
  deriving DecidableEq, Repr

/-- The codeword that a consumer gets of a Gallery word, and the one that a second read of the array gives (R193). -/
structure WordReads where
  first : BitVec 39
  again : BitVec 39
  deriving DecidableEq, Repr

/-- A word of the row that the scrubber visits which it cannot correct (R195): its place in the row, what the two reads give,
and the object it lies in. -/
structure ScrubFault where
  word   : BitVec 11
  reads  : WordReads
  victim : UeVictim
  deriving DecidableEq, Repr

/-- What a slot to be retired holds, and the free slot that takes it (R199). -/
structure SlotContents where
  objects : List UeVictim
  slot    : BitVec 15
  deriving DecidableEq, Repr

/-- What the checks of a reduction find (R284). -/
inductive ResidueObs
  /-- Every check passes. -/
  | clean
  /-- The first core's check fails and the recomputation on another core passes. -/
  | once (core : BitVec 5)
  /-- The recomputation fails too: the first core is repaired as a Docent core fault. -/
  | twice (core : BitVec 5)
  deriving DecidableEq, Repr

/-- One part of a FUSED message (R291): its header, payload and offset in the carrying payload. -/
structure FusedPart where
  hdr     : BitVec 512
  payload : Bytes
  deriving DecidableEq, Repr

/-- Transmit or receive direction of a port (R299). -/
inductive Dir
  | tx | rx
  deriving DecidableEq, Repr

/-- Causes of LINK_FAULT (Table 12-2). -/
inductive LinkFaultCause
  | lossOfLock | uncorrectableRun | retryLimit
  deriving DecidableEq, Repr

/-- The detectors of R477 on the logic die. -/
inductive GlitchSource
  | supply | clock | temperature
  deriving DecidableEq, Repr

/-- A Docent hardware thread, named by logical core and thread number (R357). -/
structure Thread where
  core   : Fin 20
  thread : Fin 4
  deriving DecidableEq, Repr

/-- Who issues a sync operation: a Docent thread (Table 14-2) or a host path through the sync window (Table 14-3). -/
inductive SyncWho
  | thread (t : Thread)
  | host (path : CwPath)
  deriving DecidableEq, Repr

/-- The sync operations of Table 14-2 as a Docent thread issues them. -/
inductive SyncOp
  | read | write (d : BitVec 64) | readFf | readFe | writeEf (d : BitVec 64) | writeXf (d : BitVec 64)
  | setEmpty | setFull | fetchAdd (k : BitVec 64) | cas (a b : BitVec 64)
  | tallyAdd (k : BitVec 64) | tallySub (k : BitVec 64) | status | claim | unclaim
  deriving DecidableEq, Repr

/-- The sixteen mailbox channels (R379). -/
abbrev Channel := Fin 16

/-- A Docent bundle under one signature (R451). Its byte layout is not the engine's concern; what a load carries is
given as the parts that R451 lists, and whether the signature verifies under the boot-ROM key. -/
structure Bundle where
  id        : BitVec 32
  docentFw  : BitVec 32
  kernelId  : BitVec 32
  svnDocent : BitVec 32
  svnKernel : BitVec 32
  svnBundle : BitVec 32
  schema    : BitVec 32
  /-- The compatibility matrix, header and rows (R458). -/
  matrix    : Bytes
  /-- KVER of AdamW, Lion, SGDM and Adafactor that the kernel image carries (R122). -/
  kvers     : Vector (BitVec 16) 4
  /-- Woad arithmetic level of the kernel image (R143). -/
  woadLevel : BitVec 16
  /-- MBOX_SERVICES of the Docent image (R384). -/
  services  : Bytes
  sigOk     : Bool
  deriving DecidableEq, Repr

/-- A Curator image (R403): CURATOR_FW, security version, length and whether its signature verifies. -/
structure CuratorImage where
  fw    : BitVec 32
  svn   : BitVec 32
  len   : BitVec 24
  sigOk : Bool
  deriving DecidableEq, Repr

/-- What the checks of an action entry find in the value of a write, where no rule computes it from the bytes: whether
a wrapped blob or helper data is good, and what a bundle or image holds. -/
structure ActionObs where
  intact : Bool
  bundle : Option Bundle
  image  : Option CuratorImage
  deriving DecidableEq, Repr

/-- The battery regions that carry a CRC in two copies (R399). -/
inductive Region
  | curatorState | jobRecord (j : JobId) | svn | pufHelper | trim | scores | odStore | ivEpoch
  deriving DecidableEq, Repr

/-- What Stage A finds (R386, R389, R399). -/
structure StageAObs where
  /-- The retention monitor latched a dip below retention voltage. -/
  dip       : Bool
  /-- The corrected PUF response matches RESPONSE_CHECK. -/
  pufOk     : Bool
  /-- Copies that fail their CRC: region, and whether it is copy B. -/
  bad       : List (Region × Bool)
  /-- Copies of key slots 1, 2, 3 and 7 that fail their integrity code: slot, and whether it is copy B (R328). -/
  badSlots  : List (BitVec 6 × Bool)
  /-- Retention seconds and VALID as the hardware counter reads them (Table 15-5). -/
  seconds   : BitVec 48
  valid     : Bool
  deriving DecidableEq, Repr

/-- What Stage B finds: entries of the remap table that fail their CRC (R201), and after VBAT loss the parts that fail the short
self-test (R390). -/
structure StageBObs where
  /-- Places in the table, and whether it is copy B that fails there. -/
  badEntries : List (BitVec 12 × Bool)
  failed    : List (BitVec 16)
  /-- Rows, by channel and row, that fail March C− when the remap table is rebuilt after VBAT loss (R201). -/
  badRows   : List (BitVec 7 × BitVec 15)
  /-- Spare rows, by channel, kind (secondary) and index, that fail it. -/
  badSpares : List (BitVec 7 × Bool × BitVec 10)
  deriving DecidableEq, Repr

/-- The path of a dictionary command: a bank of the OD window (R419), or the internal path of Docent firmware, which
names the entry and carries the value. -/
inductive OdPath
  | bank (b : Host2)
  | internal (index : BitVec 16) (sub : BitVec 8) (value : Bytes)
  deriving DecidableEq, Repr

/-- A Phoaz frame as the Curator receives it (R424), but for the TAG: addresses, header, body, and COUNTER. -/
structure PhoazText where
  dst     : BitVec 48
  src     : BitVec 48
  hdr     : BitVec 128
  body    : Bytes
  counter : BitVec 64
  /-- TIME_NS when the F_FRAME that carries it begins to cross the barrier (R432). -/
  stamp   : Nat
  deriving DecidableEq, Repr

/-- A Phoaz frame with the 32-byte TAG of its trailer, 0 without AUTH (R429). -/
structure PhoazFrame extends PhoazText where
  tag : BitVec 256
  deriving DecidableEq, Repr

/-- The name of a residency of the factor cache (R151): the factor Holding and the step, or an entry of the Ledger record of
the step for a MIRROR_APPLY. -/
structure FactorName where
  holding : Option (BitVec 12)
  step    : BitVec 64
  entry   : BitVec 16
  deriving DecidableEq, Repr

/-- The lanes that a full training chooses: the lane maps, and whether the partner supports a spare (R299, R302). -/
structure TrainedLanes where
  tx       : Vector (Fin 9) 8
  rx       : Vector (Fin 9) 8
  farSpare : Bool
  deriving DecidableEq, Repr

/-- The parts of Table 18-5. -/
inductive ThermalPart
  | logicDie | dram | optics
  deriving DecidableEq, Repr

/-- The instructions of the test access port (R474). -/
inductive TapInstr
  | bypass | idcode | samplePreload | extest | debug
  /-- Access to the stacked DRAM dies by IEEE 1838. -/
  | ieee1838
  /-- Access to a core wrapper by IEEE 1500. -/
  | ieee1500
  /-- An instruction that loads internal scan chains of the logic die. -/
  | scanChain
  deriving DecidableEq, Repr


/-- The commands, one per row of spec/opcode_table.json. -/
inductive Instr
  /-- FRAME_BOUNDARY (R23). -/
  | frameBoundary (obs : FrameObs)
  /-- FAULT_BUDGET_OVERRUN (R33): the repair of this part, by index, is past its budget. -/
  | faultBudgetOverrun (part : RepairPart) (index : BitVec 32)
  /-- HOLDOVER_ALIGN_EXPIRY (R36). -/
  | holdoverAlignExpiry
  /-- TRIM_REFINE (R34). -/
  | trimRefine
  /-- PPS (R45). -/
  | pps
  /-- FRAME_EXT_LO_READ (R49): a 4-byte read, or an 8-byte read when `wide`. -/
  | frameExtLoRead (path : CwPath) (wide : Bool)
  /-- TIME_NS_LO_READ (R49). -/
  | timeNsLoRead (path : CwPath) (wide : Bool)
  /-- SYNC (R37): received on a port. -/
  | sync (port : Port) (h : PtpHeader)
  /-- FOLLOW_UP (R37): with preciseOriginTimestamp. -/
  | followUp (port : Port) (h : PtpHeader) (origin : BitVec 80)
  /-- ANNOUNCE (R37). -/
  | announce (port : Port) (h : PtpHeader) (body : AnnounceBody)
  /-- PDELAY_REQ (R40). -/
  | pdelayReq (port : Port) (h : PtpHeader)
  /-- PDELAY_RESP (R40): with requestReceiptTimestamp. -/
  | pdelayResp (port : Port) (h : PtpHeader) (receipt : BitVec 80)
  /-- PDELAY_RESP_FOLLOW_UP (R40): with responseOriginTimestamp. -/
  | pdelayRespFollowUp (port : Port) (h : PtpHeader) (origin : BitVec 80)
  /-- SIGNALING (R40). -/
  | signaling (port : Port) (h : PtpHeader)
  /-- SYNC_INTERVAL (R40). -/
  | syncInterval (port : Port)
  /-- ANNOUNCE_INTERVAL (R41). -/
  | announceInterval (port : Port)
  /-- PDELAY_INTERVAL (R40). -/
  | pdelayInterval (port : Port)
  /-- ANNOUNCE_TIMEOUT (R37). -/
  | announceTimeout
  /-- MRD_CPL (R57): the 16-byte header and the payload bytes. -/
  | mrdCpl (hdr : BitVec 128) (payload : Bytes)
  /-- MWR_CPL (R55). -/
  | mwrCpl (hdr : BitVec 128) (payload : Bytes)
  /-- NOP of the transaction layer (R57), or a message whose MSG_TYPE the carrier may not send. -/
  | d2dNop (hdr : BitVec 128) (payload : Bytes)
  /-- TIME_REQ (R56). -/
  | timeReq (hdr : BitVec 128) (payload : Bytes)
  /-- THERM (R69). -/
  | therm (hdr : BitVec 128) (payload : Bytes)
  /-- GRANT (R68). -/
  | grant (hdr : BitVec 128) (payload : Bytes)
  /-- D2D_CPL_TIMEOUT (R57): the limit of the request with this tag lapses. -/
  | d2dCplTimeout (tag : BitVec 16)
  /-- XLAT_WAIT_LIMIT (R65): the limit of this pending extent lapses. -/
  | xlatWaitLimit (holding : BitVec 12) (extent : BitVec 32)
  /-- THERM_STALE (R69): the limit of this stack lapses. -/
  | thermStale (stack : BitVec 5)
  /-- D2D_LANE_FAIL (R53): a lane of the module fails; `retire` when no redundant lane is left or retraining fails. -/
  | d2dLaneFail (module : BitVec 4) (retire : Bool)
  /-- MAINBAND_TRAINED (R390). -/
  | mainbandTrained
  /-- EXTENT_UPDATE (R61): the DOMAIN value written by an agent. -/
  | extentUpdate (agent : Agent) (value : Bytes)
  /-- REGISTER_WRITE (R59): offset, access size (AUX) and data. -/
  | registerWrite (path : CwPath) (offset : BitVec 24) (size : BitVec 8) (tag : BitVec 16) (data : BitVec 64)
  /-- SQ_TAIL (R75): a write of the doorbell register of pair q. -/
  | sqTail (path : CwPath) (q : BitVec 6) (value : BitVec 32)
  /-- CQ_HEAD (R76). -/
  | cqHead (path : CwPath) (q : BitVec 6) (value : BitVec 32)
  /-- QP_CREATE (R73): the DOMAIN value of Table 04-1 written by an agent. -/
  | qpCreate (agent : Agent) (value : Bytes)
  /-- QP_DESTROY (R78). -/
  | qpDestroy (agent : Agent) (q : BitVec 8)
  /-- QP_REMOVE (R78). -/
  | qpRemove (q : BitVec 6)
  /-- TASK_ADMIT (R89): the record whose turn it is by R75 is admitted. -/
  | taskAdmit
  /-- NOP task (R92). `task` names an admitted task by its admission number. -/
  | nop (task : Nat)
  /-- JOB_OPEN (R85). -/
  | jobOpen (task : Nat)
  /-- JOB_CLOSE (R85). -/
  | jobClose (task : Nat)
  /-- REGISTER_HOLDING (R64). -/
  | registerHolding (task : Nat)
  /-- RELEASE_HOLDING (R86). -/
  | releaseHolding (task : Nat)
  /-- CANCEL (R97). -/
  | cancel (task : Nat)
  /-- SELFTEST (R102). -/
  | selftest (task : Nat)
  /-- STEP_MARK (R87). -/
  | stepMark (task : Nat)
  /-- UPDATE (R108). -/
  | update (task : Nat)
  /-- WOAD_COMPRESS (R137). -/
  | woadCompress (task : Nat)
  /-- LEDGER_SEND (R215). -/
  | ledgerSend (task : Nat)
  /-- VERDICT (R270). -/
  | verdict (task : Nat)
  /-- CAPTURE_BAND (R237). -/
  | captureBand (task : Nat)
  /-- MIRROR_APPLY (R226). -/
  | mirrorApply (task : Nat)
  /-- RESTORE_VAULT (R257). -/
  | restoreVault (task : Nat)
  /-- RESTORE_MIRROR (R256). -/
  | restoreMirror (task : Nat)
  /-- SPARE_SHADOW (R264). -/
  | spareShadow (task : Nat)
  /-- SPARE_PROMOTE (R265). -/
  | sparePromote (task : Nat)
  /-- SHADOW_SOURCE (R264). -/
  | shadowSource (task : Nat)
  /-- ACC_OPEN (R235). -/
  | accOpen (task : Nat)
  /-- ACC_SEAL (R250). -/
  | accSeal (task : Nat)
  /-- DEACCESSION (R251). -/
  | deaccession (task : Nat)
  /-- CATALOGUE_FETCH (R252). -/
  | catalogueFetch (task : Nat)
  /-- WELD_PAIR (R209). -/
  | weldPair (task : Nat)
  /-- WELD_BIND (R208). -/
  | weldBind (task : Nat)
  /-- WELD_UNPAIR (R210). -/
  | weldUnpair (task : Nat)
  /-- WELD_RESYNC (R232). -/
  | weldResync (task : Nat)
  /-- WELD_ROLLBACK (R230). -/
  | weldRollback (task : Nat)
  /-- GROUP_JOIN (R273). -/
  | groupJoin (task : Nat)
  /-- GROUP_REFORM (R292). -/
  | groupReform (task : Nat)
  /-- GROUP_LEAVE (R294). -/
  | groupLeave (task : Nat)
  /-- REDUCE (R275). -/
  | reduce (task : Nat)
  /-- BROADCAST (R277). -/
  | broadcast (task : Nat)
  /-- ALLREDUCE (R277). -/
  | allreduce (task : Nat)
  /-- KEY_DERIVE (R331). -/
  | keyDerive (task : Nat)
  /-- KEY_UNWRAP (R331): whether the blob passes the AES-KW integrity check. -/
  | keyUnwrap (task : Nat) (intact : Bool)
  /-- KEY_ERASE (R331). -/
  | keyErase (task : Nat)
  /-- KEY_ROLLOVER (R332). -/
  | keyRollover (task : Nat)
  /-- KEY_ROLLOVER_SWITCH (R332): whether the held blob passes the AES-KW integrity check. -/
  | keyRolloverSwitch (intact : Bool)
  /-- IDLE_FRAME_LIMIT (R101). -/
  | idleFrameLimit
  /-- WAKE_EVENT (R101). -/
  | wakeEvent (cause : WakeEvent)
  /-- POWER_EXIT_DONE (R100). -/
  | powerExitDone
  /-- POWER_STATE_LIMIT (R101): a dictionary write by an agent. -/
  | powerStateLimit (agent : Agent) (value : BitVec 8)
  /-- FETCH_GROUP_START (R124): the next fetch group of a lane task. -/
  | fetchGroupStart (task : Nat)
  /-- LANE_GROUP_ISSUE (R126): the next 128-element group of a lane task. -/
  | laneGroupIssue (task : Nat)
  /-- RUN_IN (R127). -/
  | runIn
  /-- SHADOW_MISMATCH (R130): a shadow lane differs on the given logical lane; which of the two shadows. -/
  | shadowMismatch (task : Nat) (logical : BitVec 7) (second : Bool)
  /-- LANE_REPAIR (R130): results of the item 1 vectors on the active and on the shadow lane. -/
  | laneRepair (activeFails shadowFails : Bool)
  /-- KERNEL_IMAGE_SWITCH (R123). -/
  | kernelImageSwitch
  /-- FACTOR_CACHE_UE (R152): an uncorrectable word in the residency of this factor set. -/
  | factorCacheUe (job : JobId) (set : FactorName)
  /-- ARRAY_CHECK_FAIL (R158): a residue error, or else a shadow-column mismatch. -/
  | arrayCheckFail (residue : Bool)
  /-- ARRAY_REPAIR (R158): the physical rows and columns that fail the vectors of self-test item 2. -/
  | arrayRepair (badRows badCols : List (Fin 130))
  /-- ENCODE_BLOCK (R169): the next block of the Leaf in the encoder under this number, on a logical lane. -/
  | encodeBlock (leaf : Nat) (lane : BitVec 6) (obs : EncObs)
  /-- DECODE_LEAF (R172): the verified Leaf in quarantine under this number; `laneError` when the first decode on the
  lane goes wrong in the lane and not in the data. -/
  | decodeLeaf (leaf : Nat) (lane : BitVec 6) (laneError : Bool)
  /-- CODER_LANE_TEST (R174): whether the suspected lane fails the item 3 vectors. -/
  | coderLaneTest (fails : Bool)
  /-- MADDER_GEN_LOAD (R176). -/
  | madderGenLoad (agent : Agent) (image : Bytes)
  /-- MADDER_GEN_RECALL (R177). -/
  | madderGenRecall (agent : Agent) (image : Bytes)
  /-- GEN_SWAP (R176). -/
  | genSwap
  /-- HIST (R170): a read of the histogram by an agent. -/
  | hist (agent : Agent)
  /-- GALLERY_UE (R193): what a consumer and a second read of the array get of the word at a Gallery address, and the object
  the word lies in. -/
  | galleryUe (addr : BitVec 35) (reads : WordReads) (victim : UeVictim)
  /-- ROW_REMAP (R197): the remap engine of a die works one frame; whether the spare's read-back compares equal; and for
  the case that the slot of the row must be retired, the region of the slot (bit number of REGION_SHORT_MASK) and its live
  objects, and the free slot that takes its contents (R199). -/
  | rowRemap (die : BitVec 2) (readback : Bool) (region : BitVec 3) (contents : SlotContents)
  /-- SCRUB_ROW (R195): of the row visited, the words that read with a single-bit error, with their codewords, and the words
  that cannot be corrected. -/
  | scrubRow (corrected : List (BitVec 11 × BitVec 39)) (bad : List ScrubFault)
  /-- PAIR_OFFER (R209): header, payload bits [1023:256] (Table 09-4), and AUTH. -/
  | pairOffer (hdr : BitVec 256) (fields : BitVec 768) (auth : BitVec 256)
  /-- PAIR_ACCEPT (R209). -/
  | pairAccept (hdr : BitVec 256) (fields : BitVec 768) (auth : BitVec 256)
  /-- PAIR_CONFIRM (R210). -/
  | pairConfirm (hdr : BitVec 256)
  /-- PAIR_REFUSE (R210). -/
  | pairRefuse (hdr : BitVec 256)
  /-- PAIR_CLOSE (R210). -/
  | pairClose (hdr : BitVec 256)
  /-- PAIR_OFFER_REPEAT (R209). -/
  | pairOfferRepeat (job : JobId)
  /-- PAIR_TIMEOUT (R210). -/
  | pairTimeout (job : JobId)
  /-- AUTO_PAIR (R211). -/
  | autoPair (job : JobId)
  /-- RECORD_OPEN (R216): record header and entries; whether the GCM tag verifies. -/
  | recordOpen (hdr : BitVec 256) (rec : BitVec 512) (entries : List (BitVec 1024)) (tagOk : Bool)
  /-- RECORD_DATA (R217): one gradient Leaf or factor packet. -/
  | recordData (hdr : BitVec 256) (payload : Bytes) (tagOk : Bool)
  /-- RECORD_TRAILER (R217): Leaf digest entries of Table 09-7. -/
  | recordTrailer (hdr : BitVec 256) (digests : List (BitVec 320)) (tagOk : Bool)
  /-- LEDGER_ACK (R218). -/
  | ledgerAck (hdr : BitVec 256) (tagOk : Bool)
  /-- LEDGER_NAK (R220). -/
  | ledgerNak (hdr : BitVec 256) (tagOk : Bool)
  /-- MIRROR_CONFIRM (R222): mismatch count and span references. -/
  | mirrorConfirm (hdr : BitVec 256) (spans : List (BitVec 64)) (tagOk : Bool)
  /-- COPY_REQUEST (R227). -/
  | copyRequest (hdr : BitVec 256) (spans : List (BitVec 64)) (tagOk : Bool)
  /-- COPY_LEAF (R228): the raw Leaf. -/
  | copyLeaf (hdr : BitVec 256) (payload : Bytes) (tagOk : Bool)
  /-- ROLLBACK_REQUEST (R230). -/
  | rollbackRequest (hdr : BitVec 256) (spans : List (BitVec 64)) (tagOk : Bool)
  /-- WELD_ACK (R207). -/
  | weldAck (hdr : BitVec 256) (tagOk : Bool)
  /-- WELD_HEARTBEAT (R207). -/
  | weldHeartbeat (job : JobId)
  /-- PARTNER_LOST (R231): by silence, or by the link layer's report. -/
  | partnerLost (job : JobId)
  /-- MIRROR_DIGEST_COMPARE (R222): of the record of a step. -/
  | mirrorDigestCompare (job : JobId) (step : BitVec 64)
  /-- COPY_MODE_APPLY (R229). -/
  | copyModeApply (job : JobId) (step : BitVec 64)
  /-- PUT_ACK (R246): header, object name, whether the session tag verifies. -/
  | putAck (hdr : BitVec 256) (name : BitVec 256) (tagOk : Bool)
  /-- PUT_NAK (R243). -/
  | putNak (hdr : BitVec 256) (name : BitVec 256) (tagOk : Bool)
  /-- GET_DATA (R258): stored header, the plaintext the cipher recovers, session tag and object tag. -/
  | getData (hdr : BitVec 256) (stored : BitVec 512) (plain : Bytes) (tagOk objectTagOk : Bool)
  /-- GET_NAK (R243). -/
  | getNak (hdr : BitVec 256) (name : BitVec 256) (tagOk : Bool)
  /-- DELETE_ACK (R251). -/
  | deleteAck (hdr : BitVec 256) (name : BitVec 256) (tagOk : Bool)
  /-- COMMIT_ACK (R250). -/
  | commitAck (hdr : BitVec 256) (name : BitVec 256) (tagOk : Bool)
  /-- VAULT_REPLY_TIMEOUT (R243): the limit of this request lapses. -/
  | vaultReplyTimeout (reqId : BitVec 64)
  /-- RESTORE_REQ (R254): requests of 16 bytes. -/
  | restoreReq (hdr : BitVec 256) (requests : List (BitVec 128)) (tagOk : Bool)
  /-- RESTORE_SERVE (R254): the next Leaf of a request served: first its read, then the encoder. -/
  | restoreServe (request : Nat)
  /-- RESTORE_LEAF (R255): digest and coded Leaf. -/
  | restoreLeaf (hdr : BitVec 256) (digest : BitVec 256) (coded : Bytes) (tagOk : Bool)
  /-- RESTORE_MISSING (R253). -/
  | restoreMissing (hdr : BitVec 256) (tagOk : Bool)
  /-- RESTORE_DONE (R253): Leaves sent and missing. -/
  | restoreDone (hdr : BitVec 256) (sent missing : BitVec 32) (tagOk : Bool)
  /-- RESTORE_REPLY_TIMEOUT (R255): the limit of this restore task lapses. -/
  | restoreReplyTimeout (task : Nat)
  /-- ROLL_FORWARD (R259): of a restore task whose chosen Leaves are all written. -/
  | rollForward (task : Nat)
  /-- FINGERPRINT_CONTRIBUTE (R270). -/
  | fingerprintContribute (task : Nat)
  /-- COLL_DATA (R280): header, payload, tag, and what the residue checks find. -/
  | collData (hdr : BitVec 512) (payload : Bytes) (tagOk : Bool) (obs : ResidueObs)
  /-- COLL_ABORT (R286). -/
  | collAbort (hdr : BitVec 512) (tagOk : Bool)
  /-- COLL_GRACE (R288). -/
  | collGrace (hdr : BitVec 512) (tagOk : Bool)
  /-- COLL_RESULT (R287). -/
  | collResult (hdr : BitVec 512) (payload : Bytes) (tagOk : Bool)
  /-- FUSED (R291): the carrying header, its parts, and whether they exactly fill the payload. -/
  | fused (hdr : BitVec 512) (parts : List FusedPart) (exact : Bool) (tagOk : Bool)
  /-- SW_RESULT (R290). -/
  | swResult (hdr : BitVec 512) (payload : Bytes) (tagOk : Bool)
  /-- SW_REFUSE (R290). -/
  | swRefuse (hdr : BitVec 512) (tagOk : Bool)
  /-- SWITCH_WAIT (R290): the wait of this collective on its present axis lapses. -/
  | switchWait (group : BitVec 16) (seq : BitVec 32)
  /-- COLL_DEADLINE (R286). -/
  | collDeadline (group : BitVec 16) (seq : BitVec 32)
  /-- COLL_COMMIT (R287). -/
  | collCommit (group : BitVec 16) (seq : BitVec 32)
  /-- HELD_VERDICT_APPLY (R272). -/
  | heldVerdictApply (job : JobId)
  /-- LINK_ENABLE (R301): a dictionary write by an agent. -/
  | linkEnable (agent : Agent) (value : BitVec 8)
  /-- SIGNAL_DETECT (R301): signal on this many receive lanes. -/
  | signalDetect (port : Port) (lanes : BitVec 4)
  /-- TRAINING_COMPLETE (R302): link partner's ID, the lanes chosen, and the bias current of lasers A and B (R300). -/
  | trainingComplete (port : Port) (partner : BitVec 32) (lanes : TrainedLanes) (bias : Vector (BitVec 32) 2)
  /-- TRAINING_TIMEOUT (R301). -/
  | trainingTimeout (port : Port)
  /-- LINK_FAULT (R301): the cause, and the lane that caused it when one did. -/
  | linkFault (port : Port) (cause : LinkFaultCause) (lane : Option (Dir × Fin 9))
  /-- FAST_RETRAIN_DONE (R303): lanes that failed to lock in step 3. -/
  | fastRetrainDone (port : Port) (badTx badRx : Option (Fin 9))
  /-- FAST_RETRAIN_TIMEOUT (R301). -/
  | fastRetrainTimeout (port : Port)
  /-- INIT (R302): version, engine ID, port and credits of VC0 to VC5. -/
  | init (port : Port) (version : BitVec 8) (engine : BitVec 32) (credits : Vector (BitVec 16) 6)
  /-- RESUME (R303): expected SEQ and credits held. -/
  | resume (port : Port) (seq : BitVec 16) (credits : Vector (BitVec 16) 6)
  /-- RETRY_REQ (R310). -/
  | retryReq (port : Port) (seq : BitVec 16)
  /-- RETRY_REQ_REPEAT (R310). -/
  | retryReqRepeat (port : Port)
  /-- SWAP_REQ (R304): request number and physical lane to vacate. -/
  | swapReq (port : Port) (number : BitVec 16) (lane : BitVec 8)
  /-- SWAP_ACK (R304): request number and switch point. -/
  | swapAck (port : Port) (number : BitVec 16) (point : BitVec 32)
  /-- SWAP_REQ_REPEAT (R304). -/
  | swapReqRepeat (port : Port)
  /-- LANE_SWAP_POINT (R304). -/
  | laneSwapPoint (port : Port) (dir : Dir)
  /-- LANE_CE_WINDOW (R304): corrected symbols of each receive lane in the window. -/
  | laneCeWindow (port : Port) (symbols : Vector (BitVec 32) 9)
  /-- PLANNED_RETRAIN (R306): reason and FRAME_NO of the start. -/
  | plannedRetrain (port : Port) (reason : BitVec 8) (frameNo : BitVec 32)
  /-- PLANNED_RETRAIN_START (R306). -/
  | plannedRetrainStart (port : Port)
  /-- LASER_FAIL (R306). -/
  | laserFail (port : Port)
  /-- LASER_BIAS_LIMIT (R306): bias current of the active laser. -/
  | laserBiasLimit (port : Port) (bias : BitVec 32)
  /-- DATA_FLIT (R310): header, the 244 payload bytes, CRC and FEC status. -/
  | dataFlit (port : Port) (hdr : BitVec 64) (payload : Bytes) (crcOk fecOk : Bool)
  /-- IDLE_FLIT (R307). -/
  | idleFlit (port : Port) (hdr : BitVec 64) (crcOk fecOk : Bool)
  /-- DEST_UNREACH (R318): the engine IDs named. -/
  | destUnreach (port : Port) (engines : List (BitVec 32))
  /-- UNREACH_HOLD_EXPIRY (R318). -/
  | unreachHoldExpiry (port : Port) (engine : BitVec 32)
  /-- BINDING_IDLE (R317). -/
  | bindingIdle (engine : BitVec 32) (vc : Fin 6)
  /-- RECALIBRATE_PORT (R457): a dictionary write by an agent. -/
  | recalibratePort (agent : Agent) (value : BitVec 8)
  /-- LANE_MAP_RESET (R299). -/
  | laneMapReset (agent : Agent) (port : Port) (value : BitVec 8)
  /-- CIPHER_MISMATCH (R339): the logical pair, and whether it was resuming a unit after an earlier mismatch. -/
  | cipherMismatch (pair : BitVec 6)
  /-- CIPHER_REPAIR (R339): which pipes of the old pair fail the item 4 answers, and whether the resumed unit disagrees
  again. -/
  | cipherRepair (firstFails secondFails again : Bool)
  /-- ENTROPY_TEST_FAIL (R338). -/
  | entropyTestFail
  /-- ENTROPY_RETEST (R338): whether the tests pass on the fresh samples. -/
  | entropyRetest (passes : Bool)
  /-- USAGE_LOAD_SWITCH (R336). -/
  | usageLoadSwitch (slot : BitVec 6)
  /-- GLITCH_TRIP (R477). -/
  | glitchTrip (source : GlitchSource)
  /-- ALARM_CLEAR (R354): a dictionary write by an agent; whether a detector is still outside its window. -/
  | alarmClear (agent : Agent) (value : BitVec 8) (sourceActive : Bool)
  /-- FIELD_AUTH_LOAD (R327): the value, whether the write was authenticated, whether a blob is intact. -/
  | fieldAuthLoad (agent : Agent) (value : Bytes) (authenticated intact : Bool)
  /-- WRAP_LOAD (R327). -/
  | wrapLoad (agent : Agent) (value : Bytes) (intact : Bool)
  /-- C_START (R348): a write on the page of this agent, with its access size. -/
  | cStart (agent : Agent) (size : BitVec 8) (value : BitVec 64)
  /-- C_DATA (R347). -/
  | cData (agent : Agent) (size : BitVec 8) (value : BitVec 64)
  /-- C_LAST (R347). -/
  | cLast (agent : Agent) (size : BitVec 8) (value : BitVec 64)
  /-- C_OUT (R347): a read. -/
  | cOut (agent : Agent) (size : BitVec 8)
  /-- CIPHER_MESSAGE_DONE (R347): whether the two pipes of the pair agree on the message's tag (R339). -/
  | cipherMessageDone (agent : Agent) (agree : Bool)
  /-- D_START (R348). -/
  | dStart (agent : Agent) (size : BitVec 8) (value : BitVec 64)
  /-- D_DATA (R347). -/
  | dData (agent : Agent) (size : BitVec 8) (value : BitVec 64)
  /-- D_LAST (R347). -/
  | dLast (agent : Agent) (size : BitVec 8) (value : BitVec 64)
  /-- DIGEST_DONE (R347). -/
  | digestDone (agent : Agent)
  /-- D_COMPARE (R345): the word written, and the upper word of an 8-byte access. -/
  | dCompare (agent : Agent) (size : BitVec 8) (low high : BitVec 32)
  /-- D_EXPORT (R351). -/
  | dExport (agent : Agent) (size : BitVec 8) (value : BitVec 64)
  /-- D_IMPORT (R351): the word written, the upper word of an 8-byte access, and whether D_BLOB reads back as it was written:
  if not, the unwrap fails. -/
  | dImport (agent : Agent) (size : BitVec 8) (low high : BitVec 32) (intact : Bool)
  /-- PAGE_SUSPEND (R350): the cipher (or digest) message of this page has run its quantum. -/
  | pageSuspend (agent : Agent) (digest : Bool)
  /-- SNAPSHOT_DEADLINE (R361): the logical core with a thread that missed the boundary snapshot. -/
  | snapshotDeadline (core : Fin 20)
  /-- DOCENT_CORE_FAULT (R361): detected on a logical core. -/
  | docentCoreFault (core : Fin 20)
  /-- DOCENT_REPAIR (R361): whether the failed physical core fails the vectors of item 6, and the active core that
  carries the fewest rank 1 to 3 threads, for the case of no spare (R363). -/
  | docentRepair (core : Fin 20) (fails : Bool) (lightest : Fin 20)
  /-- SYNC_READ (R364): from the host, an 8-byte read when `wide`, else a 4-byte read. -/
  | syncRead (who : SyncWho) (word : BitVec 16) (wide : Bool)
  /-- SYNC_WRITE (R364). -/
  | syncWrite (t : Thread) (word : BitVec 16) (data : BitVec 64)
  /-- READ_FF (R364). -/
  | readFf (t : Thread) (word : BitVec 16)
  /-- READ_FE (R364). -/
  | readFe (t : Thread) (word : BitVec 16)
  /-- WRITE_EF (R364). -/
  | writeEf (t : Thread) (word : BitVec 16) (data : BitVec 64)
  /-- WRITE_XF (R364): from a thread, or an 8-byte write of the sync window (Table 14-3). -/
  | writeXf (who : SyncWho) (word : BitVec 16) (data : BitVec 64)
  /-- SET_EMPTY (R364). -/
  | setEmpty (who : SyncWho) (word : BitVec 16)
  /-- SET_FULL (R364). -/
  | setFull (who : SyncWho) (word : BitVec 16)
  /-- FETCH_ADD (R364). -/
  | fetchAdd (t : Thread) (word : BitVec 16) (k : BitVec 64)
  /-- CAS (R364). -/
  | cas (t : Thread) (word : BitVec 16) (a b : BitVec 64)
  /-- TALLY_ADD (R364). -/
  | tallyAdd (t : Thread) (word : BitVec 16) (k : BitVec 64)
  /-- TALLY_SUB (R369). -/
  | tallySub (t : Thread) (word : BitVec 16) (k : BitVec 64)
  /-- SYNC_STATUS (R364): from the host, the 4-byte read at 8w + 4. -/
  | syncStatus (who : SyncWho) (word : BitVec 16)
  /-- CLAIM (R364). -/
  | claim (who : SyncWho) (word : BitVec 16)
  /-- UNCLAIM (R370). -/
  | unclaim (who : SyncWho) (word : BitVec 16)
  /-- WAIT_CANCEL (R372). -/
  | waitCancel (t : Thread)
  /-- SYNC_BAD_CMD (R367): a command write of a value other than 1 to 4. -/
  | syncBadCmd (path : CwPath) (word : BitVec 16) (value : BitVec 32)
  /-- SYNC_WORD_UE (R368). -/
  | syncWordUe (word : BitVec 16)
  /-- SYNC_OWNER_RESET (R373): a dictionary write by an agent. -/
  | syncOwnerReset (agent : Agent) (value : BitVec 8)
  /-- DEADLOCK_SCAN (R375): the threads that neither run nor wait. -/
  | deadlockScan (idle : List Thread)
  /-- CORE_GATE (R377): threads of the core idle for LEND_WAIT_FRAMES boundaries, and whether a thread carries rank 1
  to 3 work. -/
  | coreGate (core : Fin 20) (idle : BitVec 4) (highRank : Bool)
  /-- H2E_DOORBELL (R380): a write of the doorbell, its access size, and whether a word of the snapshot is
  uncorrectable. -/
  | h2eDoorbell (path : CwPath) (ch : Channel) (size : BitVec 8) (value : BitVec 32) (corrupt : Bool)
  /-- H2E_MSG (R381): a write at a byte offset of the message area. -/
  | h2eMsg (path : CwPath) (ch : Channel) (offset : BitVec 8) (size : BitVec 8) (value : BitVec 32)
  /-- MBOX_ACK (R380): firmware writes SEQ and a return code. -/
  | mboxAck (ch : Channel) (seq code : BitVec 16)
  /-- E2H_SEND (R381): firmware's message, if it sends one, and the doorbell bits it rings. -/
  | e2hSend (ch : Channel) (msg : Option Bytes) (bits : BitVec 32)
  /-- E2H_ACK (R381). -/
  | e2hAck (path : CwPath) (ch : Channel) (size : BitVec 8) (value : BitVec 32)
  /-- MBOX_TIMEOUT (R382): of the H2E side, or of the E2H side. -/
  | mboxTimeout (ch : Channel) (e2h : Bool)
  /-- STAGE_A (R389). -/
  | stageA (obs : StageAObs)
  /-- MAIN_POWER_GOOD (R467). -/
  | mainPowerGood
  /-- STAGE_B (R390). -/
  | stageB (obs : StageBObs)
  /-- STAGE_C (R392). -/
  | stageC
  /-- STAGE_C_DEADLINE (R392). -/
  | stageCDeadline
  /-- STAGE_D (R393). -/
  | stageD
  /-- HOLD_RELEASE (R388). -/
  | holdRelease
  /-- MAIN_POWER_LOSS (R394). -/
  | mainPowerLoss
  /-- AON_POWER_LOSS (R468). -/
  | aonPowerLoss
  /-- VBAT_LOW (R386). -/
  | vbatLow
  /-- START_HOLD (R396): a dictionary write by an agent. -/
  | startHold (agent : Agent) (value : BitVec 8)
  /-- ENGINE_ID (R397): a dictionary write by an agent. -/
  | engineId (agent : Agent) (value : BitVec 32)
  /-- PUF_HELPER (R397): a dictionary write by an agent; whether RESPONSE_CHECK matches. -/
  | pufHelper (agent : Agent) (value : Bytes) (matches_ : Bool)
  /-- DOCENT_BUNDLE_LOAD (R390). -/
  | docentBundleLoad (agent : Agent) (bundle : Bundle)
  /-- CURATOR_IMAGE_LOAD (R403). -/
  | curatorImageLoad (agent : Agent) (image : CuratorImage)
  /-- SVN_WRITE (R402): subindex 05 to 08 of 0x1040, and whether the write was authenticated. -/
  | svnWrite (agent : Agent) (sub : BitVec 8) (value : BitVec 32) (authenticated : Bool)
  /-- P_COUNTER_STORE (R400). -/
  | pCounterStore
  /-- FIELD_FRAME (R405): an Ethernet frame received on the field side. -/
  | fieldFrame (dst src : BitVec 48) (etherType : BitVec 16) (payload : Bytes) (fcsOk : Bool)
  /-- F_FRAME (R404): a barrier message received by the Curator: header, payload and CRC outcome. -/
  | fFrame (hdr : BitVec 64) (payload : Bytes) (crcOk : Bool)
  /-- F_STATUS (R406). -/
  | fStatus (hdr : BitVec 64) (payload : Bytes) (crcOk : Bool)
  /-- F_STATUS_TIMEOUT (R406). -/
  | fStatusTimeout
  /-- C_FRAME (R405): a barrier message received by the field side. -/
  | cFrame (hdr : BitVec 64) (payload : Bytes) (crcOk : Bool)
  /-- C_CONFIG (R405). -/
  | cConfig (hdr : BitVec 64) (payload : Bytes) (crcOk : Bool)
  /-- C_HEARTBEAT (R405). -/
  | cHeartbeat (hdr : BitVec 64) (crcOk : Bool)
  /-- HEARTBEAT_LOSS (R405). -/
  | heartbeatLoss
  /-- OD_READ (R420): `busy` when the path's earlier command is still in progress. -/
  | odRead (path : OdPath) (busy : Bool)
  /-- OD_WRITE (R420): with what an action entry's checks find. -/
  | odWrite (path : OdPath) (busy : Bool) (obs : ActionObs)
  /-- OD_CANCEL (R420). -/
  | odCancel (bank : Host2) (busy : Bool)
  /-- OD_WRITE_EFFECT (R414): the pending write of this entry takes effect. -/
  | odWriteEffect (index : BitVec 16) (sub : BitVec 8)
  /-- READ_REQ (R426): a received frame and its TAG. -/
  | readReq (f : PhoazText) (tag : BitVec 256)
  /-- SEG_READ_REQ (R426). -/
  | segReadReq (f : PhoazText) (tag : BitVec 256)
  /-- WRITE_REQ (R427). -/
  | writeReq (f : PhoazText) (tag : BitVec 256) (obs : ActionObs)
  /-- SEG_WRITE_INIT (R427). -/
  | segWriteInit (f : PhoazText) (tag : BitVec 256)
  /-- SEG_WRITE (R427). -/
  | segWrite (f : PhoazText) (tag : BitVec 256) (obs : ActionObs)
  /-- SEG_IDLE_TIMEOUT (R427): of a bank of the OD window, or of Phoaz when none. -/
  | segIdleTimeout (bank : Option Host2)
  /-- PHOAZ_ABORT (R425). -/
  | phoazAbort (f : PhoazFrame)
  /-- EVENT_ACK (R433). -/
  | eventAck (f : PhoazFrame)
  /-- EVENT_RETRY (R433). -/
  | eventRetry
  /-- TIME_SYNC (R432). -/
  | timeSync (f : PhoazFrame)
  /-- TIME_FOLLOW (R432). -/
  | timeFollow (f : PhoazText) (tag : BitVec 256)
  /-- DISCOVER (R434). -/
  | discover (f : PhoazFrame)
  /-- DISCOVER_RSP (R434). -/
  | discoverRsp
  /-- SCORE_HALVING (R445). -/
  | scoreHalving
  /-- PIN_END (R447): the pinned part of this class has run its frames. -/
  | pinEnd (part : BitVec 16)
  /-- PREDICTIVE_RETIRE (R448). -/
  | predictiveRetire (part : BitVec 16)
  /-- BUNDLE_STAGE (R452). -/
  | bundleStage (agent : Agent) (bundle : Bundle)
  /-- BUNDLE_ACTIVATE (R453). -/
  | bundleActivate (agent : Agent) (value : BitVec 32)
  /-- BUNDLE_SWITCH (R453). -/
  | bundleSwitch
  /-- ACTIVATE_WAIT_TIMEOUT (R453). -/
  | activateWaitTimeout
  /-- BUNDLE_TRIAL_FAIL (R455): `missed` when the image missed its health word at 3 boundaries. -/
  | bundleTrialFail (missed : Bool)
  /-- BUNDLE_COMMIT (R455). -/
  | bundleCommit (agent : Agent) (value : BitVec 8)
  /-- TRIAL_END (R455). -/
  | trialEnd
  /-- CURATOR_ACTIVATE (R456). -/
  | curatorActivate (agent : Agent) (value : BitVec 8)
  /-- CURATOR_RESTART (R456). -/
  | curatorRestart
  /-- CURATOR_TRIAL_FAIL (R456). -/
  | curatorTrialFail
  /-- CURATOR_COMMIT (R456). -/
  | curatorCommit (agent : Agent) (value : BitVec 8)
  /-- IV_EPOCH_REDRAW (R464). -/
  | ivEpochRedraw
  /-- DIE_THERMAL_CLASS (R476): a sensor reading of an own part, in °C. -/
  | dieThermalClass (part : ThermalPart) (celsius : Int)
  /-- THERMAL_SHUTDOWN (R476). -/
  | thermalShutdown (part : ThermalPart) (celsius : Int)
  /-- THERMAL_RESTART (R476): the part's reading, and whether VIN_MAIN is in its window. -/
  | thermalRestart (part : ThermalPart) (celsius : Int) (vinMain : Bool)
  /-- TAP_INSTRUCTION (R474). -/
  | tapInstruction (i : TapInstr)
  /-- MGMT_MESSAGE (R313): an opaque firmware transfer received on VC5. -/
  | mgmtMessage (port : Port) (source : BitVec 32) (payload : Bytes)
  /-- CW_RD (R59): a control-window read. -/
  | cwRd (path : CwPath) (offset : BitVec 24) (size : BitVec 8) (tag : BitVec 16)
  /-- PODL_POWER_UP (R478). -/
  | podlPowerUp
  /-- PODL_POWER_LOSS (R478). -/
  | podlPowerLoss
  deriving DecidableEq, Repr

end Sys2Proof
end

