-- ==== Sys2Proof/Config.lean ====
section
/-!
DEFINITION. What an implementation fixes and what the spec leaves open, as constants with no body: nothing proved of the
machine can rest on a value of one of them. Cryptographic functions (chapter 13) are named here because their values are
given by other standards; the machine only moves their results.
-/
namespace Sys2Proof

/-- Free values: the n-th value the spec leaves open (log entry 4). -/
opaque Config.freeNat : Nat → Nat

/-- Chaining state of a digest before its first block, by ALG (0 SHA-384, 1 SHA3-256, 2 HMAC-SHA-384, 3 KMAC256) and key
(R344, R351). -/
opaque Config.hashStart : Nat → Nat → Nat

/-- Chaining state after one more whole block, by ALG and state before (R351). -/
opaque Config.hashBlock : Nat → Nat → Bytes → Nat

/-- Result of a digest, by ALG, key, chaining state, message length and the bytes after the last whole block (R344). -/
opaque Config.hashEnd : Nat → Nat → Nat → Nat → Bytes → Nat

/-- Outer state of HMAC under a key, 64 bytes (R351). -/
opaque Config.hmacOuter : Nat → Nat

/-- Block of a digest algorithm in bytes (R350). -/
def digestBlock (alg : Nat) : Nat := if alg == 0 || alg == 2 then 128 else 136

/-- The chaining state after the whole blocks of a byte string, and the bytes left over; the number bounds the blocks. -/
def hashBlocks (alg state : Nat) : Nat → Bytes → Nat × Bytes
  | 0, bs => (state, bs)
  | n + 1, bs =>
    let b := bs.take (digestBlock alg)
    if b.length < digestBlock alg then (state, bs)
    else hashBlocks alg (Config.hashBlock alg state b) n (bs.drop (digestBlock alg))

/-- A digest that goes on from a chaining state with `before` bytes behind it. -/
def hashFrom (alg key state before : Nat) (bs : Bytes) : Nat :=
  let (st, rest) := hashBlocks alg state (bs.length / digestBlock alg) bs
  Config.hashEnd alg key st (before + bs.length) rest

/-- A digest of a whole byte string. -/
def hashOf (alg key : Nat) (bs : Bytes) : Nat := hashFrom alg key (Config.hashStart alg key) 0 bs

/-- SHA3-256 of a byte string, 256 bits (FIPS 202; R344). -/
def Config.sha3 (bs : Bytes) : Nat := hashOf 1 0 bs

/-- KMAC256 under a key, of a customisation string and a byte string, 256 bits (R344). The strings are numbered: 1
"IG8 weld auth" (R209), 2 "IG8 phoaz" (R429). -/
opaque Config.kmac : Nat → Nat → Bytes → Nat

/-- The key that the KDF derives from a parent key, a label and a context (R324). -/
opaque Config.kdf : Nat → Bytes → Bytes → Nat

/-- The key that AES-KW recovers from an intact blob under a key-encryption key (R331). -/
opaque Config.unwrap : Nat → Bytes → Nat

/-- AES-256-GCM keystream byte under a key and IV, by position (R346): the XOR of text and keystream encrypts and
decrypts. -/
opaque Config.gcmStream : Nat → Nat → Nat → Byte

/-- AES-256-GCM tag under a key and IV over associated data and text, 128 bits. -/
opaque Config.gcmTag : Nat → Nat → Bytes → Bytes → Nat

/-- The random bit generator's n-th 64-bit draw (R338). -/
opaque Config.drbg : Nat → Nat

/-- What AES-KW does under each key to the check value and the text behind it: it permutes the strings of each length. -/
structure KeyWrap where
  wrap   : Nat → Bytes → Bytes
  unwrap : Nat → Bytes → Bytes
  unwrap_wrap : ∀ k x, unwrap k (wrap k x) = x
  wrap_unwrap : ∀ k x, wrap k (unwrap k x) = x
  length_wrap : ∀ k x, (wrap k x).length = x.length

/-- The permutation, which nothing says more of (R351); the argument says no more than that there is one. -/
opaque Config.keyWrap [Inhabited KeyWrap] : KeyWrap

/-- A permutation there is. -/
def KeyWrap.identity : KeyWrap :=
  { wrap := fun _ x => x, unwrap := fun _ x => x, unwrap_wrap := fun _ _ => rfl, wrap_unwrap := fun _ _ => rfl,
    length_wrap := fun _ _ => rfl }

/-- The check value that AES-KW puts before the text. -/
def keyWrapCheck : Bytes := List.replicate 8 0xA6

/-- AES-KW of the state of a digest under a key (R351). -/
def Config.wrapState (key : Nat) (text : Bytes) : Bytes :=
  (@Config.keyWrap ⟨KeyWrap.identity⟩).wrap key (keyWrapCheck ++ text)

/-- What a wrapped state of a digest unwraps to under a key; none when its integrity check fails (R351). -/
def Config.unwrapState (key : Nat) (blob : Bytes) : Option Bytes :=
  let text := (@Config.keyWrap ⟨KeyWrap.identity⟩).unwrap key blob
  if text.take 8 == keyWrapCheck then some (text.drop 8) else none

/-- What was wrapped under a key unwraps under it. -/
theorem Config.unwrapState_wrapState (key : Nat) (text : Bytes) :
    Config.unwrapState key (Config.wrapState key text) = some text := by
  simp [Config.unwrapState, Config.wrapState, KeyWrap.unwrap_wrap, keyWrapCheck]

/-- A wrapped text is longer by the check value. -/
theorem Config.length_wrapState (key : Nat) (text : Bytes) : (Config.wrapState key text).length = text.length + 8 := by
  rw [Config.wrapState, KeyWrap.length_wrap, List.length_append, Nat.add_comm]; rfl

/-- The die's PUF response as a helper data corrects it (R389). -/
opaque Config.response : Bytes → Bytes

/-- The device-unique key that a helper data gives, 256 bits (R389). -/
opaque Config.deviceKey : Bytes → Nat

/-- Helper data of the n-th enrolment, 2,048 bytes (R397). -/
opaque Config.helper : Nat → Bytes

/-- HW_REVISION of the die (R60: counted from 1). -/
opaque Config.hwRevision : Nat

/-- Check bits of a Gallery word, bits [38:32] of its SECDED(39,32) codeword (R192: the spec gives no check matrix). -/
opaque Config.checkBits : BitVec 32 → BitVec 7

/-- Security-version floors of the boot ROM: Curator, Docent, kernel, bundle (R402). -/
opaque Config.svnFloor : Nat → Nat

/-- CURATOR_FW of the ROM image (R403). -/
opaque Config.romFw : Nat

/-- Mailbox service table of the Docent boot ROM (R390). -/
opaque Config.romServices : Bytes

/-- The frequency in ppb at which the engine slews, by correction left and frame (R25 fixes only its limits). -/
opaque Config.slewPpb : Int → Nat → Nat

end Sys2Proof
end

