-- ==== Sys2Proof/Machine/OdTable.lean ====
section
/-!
DEFINITION. The object dictionary: a reference for every entry of the chapters' entry tables (key, width, default) and
the table of their types, rights, legal ranges, persistence and effect classes (R408 to R418, Table 16-12). A key is
index × 256 + subindex. Values are held as unsigned numbers: an I32 as its two's complement, a DOMAIN as its bytes read
little-endian.
-/
namespace Sys2Proof.Machine

/-- A dictionary entry: its key, its width in bits (0 for a DOMAIN or STRING) and its default. -/
structure OdRef where
  key   : Nat
  width : Nat
  dflt  : Nat
  deriving DecidableEq, Repr

/-- Entry types (Table 16-1). -/
inductive OdType
  | bool | u8 | u16 | u32 | u64 | i32 | domain | string
  deriving DecidableEq, Repr

/-- Access codes of the entry tables (R411). -/
inductive OdAccess
  | ro | const | rw | rwHostS | rwField | rwCurator
  /-- MBOX_CLASS: RW; channels 8 to 15 HOST_S only. -/
  | rwChannel
  | woField | woHostS | woHostSField | woHosts | woHostSDocent
  deriving DecidableEq, Repr

/-- Effect classes (R414 to R416). -/
inductive OdEffect
  | none | live | step | stopped
  deriving DecidableEq, Repr

/-- A row of an entry table: its first entry, how many indices and subindices it runs over, type, access, legal range,
persistence (P) and effect class. -/
structure OdRow where
  ref     : OdRef
  indices : Nat
  subs    : Nat
  type    : OdType
  access  : OdAccess
  legal   : Option (Int × Int)
  persist : Bool
  effect  : OdEffect
  deriving DecidableEq, Repr

/-- FRAME_NO, 2000.01; 02 R50. -/
def Od.frameNo : OdRef := ⟨0x200001, 32, 0⟩
/-- FRAME_EXT, 2000.02; 02 R50. -/
def Od.frameExt : OdRef := ⟨0x200002, 64, 0⟩
/-- TIME_NS, 2000.03; 02 R50. -/
def Od.timeNs : OdRef := ⟨0x200003, 64, 0⟩
/-- TIME_EPOCH, 2000.04; 02 R50. -/
def Od.timeEpoch : OdRef := ⟨0x200004, 16, 0⟩
/-- TIME_STATE, 2000.05; 02 R50. -/
def Od.timeState : OdRef := ⟨0x200005, 8, 0⟩
/-- JOB_OPEN, 2000.06; 02 R50. -/
def Od.jobOpen : OdRef := ⟨0x200006, 8, 0⟩
/-- PTP_DOMAIN, 2010.01; 02 R50. -/
def Od.ptpDomain : OdRef := ⟨0x201001, 8, 0⟩
/-- PRIORITY1, 2010.02; 02 R50. -/
def Od.priority1 : OdRef := ⟨0x201002, 8, 128⟩
/-- PRIORITY2, 2010.03; 02 R50. -/
def Od.priority2 : OdRef := ⟨0x201003, 8, 128⟩
/-- GM_CAPABLE, 2010.04; 02 R50. -/
def Od.gmCapable : OdRef := ⟨0x201004, 8, 1⟩
/-- PORT_ENABLE, 2010.05; 02 R50. -/
def Od.portEnable : OdRef := ⟨0x201005, 8, 15⟩
/-- LOG_SYNC_INTERVAL, 2010.06; 02 R50. -/
def Od.logSyncInterval : OdRef := ⟨0x201006, 32, 4294967289⟩
/-- LOG_ANNOUNCE_INTERVAL, 2010.07; 02 R50. -/
def Od.logAnnounceInterval : OdRef := ⟨0x201007, 32, 0⟩
/-- ANNOUNCE_TIMEOUT, 2010.08; 02 R50. -/
def Od.announceTimeout : OdRef := ⟨0x201008, 8, 3⟩
/-- LOG_PDELAY_INTERVAL, 2010.09; 02 R50. -/
def Od.logPdelayInterval : OdRef := ⟨0x201009, 32, 4294967292⟩
/-- PORT_ASYMMETRY_PS, element `j` of 2011.01 and the subindices after it; 02 R50. -/
def Od.portAsymmetryPs (j : Nat) : OdRef := ⟨0x201101 + j, 32, 0⟩
/-- PEER_DELAY_PS, element `j` of 2012.01 and the subindices after it; 02 R50. -/
def Od.peerDelayPs (j : Nat) : OdRef := ⟨0x201201 + j, 32, 0⟩
/-- TRIM_TABLE, 2020.01; 02 R50. -/
def Od.trimTable : OdRef := ⟨0x202001, 0, 0⟩
/-- TRIM_VALID, 2020.02; 02 R50. -/
def Od.trimValid : OdRef := ⟨0x202002, 8, 0⟩
/-- FREQ_OFFSET_PPB, 2020.03; 02 R50. -/
def Od.freqOffsetPpb : OdRef := ⟨0x202003, 32, 0⟩
/-- HOLDOVER_ALIGN_FRAMES, 2020.04; 02 R50. -/
def Od.holdoverAlignFrames : OdRef := ⟨0x202004, 16, 1500⟩
/-- SLEW_LIMIT_PPB, 2020.05; 02 R50. -/
def Od.slewLimitPpb : OdRef := ⟨0x202005, 32, 10000⟩
/-- LOCK_THRESHOLD_PS, 2020.06; 02 R50. -/
def Od.lockThresholdPs : OdRef := ⟨0x202006, 32, 5000⟩
/-- REF_OUT_ENABLE, 2030.01; 02 R50. -/
def Od.refOutEnable : OdRef := ⟨0x203001, 8, 1⟩
/-- TICK_OUT_ENABLE, 2030.02; 02 R50. -/
def Od.tickOutEnable : OdRef := ⟨0x203002, 8, 1⟩
/-- TICK_OUT_ADVANCE_PS, 2030.03; 02 R50. -/
def Od.tickOutAdvancePs : OdRef := ⟨0x203003, 32, 0⟩
/-- PPS_ENABLE, 2030.04; 02 R50. -/
def Od.ppsEnable : OdRef := ⟨0x203004, 8, 1⟩
/-- PPS_WIDTH_FRAMES, 2030.05; 02 R50. -/
def Od.ppsWidthFrames : OdRef := ⟨0x203005, 16, 1⟩
/-- SLICE_RETRY_LIMIT, 2040.01; 02 R50. -/
def Od.sliceRetryLimit : OdRef := ⟨0x204001, 8, 8⟩
/-- SLICE_ROLLBACK_COUNT, 2040.02; 02 R50. -/
def Od.sliceRollbackCount : OdRef := ⟨0x204002, 64, 0⟩
/-- SLICE_TRUNCATE_COUNT, 2040.03; 02 R50. -/
def Od.sliceTruncateCount : OdRef := ⟨0x204003, 64, 0⟩
/-- FAULT_BUDGET_OVERRUN_COUNT, 2040.04; 02 R50. -/
def Od.faultBudgetOverrunCount : OdRef := ⟨0x204004, 32, 0⟩
/-- STEP_REFUSED_COUNT, 2040.05; 02 R50. -/
def Od.stepRefusedCount : OdRef := ⟨0x204005, 32, 0⟩
/-- HOLDOVER_ENTRY_COUNT, 2040.06; 02 R50. -/
def Od.holdoverEntryCount : OdRef := ⟨0x204006, 32, 0⟩
/-- D2D_MODULES_ACTIVE, 3000.01; 03 R72. -/
def Od.d2dModulesActive : OdRef := ⟨0x300001, 8, 16⟩
/-- D2D_LANE_REPAIR_COUNT, 3000.02; 03 R72. -/
def Od.d2dLaneRepairCount : OdRef := ⟨0x300002, 32, 0⟩
/-- D2D_MODULE_RETIRED_MASK, 3000.03; 03 R72. -/
def Od.d2dModuleRetiredMask : OdRef := ⟨0x300003, 16, 0⟩
/-- D2D_ADAPTER_RETRY_COUNT, 3000.04; 03 R72. -/
def Od.d2dAdapterRetryCount : OdRef := ⟨0x300004, 64, 0⟩
/-- MEM_SHARE_READ_BPF, 3010.01; 03 R72. -/
def Od.memShareReadBpf : OdRef := ⟨0x301001, 32, 400000000⟩
/-- MEM_SHARE_WRITE_BPF, 3010.02; 03 R72. -/
def Od.memShareWriteBpf : OdRef := ⟨0x301002, 32, 400000000⟩
/-- CARRIER_GRANT_PCT, 3010.03; 03 R72. -/
def Od.carrierGrantPct : OdRef := ⟨0x301003, 8, 100⟩
/-- EFFECTIVE_SHARE_READ_BPF, 3010.04; 03 R72. -/
def Od.effectiveShareReadBpf : OdRef := ⟨0x301004, 32, 400000000⟩
/-- EFFECTIVE_SHARE_WRITE_BPF, 3010.05; 03 R72. -/
def Od.effectiveShareWriteBpf : OdRef := ⟨0x301005, 32, 400000000⟩
/-- THROTTLE_WARM_BULK_PCT, 3020.01; 03 R72. -/
def Od.throttleWarmBulkPct : OdRef := ⟨0x302001, 8, 50⟩
/-- THROTTLE_HOT_PCT, 3020.02; 03 R72. -/
def Od.throttleHotPct : OdRef := ⟨0x302002, 8, 50⟩
/-- THROTTLE_CRIT_PCT, 3020.03; 03 R72. -/
def Od.throttleCritPct : OdRef := ⟨0x302003, 8, 10⟩
/-- THERM_STALE_FRAMES, 3020.04; 03 R72. -/
def Od.thermStaleFrames : OdRef := ⟨0x302004, 32, 20000⟩
/-- STACK_CLASS, 3020.05; 03 R72. -/
def Od.stackClass : OdRef := ⟨0x302005, 64, 0⟩
/-- THERM_HOT_COUNT, 3020.06; 03 R72. -/
def Od.thermHotCount : OdRef := ⟨0x302006, 32, 0⟩
/-- THERM_STALE_COUNT, 3020.07; 03 R72. -/
def Od.thermStaleCount : OdRef := ⟨0x302007, 32, 0⟩
/-- THERMAL_GRACE_SENT_COUNT, 3020.08; 03 R72. -/
def Od.thermalGraceSentCount : OdRef := ⟨0x302008, 32, 0⟩
/-- STACK_COUNT, 3020.09; 03 R72. -/
def Od.stackCount : OdRef := ⟨0x302009, 8, 32⟩
/-- XLAT_WAIT_LIMIT_FRAMES, 3030.01; 03 R72. -/
def Od.xlatWaitLimitFrames : OdRef := ⟨0x303001, 32, 1000⟩
/-- XLAT_FAULT_COUNT, 3030.02; 03 R72. -/
def Od.xlatFaultCount : OdRef := ⟨0x303002, 64, 0⟩
/-- MEM_POISON_COUNT, 3030.03; 03 R72. -/
def Od.memPoisonCount : OdRef := ⟨0x303003, 32, 0⟩
/-- MEM_DENIED_COUNT, 3030.04; 03 R72. -/
def Od.memDeniedCount : OdRef := ⟨0x303004, 32, 0⟩
/-- D2D_MALFORMED_COUNT, 3030.05; 03 R72. -/
def Od.d2dMalformedCount : OdRef := ⟨0x303005, 32, 0⟩
/-- D2D_CPL_TIMEOUT_FRAMES, 3030.06; 03 R72. -/
def Od.d2dCplTimeoutFrames : OdRef := ⟨0x303006, 8, 2⟩
/-- D2D_CPL_TIMEOUT_COUNT, 3030.07; 03 R72. -/
def Od.d2dCplTimeoutCount : OdRef := ⟨0x303007, 32, 0⟩
/-- CW_DENIED_COUNT, 3030.08; 03 R72. -/
def Od.cwDeniedCount : OdRef := ⟨0x303008, 32, 0⟩
/-- HOLDING_COUNT, 3040.01; 03 R72. -/
def Od.holdingCount : OdRef := ⟨0x304001, 16, 0⟩
/-- OWN_STATE_BYTES, 3040.02; 03 R72. -/
def Od.ownStateBytes : OdRef := ⟨0x304002, 64, 0⟩
/-- MIRROR_BYTES, 3040.03; 03 R72. -/
def Od.mirrorBytes : OdRef := ⟨0x304003, 64, 0⟩
/-- HOLDING_SELECT, 3040.04; 03 R72. -/
def Od.holdingSelect : OdRef := ⟨0x304004, 16, 0⟩
/-- HOLDING_DESC, 3040.05; 03 R72. -/
def Od.holdingDesc : OdRef := ⟨0x304005, 0, 0⟩
/-- EXTENT_UPDATE, 3040.06; 03 R72. -/
def Od.extentUpdate : OdRef := ⟨0x304006, 0, 0⟩
/-- QP_CREATE, 3050.01; 04 R105. -/
def Od.qpCreate : OdRef := ⟨0x305001, 0, 0⟩
/-- QP_DESTROY, 3050.02; 04 R105. -/
def Od.qpDestroy : OdRef := ⟨0x305002, 8, 0⟩
/-- QP_ENABLED_MASK, 3050.03; 04 R105. -/
def Od.qpEnabledMask : OdRef := ⟨0x305003, 64, 0⟩
/-- TASKS_PENDING, 3050.04; 04 R105. -/
def Od.tasksPending : OdRef := ⟨0x305004, 32, 0⟩
/-- URGENT_SHARE_PCT, 3050.05; 04 R105. -/
def Od.urgentSharePct : OdRef := ⟨0x305005, 8, 75⟩
/-- OUTBOUND_HIT_COUNT, 3050.06; 04 R105. -/
def Od.outboundHitCount : OdRef := ⟨0x305006, 64, 0⟩
/-- LENGTH_MISMATCH_COUNT, 3050.07; 04 R105. -/
def Od.lengthMismatchCount : OdRef := ⟨0x305007, 32, 0⟩
/-- MALFORMED_TASK_COUNT, 3050.08; 04 R105. -/
def Od.malformedTaskCount : OdRef := ⟨0x305008, 32, 0⟩
/-- DOORBELL_BAD_COUNT, 3050.09; 04 R105. -/
def Od.doorbellBadCount : OdRef := ⟨0x305009, 32, 0⟩
/-- CANCEL_COUNT, 3050.0A; 04 R105. -/
def Od.cancelCount : OdRef := ⟨0x30500A, 32, 0⟩
/-- JOBS_OPEN, 3050.0B; 04 R105. -/
def Od.jobsOpen : OdRef := ⟨0x30500B, 8, 0⟩
/-- QP_FETCH_ERR_COUNT, 3050.0C; 04 R105. -/
def Od.qpFetchErrCount : OdRef := ⟨0x30500C, 32, 0⟩
/-- POWER_STATE, A000.01; 04 R105. -/
def Od.powerState : OdRef := ⟨0xA00001, 8, 0⟩
/-- POWER_STATE_LIMIT, A000.02; 04 R105. -/
def Od.powerStateLimit : OdRef := ⟨0xA00002, 8, 3⟩
/-- E1_IDLE_FRAMES, A000.03; 04 R105. -/
def Od.e1IdleFrames : OdRef := ⟨0xA00003, 32, 10⟩
/-- E2_IDLE_FRAMES, A000.04; 04 R105. -/
def Od.e2IdleFrames : OdRef := ⟨0xA00004, 32, 10000⟩
/-- E3_IDLE_FRAMES, A000.05; 04 R105. -/
def Od.e3IdleFrames : OdRef := ⟨0xA00005, 32, 600000⟩
/-- E1_EXIT_NS, A000.06; 04 R105. -/
def Od.e1ExitNs : OdRef := ⟨0xA00006, 32, 2000⟩
/-- E2_EXIT_US, A000.07; 04 R105. -/
def Od.e2ExitUs : OdRef := ⟨0xA00007, 32, 400⟩
/-- E3_EXIT_MS, A000.08; 04 R105. -/
def Od.e3ExitMs : OdRef := ⟨0xA00008, 32, 1500⟩
/-- E1_ENTRY_COUNT, A000.09; 04 R105. -/
def Od.e1EntryCount : OdRef := ⟨0xA00009, 32, 0⟩
/-- E2_ENTRY_COUNT, A000.0A; 04 R105. -/
def Od.e2EntryCount : OdRef := ⟨0xA0000A, 32, 0⟩
/-- E3_ENTRY_COUNT, A000.0B; 04 R105. -/
def Od.e3EntryCount : OdRef := ⟨0xA0000B, 32, 0⟩
/-- SELFTEST_LAST_RESULT, 9010.01; 04 R105. -/
def Od.selftestLastResult : OdRef := ⟨0x901001, 64, 0⟩
/-- SELFTEST_PROGRESS, 9010.02; 04 R105. -/
def Od.selftestProgress : OdRef := ⟨0x901002, 8, 0⟩
/-- SELFTEST_FAIL_COUNT, 9010.03; 04 R105. -/
def Od.selftestFailCount : OdRef := ⟨0x901003, 32, 0⟩
/-- KERNEL_IMAGE_ID, 4000.01; 05 R133. -/
def Od.kernelImageId : OdRef := ⟨0x400001, 32, 0⟩
/-- KVER_ADAMW, 4000.02; 05 R133. -/
def Od.kverAdamw : OdRef := ⟨0x400002, 16, 0⟩
/-- KVER_LION, 4000.03; 05 R133. -/
def Od.kverLion : OdRef := ⟨0x400003, 16, 0⟩
/-- KVER_SGDM, 4000.04; 05 R133. -/
def Od.kverSgdm : OdRef := ⟨0x400004, 16, 0⟩
/-- KVER_ADAFACTOR, 4000.05; 05 R133. -/
def Od.kverAdafactor : OdRef := ⟨0x400005, 16, 0⟩
/-- STREAM_CREDITS, 4010.01; 05 R133. -/
def Od.streamCredits : OdRef := ⟨0x401001, 16, 1024⟩
/-- STREAM_CREDITS_FREE, 4010.02; 05 R133. -/
def Od.streamCreditsFree : OdRef := ⟨0x401002, 16, 1024⟩
/-- CREDIT_STALL_CYCLES, 4010.03; 05 R133. -/
def Od.creditStallCycles : OdRef := ⟨0x401003, 64, 0⟩
/-- STARVED_CYCLES, 4010.04; 05 R133. -/
def Od.starvedCycles : OdRef := ⟨0x401004, 64, 0⟩
/-- WRITE_LATE_COUNT, 4010.05; 05 R133. -/
def Od.writeLateCount : OdRef := ⟨0x401005, 32, 0⟩
/-- LANE_MAP, 4020.01; 05 R133. -/
def Od.laneMap : OdRef := ⟨0x402001, 0, 0⟩
/-- LANES_ACTIVE, 4020.02; 05 R133. -/
def Od.lanesActive : OdRef := ⟨0x402002, 8, 128⟩
/-- SPARE_LANES_LEFT, 4020.03; 05 R133. -/
def Od.spareLanesLeft : OdRef := ⟨0x402003, 8, 4⟩
/-- SHADOW_COVERAGE, 4020.04; 05 R133. -/
def Od.shadowCoverage : OdRef := ⟨0x402004, 8, 2⟩
/-- SHADOW_CHECK_COUNT, 4020.05; 05 R133. -/
def Od.shadowCheckCount : OdRef := ⟨0x402005, 64, 0⟩
/-- SHADOW_MISMATCH_COUNT, 4020.06; 05 R133. -/
def Od.shadowMismatchCount : OdRef := ⟨0x402006, 32, 0⟩
/-- LANE_TRANSIENT_COUNT, 4020.07; 05 R133. -/
def Od.laneTransientCount : OdRef := ⟨0x402007, 32, 0⟩
/-- LANE_RETIRE_COUNT, 4020.08; 05 R133. -/
def Od.laneRetireCount : OdRef := ⟨0x402008, 32, 0⟩
/-- NONFINITE_COUNT, 4030.01; 05 R133. -/
def Od.nonfiniteCount : OdRef := ⟨0x403001, 64, 0⟩
/-- FP8_SATURATE_COUNT, 4030.02; 05 R133. -/
def Od.fp8SaturateCount : OdRef := ⟨0x403002, 64, 0⟩
/-- ELEMENTS_UPDATED, 4030.03; 05 R133. -/
def Od.elementsUpdated : OdRef := ⟨0x403003, 64, 0⟩
/-- ELEMENTS_APPLIED, 4030.04; 05 R133. -/
def Od.elementsApplied : OdRef := ⟨0x403004, 64, 0⟩
/-- WOAD_LEVEL, 4040.01; 06 R161. -/
def Od.woadLevel : OdRef := ⟨0x404001, 16, 0⟩
/-- FACTOR_CACHE_BYTES, 4040.02; 06 R161. -/
def Od.factorCacheBytes : OdRef := ⟨0x404002, 32, 16777216⟩
/-- FACTOR_CACHE_FREE, 4040.03; 06 R161. -/
def Od.factorCacheFree : OdRef := ⟨0x404003, 32, 16777216⟩
/-- FACTOR_CACHE_WAIT_FRAMES, 4040.04; 06 R161. -/
def Od.factorCacheWaitFrames : OdRef := ⟨0x404004, 64, 0⟩
/-- FACTOR_CACHE_EVICT_COUNT, 4040.05; 06 R161. -/
def Od.factorCacheEvictCount : OdRef := ⟨0x404005, 32, 0⟩
/-- FACTOR_CACHE_UE_COUNT, 4040.06; 06 R161. -/
def Od.factorCacheUeCount : OdRef := ⟨0x404006, 32, 0⟩
/-- ARRAY_ROWS_ACTIVE, 4040.07; 06 R161. -/
def Od.arrayRowsActive : OdRef := ⟨0x404007, 8, 128⟩
/-- ARRAY_COLS_ACTIVE, 4040.08; 06 R161. -/
def Od.arrayColsActive : OdRef := ⟨0x404008, 8, 128⟩
/-- ARRAY_MAP, 4040.09; 06 R161. -/
def Od.arrayMap : OdRef := ⟨0x404009, 0, 0⟩
/-- ARRAY_RESIDUE_ERR_COUNT, 4040.0A; 06 R161. -/
def Od.arrayResidueErrCount : OdRef := ⟨0x40400A, 32, 0⟩
/-- ARRAY_SHADOW_MISMATCH_COUNT, 4040.0B; 06 R161. -/
def Od.arrayShadowMismatchCount : OdRef := ⟨0x40400B, 32, 0⟩
/-- ARRAY_RETIRE_COUNT, 4040.0C; 06 R161. -/
def Od.arrayRetireCount : OdRef := ⟨0x40400C, 32, 0⟩
/-- WOAD_DEGENERATE_COUNT, 4040.0D; 06 R161. -/
def Od.woadDegenerateCount : OdRef := ⟨0x40400D, 32, 0⟩
/-- EF_GAP_COUNT, 4040.0E; 06 R161. -/
def Od.efGapCount : OdRef := ⟨0x40400E, 32, 0⟩
/-- FACTOR_PACKET_BAD_COUNT, 4040.0F; 06 R161. -/
def Od.factorPacketBadCount : OdRef := ⟨0x40400F, 32, 0⟩
/-- WOAD_ELEMENTS_COMPRESSED, 4040.10; 06 R161. -/
def Od.woadElementsCompressed : OdRef := ⟨0x404010, 64, 0⟩
/-- WOAD_ELEMENTS_EXPANDED, 4040.11; 06 R161. -/
def Od.woadElementsExpanded : OdRef := ⟨0x404011, 64, 0⟩
/-- MADDER_ENABLE, 4050.01; 07 R184. -/
def Od.madderEnable : OdRef := ⟨0x405001, 8, 1⟩
/-- MADDER_GEN_LOAD, 4050.02; 07 R184. -/
def Od.madderGenLoad : OdRef := ⟨0x405002, 0, 0⟩
/-- MADDER_GEN_RECALL, 4050.03; 07 R184. -/
def Od.madderGenRecall : OdRef := ⟨0x405003, 0, 0⟩
/-- GEN_CURRENT_ID, 4050.04; 07 R184. -/
def Od.genCurrentId : OdRef := ⟨0x405004, 16, 0⟩
/-- GEN_PREVIOUS_ID, 4050.05; 07 R184. -/
def Od.genPreviousId : OdRef := ⟨0x405005, 16, 0⟩
/-- GEN_READ_SELECT, 4050.06; 07 R184. -/
def Od.genReadSelect : OdRef := ⟨0x405006, 8, 0⟩
/-- GEN_IMAGE, 4050.07; 07 R184. -/
def Od.genImage : OdRef := ⟨0x405007, 0, 0⟩
/-- HIST_SELECT, 4050.08; 07 R184. -/
def Od.histSelect : OdRef := ⟨0x405008, 8, 0⟩
/-- HIST, 4050.09; 07 R184. -/
def Od.hist : OdRef := ⟨0x405009, 0, 0⟩
/-- ENC_LANES_ACTIVE, 4050.0A; 07 R184. -/
def Od.encLanesActive : OdRef := ⟨0x40500A, 8, 64⟩
/-- DEC_LANES_ACTIVE, 4050.0B; 07 R184. -/
def Od.decLanesActive : OdRef := ⟨0x40500B, 8, 64⟩
/-- ENC_LANE_MAP, 4050.0C; 07 R184. -/
def Od.encLaneMap : OdRef := ⟨0x40500C, 0, 0⟩
/-- DEC_LANE_MAP, 4050.0D; 07 R184. -/
def Od.decLaneMap : OdRef := ⟨0x40500D, 0, 0⟩
/-- VERIFY_COVERAGE, 4050.0E; 07 R184. -/
def Od.verifyCoverage : OdRef := ⟨0x40500E, 8, 1⟩
/-- BLOCKS_CODED, 4051.01; 07 R184. -/
def Od.blocksCoded : OdRef := ⟨0x405101, 64, 0⟩
/-- BLOCKS_ESCAPED, 4051.02; 07 R184. -/
def Od.blocksEscaped : OdRef := ⟨0x405102, 64, 0⟩
/-- RAW_BYTES_IN, 4051.03; 07 R184. -/
def Od.rawBytesIn : OdRef := ⟨0x405103, 64, 0⟩
/-- CODED_BYTES_OUT, 4051.04; 07 R184. -/
def Od.codedBytesOut : OdRef := ⟨0x405104, 64, 0⟩
/-- VERIFY_MISMATCH_COUNT, 4051.05; 07 R184. -/
def Od.verifyMismatchCount : OdRef := ⟨0x405105, 32, 0⟩
/-- DECODE_ERR_COUNT, 4051.06; 07 R184. -/
def Od.decodeErrCount : OdRef := ⟨0x405106, 32, 0⟩
/-- DECODE_RETRY_OK_COUNT, 4051.07; 07 R184. -/
def Od.decodeRetryOkCount : OdRef := ⟨0x405107, 32, 0⟩
/-- GEN_ABSENT_COUNT, 4051.08; 07 R184. -/
def Od.genAbsentCount : OdRef := ⟨0x405108, 32, 0⟩
/-- GEN_LOAD_COUNT, 4051.09; 07 R184. -/
def Od.genLoadCount : OdRef := ⟨0x405109, 32, 0⟩
/-- CODER_LANE_RETIRE_COUNT, 4051.0A; 07 R184. -/
def Od.coderLaneRetireCount : OdRef := ⟨0x40510A, 32, 0⟩
/-- MALFORMED_LEAF_COUNT, 4051.0B; 07 R184. -/
def Od.malformedLeafCount : OdRef := ⟨0x40510B, 32, 0⟩
/-- GEN_REFUSED_COUNT, 4051.0C; 07 R184. -/
def Od.genRefusedCount : OdRef := ⟨0x40510C, 32, 0⟩
/-- BLOCK_STORE_UE_COUNT, 4051.0D; 07 R184. -/
def Od.blockStoreUeCount : OdRef := ⟨0x40510D, 32, 0⟩
/-- GALLERY_BYTES, 4060.01; 08 R203. -/
def Od.galleryBytes : OdRef := ⟨0x406001, 64, 34359738368⟩
/-- STATS_LEAVES, 4060.02; 08 R203. -/
def Od.statsLeaves : OdRef := ⟨0x406002, 16, 64⟩
/-- LEDGER_LEAVES, 4060.03; 08 R203. -/
def Od.ledgerLeaves : OdRef := ⟨0x406003, 16, 8192⟩
/-- QUARANTINE_LEAVES, 4060.04; 08 R203. -/
def Od.quarantineLeaves : OdRef := ⟨0x406004, 16, 2048⟩
/-- EGRESS_LEAVES, 4060.05; 08 R203. -/
def Od.egressLeaves : OdRef := ⟨0x406005, 16, 16384⟩
/-- REGION_SHORT_MASK, 4060.06; 08 R203. -/
def Od.regionShortMask : OdRef := ⟨0x406006, 8, 0⟩
/-- REGION_WAIT_FRAMES, 4060.07; 08 R203. -/
def Od.regionWaitFrames : OdRef := ⟨0x406007, 64, 0⟩
/-- REGION_OVERSIZE_COUNT, 4060.08; 08 R203. -/
def Od.regionOversizeCount : OdRef := ⟨0x406008, 32, 0⟩
/-- SCRUB_FRAMES_PER_ROW, 4060.09; 08 R203. -/
def Od.scrubFramesPerRow : OdRef := ⟨0x406009, 8, 8⟩
/-- SCRUB_PASS_COUNT, 4060.0A; 08 R203. -/
def Od.scrubPassCount : OdRef := ⟨0x40600A, 32, 0⟩
/-- CE_REMAP_THRESHOLD, 4060.0B; 08 R203. -/
def Od.ceRemapThreshold : OdRef := ⟨0x40600B, 8, 8⟩
/-- UNASSIGNED_LEAVES, 4060.0C; 08 R203. -/
def Od.unassignedLeaves : OdRef := ⟨0x40600C, 16, 4928⟩
/-- REGION_USED, 4060.0D; 08 R203. -/
def Od.regionUsed : OdRef := ⟨0x40600D, 0, 0⟩
/-- GALLERY_CE_COUNT, 9020.01; 08 R203. -/
def Od.galleryCeCount : OdRef := ⟨0x902001, 64, 0⟩
/-- GALLERY_UE_COUNT, 9020.02; 08 R203. -/
def Od.galleryUeCount : OdRef := ⟨0x902002, 32, 0⟩
/-- DATAPATH_CE_COUNT, 9020.03; 08 R203. -/
def Od.datapathCeCount : OdRef := ⟨0x902003, 64, 0⟩
/-- DATAPATH_UE_COUNT, 9020.04; 08 R203. -/
def Od.datapathUeCount : OdRef := ⟨0x902004, 32, 0⟩
/-- ROW_REMAP_COUNT, 9020.05; 08 R203. -/
def Od.rowRemapCount : OdRef := ⟨0x902005, 32, 0⟩
/-- SECONDARY_REMAP_COUNT, 9020.06; 08 R203. -/
def Od.secondaryRemapCount : OdRef := ⟨0x902006, 32, 0⟩
/-- SLOT_RETIRE_COUNT, 9020.07; 08 R203. -/
def Od.slotRetireCount : OdRef := ⟨0x902007, 16, 0⟩
/-- PRIMARY_SPARES_LEFT, 9020.08; 08 R203. -/
def Od.primarySparesLeft : OdRef := ⟨0x902008, 32, 83968⟩
/-- SECONDARY_SPARES_LEFT, 9020.09; 08 R203. -/
def Od.secondarySparesLeft : OdRef := ⟨0x902009, 16, 8192⟩
/-- REMAP_TABLE, 9020.0A; 08 R203. -/
def Od.remapTable : OdRef := ⟨0x90200A, 0, 0⟩
/-- REMAP_TABLE_USED, 9020.0B; 08 R203. -/
def Od.remapTableUsed : OdRef := ⟨0x90200B, 16, 0⟩
/-- REMAP_ENTRY_LOST_COUNT, 9020.0C; 08 R203. -/
def Od.remapEntryLostCount : OdRef := ⟨0x90200C, 32, 0⟩
/-- UE_DROP_COUNT, 9020.0D; 08 R203. -/
def Od.ueDropCount : OdRef := ⟨0x90200D, 32, 0⟩
/-- TABLE_VALID, 9020.0E; 08 R203. -/
def Od.tableValid : OdRef := ⟨0x90200E, 8, 0⟩
/-- POISON_READ_COUNT, 9020.0F; 08 R203. -/
def Od.poisonReadCount : OdRef := ⟨0x90200F, 32, 0⟩
/-- PAIR_STATE, 5000.01; 09 R234. -/
def Od.pairState : OdRef := ⟨0x500001, 8, 0⟩
/-- PARTNER_ENGINE_ID, 5000.02; 09 R234. -/
def Od.partnerEngineId : OdRef := ⟨0x500002, 32, 0⟩
/-- MIRROR_MODE, 5000.03; 09 R234. -/
def Od.mirrorMode : OdRef := ⟨0x500003, 8, 0⟩
/-- PAIR_CLASS, 5000.04; 09 R234. -/
def Od.pairClass : OdRef := ⟨0x500004, 8, 0⟩
/-- FORCE_COPY, 5000.05; 09 R234. -/
def Od.forceCopy : OdRef := ⟨0x500005, 8, 0⟩
/-- PAIR_TIMEOUT_FRAMES, 5000.06; 09 R234. -/
def Od.pairTimeoutFrames : OdRef := ⟨0x500006, 32, 1000⟩
/-- LOST_FRAMES, 5000.07; 09 R234. -/
def Od.lostFrames : OdRef := ⟨0x500007, 16, 10⟩
/-- HEARTBEAT_FRAMES, 5000.08; 09 R234. -/
def Od.heartbeatFrames : OdRef := ⟨0x500008, 8, 2⟩
/-- WELD_JOB_SELECT, 5000.09; 09 R234. -/
def Od.weldJobSelect : OdRef := ⟨0x500009, 8, 0⟩
/-- M_STEP, 5010.01; 09 R234. -/
def Od.mStep : OdRef := ⟨0x501001, 64, 0⟩
/-- APPLIED_STEP, 5010.02; 09 R234. -/
def Od.appliedStep : OdRef := ⟨0x501002, 64, 0⟩
/-- MIRROR_LAG_LIMIT, 5010.03; 09 R234. -/
def Od.mirrorLagLimit : OdRef := ⟨0x501003, 32, 3⟩
/-- OUT_STALE_FROM, 5010.04; 09 R234. -/
def Od.outStaleFrom : OdRef := ⟨0x501004, 64, 0⟩
/-- IN_STALE_SPANS, 5010.05; 09 R234. -/
def Od.inStaleSpans : OdRef := ⟨0x501005, 32, 0⟩
/-- LEDGER_PARTNER_PCT, 5010.06; 09 R234. -/
def Od.ledgerPartnerPct : OdRef := ⟨0x501006, 8, 75⟩
/-- RECORDS_HELD, 5010.07; 09 R234. -/
def Od.recordsHeld : OdRef := ⟨0x501007, 16, 0⟩
/-- RECORD_SELECT, 5010.08; 09 R234. -/
def Od.recordSelect : OdRef := ⟨0x501008, 64, 0⟩
/-- RECORD_ENTRIES, 5010.09; 09 R234. -/
def Od.recordEntries : OdRef := ⟨0x501009, 0, 0⟩
/-- WELD_PARTNER_LOST_COUNT, 5020.01; 09 R234. -/
def Od.weldPartnerLostCount : OdRef := ⟨0x502001, 32, 0⟩
/-- RECORD_LOST_COUNT, 5020.02; 09 R234. -/
def Od.recordLostCount : OdRef := ⟨0x502002, 32, 0⟩
/-- DIGEST_MISMATCH_COUNT, 5020.03; 09 R234. -/
def Od.digestMismatchCount : OdRef := ⟨0x502003, 32, 0⟩
/-- LEAVES_COPIED, 5020.04; 09 R234. -/
def Od.leavesCopied : OdRef := ⟨0x502004, 64, 0⟩
/-- RECORDS_APPLIED, 5020.05; 09 R234. -/
def Od.recordsApplied : OdRef := ⟨0x502005, 64, 0⟩
/-- WELD_MALFORMED_COUNT, 5020.06; 09 R234. -/
def Od.weldMalformedCount : OdRef := ⟨0x502006, 32, 0⟩
/-- COPY_DISCARD_COUNT, 5020.07; 09 R234. -/
def Od.copyDiscardCount : OdRef := ⟨0x502007, 32, 0⟩
/-- LEVEL_MISMATCH_COUNT, 5020.08; 09 R234. -/
def Od.levelMismatchCount : OdRef := ⟨0x502008, 32, 0⟩
/-- UNPROTECTED_STEPS, 5020.09; 09 R234. -/
def Od.unprotectedSteps : OdRef := ⟨0x502009, 64, 0⟩
/-- VAULT_TARGET, element `j` of 5030.01 and the subindices after it; 10 R269. -/
def Od.vaultTarget (j : Nat) : OdRef := ⟨0x503001 + j, 32, 0⟩
/-- LEDGER_POLICY, 5030.05; 10 R269. -/
def Od.ledgerPolicy : OdRef := ⟨0x503005, 8, 0⟩
/-- DURABLE_LAG_LIMIT, 5030.06; 10 R269. -/
def Od.durableLagLimit : OdRef := ⟨0x503006, 32, 0⟩
/-- VAULT_REPLY_FRAMES, 5030.07; 10 R269. -/
def Od.vaultReplyFrames : OdRef := ⟨0x503007, 16, 200⟩
/-- VAULT_RETRY_LIMIT, 5030.08; 10 R269. -/
def Od.vaultRetryLimit : OdRef := ⟨0x503008, 8, 3⟩
/-- RESTORE_REPLY_FRAMES, 5030.09; 10 R269. -/
def Od.restoreReplyFrames : OdRef := ⟨0x503009, 16, 10⟩
/-- D_STEP, element `j` of 5040.01 and the subindices after it; 10 R269. -/
def Od.dStep (j : Nat) : OdRef := ⟨0x504001 + j, 64, 0⟩
/-- A_LAST, element `j` of 5040.05 and the subindices after it; 10 R269. -/
def Od.aLast (j : Nat) : OdRef := ⟨0x504005 + j, 64, 0⟩
/-- A_LAST_ID, element `j` of 5040.09 and the subindices after it; 10 R269. -/
def Od.aLastId (j : Nat) : OdRef := ⟨0x504009 + j, 64, 0⟩
/-- ACC_OPEN_COUNT, 5040.0D; 10 R269. -/
def Od.accOpenCount : OdRef := ⟨0x50400D, 8, 0⟩
/-- SPARE_STATE, 5040.0E; 10 R269. -/
def Od.spareState : OdRef := ⟨0x50400E, 8, 0⟩
/-- BAND_LEAVES_CAPTURED, 5050.01; 10 R269. -/
def Od.bandLeavesCaptured : OdRef := ⟨0x505001, 64, 0⟩
/-- BAND_DISCARD_COUNT, 5050.02; 10 R269. -/
def Od.bandDiscardCount : OdRef := ⟨0x505002, 32, 0⟩
/-- LEAF_MISSING_COUNT, 5050.03; 10 R269. -/
def Od.leafMissingCount : OdRef := ⟨0x505003, 32, 0⟩
/-- VAULT_RETRY_COUNT, 5050.04; 10 R269. -/
def Od.vaultRetryCount : OdRef := ⟨0x505004, 32, 0⟩
/-- VAULT_FAILOVER_COUNT, 5050.05; 10 R269. -/
def Od.vaultFailoverCount : OdRef := ⟨0x505005, 32, 0⟩
/-- VAULT_MALFORMED_COUNT, 5050.06; 10 R269. -/
def Od.vaultMalformedCount : OdRef := ⟨0x505006, 32, 0⟩
/-- RECORDS_DURABLE, 5050.07; 10 R269. -/
def Od.recordsDurable : OdRef := ⟨0x505007, 64, 0⟩
/-- RESTORE_LEAVES_WRITTEN, 5050.08; 10 R269. -/
def Od.restoreLeavesWritten : OdRef := ⟨0x505008, 64, 0⟩
/-- RESTORE_LEAF_DROP_COUNT, 5050.09; 10 R269. -/
def Od.restoreLeafDropCount : OdRef := ⟨0x505009, 32, 0⟩
/-- ROLLFWD_STEPS, 5050.0A; 10 R269. -/
def Od.rollfwdSteps : OdRef := ⟨0x50500A, 64, 0⟩
/-- ROLLFWD_DIGEST_MISMATCH_COUNT, 5050.0B; 10 R269. -/
def Od.rollfwdDigestMismatchCount : OdRef := ⟨0x50500B, 32, 0⟩
/-- RESTORE_SERVED_LEAVES, 5050.0C; 10 R269. -/
def Od.restoreServedLeaves : OdRef := ⟨0x50500C, 64, 0⟩
/-- DEACCESSION_COUNT, 5050.0D; 10 R269. -/
def Od.deaccessionCount : OdRef := ⟨0x50500D, 32, 0⟩
/-- COLL_TIMEOUT_FRAMES, 5060.01; 11 R296. -/
def Od.collTimeoutFrames : OdRef := ⟨0x506001, 32, 200⟩
/-- GRACE_MAX_FRAMES, 5060.02; 11 R296. -/
def Od.graceMaxFrames : OdRef := ⟨0x506002, 8, 50⟩
/-- COLL_RX_BUFFER_BYTES, 5060.03; 11 R296. -/
def Od.collRxBufferBytes : OdRef := ⟨0x506003, 32, 4194304⟩
/-- FUSE_ENABLE, 5060.04; 11 R296. -/
def Od.fuseEnable : OdRef := ⟨0x506004, 8, 1⟩
/-- FUSE_MAX_BYTES, 5060.05; 11 R296. -/
def Od.fuseMaxBytes : OdRef := ⟨0x506005, 16, 4096⟩
/-- SWITCH_WAIT_FRAMES, 5060.06; 11 R296. -/
def Od.switchWaitFrames : OdRef := ⟨0x506006, 8, 2⟩
/-- SWITCH_REDUCE_ID, element `j` of 5060.07 and the subindices after it; 11 R296. -/
def Od.switchReduceId (j : Nat) : OdRef := ⟨0x506007 + j, 32, 0⟩
/-- GROUP_COUNT, 5070.01; 11 R296. -/
def Od.groupCount : OdRef := ⟨0x507001, 8, 0⟩
/-- GROUP_SELECT, 5070.02; 11 R296. -/
def Od.groupSelect : OdRef := ⟨0x507002, 16, 0⟩
/-- GROUP_INFO, 5070.03; 11 R296. -/
def Od.groupInfo : OdRef := ⟨0x507003, 0, 0⟩
/-- COLL_TIMEOUT_COUNT, 5080.01; 11 R296. -/
def Od.collTimeoutCount : OdRef := ⟨0x508001, 32, 0⟩
/-- COLL_ABORT_COUNT, 5080.02; 11 R296. -/
def Od.collAbortCount : OdRef := ⟨0x508002, 32, 0⟩
/-- HEADER_MISMATCH_COUNT, 5080.03; 11 R296. -/
def Od.headerMismatchCount : OdRef := ⟨0x508003, 32, 0⟩
/-- COLL_MALFORMED_COUNT, 5080.04; 11 R296. -/
def Od.collMalformedCount : OdRef := ⟨0x508004, 32, 0⟩
/-- COLL_STALE_COUNT, 5080.05; 11 R296. -/
def Od.collStaleCount : OdRef := ⟨0x508005, 32, 0⟩
/-- RESIDUE_ERR_COUNT, 5080.06; 11 R296. -/
def Od.residueErrCount : OdRef := ⟨0x508006, 32, 0⟩
/-- THERMAL_GRACE_RECV_COUNT, 5080.07; 11 R296. -/
def Od.thermalGraceRecvCount : OdRef := ⟨0x508007, 32, 0⟩
/-- GRACE_IGNORED_COUNT, 5080.08; 11 R296. -/
def Od.graceIgnoredCount : OdRef := ⟨0x508008, 32, 0⟩
/-- FUSED_MSG_COUNT, 5080.09; 11 R296. -/
def Od.fusedMsgCount : OdRef := ⟨0x508009, 64, 0⟩
/-- SWITCH_FALLBACK_COUNT, 5080.0A; 11 R296. -/
def Od.switchFallbackCount : OdRef := ⟨0x50800A, 32, 0⟩
/-- VERDICT_GOOD_COUNT, 5080.0B; 11 R296. -/
def Od.verdictGoodCount : OdRef := ⟨0x50800B, 64, 0⟩
/-- VERDICT_BAD_COUNT, 5080.0C; 11 R296. -/
def Od.verdictBadCount : OdRef := ⟨0x50800C, 32, 0⟩
/-- RX_BUFFER_WAIT_FRAMES, 5080.0D; 11 R296. -/
def Od.rxBufferWaitFrames : OdRef := ⟨0x50800D, 64, 0⟩
/-- LINK_ENABLE, 6000.01; 12 R322. -/
def Od.linkEnable : OdRef := ⟨0x600001, 8, 15⟩
/-- LINK_RETRY_LIMIT, 6000.02; 12 R322. -/
def Od.linkRetryLimit : OdRef := ⟨0x600002, 8, 4⟩
/-- RETRAIN_LIMIT, 6000.03; 12 R322. -/
def Od.retrainLimit : OdRef := ⟨0x600003, 8, 3⟩
/-- LANE_CE_LIMIT, 6000.04; 12 R322. -/
def Od.laneCeLimit : OdRef := ⟨0x600004, 32, 500000⟩
/-- FLAP_LIMIT, 6000.05; 12 R322. -/
def Od.flapLimit : OdRef := ⟨0x600005, 8, 3⟩
/-- FLAP_WINDOW_FRAMES, 6000.06; 12 R322. -/
def Od.flapWindowFrames : OdRef := ⟨0x600006, 32, 10000⟩
/-- LASER_BIAS_LIMIT_PCT, 6000.07; 12 R322. -/
def Od.laserBiasLimitPct : OdRef := ⟨0x600007, 8, 130⟩
/-- UNREACH_HOLD_FRAMES, 6000.08; 12 R322. -/
def Od.unreachHoldFrames : OdRef := ⟨0x600008, 16, 100⟩
/-- BINDING_IDLE_FRAMES, 6000.09; 12 R322. -/
def Od.bindingIdleFrames : OdRef := ⟨0x600009, 32, 10000⟩
/-- VC_WEIGHT, element `j` of 6010.01 and the subindices after it; 12 R322. -/
def Od.vcWeight (j : Nat) : OdRef := ⟨0x601001 + j, 16, (([8, 24, 24, 16, 2] : List Nat).getD j 0)⟩
/-- VC_RX_CREDITS, element `j` of 6010.06 and the subindices after it; 12 R322. -/
def Od.vcRxCredits (j : Nat) : OdRef := ⟨0x601006 + j, 16, (([64, 1024, 2048, 2048, 2048, 2048] : List Nat).getD j 0)⟩
/-- LINK_STATE of port `j`, 6100+j.01; 12 R322. -/
def Od.linkState (j : Nat) : OdRef := ⟨0x610001 + 256 * j, 8, 0⟩
/-- LINK_PARTNER_ID of port `j`, 6100+j.02; 12 R322. -/
def Od.linkPartnerId (j : Nat) : OdRef := ⟨0x610002 + 256 * j, 32, 0⟩
/-- LANE_MAP_TX of port `j`, 6100+j.03; 12 R322. -/
def Od.laneMapTx (j : Nat) : OdRef := ⟨0x610003 + 256 * j, 0, 0⟩
/-- LANE_MAP_RX of port `j`, 6100+j.04; 12 R322. -/
def Od.laneMapRx (j : Nat) : OdRef := ⟨0x610004 + 256 * j, 0, 0⟩
/-- LANE_RETIRED of port `j`, 6100+j.05; 12 R322. -/
def Od.laneRetired (j : Nat) : OdRef := ⟨0x610005 + 256 * j, 32, 0⟩
/-- LASER_ACTIVE of port `j`, 6100+j.06; 12 R322. -/
def Od.laserActive (j : Nat) : OdRef := ⟨0x610006 + 256 * j, 8, 0⟩
/-- LASER_BIAS_PCT of port `j`, 6100+j.07; 12 R322. -/
def Od.laserBiasPct (j : Nat) : OdRef := ⟨0x610007 + 256 * j, 8, 100⟩
/-- LANE_CE of port `j`, 6100+j.08; 12 R322. -/
def Od.laneCe (j : Nat) : OdRef := ⟨0x610008 + 256 * j, 0, 0⟩
/-- FEC_UNCORRECTABLE_COUNT of port `j`, 6100+j.09; 12 R322. -/
def Od.fecUncorrectableCount (j : Nat) : OdRef := ⟨0x610009 + 256 * j, 64, 0⟩
/-- FLIT_CRC_ERR_COUNT of port `j`, 6100+j.0A; 12 R322. -/
def Od.flitCrcErrCount (j : Nat) : OdRef := ⟨0x61000A + 256 * j, 64, 0⟩
/-- LINK_RETRY_COUNT of port `j`, 6100+j.0B; 12 R322. -/
def Od.linkRetryCount (j : Nat) : OdRef := ⟨0x61000B + 256 * j, 64, 0⟩
/-- FAST_RETRAIN_COUNT of port `j`, 6100+j.0C; 12 R322. -/
def Od.fastRetrainCount (j : Nat) : OdRef := ⟨0x61000C + 256 * j, 32, 0⟩
/-- FULL_RETRAIN_COUNT of port `j`, 6100+j.0D; 12 R322. -/
def Od.fullRetrainCount (j : Nat) : OdRef := ⟨0x61000D + 256 * j, 32, 0⟩
/-- LANE_SWAP_COUNT of port `j`, 6100+j.0E; 12 R322. -/
def Od.laneSwapCount (j : Nat) : OdRef := ⟨0x61000E + 256 * j, 16, 0⟩
/-- LASER_SWITCH_COUNT of port `j`, 6100+j.0F; 12 R322. -/
def Od.laserSwitchCount (j : Nat) : OdRef := ⟨0x61000F + 256 * j, 16, 0⟩
/-- FLAP_EVENT_COUNT of port `j`, 6100+j.10; 12 R322. -/
def Od.flapEventCount (j : Nat) : OdRef := ⟨0x610010 + 256 * j, 32, 0⟩
/-- RX_POWER_MDBM of port `j`, 6100+j.11; 12 R322. -/
def Od.rxPowerMdbm (j : Nat) : OdRef := ⟨0x610011 + 256 * j, 0, 0⟩
/-- MISROUTED_COUNT of port `j`, 6100+j.12; 12 R322. -/
def Od.misroutedCount (j : Nat) : OdRef := ⟨0x610012 + 256 * j, 32, 0⟩
/-- LINK_MALFORMED_COUNT of port `j`, 6100+j.13; 12 R322. -/
def Od.linkMalformedCount (j : Nat) : OdRef := ⟨0x610013 + 256 * j, 32, 0⟩
/-- LINK_MSG_DROP_COUNT of port `j`, 6100+j.14; 12 R322. -/
def Od.linkMsgDropCount (j : Nat) : OdRef := ⟨0x610014 + 256 * j, 32, 0⟩
/-- LANE_MAP_RESET of port `j`, 6100+j.15; 12 R322. -/
def Od.laneMapReset (j : Nat) : OdRef := ⟨0x610015 + 256 * j, 8, 0⟩
/-- CREDIT_STALL_FRAMES of port `j`, 6100+j.16; 12 R322. -/
def Od.creditStallFrames (j : Nat) : OdRef := ⟨0x610016 + 256 * j, 64, 0⟩
/-- KEY_STORE_STATE, 7000.01; 13 R356. -/
def Od.keyStoreState : OdRef := ⟨0x700001, 8, 0⟩
/-- ALARM_SOURCE, 7000.02; 13 R356. -/
def Od.alarmSource : OdRef := ⟨0x700002, 8, 0⟩
/-- ALARM_COUNT, 7000.03; 13 R356. -/
def Od.alarmCount : OdRef := ⟨0x700003, 32, 0⟩
/-- ALARM_CLEAR, 7000.04; 13 R356. -/
def Od.alarmClear : OdRef := ⟨0x700004, 8, 0⟩
/-- IV_EPOCH, 7000.05; 13 R356. -/
def Od.ivEpoch : OdRef := ⟨0x700005, 32, 0⟩
/-- IV_EPOCH_RANDOM, 7000.06; 13 R356. -/
def Od.ivEpochRandom : OdRef := ⟨0x700006, 8, 0⟩
/-- WRAP_LOAD, 7000.07; 13 R356. -/
def Od.wrapLoad : OdRef := ⟨0x700007, 0, 0⟩
/-- FIELD_AUTH_LOAD, 7000.08; 13 R356. -/
def Od.fieldAuthLoad : OdRef := ⟨0x700008, 0, 0⟩
/-- KEY_SLOT_SELECT, 7010.01; 13 R356. -/
def Od.keySlotSelect : OdRef := ⟨0x701001, 8, 0⟩
/-- KEY_SLOT_INFO, 7010.02; 13 R356. -/
def Od.keySlotInfo : OdRef := ⟨0x701002, 0, 0⟩
/-- USAGE_LIMIT, 7010.03; 13 R356. -/
def Od.usageLimit : OdRef := ⟨0x701003, 64, 4294967296⟩
/-- USAGE_WARN_PCT, 7010.04; 13 R356. -/
def Od.usageWarnPct : OdRef := ⟨0x701004, 8, 90⟩
/-- LINEAGE_GEN, 7010.05; 13 R356. -/
def Od.lineageGen : OdRef := ⟨0x701005, 16, 0⟩
/-- LINEAGE_PREV_GEN, 7010.06; 13 R356. -/
def Od.lineagePrevGen : OdRef := ⟨0x701006, 16, 0⟩
/-- UNWRAP_FAIL_COUNT, 7010.07; 13 R356. -/
def Od.unwrapFailCount : OdRef := ⟨0x701007, 32, 0⟩
/-- EXHAUSTED_COUNT, 7010.08; 13 R356. -/
def Od.exhaustedCount : OdRef := ⟨0x701008, 32, 0⟩
/-- PAIRS_ACTIVE, 7020.01; 13 R356. -/
def Od.pairsActive : OdRef := ⟨0x702001, 8, 64⟩
/-- PAIR_MAP, 7020.02; 13 R356. -/
def Od.pairMap : OdRef := ⟨0x702002, 0, 0⟩
/-- SPARE_PIPES_LEFT, 7020.03; 13 R356. -/
def Od.sparePipesLeft : OdRef := ⟨0x702003, 8, 8⟩
/-- CIPHER_MISMATCH_COUNT, 7020.04; 13 R356. -/
def Od.cipherMismatchCount : OdRef := ⟨0x702004, 32, 0⟩
/-- PIPE_RETIRE_COUNT, 7020.05; 13 R356. -/
def Od.pipeRetireCount : OdRef := ⟨0x702005, 32, 0⟩
/-- TAG_FAIL_COUNT, 7020.06; 13 R356. -/
def Od.tagFailCount : OdRef := ⟨0x702006, 32, 0⟩
/-- USER_QUANTUM_BLOCKS, 7020.07; 13 R356. -/
def Od.userQuantumBlocks : OdRef := ⟨0x702007, 16, 64⟩
/-- ENTROPY_FAIL_COUNT, 7020.08; 13 R356. -/
def Od.entropyFailCount : OdRef := ⟨0x702008, 32, 0⟩
/-- SUSPEND_COUNT, 7020.09; 13 R356. -/
def Od.suspendCount : OdRef := ⟨0x702009, 64, 0⟩
/-- DIGEST_BYTES, 7030.01; 13 R356. -/
def Od.digestBytes : OdRef := ⟨0x703001, 64, 0⟩
/-- COMPARE_NE_COUNT, 7030.02; 13 R356. -/
def Od.compareNeCount : OdRef := ⟨0x703002, 32, 0⟩
/-- EXPORT_COUNT, 7030.03; 13 R356. -/
def Od.exportCount : OdRef := ⟨0x703003, 32, 0⟩
/-- PAGE_SEQ_ERR_COUNT, 7030.04; 13 R356. -/
def Od.pageSeqErrCount : OdRef := ⟨0x703004, 32, 0⟩
/-- PAGE_DENIED_COUNT, 7030.05; 13 R356. -/
def Od.pageDeniedCount : OdRef := ⟨0x703005, 32, 0⟩
/-- IMPORT_REFUSED_COUNT, 7030.06; 13 R356. -/
def Od.importRefusedCount : OdRef := ⟨0x703006, 32, 0⟩
/-- DOCENT_ACTIVE, 8000.01; 14 R384. -/
def Od.docentActive : OdRef := ⟨0x800001, 8, 20⟩
/-- DOCENT_SPARES_LEFT, 8000.02; 14 R384. -/
def Od.docentSparesLeft : OdRef := ⟨0x800002, 8, 4⟩
/-- DOCENT_MAP, 8000.03; 14 R384. -/
def Od.docentMap : OdRef := ⟨0x800003, 0, 0⟩
/-- DOCENT_FAULT_COUNT, 8000.04; 14 R384. -/
def Od.docentFaultCount : OdRef := ⟨0x800004, 32, 0⟩
/-- DOCENT_RETIRE_COUNT, 8000.05; 14 R384. -/
def Od.docentRetireCount : OdRef := ⟨0x800005, 32, 0⟩
/-- DOCENT_TRANSIENT_COUNT, 8000.06; 14 R384. -/
def Od.docentTransientCount : OdRef := ⟨0x800006, 32, 0⟩
/-- CONTEXT_SAVE_LATE_COUNT, 8000.07; 14 R384. -/
def Od.contextSaveLateCount : OdRef := ⟨0x800007, 32, 0⟩
/-- LOG_FULL_STALL_CYCLES, 8000.08; 14 R384. -/
def Od.logFullStallCycles : OdRef := ⟨0x800008, 64, 0⟩
/-- SYNC_WORDS, 8010.01; 14 R384. -/
def Od.syncWords : OdRef := ⟨0x801001, 32, 65536⟩
/-- SYNC_UNDERFLOW_COUNT, 8010.02; 14 R384. -/
def Od.syncUnderflowCount : OdRef := ⟨0x801002, 32, 0⟩
/-- SYNC_WAITS_ACTIVE, 8010.03; 14 R384. -/
def Od.syncWaitsActive : OdRef := ⟨0x801003, 8, 0⟩
/-- SYNC_WAIT_TABLE, 8010.04; 14 R384. -/
def Od.syncWaitTable : OdRef := ⟨0x801004, 0, 0⟩
/-- SYNC_OWNER_RESET, 8010.05; 14 R384. -/
def Od.syncOwnerReset : OdRef := ⟨0x801005, 8, 0⟩
/-- DEADLOCK_FRAMES, 8010.06; 14 R384. -/
def Od.deadlockFrames : OdRef := ⟨0x801006, 32, 1000⟩
/-- DEADLOCK_COUNT, 8010.07; 14 R384. -/
def Od.deadlockCount : OdRef := ⟨0x801007, 32, 0⟩
/-- STALL_COUNT, 8010.08; 14 R384. -/
def Od.stallCount : OdRef := ⟨0x801008, 32, 0⟩
/-- ORPHAN_COUNT, 8010.09; 14 R384. -/
def Od.orphanCount : OdRef := ⟨0x801009, 32, 0⟩
/-- NOT_AS_FOUND_COUNT, 8010.0A; 14 R384. -/
def Od.notAsFoundCount : OdRef := ⟨0x80100A, 32, 0⟩
/-- SYNC_BAD_CMD_COUNT, 8010.0B; 14 R384. -/
def Od.syncBadCmdCount : OdRef := ⟨0x80100B, 32, 0⟩
/-- SYNC_UE_COUNT, 8010.0C; 14 R384. -/
def Od.syncUeCount : OdRef := ⟨0x80100C, 32, 0⟩
/-- MBOX_TIMEOUT_FRAMES, 8020.01; 14 R384. -/
def Od.mboxTimeoutFrames : OdRef := ⟨0x802001, 16, 20⟩
/-- MBOX_CLASS, element `j` of 8020.02 and the subindices after it; 14 R384. -/
def Od.mboxClass (j : Nat) : OdRef := ⟨0x802002 + j, 8, (if j == 0 || j == 8 then 0 else 1)⟩
/-- MBOX_TIMEOUT_COUNT, 8020.12; 14 R384. -/
def Od.mboxTimeoutCount : OdRef := ⟨0x802012, 32, 0⟩
/-- MBOX_SEQ_ERR_COUNT, 8020.13; 14 R384. -/
def Od.mboxSeqErrCount : OdRef := ⟨0x802013, 32, 0⟩
/-- MBOX_ERR_COUNT, 8020.14; 14 R384. -/
def Od.mboxErrCount : OdRef := ⟨0x802014, 32, 0⟩
/-- MBOX_LATE_ACK_COUNT, 8020.15; 14 R384. -/
def Od.mboxLateAckCount : OdRef := ⟨0x802015, 32, 0⟩
/-- MBOX_SERVICES, 8020.16; 14 R384. -/
def Od.mboxServices : OdRef := ⟨0x802016, 0, 0⟩
/-- MBOX_MSG_COUNT, 8020.17; 14 R384. -/
def Od.mboxMsgCount : OdRef := ⟨0x802017, 64, 0⟩
/-- LEND_ENABLE, A010.01; 14 R384. -/
def Od.lendEnable : OdRef := ⟨0xA01001, 8, 1⟩
/-- LEND_WAIT_FRAMES, A010.02; 14 R384. -/
def Od.lendWaitFrames : OdRef := ⟨0xA01002, 16, 2⟩
/-- LEND_RESERVE_MW, A010.03; 14 R384. -/
def Od.lendReserveMw : OdRef := ⟨0xA01003, 32, 2000⟩
/-- POWER_LENT_MW, A010.04; 14 R384. -/
def Od.powerLentMw : OdRef := ⟨0xA01004, 32, 0⟩
/-- LEND_WAKE_DELAY_COUNT, A010.05; 14 R384. -/
def Od.lendWakeDelayCount : OdRef := ⟨0xA01005, 32, 0⟩
/-- ENGINE_ID, 1010.01; 15 R407. -/
def Od.engineId : OdRef := ⟨0x101001, 32, 0⟩
/-- DEVICE_SERIAL, 1010.02; 15 R407. -/
def Od.deviceSerial : OdRef := ⟨0x101002, 64, 0⟩
/-- PUF_HELPER, 1010.03; 15 R407. -/
def Od.pufHelper : OdRef := ⟨0x101003, 0, 0⟩
/-- START_STAGE, 1020.01; 15 R407. -/
def Od.startStage : OdRef := ⟨0x102001, 8, 0⟩
/-- START_HOLD, 1020.02; 15 R407. -/
def Od.startHold : OdRef := ⟨0x102002, 8, 0⟩
/-- HELD_BEFORE, 1020.03; 15 R407. -/
def Od.heldBefore : OdRef := ⟨0x102003, 8, 0⟩
/-- STAGE_C_UNMET, 1020.04; 15 R407. -/
def Od.stageCUnmet : OdRef := ⟨0x102004, 8, 0⟩
/-- STAGE_TIMES_US, 1020.05; 15 R407. -/
def Od.stageTimesUs : OdRef := ⟨0x102005, 0, 0⟩
/-- HOLD_REASON, 1020.06; 15 R407. -/
def Od.holdReason : OdRef := ⟨0x102006, 8, 0⟩
/-- CATALOGUE_CHECKED, 1020.07; 15 R407. -/
def Od.catalogueChecked : OdRef := ⟨0x102007, 8, 0⟩
/-- CATALOGUE_CHECK_FAIL_COUNT, 1020.08; 15 R407. -/
def Od.catalogueCheckFailCount : OdRef := ⟨0x102008, 32, 0⟩
/-- START_COUNT, 1020.09; 15 R407. -/
def Od.startCount : OdRef := ⟨0x102009, 32, 0⟩
/-- JOB_RECORD, element `j` of 1030.01 and the subindices after it; 15 R407. -/
def Od.jobRecord (j : Nat) : OdRef := ⟨0x103001 + j, 0, 0⟩
/-- VBAT_LOST, 1030.05; 15 R407. -/
def Od.vbatLost : OdRef := ⟨0x103005, 8, 0⟩
/-- BATTERY_REGION_LOST_COUNT, 1030.06; 15 R407. -/
def Od.batteryRegionLostCount : OdRef := ⟨0x103006, 32, 0⟩
/-- RETENTION_VALID, 1030.07; 15 R407. -/
def Od.retentionValid : OdRef := ⟨0x103007, 8, 0⟩
/-- RETENTION_SECONDS, 1030.08; 15 R407. -/
def Od.retentionSeconds : OdRef := ⟨0x103008, 64, 0⟩
/-- VBAT_LOW_COUNT, 1030.09; 15 R407. -/
def Od.vbatLowCount : OdRef := ⟨0x103009, 32, 0⟩
/-- CURATOR_IMAGE_SLOT, 1040.01; 15 R407. -/
def Od.curatorImageSlot : OdRef := ⟨0x104001, 8, 0⟩
/-- CURATOR_IMAGE_VERSION, 1040.02; 15 R407. -/
def Od.curatorImageVersion : OdRef := ⟨0x104002, 32, 0⟩
/-- CURATOR_IMAGE_LOAD, 1040.03; 15 R407. -/
def Od.curatorImageLoad : OdRef := ⟨0x104003, 0, 0⟩
/-- DOCENT_BUNDLE_LOAD, 1040.04; 15 R407. -/
def Od.docentBundleLoad : OdRef := ⟨0x104004, 0, 0⟩
/-- SVN_CURATOR, 1040.05; 15 R407. -/
def Od.svnCurator : OdRef := ⟨0x104005 + 0, 32, 0⟩
/-- SVN_DOCENT, 1040.06; 15 R407. -/
def Od.svnDocent : OdRef := ⟨0x104005 + 1, 32, 0⟩
/-- SVN_KERNEL, 1040.07; 15 R407. -/
def Od.svnKernel : OdRef := ⟨0x104005 + 2, 32, 0⟩
/-- SVN_BUNDLE, 1040.08; 15 R407. -/
def Od.svnBundle : OdRef := ⟨0x104005 + 3, 32, 0⟩
/-- DOCENT_BUNDLE_ID, 1040.09; 15 R407. -/
def Od.docentBundleId : OdRef := ⟨0x104009, 32, 0⟩
/-- IMAGE_REFUSED_COUNT, 1040.0A; 15 R407. -/
def Od.imageRefusedCount : OdRef := ⟨0x10400A, 32, 0⟩
/-- BARRIER_ERR_COUNT, 1050.01; 15 R407. -/
def Od.barrierErrCount : OdRef := ⟨0x105001, 32, 0⟩
/-- FIELD_LINK_UP, 1050.02; 15 R407. -/
def Od.fieldLinkUp : OdRef := ⟨0x105002, 8, 0⟩
/-- FIELD_LINK_LOSS_COUNT, 1050.03; 15 R407. -/
def Od.fieldLinkLossCount : OdRef := ⟨0x105003, 32, 0⟩
/-- DEVICE_ID, 1000.01; 16 R438. -/
def Od.deviceId : OdRef := ⟨0x100001, 32, 437649416⟩
/-- HW_REVISION, 1000.02; 16 R438. -/
def Od.hwRevision : OdRef := ⟨0x100002, 8, 0⟩
/-- VENDOR_NAME, 1000.03; 16 R438. -/
def Od.vendorName : OdRef := ⟨0x100003, 0, 0⟩
/-- PRODUCT_NAME, 1000.04; 16 R438. -/
def Od.productName : OdRef := ⟨0x100004, 0, 0⟩
/-- OD_LAYOUT_VERSION, 1000.05; 16 R438. -/
def Od.odLayoutVersion : OdRef := ⟨0x100005, 16, 1⟩
/-- ERROR_REGISTER, 1001.01; 16 R438. -/
def Od.errorRegister : OdRef := ⟨0x100101, 8, 0⟩
/-- ERROR_ACK_SEQ, 1001.02; 16 R438. -/
def Od.errorAckSeq : OdRef := ⟨0x100102, 32, 0⟩
/-- OD_ABORT_COUNT, 1001.03; 16 R438. -/
def Od.odAbortCount : OdRef := ⟨0x100103, 32, 0⟩
/-- ERROR_HISTORY_COUNT, 1002.01; 16 R438. -/
def Od.errorHistoryCount : OdRef := ⟨0x100201, 8, 0⟩
/-- ERROR_HISTORY, 1002.02; 16 R438. -/
def Od.errorHistory : OdRef := ⟨0x100202, 0, 0⟩
/-- EVENT_SEQ, 1002.03; 16 R438. -/
def Od.eventSeq : OdRef := ⟨0x100203, 32, 0⟩
/-- FIELD_MAC_ADDR, 1060.01; 16 R438. -/
def Od.fieldMacAddr : OdRef := ⟨0x106001, 0, 2⟩
/-- PHOAZ_GROUP_ADDR, 1060.02; 16 R438. -/
def Od.phoazGroupAddr : OdRef := ⟨0x106002, 0, 1099517021187⟩
/-- PLCA_NODE_ID, 1060.03; 16 R438. -/
def Od.plcaNodeId : OdRef := ⟨0x106003, 8, 255⟩
/-- PLCA_NODE_COUNT, 1060.04; 16 R438. -/
def Od.plcaNodeCount : OdRef := ⟨0x106004, 8, 8⟩
/-- PLCA_BURST_COUNT, 1060.05; 16 R438. -/
def Od.plcaBurstCount : OdRef := ⟨0x106005, 8, 0⟩
/-- PLCA_BURST_TIMER, 1060.06; 16 R438. -/
def Od.plcaBurstTimer : OdRef := ⟨0x106006, 8, 128⟩
/-- FIELD_MASTER_ADDR, 1060.07; 16 R438. -/
def Od.fieldMasterAddr : OdRef := ⟨0x106007, 0, 1099517021187⟩
/-- FIELD_EVENT_MASK, 1060.08; 16 R438. -/
def Od.fieldEventMask : OdRef := ⟨0x106008, 8, 255⟩
/-- AUTH_COUNTER, 1060.09; 16 R438. -/
def Od.authCounter : OdRef := ⟨0x106009, 64, 0⟩
/-- AUTH_FAIL_COUNT, 1060.0A; 16 R438. -/
def Od.authFailCount : OdRef := ⟨0x10600A, 32, 0⟩
/-- REPLAY_COUNT, 1060.0B; 16 R438. -/
def Od.replayCount : OdRef := ⟨0x10600B, 32, 0⟩
/-- PHOAZ_MALFORMED_COUNT, 1060.0C; 16 R438. -/
def Od.phoazMalformedCount : OdRef := ⟨0x10600C, 32, 0⟩
/-- PHOAZ_ABORT_COUNT, 1060.0D; 16 R438. -/
def Od.phoazAbortCount : OdRef := ⟨0x10600D, 32, 0⟩
/-- EVENT_RETRY_LIMIT, 1060.0E; 16 R438. -/
def Od.eventRetryLimit : OdRef := ⟨0x10600E, 8, 5⟩
/-- EVENT_RETRY_MS, 1060.0F; 16 R438. -/
def Od.eventRetryMs : OdRef := ⟨0x10600F, 16, 50⟩
/-- EVENT_DROP_COUNT, 1060.10; 16 R438. -/
def Od.eventDropCount : OdRef := ⟨0x106010, 32, 0⟩
/-- TIME_PUB_COUNT, 1060.11; 16 R438. -/
def Od.timePubCount : OdRef := ⟨0x106011, 32, 0⟩
/-- TIME_PUB_REJECT_COUNT, 1060.12; 16 R438. -/
def Od.timePubRejectCount : OdRef := ⟨0x106012, 32, 0⟩
/-- FIELD_RX_LATENCY_NS, 1060.13; 16 R438. -/
def Od.fieldRxLatencyNs : OdRef := ⟨0x106013, 32, 60000⟩
/-- SEG_IDLE_FRAMES, 1060.14; 16 R438. -/
def Od.segIdleFrames : OdRef := ⟨0x106014, 32, 10000⟩
/-- SCORE_ENABLE, 9000.01; 17 R465. -/
def Od.scoreEnable : OdRef := ⟨0x900001, 8, 1⟩
/-- WATCH_THRESHOLD, 9000.02; 17 R465. -/
def Od.watchThreshold : OdRef := ⟨0x900002, 16, 32⟩
/-- SUSPECT_THRESHOLD, 9000.03; 17 R465. -/
def Od.suspectThreshold : OdRef := ⟨0x900003, 16, 128⟩
/-- RETIRE_THRESHOLD, 9000.04; 17 R465. -/
def Od.retireThreshold : OdRef := ⟨0x900004, 16, 256⟩
/-- PREDICTIVE_RETIRE, 9000.05; 17 R465. -/
def Od.predictiveRetire : OdRef := ⟨0x900005, 8, 1⟩
/-- SCORE_HALF_LIFE_FRAMES, 9000.06; 17 R465. -/
def Od.scoreHalfLifeFrames : OdRef := ⟨0x900006, 32, 864000000⟩
/-- PIN_FRAMES, 9000.07; 17 R465. -/
def Od.pinFrames : OdRef := ⟨0x900007, 32, 10000⟩
/-- PARTS_WATCH, 9000.08; 17 R465. -/
def Od.partsWatch : OdRef := ⟨0x900008, 16, 0⟩
/-- PARTS_SUSPECT, 9000.09; 17 R465. -/
def Od.partsSuspect : OdRef := ⟨0x900009, 16, 0⟩
/-- PREDICTIVE_RETIRE_COUNT, 9000.0A; 17 R465. -/
def Od.predictiveRetireCount : OdRef := ⟨0x90000A, 32, 0⟩
/-- CONDITIONAL_COUNT, 9000.0B; 17 R465. -/
def Od.conditionalCount : OdRef := ⟨0x90000B, 32, 0⟩
/-- SPARE_SUMMARY, 9000.0C; 17 R465. -/
def Od.spareSummary : OdRef := ⟨0x90000C, 0, 0⟩
/-- PART_SELECT, 9001.01; 17 R465. -/
def Od.partSelect : OdRef := ⟨0x900101, 16, 4096⟩
/-- PART_RECORD, 9001.02; 17 R465. -/
def Od.partRecord : OdRef := ⟨0x900102, 0, 0⟩
/-- SCORE_TABLE, 9001.03; 17 R465. -/
def Od.scoreTable : OdRef := ⟨0x900103, 0, 0⟩
/-- BUNDLE_STAGE, 9030.01; 17 R465. -/
def Od.bundleStage : OdRef := ⟨0x903001, 0, 0⟩
/-- BUNDLE_ACTIVATE, 9030.02; 17 R465. -/
def Od.bundleActivate : OdRef := ⟨0x903002, 32, 0⟩
/-- BUNDLE_COMMIT, 9030.03; 17 R465. -/
def Od.bundleCommit : OdRef := ⟨0x903003, 8, 0⟩
/-- BUNDLE_STATE, 9030.04; 17 R465. -/
def Od.bundleState : OdRef := ⟨0x903004, 8, 0⟩
/-- STAGED_BUNDLE_ID, 9030.05; 17 R465. -/
def Od.stagedBundleId : OdRef := ⟨0x903005, 32, 0⟩
/-- TRIAL_FRAMES, 9030.06; 17 R465. -/
def Od.trialFrames : OdRef := ⟨0x903006, 32, 36000⟩
/-- AUTO_COMMIT, 9030.07; 17 R465. -/
def Od.autoCommit : OdRef := ⟨0x903007, 8, 0⟩
/-- CURATOR_ACTIVATE, 9030.08; 17 R465. -/
def Od.curatorActivate : OdRef := ⟨0x903008, 8, 0⟩
/-- CURATOR_COMMIT, 9030.09; 17 R465. -/
def Od.curatorCommit : OdRef := ⟨0x903009, 8, 0⟩
/-- ACTIVATE_WAIT_FRAMES, 9030.0A; 17 R465. -/
def Od.activateWaitFrames : OdRef := ⟨0x90300A, 32, 2000⟩
/-- REVERT_COUNT, 9030.0B; 17 R465. -/
def Od.revertCount : OdRef := ⟨0x90300B, 32, 0⟩
/-- RECALIBRATE_PORT, 9030.0C; 17 R465. -/
def Od.recalibratePort : OdRef := ⟨0x90300C, 8, 0⟩
/-- ACTIVATE_ABANDON_COUNT, 9030.0D; 17 R465. -/
def Od.activateAbandonCount : OdRef := ⟨0x90300D, 32, 0⟩
/-- LOCAL_CLASS, 9031.01; 17 R465. -/
def Od.localClass : OdRef := ⟨0x903101, 8, 0⟩
/-- MATRIX, 9031.02; 17 R465. -/
def Od.matrix : OdRef := ⟨0x903102, 0, 0⟩
/-- PAIR_REFUSED_COUNT, 9031.03; 17 R465. -/
def Od.pairRefusedCount : OdRef := ⟨0x903103, 32, 0⟩

/-- Entry tables, part 0. -/
def odTable0 : List OdRow := [
  ⟨Od.deviceId, 1, 1, .u32, .const, none, false, .none⟩,
  ⟨Od.hwRevision, 1, 1, .u8, .const, none, false, .none⟩,
  ⟨Od.vendorName, 1, 1, .string, .const, none, false, .none⟩,
  ⟨Od.productName, 1, 1, .string, .const, none, false, .none⟩,
  ⟨Od.odLayoutVersion, 1, 1, .u16, .const, none, false, .none⟩,
  ⟨Od.errorRegister, 1, 1, .u8, .ro, none, false, .none⟩,
  ⟨Od.errorAckSeq, 1, 1, .u32, .rw, none, false, .live⟩,
  ⟨Od.odAbortCount, 1, 1, .u32, .ro, none, false, .none⟩,
  ⟨Od.errorHistoryCount, 1, 1, .u8, .ro, none, false, .none⟩,
  ⟨Od.errorHistory, 1, 1, .domain, .ro, none, false, .none⟩,
  ⟨Od.eventSeq, 1, 1, .u32, .ro, none, false, .none⟩,
  ⟨Od.engineId, 1, 1, .u32, .rwField, none, true, .live⟩,
  ⟨Od.deviceSerial, 1, 1, .u64, .ro, none, false, .none⟩,
  ⟨Od.pufHelper, 1, 1, .domain, .rwField, none, true, .live⟩,
  ⟨Od.startStage, 1, 1, .u8, .ro, none, false, .none⟩,
  ⟨Od.startHold, 1, 1, .u8, .rwField, some (0, 3), true, .live⟩,
  ⟨Od.heldBefore, 1, 1, .u8, .ro, none, false, .none⟩,
  ⟨Od.stageCUnmet, 1, 1, .u8, .ro, none, false, .none⟩,
  ⟨Od.stageTimesUs, 1, 1, .domain, .ro, none, false, .none⟩,
  ⟨Od.holdReason, 1, 1, .u8, .ro, none, false, .none⟩,
  ⟨Od.catalogueChecked, 1, 1, .u8, .ro, none, false, .none⟩,
  ⟨Od.catalogueCheckFailCount, 1, 1, .u32, .ro, none, false, .none⟩,
  ⟨Od.startCount, 1, 1, .u32, .ro, none, true, .none⟩,
  ⟨(Od.jobRecord 0), 1, 4, .domain, .ro, none, true, .none⟩,
  ⟨Od.vbatLost, 1, 1, .bool, .ro, none, false, .none⟩,
  ⟨Od.batteryRegionLostCount, 1, 1, .u32, .ro, none, true, .none⟩,
  ⟨Od.retentionValid, 1, 1, .bool, .ro, none, false, .none⟩,
  ⟨Od.retentionSeconds, 1, 1, .u64, .ro, none, false, .none⟩,
  ⟨Od.vbatLowCount, 1, 1, .u32, .ro, none, true, .none⟩,
  ⟨Od.curatorImageSlot, 1, 1, .u8, .ro, none, false, .none⟩,
  ⟨Od.curatorImageVersion, 1, 1, .u32, .ro, none, false, .none⟩,
  ⟨Od.curatorImageLoad, 1, 1, .domain, .woField, none, false, .live⟩,
  ⟨Od.docentBundleLoad, 1, 1, .domain, .woHostSField, none, false, .live⟩,
  ⟨Od.svnCurator, 1, 4, .u32, .rwField, none, true, .live⟩,
  ⟨Od.docentBundleId, 1, 1, .u32, .ro, none, false, .none⟩,
  ⟨Od.imageRefusedCount, 1, 1, .u32, .ro, none, false, .none⟩]

/-- Entry tables, part 1. -/
def odTable1 : List OdRow := [
  ⟨Od.barrierErrCount, 1, 1, .u32, .ro, none, false, .none⟩,
  ⟨Od.fieldLinkUp, 1, 1, .bool, .ro, none, false, .none⟩,
  ⟨Od.fieldLinkLossCount, 1, 1, .u32, .ro, none, true, .none⟩,
  ⟨Od.fieldMacAddr, 1, 1, .domain, .ro, none, false, .none⟩,
  ⟨Od.phoazGroupAddr, 1, 1, .domain, .const, none, false, .none⟩,
  ⟨Od.plcaNodeId, 1, 1, .u8, .rwField, some (1, 255), true, .live⟩,
  ⟨Od.plcaNodeCount, 1, 1, .u8, .rwField, some (2, 255), true, .live⟩,
  ⟨Od.plcaBurstCount, 1, 1, .u8, .rwField, none, true, .live⟩,
  ⟨Od.plcaBurstTimer, 1, 1, .u8, .rwField, none, true, .live⟩,
  ⟨Od.fieldMasterAddr, 1, 1, .domain, .rwField, none, true, .live⟩,
  ⟨Od.fieldEventMask, 1, 1, .u8, .rwField, none, true, .live⟩,
  ⟨Od.authCounter, 1, 1, .u64, .ro, none, true, .none⟩,
  ⟨Od.authFailCount, 1, 1, .u32, .ro, none, true, .none⟩,
  ⟨Od.replayCount, 1, 1, .u32, .ro, none, false, .none⟩,
  ⟨Od.phoazMalformedCount, 1, 1, .u32, .ro, none, false, .none⟩,
  ⟨Od.phoazAbortCount, 1, 1, .u32, .ro, none, false, .none⟩,
  ⟨Od.eventRetryLimit, 1, 1, .u8, .rw, some (1, 20), true, .live⟩,
  ⟨Od.eventRetryMs, 1, 1, .u16, .rw, some (10, 1000), true, .live⟩,
  ⟨Od.eventDropCount, 1, 1, .u32, .ro, none, false, .none⟩,
  ⟨Od.timePubCount, 1, 1, .u32, .ro, none, false, .none⟩,
  ⟨Od.timePubRejectCount, 1, 1, .u32, .ro, none, false, .none⟩,
  ⟨Od.fieldRxLatencyNs, 1, 1, .u32, .const, none, false, .none⟩,
  ⟨Od.segIdleFrames, 1, 1, .u32, .rw, some (1000, 600000), true, .live⟩,
  ⟨Od.frameNo, 1, 1, .u32, .ro, none, false, .none⟩,
  ⟨Od.frameExt, 1, 1, .u64, .ro, none, false, .none⟩,
  ⟨Od.timeNs, 1, 1, .u64, .ro, none, false, .none⟩,
  ⟨Od.timeEpoch, 1, 1, .u16, .ro, none, true, .none⟩,
  ⟨Od.timeState, 1, 1, .u8, .ro, none, false, .none⟩,
  ⟨Od.jobOpen, 1, 1, .bool, .ro, none, false, .none⟩,
  ⟨Od.ptpDomain, 1, 1, .u8, .rw, none, true, .stopped⟩,
  ⟨Od.priority1, 1, 1, .u8, .rw, none, true, .live⟩,
  ⟨Od.priority2, 1, 1, .u8, .rw, none, true, .live⟩,
  ⟨Od.gmCapable, 1, 1, .bool, .rw, none, true, .live⟩,
  ⟨Od.portEnable, 1, 1, .u8, .rw, none, true, .live⟩,
  ⟨Od.logSyncInterval, 1, 1, .i32, .rw, some (-7, 0), true, .stopped⟩,
  ⟨Od.logAnnounceInterval, 1, 1, .i32, .rw, some (-3, 2), true, .stopped⟩]

/-- Entry tables, part 2. -/
def odTable2 : List OdRow := [
  ⟨Od.announceTimeout, 1, 1, .u8, .rw, some (2, 10), true, .stopped⟩,
  ⟨Od.logPdelayInterval, 1, 1, .i32, .rw, some (-7, 0), true, .stopped⟩,
  ⟨(Od.portAsymmetryPs 0), 1, 4, .i32, .rw, none, true, .live⟩,
  ⟨(Od.peerDelayPs 0), 1, 4, .i32, .ro, none, false, .none⟩,
  ⟨Od.trimTable, 1, 1, .domain, .rwCurator, none, true, .stopped⟩,
  ⟨Od.trimValid, 1, 1, .bool, .ro, none, true, .none⟩,
  ⟨Od.freqOffsetPpb, 1, 1, .i32, .ro, none, false, .none⟩,
  ⟨Od.holdoverAlignFrames, 1, 1, .u16, .rw, some (1, 1500), true, .live⟩,
  ⟨Od.slewLimitPpb, 1, 1, .u32, .rw, some (100, 10000), true, .live⟩,
  ⟨Od.lockThresholdPs, 1, 1, .u32, .rw, some (1000, 10000), true, .live⟩,
  ⟨Od.refOutEnable, 1, 1, .bool, .rw, none, true, .live⟩,
  ⟨Od.tickOutEnable, 1, 1, .bool, .rw, none, true, .live⟩,
  ⟨Od.tickOutAdvancePs, 1, 1, .i32, .rw, some (-5000, 5000), true, .live⟩,
  ⟨Od.ppsEnable, 1, 1, .bool, .rw, none, true, .live⟩,
  ⟨Od.ppsWidthFrames, 1, 1, .u16, .rw, some (1, 9999), true, .live⟩,
  ⟨Od.sliceRetryLimit, 1, 1, .u8, .rw, some (1, 64), true, .live⟩,
  ⟨Od.sliceRollbackCount, 1, 1, .u64, .ro, none, false, .none⟩,
  ⟨Od.sliceTruncateCount, 1, 1, .u64, .ro, none, false, .none⟩,
  ⟨Od.faultBudgetOverrunCount, 1, 1, .u32, .ro, none, false, .none⟩,
  ⟨Od.stepRefusedCount, 1, 1, .u32, .ro, none, false, .none⟩,
  ⟨Od.holdoverEntryCount, 1, 1, .u32, .ro, none, false, .none⟩,
  ⟨Od.d2dModulesActive, 1, 1, .u8, .ro, none, false, .none⟩,
  ⟨Od.d2dLaneRepairCount, 1, 1, .u32, .ro, none, true, .none⟩,
  ⟨Od.d2dModuleRetiredMask, 1, 1, .u16, .ro, none, true, .none⟩,
  ⟨Od.d2dAdapterRetryCount, 1, 1, .u64, .ro, none, false, .none⟩,
  ⟨Od.memShareReadBpf, 1, 1, .u32, .rw, some (40000000, 400000000), true, .live⟩,
  ⟨Od.memShareWriteBpf, 1, 1, .u32, .rw, some (40000000, 400000000), true, .live⟩,
  ⟨Od.carrierGrantPct, 1, 1, .u8, .ro, none, false, .none⟩,
  ⟨Od.effectiveShareReadBpf, 1, 1, .u32, .ro, none, false, .none⟩,
  ⟨Od.effectiveShareWriteBpf, 1, 1, .u32, .ro, none, false, .none⟩,
  ⟨Od.throttleWarmBulkPct, 1, 1, .u8, .rw, some (0, 100), true, .live⟩,
  ⟨Od.throttleHotPct, 1, 1, .u8, .rw, some (10, 90), true, .live⟩,
  ⟨Od.throttleCritPct, 1, 1, .u8, .rw, some (0, 50), true, .live⟩,
  ⟨Od.thermStaleFrames, 1, 1, .u32, .rw, some (10000, 100000), true, .live⟩,
  ⟨Od.stackClass, 1, 1, .u64, .ro, none, false, .none⟩,
  ⟨Od.thermHotCount, 1, 1, .u32, .ro, none, true, .none⟩]

/-- Entry tables, part 3. -/
def odTable3 : List OdRow := [
  ⟨Od.thermStaleCount, 1, 1, .u32, .ro, none, false, .none⟩,
  ⟨Od.thermalGraceSentCount, 1, 1, .u32, .ro, none, false, .none⟩,
  ⟨Od.stackCount, 1, 1, .u8, .rwHostS, some (1, 32), true, .stopped⟩,
  ⟨Od.xlatWaitLimitFrames, 1, 1, .u32, .rw, some (10, 100000), true, .live⟩,
  ⟨Od.xlatFaultCount, 1, 1, .u64, .ro, none, false, .none⟩,
  ⟨Od.memPoisonCount, 1, 1, .u32, .ro, none, true, .none⟩,
  ⟨Od.memDeniedCount, 1, 1, .u32, .ro, none, false, .none⟩,
  ⟨Od.d2dMalformedCount, 1, 1, .u32, .ro, none, false, .none⟩,
  ⟨Od.d2dCplTimeoutFrames, 1, 1, .u8, .rw, some (1, 10), true, .live⟩,
  ⟨Od.d2dCplTimeoutCount, 1, 1, .u32, .ro, none, false, .none⟩,
  ⟨Od.cwDeniedCount, 1, 1, .u32, .ro, none, false, .none⟩,
  ⟨Od.holdingCount, 1, 1, .u16, .ro, none, false, .none⟩,
  ⟨Od.ownStateBytes, 1, 1, .u64, .ro, none, false, .none⟩,
  ⟨Od.mirrorBytes, 1, 1, .u64, .ro, none, false, .none⟩,
  ⟨Od.holdingSelect, 1, 1, .u16, .rw, some (0, 4095), false, .live⟩,
  ⟨Od.holdingDesc, 1, 1, .domain, .ro, none, false, .none⟩,
  ⟨Od.extentUpdate, 1, 1, .domain, .woHosts, none, false, .live⟩,
  ⟨Od.qpCreate, 1, 1, .domain, .woHosts, none, false, .live⟩,
  ⟨Od.qpDestroy, 1, 1, .u8, .woHosts, none, false, .live⟩,
  ⟨Od.qpEnabledMask, 1, 1, .u64, .ro, none, false, .none⟩,
  ⟨Od.tasksPending, 1, 1, .u32, .ro, none, false, .none⟩,
  ⟨Od.urgentSharePct, 1, 1, .u8, .rwHostS, some (25, 100), true, .live⟩,
  ⟨Od.outboundHitCount, 1, 1, .u64, .ro, none, false, .none⟩,
  ⟨Od.lengthMismatchCount, 1, 1, .u32, .ro, none, false, .none⟩,
  ⟨Od.malformedTaskCount, 1, 1, .u32, .ro, none, false, .none⟩,
  ⟨Od.doorbellBadCount, 1, 1, .u32, .ro, none, false, .none⟩,
  ⟨Od.cancelCount, 1, 1, .u32, .ro, none, false, .none⟩,
  ⟨Od.jobsOpen, 1, 1, .u8, .ro, none, false, .none⟩,
  ⟨Od.qpFetchErrCount, 1, 1, .u32, .ro, none, false, .none⟩,
  ⟨Od.kernelImageId, 1, 1, .u32, .ro, none, false, .none⟩,
  ⟨Od.kverAdamw, 1, 1, .u16, .ro, none, false, .none⟩,
  ⟨Od.kverLion, 1, 1, .u16, .ro, none, false, .none⟩,
  ⟨Od.kverSgdm, 1, 1, .u16, .ro, none, false, .none⟩,
  ⟨Od.kverAdafactor, 1, 1, .u16, .ro, none, false, .none⟩,
  ⟨Od.streamCredits, 1, 1, .u16, .rwHostS, some (256, 4096), true, .stopped⟩,
  ⟨Od.streamCreditsFree, 1, 1, .u16, .ro, none, false, .none⟩]

/-- Entry tables, part 4. -/
def odTable4 : List OdRow := [
  ⟨Od.creditStallCycles, 1, 1, .u64, .ro, none, false, .none⟩,
  ⟨Od.starvedCycles, 1, 1, .u64, .ro, none, false, .none⟩,
  ⟨Od.writeLateCount, 1, 1, .u32, .ro, none, false, .none⟩,
  ⟨Od.laneMap, 1, 1, .domain, .ro, none, true, .none⟩,
  ⟨Od.lanesActive, 1, 1, .u8, .ro, none, false, .none⟩,
  ⟨Od.spareLanesLeft, 1, 1, .u8, .ro, none, true, .none⟩,
  ⟨Od.shadowCoverage, 1, 1, .u8, .ro, none, false, .none⟩,
  ⟨Od.shadowCheckCount, 1, 1, .u64, .ro, none, false, .none⟩,
  ⟨Od.shadowMismatchCount, 1, 1, .u32, .ro, none, true, .none⟩,
  ⟨Od.laneTransientCount, 1, 1, .u32, .ro, none, true, .none⟩,
  ⟨Od.laneRetireCount, 1, 1, .u32, .ro, none, true, .none⟩,
  ⟨Od.nonfiniteCount, 1, 1, .u64, .ro, none, false, .none⟩,
  ⟨Od.fp8SaturateCount, 1, 1, .u64, .ro, none, false, .none⟩,
  ⟨Od.elementsUpdated, 1, 1, .u64, .ro, none, true, .none⟩,
  ⟨Od.elementsApplied, 1, 1, .u64, .ro, none, true, .none⟩,
  ⟨Od.woadLevel, 1, 1, .u16, .ro, none, false, .none⟩,
  ⟨Od.factorCacheBytes, 1, 1, .u32, .const, none, false, .none⟩,
  ⟨Od.factorCacheFree, 1, 1, .u32, .ro, none, false, .none⟩,
  ⟨Od.factorCacheWaitFrames, 1, 1, .u64, .ro, none, false, .none⟩,
  ⟨Od.factorCacheEvictCount, 1, 1, .u32, .ro, none, false, .none⟩,
  ⟨Od.factorCacheUeCount, 1, 1, .u32, .ro, none, true, .none⟩,
  ⟨Od.arrayRowsActive, 1, 1, .u8, .ro, none, false, .none⟩,
  ⟨Od.arrayColsActive, 1, 1, .u8, .ro, none, false, .none⟩,
  ⟨Od.arrayMap, 1, 1, .domain, .ro, none, true, .none⟩,
  ⟨Od.arrayResidueErrCount, 1, 1, .u32, .ro, none, true, .none⟩,
  ⟨Od.arrayShadowMismatchCount, 1, 1, .u32, .ro, none, true, .none⟩,
  ⟨Od.arrayRetireCount, 1, 1, .u32, .ro, none, true, .none⟩,
  ⟨Od.woadDegenerateCount, 1, 1, .u32, .ro, none, false, .none⟩,
  ⟨Od.efGapCount, 1, 1, .u32, .ro, none, false, .none⟩,
  ⟨Od.factorPacketBadCount, 1, 1, .u32, .ro, none, false, .none⟩,
  ⟨Od.woadElementsCompressed, 1, 1, .u64, .ro, none, true, .none⟩,
  ⟨Od.woadElementsExpanded, 1, 1, .u64, .ro, none, true, .none⟩,
  ⟨Od.madderEnable, 1, 1, .bool, .rwHostS, none, true, .live⟩,
  ⟨Od.madderGenLoad, 1, 1, .domain, .woHostSDocent, none, false, .live⟩,
  ⟨Od.madderGenRecall, 1, 1, .domain, .woHostSDocent, none, false, .live⟩,
  ⟨Od.genCurrentId, 1, 1, .u16, .ro, none, false, .none⟩]

/-- Entry tables, part 5. -/
def odTable5 : List OdRow := [
  ⟨Od.genPreviousId, 1, 1, .u16, .ro, none, false, .none⟩,
  ⟨Od.genReadSelect, 1, 1, .u8, .rw, some (0, 1), false, .live⟩,
  ⟨Od.genImage, 1, 1, .domain, .ro, none, false, .none⟩,
  ⟨Od.histSelect, 1, 1, .u8, .rw, some (0, 4), false, .live⟩,
  ⟨Od.hist, 1, 1, .domain, .ro, none, false, .none⟩,
  ⟨Od.encLanesActive, 1, 1, .u8, .ro, none, false, .none⟩,
  ⟨Od.decLanesActive, 1, 1, .u8, .ro, none, false, .none⟩,
  ⟨Od.encLaneMap, 1, 1, .domain, .ro, none, true, .none⟩,
  ⟨Od.decLaneMap, 1, 1, .domain, .ro, none, true, .none⟩,
  ⟨Od.verifyCoverage, 1, 1, .u8, .ro, none, false, .none⟩,
  ⟨Od.blocksCoded, 1, 1, .u64, .ro, none, false, .none⟩,
  ⟨Od.blocksEscaped, 1, 1, .u64, .ro, none, false, .none⟩,
  ⟨Od.rawBytesIn, 1, 1, .u64, .ro, none, false, .none⟩,
  ⟨Od.codedBytesOut, 1, 1, .u64, .ro, none, false, .none⟩,
  ⟨Od.verifyMismatchCount, 1, 1, .u32, .ro, none, true, .none⟩,
  ⟨Od.decodeErrCount, 1, 1, .u32, .ro, none, true, .none⟩,
  ⟨Od.decodeRetryOkCount, 1, 1, .u32, .ro, none, true, .none⟩,
  ⟨Od.genAbsentCount, 1, 1, .u32, .ro, none, false, .none⟩,
  ⟨Od.genLoadCount, 1, 1, .u32, .ro, none, true, .none⟩,
  ⟨Od.coderLaneRetireCount, 1, 1, .u32, .ro, none, true, .none⟩,
  ⟨Od.malformedLeafCount, 1, 1, .u32, .ro, none, false, .none⟩,
  ⟨Od.genRefusedCount, 1, 1, .u32, .ro, none, false, .none⟩,
  ⟨Od.blockStoreUeCount, 1, 1, .u32, .ro, none, true, .none⟩,
  ⟨Od.galleryBytes, 1, 1, .u64, .const, none, false, .none⟩,
  ⟨Od.statsLeaves, 1, 1, .u16, .rwHostS, some (32, 1024), true, .stopped⟩,
  ⟨Od.ledgerLeaves, 1, 1, .u16, .rwHostS, some (512, 24576), true, .stopped⟩,
  ⟨Od.quarantineLeaves, 1, 1, .u16, .rwHostS, some (256, 8192), true, .stopped⟩,
  ⟨Od.egressLeaves, 1, 1, .u16, .rwHostS, some (1024, 24576), true, .stopped⟩,
  ⟨Od.regionShortMask, 1, 1, .u8, .ro, none, true, .none⟩,
  ⟨Od.regionWaitFrames, 1, 1, .u64, .ro, none, false, .none⟩,
  ⟨Od.regionOversizeCount, 1, 1, .u32, .ro, none, false, .none⟩,
  ⟨Od.scrubFramesPerRow, 1, 1, .u8, .rw, some (1, 64), true, .live⟩,
  ⟨Od.scrubPassCount, 1, 1, .u32, .ro, none, true, .none⟩,
  ⟨Od.ceRemapThreshold, 1, 1, .u8, .rw, some (2, 64), true, .live⟩,
  ⟨Od.unassignedLeaves, 1, 1, .u16, .ro, none, false, .none⟩,
  ⟨Od.regionUsed, 1, 1, .domain, .ro, none, false, .none⟩]

/-- Entry tables, part 6. -/
def odTable6 : List OdRow := [
  ⟨Od.pairState, 1, 1, .u8, .ro, none, false, .none⟩,
  ⟨Od.partnerEngineId, 1, 1, .u32, .ro, none, true, .none⟩,
  ⟨Od.mirrorMode, 1, 1, .u8, .ro, none, false, .none⟩,
  ⟨Od.pairClass, 1, 1, .u8, .ro, none, false, .none⟩,
  ⟨Od.forceCopy, 1, 1, .bool, .rwHostS, none, true, .step⟩,
  ⟨Od.pairTimeoutFrames, 1, 1, .u32, .rw, some (100, 30000), true, .live⟩,
  ⟨Od.lostFrames, 1, 1, .u16, .rw, some (4, 1000), true, .live⟩,
  ⟨Od.heartbeatFrames, 1, 1, .u8, .rw, some (1, 250), true, .live⟩,
  ⟨Od.weldJobSelect, 1, 1, .u8, .rw, some (0, 3), false, .live⟩,
  ⟨Od.mStep, 1, 1, .u64, .ro, none, false, .none⟩,
  ⟨Od.appliedStep, 1, 1, .u64, .ro, none, false, .none⟩,
  ⟨Od.mirrorLagLimit, 1, 1, .u32, .rw, some (1, 64), true, .live⟩,
  ⟨Od.outStaleFrom, 1, 1, .u64, .ro, none, false, .none⟩,
  ⟨Od.inStaleSpans, 1, 1, .u32, .ro, none, false, .none⟩,
  ⟨Od.ledgerPartnerPct, 1, 1, .u8, .rwHostS, some (25, 90), true, .stopped⟩,
  ⟨Od.recordsHeld, 1, 1, .u16, .ro, none, false, .none⟩,
  ⟨Od.recordSelect, 1, 1, .u64, .rw, none, false, .live⟩,
  ⟨Od.recordEntries, 1, 1, .domain, .ro, none, false, .none⟩,
  ⟨Od.weldPartnerLostCount, 1, 1, .u32, .ro, none, true, .none⟩,
  ⟨Od.recordLostCount, 1, 1, .u32, .ro, none, false, .none⟩,
  ⟨Od.digestMismatchCount, 1, 1, .u32, .ro, none, true, .none⟩,
  ⟨Od.leavesCopied, 1, 1, .u64, .ro, none, false, .none⟩,
  ⟨Od.recordsApplied, 1, 1, .u64, .ro, none, false, .none⟩,
  ⟨Od.weldMalformedCount, 1, 1, .u32, .ro, none, false, .none⟩,
  ⟨Od.copyDiscardCount, 1, 1, .u32, .ro, none, false, .none⟩,
  ⟨Od.levelMismatchCount, 1, 1, .u32, .ro, none, false, .none⟩,
  ⟨Od.unprotectedSteps, 1, 1, .u64, .ro, none, false, .none⟩,
  ⟨(Od.vaultTarget 0), 1, 4, .u32, .rwHostS, none, true, .stopped⟩,
  ⟨Od.ledgerPolicy, 1, 1, .u8, .rwHostS, some (0, 1), true, .step⟩,
  ⟨Od.durableLagLimit, 1, 1, .u32, .rw, some (0, 1000), true, .live⟩,
  ⟨Od.vaultReplyFrames, 1, 1, .u16, .rw, some (10, 10000), true, .live⟩,
  ⟨Od.vaultRetryLimit, 1, 1, .u8, .rw, some (1, 16), true, .live⟩,
  ⟨Od.restoreReplyFrames, 1, 1, .u16, .rw, some (4, 1000), true, .live⟩,
  ⟨(Od.dStep 0), 1, 4, .u64, .ro, none, true, .none⟩,
  ⟨(Od.aLast 0), 1, 4, .u64, .ro, none, true, .none⟩,
  ⟨(Od.aLastId 0), 1, 4, .u64, .ro, none, true, .none⟩]

/-- Entry tables, part 7. -/
def odTable7 : List OdRow := [
  ⟨Od.accOpenCount, 1, 1, .u8, .ro, none, false, .none⟩,
  ⟨Od.spareState, 1, 1, .u8, .ro, none, false, .none⟩,
  ⟨Od.bandLeavesCaptured, 1, 1, .u64, .ro, none, true, .none⟩,
  ⟨Od.bandDiscardCount, 1, 1, .u32, .ro, none, false, .none⟩,
  ⟨Od.leafMissingCount, 1, 1, .u32, .ro, none, true, .none⟩,
  ⟨Od.vaultRetryCount, 1, 1, .u32, .ro, none, false, .none⟩,
  ⟨Od.vaultFailoverCount, 1, 1, .u32, .ro, none, true, .none⟩,
  ⟨Od.vaultMalformedCount, 1, 1, .u32, .ro, none, false, .none⟩,
  ⟨Od.recordsDurable, 1, 1, .u64, .ro, none, true, .none⟩,
  ⟨Od.restoreLeavesWritten, 1, 1, .u64, .ro, none, true, .none⟩,
  ⟨Od.restoreLeafDropCount, 1, 1, .u32, .ro, none, false, .none⟩,
  ⟨Od.rollfwdSteps, 1, 1, .u64, .ro, none, true, .none⟩,
  ⟨Od.rollfwdDigestMismatchCount, 1, 1, .u32, .ro, none, true, .none⟩,
  ⟨Od.restoreServedLeaves, 1, 1, .u64, .ro, none, false, .none⟩,
  ⟨Od.deaccessionCount, 1, 1, .u32, .ro, none, true, .none⟩,
  ⟨Od.collTimeoutFrames, 1, 1, .u32, .rw, some (20, 100000), true, .live⟩,
  ⟨Od.graceMaxFrames, 1, 1, .u8, .const, none, false, .none⟩,
  ⟨Od.collRxBufferBytes, 1, 1, .u32, .rwHostS, some (1048576, 16777216), true, .stopped⟩,
  ⟨Od.fuseEnable, 1, 1, .bool, .rw, none, true, .live⟩,
  ⟨Od.fuseMaxBytes, 1, 1, .u16, .rw, some (256, 4096), true, .live⟩,
  ⟨Od.switchWaitFrames, 1, 1, .u8, .rw, some (1, 20), true, .live⟩,
  ⟨(Od.switchReduceId 0), 1, 4, .u32, .rwHostS, none, true, .stopped⟩,
  ⟨Od.groupCount, 1, 1, .u8, .ro, none, false, .none⟩,
  ⟨Od.groupSelect, 1, 1, .u16, .rw, none, false, .live⟩,
  ⟨Od.groupInfo, 1, 1, .domain, .ro, none, false, .none⟩,
  ⟨Od.collTimeoutCount, 1, 1, .u32, .ro, none, true, .none⟩,
  ⟨Od.collAbortCount, 1, 1, .u32, .ro, none, false, .none⟩,
  ⟨Od.headerMismatchCount, 1, 1, .u32, .ro, none, false, .none⟩,
  ⟨Od.collMalformedCount, 1, 1, .u32, .ro, none, false, .none⟩,
  ⟨Od.collStaleCount, 1, 1, .u32, .ro, none, false, .none⟩,
  ⟨Od.residueErrCount, 1, 1, .u32, .ro, none, true, .none⟩,
  ⟨Od.thermalGraceRecvCount, 1, 1, .u32, .ro, none, false, .none⟩,
  ⟨Od.graceIgnoredCount, 1, 1, .u32, .ro, none, false, .none⟩,
  ⟨Od.fusedMsgCount, 1, 1, .u64, .ro, none, false, .none⟩,
  ⟨Od.switchFallbackCount, 1, 1, .u32, .ro, none, false, .none⟩,
  ⟨Od.verdictGoodCount, 1, 1, .u64, .ro, none, true, .none⟩]

/-- Entry tables, part 8. -/
def odTable8 : List OdRow := [
  ⟨Od.verdictBadCount, 1, 1, .u32, .ro, none, true, .none⟩,
  ⟨Od.rxBufferWaitFrames, 1, 1, .u64, .ro, none, false, .none⟩,
  ⟨Od.linkEnable, 1, 1, .u8, .rwHostS, none, true, .live⟩,
  ⟨Od.linkRetryLimit, 1, 1, .u8, .rw, some (1, 16), true, .live⟩,
  ⟨Od.retrainLimit, 1, 1, .u8, .rw, some (1, 10), true, .live⟩,
  ⟨Od.laneCeLimit, 1, 1, .u32, .rw, some (10000, 10000000), true, .live⟩,
  ⟨Od.flapLimit, 1, 1, .u8, .rw, some (2, 16), true, .live⟩,
  ⟨Od.flapWindowFrames, 1, 1, .u32, .rw, some (1000, 1000000), true, .live⟩,
  ⟨Od.laserBiasLimitPct, 1, 1, .u8, .rw, some (110, 200), true, .live⟩,
  ⟨Od.unreachHoldFrames, 1, 1, .u16, .rw, some (10, 10000), true, .live⟩,
  ⟨Od.bindingIdleFrames, 1, 1, .u32, .rw, some (100, 1000000), true, .live⟩,
  ⟨(Od.vcWeight 0), 1, 5, .u16, .rwHostS, some (1, 256), true, .live⟩,
  ⟨(Od.vcRxCredits 0), 1, 6, .u16, .rwHostS, some (32, 4096), true, .stopped⟩,
  ⟨(Od.linkState 0), 4, 1, .u8, .ro, none, false, .none⟩,
  ⟨(Od.linkPartnerId 0), 4, 1, .u32, .ro, none, false, .none⟩,
  ⟨(Od.laneMapTx 0), 4, 1, .domain, .ro, none, true, .none⟩,
  ⟨(Od.laneMapRx 0), 4, 1, .domain, .ro, none, true, .none⟩,
  ⟨(Od.laneRetired 0), 4, 1, .u32, .ro, none, true, .none⟩,
  ⟨(Od.laserActive 0), 4, 1, .u8, .ro, none, true, .none⟩,
  ⟨(Od.laserBiasPct 0), 4, 1, .u8, .ro, none, false, .none⟩,
  ⟨(Od.laneCe 0), 4, 1, .domain, .ro, none, false, .none⟩,
  ⟨(Od.fecUncorrectableCount 0), 4, 1, .u64, .ro, none, false, .none⟩,
  ⟨(Od.flitCrcErrCount 0), 4, 1, .u64, .ro, none, false, .none⟩,
  ⟨(Od.linkRetryCount 0), 4, 1, .u64, .ro, none, false, .none⟩,
  ⟨(Od.fastRetrainCount 0), 4, 1, .u32, .ro, none, true, .none⟩,
  ⟨(Od.fullRetrainCount 0), 4, 1, .u32, .ro, none, true, .none⟩,
  ⟨(Od.laneSwapCount 0), 4, 1, .u16, .ro, none, true, .none⟩,
  ⟨(Od.laserSwitchCount 0), 4, 1, .u16, .ro, none, true, .none⟩,
  ⟨(Od.flapEventCount 0), 4, 1, .u32, .ro, none, true, .none⟩,
  ⟨(Od.rxPowerMdbm 0), 4, 1, .domain, .ro, none, false, .none⟩,
  ⟨(Od.misroutedCount 0), 4, 1, .u32, .ro, none, false, .none⟩,
  ⟨(Od.linkMalformedCount 0), 4, 1, .u32, .ro, none, false, .none⟩,
  ⟨(Od.linkMsgDropCount 0), 4, 1, .u32, .ro, none, false, .none⟩,
  ⟨(Od.laneMapReset 0), 4, 1, .bool, .woHostS, none, false, .stopped⟩,
  ⟨(Od.creditStallFrames 0), 4, 1, .u64, .ro, none, false, .none⟩,
  ⟨Od.keyStoreState, 1, 1, .u8, .ro, none, false, .none⟩]

/-- Entry tables, part 9. -/
def odTable9 : List OdRow := [
  ⟨Od.alarmSource, 1, 1, .u8, .ro, none, true, .none⟩,
  ⟨Od.alarmCount, 1, 1, .u32, .ro, none, true, .none⟩,
  ⟨Od.alarmClear, 1, 1, .bool, .woField, none, false, .live⟩,
  ⟨Od.ivEpoch, 1, 1, .u32, .ro, none, true, .none⟩,
  ⟨Od.ivEpochRandom, 1, 1, .bool, .ro, none, true, .none⟩,
  ⟨Od.wrapLoad, 1, 1, .domain, .woField, none, false, .live⟩,
  ⟨Od.fieldAuthLoad, 1, 1, .domain, .woField, none, false, .live⟩,
  ⟨Od.keySlotSelect, 1, 1, .u8, .rw, some (0, 63), false, .live⟩,
  ⟨Od.keySlotInfo, 1, 1, .domain, .ro, none, false, .none⟩,
  ⟨Od.usageLimit, 1, 1, .u64, .rwHostS, some (65536, 4294967296), true, .live⟩,
  ⟨Od.usageWarnPct, 1, 1, .u8, .rwHostS, some (50, 99), true, .live⟩,
  ⟨Od.lineageGen, 1, 1, .u16, .ro, none, true, .none⟩,
  ⟨Od.lineagePrevGen, 1, 1, .u16, .ro, none, true, .none⟩,
  ⟨Od.unwrapFailCount, 1, 1, .u32, .ro, none, true, .none⟩,
  ⟨Od.exhaustedCount, 1, 1, .u32, .ro, none, false, .none⟩,
  ⟨Od.pairsActive, 1, 1, .u8, .ro, none, false, .none⟩,
  ⟨Od.pairMap, 1, 1, .domain, .ro, none, true, .none⟩,
  ⟨Od.sparePipesLeft, 1, 1, .u8, .ro, none, true, .none⟩,
  ⟨Od.cipherMismatchCount, 1, 1, .u32, .ro, none, true, .none⟩,
  ⟨Od.pipeRetireCount, 1, 1, .u32, .ro, none, true, .none⟩,
  ⟨Od.tagFailCount, 1, 1, .u32, .ro, none, false, .none⟩,
  ⟨Od.userQuantumBlocks, 1, 1, .u16, .rw, some (16, 4096), true, .live⟩,
  ⟨Od.entropyFailCount, 1, 1, .u32, .ro, none, true, .none⟩,
  ⟨Od.suspendCount, 1, 1, .u64, .ro, none, false, .none⟩,
  ⟨Od.digestBytes, 1, 1, .u64, .ro, none, false, .none⟩,
  ⟨Od.compareNeCount, 1, 1, .u32, .ro, none, false, .none⟩,
  ⟨Od.exportCount, 1, 1, .u32, .ro, none, false, .none⟩,
  ⟨Od.pageSeqErrCount, 1, 1, .u32, .ro, none, false, .none⟩,
  ⟨Od.pageDeniedCount, 1, 1, .u32, .ro, none, false, .none⟩,
  ⟨Od.importRefusedCount, 1, 1, .u32, .ro, none, false, .none⟩,
  ⟨Od.docentActive, 1, 1, .u8, .ro, none, false, .none⟩,
  ⟨Od.docentSparesLeft, 1, 1, .u8, .ro, none, true, .none⟩,
  ⟨Od.docentMap, 1, 1, .domain, .ro, none, true, .none⟩,
  ⟨Od.docentFaultCount, 1, 1, .u32, .ro, none, true, .none⟩,
  ⟨Od.docentRetireCount, 1, 1, .u32, .ro, none, true, .none⟩,
  ⟨Od.docentTransientCount, 1, 1, .u32, .ro, none, true, .none⟩]

/-- Entry tables, part 10. -/
def odTable10 : List OdRow := [
  ⟨Od.contextSaveLateCount, 1, 1, .u32, .ro, none, false, .none⟩,
  ⟨Od.logFullStallCycles, 1, 1, .u64, .ro, none, false, .none⟩,
  ⟨Od.syncWords, 1, 1, .u32, .const, none, false, .none⟩,
  ⟨Od.syncUnderflowCount, 1, 1, .u32, .ro, none, false, .none⟩,
  ⟨Od.syncWaitsActive, 1, 1, .u8, .ro, none, false, .none⟩,
  ⟨Od.syncWaitTable, 1, 1, .domain, .ro, none, false, .none⟩,
  ⟨Od.syncOwnerReset, 1, 1, .u8, .woHosts, none, false, .live⟩,
  ⟨Od.deadlockFrames, 1, 1, .u32, .rw, some (10, 100000), true, .live⟩,
  ⟨Od.deadlockCount, 1, 1, .u32, .ro, none, false, .none⟩,
  ⟨Od.stallCount, 1, 1, .u32, .ro, none, false, .none⟩,
  ⟨Od.orphanCount, 1, 1, .u32, .ro, none, false, .none⟩,
  ⟨Od.notAsFoundCount, 1, 1, .u32, .ro, none, false, .none⟩,
  ⟨Od.syncBadCmdCount, 1, 1, .u32, .ro, none, false, .none⟩,
  ⟨Od.syncUeCount, 1, 1, .u32, .ro, none, true, .none⟩,
  ⟨Od.mboxTimeoutFrames, 1, 1, .u16, .rw, some (1, 10000), true, .live⟩,
  ⟨(Od.mboxClass 0), 1, 16, .u8, .rwChannel, some (0, 1), true, .live⟩,
  ⟨Od.mboxTimeoutCount, 1, 1, .u32, .ro, none, false, .none⟩,
  ⟨Od.mboxSeqErrCount, 1, 1, .u32, .ro, none, false, .none⟩,
  ⟨Od.mboxErrCount, 1, 1, .u32, .ro, none, false, .none⟩,
  ⟨Od.mboxLateAckCount, 1, 1, .u32, .ro, none, false, .none⟩,
  ⟨Od.mboxServices, 1, 1, .domain, .ro, none, false, .none⟩,
  ⟨Od.mboxMsgCount, 1, 1, .u64, .ro, none, false, .none⟩,
  ⟨Od.scoreEnable, 1, 1, .bool, .rwHostS, none, true, .live⟩,
  ⟨Od.watchThreshold, 1, 1, .u16, .rw, some (8, 1024), true, .live⟩,
  ⟨Od.suspectThreshold, 1, 1, .u16, .rw, some (16, 4096), true, .live⟩,
  ⟨Od.retireThreshold, 1, 1, .u16, .rw, some (32, 8192), true, .live⟩,
  ⟨Od.predictiveRetire, 1, 1, .bool, .rwHostS, none, true, .live⟩,
  ⟨Od.scoreHalfLifeFrames, 1, 1, .u32, .rw, some (36000000, 4000000000), true, .live⟩,
  ⟨Od.pinFrames, 1, 1, .u32, .rw, some (1000, 1000000), true, .live⟩,
  ⟨Od.partsWatch, 1, 1, .u16, .ro, none, false, .none⟩,
  ⟨Od.partsSuspect, 1, 1, .u16, .ro, none, false, .none⟩,
  ⟨Od.predictiveRetireCount, 1, 1, .u32, .ro, none, true, .none⟩,
  ⟨Od.conditionalCount, 1, 1, .u32, .ro, none, true, .none⟩,
  ⟨Od.spareSummary, 1, 1, .domain, .ro, none, false, .none⟩,
  ⟨Od.partSelect, 1, 1, .u16, .rw, none, false, .live⟩,
  ⟨Od.partRecord, 1, 1, .domain, .ro, none, false, .none⟩]

/-- Entry tables, part 11. -/
def odTable11 : List OdRow := [
  ⟨Od.scoreTable, 1, 1, .domain, .ro, none, true, .none⟩,
  ⟨Od.selftestLastResult, 1, 1, .u64, .ro, none, true, .none⟩,
  ⟨Od.selftestProgress, 1, 1, .u8, .ro, none, false, .none⟩,
  ⟨Od.selftestFailCount, 1, 1, .u32, .ro, none, true, .none⟩,
  ⟨Od.galleryCeCount, 1, 1, .u64, .ro, none, true, .none⟩,
  ⟨Od.galleryUeCount, 1, 1, .u32, .ro, none, true, .none⟩,
  ⟨Od.datapathCeCount, 1, 1, .u64, .ro, none, false, .none⟩,
  ⟨Od.datapathUeCount, 1, 1, .u32, .ro, none, true, .none⟩,
  ⟨Od.rowRemapCount, 1, 1, .u32, .ro, none, true, .none⟩,
  ⟨Od.secondaryRemapCount, 1, 1, .u32, .ro, none, true, .none⟩,
  ⟨Od.slotRetireCount, 1, 1, .u16, .ro, none, true, .none⟩,
  ⟨Od.primarySparesLeft, 1, 1, .u32, .ro, none, false, .none⟩,
  ⟨Od.secondarySparesLeft, 1, 1, .u16, .ro, none, false, .none⟩,
  ⟨Od.remapTable, 1, 1, .domain, .ro, none, true, .none⟩,
  ⟨Od.remapTableUsed, 1, 1, .u16, .ro, none, true, .none⟩,
  ⟨Od.remapEntryLostCount, 1, 1, .u32, .ro, none, true, .none⟩,
  ⟨Od.ueDropCount, 1, 1, .u32, .ro, none, true, .none⟩,
  ⟨Od.tableValid, 1, 1, .bool, .ro, none, false, .none⟩,
  ⟨Od.poisonReadCount, 1, 1, .u32, .ro, none, false, .none⟩,
  ⟨Od.bundleStage, 1, 1, .domain, .woHostSField, none, false, .live⟩,
  ⟨Od.bundleActivate, 1, 1, .u32, .woHostSField, none, false, .live⟩,
  ⟨Od.bundleCommit, 1, 1, .bool, .woHostSField, none, false, .live⟩,
  ⟨Od.bundleState, 1, 1, .u8, .ro, none, false, .none⟩,
  ⟨Od.stagedBundleId, 1, 1, .u32, .ro, none, false, .none⟩,
  ⟨Od.trialFrames, 1, 1, .u32, .rw, some (1000, 600000), true, .live⟩,
  ⟨Od.autoCommit, 1, 1, .bool, .rwHostS, none, true, .live⟩,
  ⟨Od.curatorActivate, 1, 1, .u8, .woField, some (1, 2), false, .live⟩,
  ⟨Od.curatorCommit, 1, 1, .bool, .woField, none, false, .live⟩,
  ⟨Od.activateWaitFrames, 1, 1, .u32, .rw, some (100, 100000), true, .live⟩,
  ⟨Od.revertCount, 1, 1, .u32, .ro, none, true, .none⟩,
  ⟨Od.recalibratePort, 1, 1, .u8, .woHostS, some (0, 3), false, .live⟩,
  ⟨Od.activateAbandonCount, 1, 1, .u32, .ro, none, false, .none⟩,
  ⟨Od.localClass, 1, 1, .u8, .ro, none, false, .none⟩,
  ⟨Od.matrix, 1, 1, .domain, .ro, none, false, .none⟩,
  ⟨Od.pairRefusedCount, 1, 1, .u32, .ro, none, true, .none⟩,
  ⟨Od.powerState, 1, 1, .u8, .ro, none, false, .none⟩]

/-- Entry tables, part 12. -/
def odTable12 : List OdRow := [
  ⟨Od.powerStateLimit, 1, 1, .u8, .rw, some (0, 3), true, .live⟩,
  ⟨Od.e1IdleFrames, 1, 1, .u32, .rw, some (1, 10000), true, .live⟩,
  ⟨Od.e2IdleFrames, 1, 1, .u32, .rw, some (100, 1000000), true, .live⟩,
  ⟨Od.e3IdleFrames, 1, 1, .u32, .rw, some (10000, 36000000), true, .live⟩,
  ⟨Od.e1ExitNs, 1, 1, .u32, .const, none, false, .none⟩,
  ⟨Od.e2ExitUs, 1, 1, .u32, .const, none, false, .none⟩,
  ⟨Od.e3ExitMs, 1, 1, .u32, .const, none, false, .none⟩,
  ⟨Od.e1EntryCount, 1, 1, .u32, .ro, none, false, .none⟩,
  ⟨Od.e2EntryCount, 1, 1, .u32, .ro, none, false, .none⟩,
  ⟨Od.e3EntryCount, 1, 1, .u32, .ro, none, false, .none⟩,
  ⟨Od.lendEnable, 1, 1, .bool, .rwHostS, none, true, .live⟩,
  ⟨Od.lendWaitFrames, 1, 1, .u16, .rw, some (1, 1000), true, .live⟩,
  ⟨Od.lendReserveMw, 1, 1, .u32, .rwHostS, some (0, 7800), true, .live⟩,
  ⟨Od.powerLentMw, 1, 1, .u32, .ro, none, false, .none⟩,
  ⟨Od.lendWakeDelayCount, 1, 1, .u32, .ro, none, false, .none⟩]

/-- Every entry table of the dictionary, by rising index. -/
def odTable : List OdRow :=
  odTable0 ++ odTable1 ++ odTable2 ++ odTable3 ++ odTable4 ++ odTable5 ++ odTable6 ++ odTable7 ++ odTable8 ++ odTable9 ++ odTable10 ++ odTable11 ++ odTable12

/-- The row that holds a key, when the dictionary has the entry (R408). -/
def odRowOf (key : Nat) : Option OdRow :=
  odTable.find? fun r =>
    r.ref.key / 256 ≤ key / 256 && key / 256 < r.ref.key / 256 + r.indices &&
    r.ref.key % 256 ≤ key % 256 && key % 256 < r.ref.key % 256 + r.subs

/-- The default of an entry: the rows of several entries have one default but for the three listed. -/
def OdRow.refOf (r : OdRow) (key : Nat) : OdRef :=
  if r.ref.key == (Od.vcWeight 0).key then Od.vcWeight (key - r.ref.key)
  else if r.ref.key == (Od.vcRxCredits 0).key then Od.vcRxCredits (key - r.ref.key)
  else if r.ref.key == (Od.mboxClass 0).key then Od.mboxClass (key - r.ref.key)
  else { r.ref with key := key }

/-- The highest subindex in use at an index, when the index exists (R408). -/
def odHighest (index : Nat) : Option Nat :=
  let rs := odTable.filter fun r => r.ref.key / 256 ≤ index && index < r.ref.key / 256 + r.indices
  if rs.isEmpty then none else some (rs.foldl (fun m r => max m (r.ref.key % 256 + r.subs - 1)) 0)

/-- Whether a key lies in the part of the dictionary that the Curator holds (R395): the entries of chapter 15, the time
entries at 0x2000 to 0x2030, the security entries at 0x7000 to 0x7010, and the identity, event and Phoaz entries that it
answers with. -/
def odCurator (key : Nat) : Bool :=
  let i := key / 256
  (0x1000 ≤ i && i ≤ 0x1060) || (0x2000 ≤ i && i ≤ 0x2030) || (0x7000 ≤ i && i ≤ 0x7010)

end Sys2Proof.Machine
end

