-- ==== Sys2Proof/Machine/State.lean ====
section
/-!
DEFINITION. The state of the block: one structure per unit of the engine, gathered in `State`, and the reasons a step can
stop. Each field's docstring names its meaning, its width, the chapter and rule of spec/ that gives it, and its reset value
(the default value of the field).
-/
namespace Sys2Proof.Machine

/-- The time states of Table 02-3. -/
inductive TimeState
  | unset | coarse | field | synced | grandmaster | holdover
  deriving DecidableEq, Repr

/-- Code of TIME_STATE in TIME_STATUS (Table 02-7). -/
def TimeState.code : TimeState → Nat
  | .unset => 0 | .coarse => 1 | .field => 2 | .synced => 3 | .grandmaster => 4 | .holdover => 5

/-- A foreign master heard on a port (R40: the default best master clock algorithm): its port identity, the body of its last
Announce, and when that one and the one before it came. -/
structure ForeignMaster where
  source : BitVec 80
  body   : AnnounceBody
  /-- TIME_NS of the last Announce. -/
  heard  : Nat
  /-- TIME_NS of the Announce before it, none for the first. -/
  before : Option Nat := none
  deriving DecidableEq, Repr

/-- The PTP state of one port (R40, Table 02-4). -/
structure PtpPort where
  /-- Sync awaiting its Follow_Up: sequence, source, receive time in ps (Table 02-4: two-step); 02 R40; reset none. -/
  pendingSync : Option (BitVec 16 × BitVec 80 × Nat × BitVec 64) := none
  /-- The foreign masters heard on the port, one for each source; 02 R37 R40; reset none. -/
  foreigns : List ForeignMaster := []
  /-- Sequence of the Pdelay_Req outstanding and its send time t1 in ps; 02 R40; reset none. -/
  pdelaySent : Option (BitVec 16 × Nat) := none
  /-- t2 (ps, corrected) and t4 (ps) of the exchange once its Pdelay_Resp has come; 02 R40; reset none. -/
  pdelayRsp : Option (Int × Nat) := none
  /-- Sequence number of the next Sync this port sends, 16 bits; 02 R40; reset 0, DESIGN CHOICE. -/
  syncSeq : Nat := 0
  /-- Sequence number of the next Announce this port sends, 16 bits; 02 R41; reset 0, DESIGN CHOICE. -/
  announceSeq : Nat := 0
  /-- Sequence number of the next Pdelay_Req this port sends, 16 bits; 02 R40; reset 0, DESIGN CHOICE. -/
  pdelaySeq : Nat := 0
  deriving DecidableEq, Repr

/-- The time unit: counter, tick, time state and PTP (R23 to R50). -/
structure TimeUnit where
  /-- FRAME_EXT, 64 bits: floor(TIME_NS / 100,000); 02 R23; reset 0. -/
  frameExt : Nat := 0
  /-- FRAME_CYCLE, 18 bits: DCLK cycle within the frame, 0 to 159,999; 02 R49; reset 0. -/
  cycle : Nat := 0
  /-- TIME_STATE; 02 R37; reset UNSET. -/
  state : TimeState := .unset
  /-- ALIGN_UNCERTAIN of TIME_STATUS, 1 bit; 02 R36; reset 0. -/
  alignUncertain : Bool := false
  /-- STEP_REFUSED of TIME_STATUS, 1 bit, W1C; 02 R38; reset 0. -/
  stepRefused : Bool := false
  /-- PTP parent port while SYNCED (PARENT_PORT, 0xF otherwise); 02 R37; reset none. -/
  parent : Option Port := none
  /-- The parent the BMCA has selected and the lock criterion is being met for; 02 R37; reset none. -/
  candidate : Option Port := none
  /-- Port identity of the clock followed (the parent's or the candidate's), 80 bits; 02 R37 R40; reset 0. -/
  parentId : BitVec 80 := 0
  /-- Sync messages in a row with the offset within LOCK_THRESHOLD_PS, 0 to 16; 02 R37; reset 0. -/
  lockRun : Nat := 0
  /-- Frame in which the present HOLDOVER was entered; 02 R36; reset none. -/
  holdoverSince : Option Nat := none
  /-- ALIGN_UNCERTAIN already raised for this HOLDOVER; 02 R36; reset false. -/
  holdoverReported : Bool := false
  /-- Frame from which SYNCED has been held, for the trim refinement; 02 R34; reset none. -/
  syncedSince : Option Nat := none
  /-- Time traces to a field-master publication (clockClass 13, or 14 in HOLDOVER); 02 R41; reset false. -/
  fieldTraced : Bool := false
  /-- Last measured offset from the parent, in ps; 02 R37; reset 0. -/
  offsetPs : Int := 0
  /-- Correction still to be slewed out, in ps; 02 R25 R38; reset 0. -/
  slewPs : Int := 0
  /-- Frequency by which the correction is slewed, in tenths of a ppb; 02 R25; reset 0. -/
  slewRate : Int := 0
  /-- HOLDOVER_ALIGN_FRAMES expiries counted (R36 names no entry); 02 R36; reset 0. -/
  alignCount : Nat := 0
  /-- The four PTP ports, one per fabric port; 02 R40. -/
  ports : Vector PtpPort 4 := Vector.replicate 4 {}
  /-- FRAME_EXT_HI as latched, 32 bits; 02 R49; reset 0. -/
  latFrameExtHi : Nat := 0
  /-- TIME_NS_LO as latched by a FRAME_EXT_LO read, 32 bits; 02 R49; reset 0. -/
  latTimeNsLo : Nat := 0
  /-- TIME_NS_HI as latched, 32 bits; 02 R49; reset 0. -/
  latTimeNsHi : Nat := 0
  /-- FRAME_CYCLE as latched, 18 bits; 02 R49; reset 0. -/
  latCycle : Nat := 0
  /-- PPS pin: frames for which it is still high, 0 while low; 02 R45, 18 R473; reset 0. -/
  ppsLeft : Nat := 0
  /-- TICK_OUT pin: the boundary last pulsed, none before the first; 02 R44; reset none. -/
  tickOut : Option Nat := none
  /-- Frame of the last TIME_REQ answered, for the limit of one per frame; 03 R56; reset none. -/
  timeReqFrame : Option Nat := none
  deriving DecidableEq, Repr

/-- What a request to carrier memory is for: it decides what its completion, its fault and its timeout do (R57, R65
to R67, R77). Task numbers are the model's own names for admitted tasks. -/
inductive ReqOwner
  /-- A read of a lane or Woad slice's operand, for a task. -/
  | sliceRead (task : Nat) (holding : Nat) (leaf : Nat)
  /-- A write of a slice's results, for a task. -/
  | sliceWrite (task : Nat)
  /-- A read of the submission ring slot of a pair. -/
  | sqRead (qp : Nat) (slot : Nat)
  /-- A write of a completion-ring granule of a pair. -/
  | cqWrite (qp : Nat) (slot : Nat)
  /-- The extent-table read of REGISTER_HOLDING. -/
  | extentTable (task : Nat)
  /-- The member-table read of GROUP_JOIN and GROUP_REFORM. -/
  | memberTable (task : Nat)
  /-- A Holding read of a collective, CATALOGUE_FETCH or KEY_UNWRAP. -/
  | taskRead (task : Nat)
  /-- A Holding write of a collective or CATALOGUE_FETCH. -/
  | taskWrite (task : Nat)
  /-- A restore write of one Leaf. -/
  | restoreWrite (task : Nat) (leaf : Nat)
  /-- A restore-serving read, a copy or a mirror-digest read of one Leaf. -/
  | serveRead (xfer : Nat)
  /-- A write of a span copy to the MIRROR Holdings. -/
  | copyWrite (job : Nat) (master : Nat) (index : Nat)
  /-- Own Ledger staging read again from its source (08 R202). -/
  | stageRead (job : Nat) (step : Nat)
  /-- A request whose work has ended: its completion is taken and nothing follows. -/
  | orphan
  deriving DecidableEq, Repr

/-- An outstanding MRD or MWR (R55, R57). -/
structure D2dReq where
  tag     : Nat
  kind    : MemKind
  addr    : Nat
  len     : Nat
  frame   : Nat
  owner   : ReqOwner
  /-- Holding and extent the address belongs to, when it belongs to one (R65). -/
  extent  : Option (Nat × Nat)
  /-- The bytes of a write, as address and value. -/
  cells   : List (Nat × Byte)
  deriving DecidableEq, Repr

/-- A registered Holding: its 64-byte descriptor (Table 03-8), its job, and the engine's own copy of its extent table
(R61). -/
structure Holding where
  desc    : BitVec 512
  job     : JobId
  extents : List (BitVec 64)
  deriving DecidableEq, Repr

/-- A REGISTER_HOLDING whose extent-table read is in progress (R64). -/
structure Registering where
  task     : Nat
  desc     : BitVec 512
  job      : JobId
  deriving DecidableEq, Repr

/-- An extent marked pending by XLAT_FAULT (R65). -/
structure PendingExtent where
  holding  : Nat
  extent   : Nat
  frame    : Nat
  reported : Bool
  deriving DecidableEq, Repr

/-- A write of a transfer that is no slice, held in the Gallery until carrier memory has accepted all of it (R57, R65). -/
structure WriteXfer where
  owner   : ReqOwner
  holding : Nat
  /-- First packed byte of the Holding. -/
  off     : Nat
  bytes   : Bytes
  /-- It starts again from its first byte at a boundary. -/
  restart : Bool := false
  /-- Timeouts in a row (R57). -/
  again   : Nat := 0
  deriving DecidableEq, Repr

/-- Carrier addresses, from lo up to hi, that slices of a task have written and not committed (R94). -/
structure Dirty where
  /-- The task, or the key of its run-in. -/
  key  : Nat
  lo   : Nat
  hi   : Nat
  /-- Written by the slice that is open; else by one that has rolled back. -/
  open_ : Bool
  deriving DecidableEq, Repr

/-- The thermal report of one carrier stack (R69). -/
structure Stack where
  /-- Class last reported, 0 COOL to 3 CRITICAL; 03 R69; reset 1 WARM until its first report. -/
  cls      : Nat := 1
  /-- Frame of the last report, or of the training of the mainband; 03 R69; reset none. -/
  since    : Option Nat := none
  /-- The lapse of THERM_STALE_FRAMES has been counted; 03 R69; reset false. -/
  stale    : Bool := false
  deriving DecidableEq, Repr

/-- Units that the planner divides in a frame (R12, R15, R17, R68, R149, R179, R340): bytes of carrier memory and of the
Gallery in each direction, symbols of the coders, bytes of the outbound cipher pairs, MACs of the array, elements of the
lanes, bytes of the own part of LEDGER. -/
structure Units where
  read     : Nat := 0
  write    : Nat := 0
  galRead  : Nat := 0
  galWrite : Nat := 0
  enc      : Nat := 0
  dec      : Nat := 0
  cipher   : Nat := 0
  array    : Nat := 0
  lanes    : Nat := 0
  own      : Nat := 0
  deriving DecidableEq, Repr

/-- Work that the planner grants and that takes no slices (Table 01-4). -/
inductive Work
  /-- A restore task. -/
  | restore (task : Nat)
  /-- A request served. -/
  | serve (request : Nat)
  /-- Span copies that a job installs (R228, R229). -/
  | install (job : Nat)
  /-- Direct reads of spans to copy (R227). -/
  | copyRead (job : Nat)
  /-- Vault egress, Vault copies among it. -/
  | drain
  deriving DecidableEq, Repr

/-- What is left of the grant of a piece of work in the frame. -/
structure Grant where
  work  : Work
  units : Units
  deriving DecidableEq, Repr

/-- The D2D attachment, the transaction layer and the Holdings (R51 to R72). -/
structure Carrier where
  /-- Mainband trained, control window open; 15 R390; reset false. -/
  mainband : Bool := false
  /-- Outstanding MRD and MWR, oldest first; 03 R55; reset empty. -/
  reqs : List D2dReq := []
  /-- Tag of the next request the engine issues, 16 bits; 03 Table 03-2; reset 0, DESIGN CHOICE. -/
  nextTag : Nat := 0
  /-- Memory grant in percent; 03 R68; reset 100. -/
  grantPct : Nat := 100
  /-- GRANT received in this frame, effective at the next boundary; 03 R68; reset none. -/
  grantNext : Option Nat := none
  /-- The 32 stacks; 03 R69. -/
  thermStacks : Vector Stack 32 := Vector.replicate 32 {}
  /-- Worst class applied at the last boundary; 03 R70; reset WARM (every stack is WARM until its first report). -/
  worst : Nat := 1
  /-- ALARM_SUMMARY [4] THERMAL_CRITICAL, W1C; 03 Table 03-7; reset 0. -/
  alThermal : Bool := false
  /-- ALARM_SUMMARY [3] D2D_DEGRADED, W1C; 03 R53; reset 0. -/
  alDegraded : Bool := false
  /-- ALARM_SUMMARY [2] XLAT_TIMEOUT, W1C; 03 R65; reset 0. -/
  alXlat : Bool := false
  /-- The registered Holdings, by rising HOLDING_ID; 03 R61 R64; reset empty. -/
  holdings : List Holding := []
  /-- Registrations in progress; 03 R64; reset empty. -/
  registering : List Registering := []
  /-- Writes of transfers in progress; 03 R57 R65; reset empty. -/
  writes : List WriteXfer := []
  /-- What uncommitted slices have written; 04 R94; reset empty. -/
  dirty : List Dirty := []
  /-- Extents marked pending; 03 R65; reset empty. -/
  pendingExt : List PendingExtent := []
  /-- EXTENT_UPDATE values accepted and not yet in effect; 03 R61, 16 R414; reset empty. -/
  extUpdates : List (Nat × Nat × BitVec 64) := []
  /-- UCIe lane repairs under way: module and frame of the failure; 02 R32, 03 R53; reset none. -/
  laneRepairs : List (Nat × Nat) := []
  /-- What the planner's grants leave of the frame's units, for fetching ahead and for work that becomes ready in the
  frame; 01 R12 R15 R17, 03 R68, 05 R125, 06 R149, 07 R179; reset 0. -/
  left : Units := {}
  /-- Grants of the frame to work that takes no slices; 01 R15; reset none. -/
  grants : List Grant := []
  /-- What ranks 6 to 8 may still read and write of carrier memory in the frame, bytes; 03 R70; reset 0. -/
  bulkRead : Nat := 0
  bulkWrite : Nat := 0
  deriving DecidableEq, Repr

/-- A completion entry that the engine holds (R76, R83). -/
structure HeldEntry where
  /-- The entry without SQ_HEAD and PHASE. -/
  bits   : BitVec 256
  intr   : Bool
  /-- Number of its task. -/
  task   : Nat
  /-- The CANCEL that ended the task: its own entry follows this one (R97). -/
  behind : Option Nat
  deriving DecidableEq, Repr

/-- A queue pair (R73 to R78, Table 04-2). -/
structure QueuePair where
  /-- Pair number, 0 to 63. -/
  q         : Nat
  owner     : Host2
  sqBase    : Nat
  cqBase    : Nat
  sqLog2    : Nat
  cqLog2    : Nat
  vector    : Nat
  /-- SQ_TAIL, 16 bits. -/
  sqTail    : Nat := 0
  /-- SQ_HEAD, 16 bits. -/
  sqHead    : Nat := 0
  /-- CQ_HEAD, 16 bits. -/
  cqHead    : Nat := 0
  /-- CQ_TAIL, 16 bits: the next entry the engine will write. -/
  cqTail    : Nat := 0
  /-- Entries written so far, for PHASE (R83). -/
  written   : Nat := 0
  /-- QP_PENDING (Table 04-2). -/
  pendingCt : Nat := 0
  fetchErr  : Bool := false
  bellErr   : Bool := false
  /-- QP_DESTROY accepted, removal pending (R78). -/
  dying     : Bool := false
  /-- Records read from the ring and not yet admitted, in ring order. -/
  fetched   : List (BitVec 1024) := []
  /-- Ring slots whose read failed, waiting for the retry of R77. -/
  badReads  : List Nat := []
  /-- Completion entries not yet written, in completion order. -/
  entries   : List HeldEntry := []
  /-- The write of the first of them has been sent and is not yet accepted. -/
  writing   : Bool := false
  /-- That write failed and waits for the retry of R77. -/
  badWrite  : Bool := false
  /-- The ring as the engine last wrote it, by slot. -/
  ring      : List (Nat × BitVec 256) := []
  /-- Frame of the last INTR sent for the pair (R83: one per frame). -/
  intrFrame : Option Nat := none
  deriving DecidableEq, Repr

/-- State of a tag (R89). FREE tags are not listed. -/
inductive TagState
  | pending | doneOk | doneFail
  deriving DecidableEq, Repr

/-- Where an admitted task stands. -/
inductive Phase
  /-- Waiting for its dependences (R91). -/
  | waiting
  /-- Ready and checked, waiting for the frame planner or in its slices. -/
  | running
  /-- Cancelled while running: no further slice (Table 04-11). -/
  | stopping
  deriving DecidableEq, Repr

/-- A repair that a rolled-back slice waits for (Table 02-1). -/
inductive Repair
  /-- LANE_REPAIR of an update lane. -/
  | lane
  /-- ARRAY_REPAIR of the Woad array. -/
  | array
  /-- ROW_REMAP of the Gallery row that held its words. -/
  | row
  deriving DecidableEq, Repr

/-- The slice granted to a task for the frame (R15, R17, R26). -/
structure Slice where
  /-- First unit of the slice. -/
  start   : Nat
  /-- Units granted. -/
  size    : Nat
  /-- Units issued so far. -/
  issued  : Nat
  /-- A fault has interrupted the slice: it rolls back at the closing tick (R30). -/
  faulted : Bool := false
  /-- The rollback is an XLAT_FAULT's and does not count toward R31 (R65). -/
  free    : Bool := false
  /-- Vector operations of Gram-Schmidt granted (R149). -/
  ops     : Nat := 0
  /-- They have been run. -/
  opsRun  : Bool := false
  /-- The repair that its retry waits for (R30, Table 02-1). -/
  cause   : Option Repair := none
  deriving DecidableEq, Repr

/-- An admitted task (R79 to R99). -/
structure Task where
  /-- Admission number: the order of R75, never reused. -/
  id        : Nat
  qp        : Nat
  owner     : Host2
  record    : BitVec 1024
  phase     : Phase := .waiting
  /-- SYNC_WORD has been seen in its condition (R90). -/
  syncSeen  : Bool := false
  /-- Predecessor tags that have been DONE_OK (R89): a tag taken again later changes nothing for the task. -/
  met       : List Nat := []
  /-- Tag of the running SELFTEST behind which this one waited and which has failed (R102). -/
  predFailed : Option Nat := none
  /-- Units completed (committed). -/
  done      : Nat := 0
  /-- Slices rolled back (ROLLBACK_COUNT). -/
  rollbacks : Nat := 0
  /-- Rollbacks or transfer timeouts in a row (R31, R57). -/
  inRow     : Nat := 0
  /-- Rollbacks in a row of the slice that a run-in has begun while another slice is still open (R127). -/
  runRow    : Nat := 0
  slice     : Option Slice := none
  /-- Units of the next frame's slice issued by the run-in (R127). -/
  runIn     : Nat := 0
  /-- Pass of a multi-pass task, counted from 1 (R114). -/
  pass      : Nat := 1
  /-- First boundary at which the slice may be offered again (R30). -/
  notBefore : Nat := 0
  /-- Repair that must be over before the slice is offered again (R30). -/
  repair    : Option Repair := none
  /-- Status recorded while the task still runs: a poisoned read, a denied write. -/
  failWith  : Option (Nat × Nat × Nat) := none
  /-- Number of the CANCEL that ends the task (Table 04-11). -/
  cancelTag : Option Nat := none
  /-- Frame in which the task became ready. -/
  readyAt   : Nat := 0
  /-- First element that no frame of the task had issued when its last slice was rolled back (08 R202). -/
  high      : Nat := 0
  /-- Scratch result words of the task's own type, as its chapter names them. -/
  detail    : Nat := 0
  detail2   : Nat := 0
  result    : Nat := 0
  deriving DecidableEq, Repr

/-- A running SELFTEST (R102 to R104). -/
structure SelfTest where
  task    : Nat
  /-- Items still to run, in order, with the steps left of the first. -/
  items   : List Nat
  steps   : Nat
  ran     : Nat
  failed  : Nat
  start   : Nat
  total   : Nat
  first   : Option (Nat × Nat)
  /-- A step of the first item runs in this frame. -/
  running : Bool := false
  deriving DecidableEq, Repr

/-- One job (R85, Table 01-5). -/
structure Job where
  open_   : Bool := false
  owner   : Host2 := .ns
  /-- LINEAGE_ID, 128 bits; 04 R85; reset 0. -/
  lineage : Nat := 0
  /-- STEP_NO of the JOB_OPEN: no mark of a step up to it can be accepted (R87, R88); reset 0. -/
  openStep : Nat := 0
  /-- C, 64 bits; 01 Table 01-5; reset 0. -/
  c       : Nat := 0
  /-- V, 64 bits, battery-backed; 01 Table 01-5; reset 0. -/
  v       : Nat := 0
  /-- M, 64 bits; 01 Table 01-5; reset 0. -/
  m       : Nat := 0
  /-- D, 64 bits, battery-backed; 01 Table 01-5; reset 0. -/
  d       : Nat := 0
  /-- A_LAST, 64 bits, battery-backed; 01 Table 01-5; reset 0. -/
  aLast   : Nat := 0
  /-- A bad verdict is outstanding (R87); reset false. -/
  badVerdict : Bool := false
  /-- Steps whose fingerprint is bad, with the reason of R270. -/
  badSteps : List Nat := []
  deriving DecidableEq, Repr

/-- The power states of Table 04-12a. -/
inductive PowerState
  | e0 | e1 | e2 | e3
  deriving DecidableEq, Repr

def PowerState.code : PowerState → Nat
  | .e0 => 0 | .e1 => 1 | .e2 => 2 | .e3 => 3

/-- The queues and the graph scheduler (R73 to R105). -/
structure Sched where
  /-- The queue pairs that exist, by rising number; 04 R73; reset none. -/
  qps : List QueuePair := []
  /-- Pairs whose QP_CREATE has been accepted and takes effect at the next boundary; 04 R73, 16 R414; reset none. -/
  creating : List QueuePair := []
  /-- Doorbells not yet worked off: pair and slot of each visible record, in order of arrival; 04 R75; reset empty. -/
  bells : List (Nat × Nat) := []
  /-- Admitted tasks, in admission order; 04 R89 R92; reset empty. -/
  tasks : List Task := []
  /-- Next admission number; 04 R75; reset 0. -/
  nextId : Nat := 0
  /-- Tags that are not FREE, per owner agent; 04 R89; reset all FREE. -/
  tags : List (Host2 × Nat × TagState) := []
  /-- Jobs whose last admitted control task was a JOB_CLOSE; 04 R80; reset none. -/
  closing : List Nat := []
  /-- The running self-test; 04 R102; reset none. -/
  selftest : Option SelfTest := none
  /-- POWER_STATE; 04 R100; reset E0. -/
  power : PowerState := .e0
  /-- Exit from E1 to E3 in progress; 04 R101; reset false. -/
  exiting : Bool := false
  /-- Idle frames in a row in the present state; 04 R101; reset 0. -/
  idleFrames : Nat := 0
  /-- In this frame an admitted task was incomplete, a SELFTEST ran, a VC1 to VC5 frame was sent or received, or a mailbox
  doorbell was pending; 04 R101; reset false. -/
  active : Bool := false
  deriving DecidableEq, Repr

/-- A Leaf's worth of one operand in the stream buffers (R27, R124): the bytes read so far, by carrier address. -/
structure StreamBuf where
  task    : Nat
  holding : Nat
  leaf    : Nat
  /-- Granules asked for and not yet delivered. -/
  waiting : Nat
  cells   : List (Nat × Byte)
  /-- Bytes asked for, of a read that belongs to no lane task. -/
  len     : Nat := 0
  /-- Elements of the Holding, first and end, that a POISON read or a word found bad covers (R66, R202). -/
  poison  : List (Nat × Nat) := []
  /-- Read for the factor cache or the statistics area: takes no credit (R148, R114). -/
  side    : Bool := false
  /-- Timeouts in a row of a read that is no slice's (R57). -/
  again   : Nat := 0
  deriving DecidableEq, Repr

/-- The kernel arithmetic active in the lanes (R121): versions of ADAMW, LION, SGDM and ADAFACTOR. -/
structure KernelSet where
  imageId   : Nat := 0
  adamw     : Nat := 0
  lion      : Nat := 0
  sgdm      : Nat := 0
  adafactor : Nat := 0
  deriving DecidableEq, Repr

/-- A shadow comparison awaiting its repair frame (R130). -/
structure LaneSuspect where
  frame  : Nat
  active : Nat
  shadow : Nat
  logical : Nat
  deriving DecidableEq, Repr

/-- Sums of an ADAFACTOR task (R115), all FP32 bit patterns. After pass 1 the row and column sums give way to R and C. -/
structure AdaSums where
  rowsum : List Nat
  colsum : List Nat
  /-- Terms of the open 128-element block and the running sum of the pass. -/
  block  : List Nat
  total  : Nat
  deriving DecidableEq, Repr

/-- The statistics area of an ADAFACTOR task (R115). -/
structure AdaStats where
  task   : Nat
  now    : AdaSums
  /-- Values at the start of the slice (restored on rollback). -/
  saved  : AdaSums
  /-- Values at the start of the run-in, when elements have run in (R127). -/
  run    : Option AdaSums := none
  rtot   : Nat := 0
  clip   : Nat := 0
  /-- Rows and columns whose statistics are poisoned (03 R66). -/
  badRows : List Nat := []
  badCols : List Nat := []
  deriving DecidableEq, Repr

/-- Digest of one state Leaf in progress or finished (R13, R22, R66). -/
structure LeafDigest where
  job      : Nat
  step     : Nat
  holding  : Nat
  leaf     : Nat
  /-- New bytes of the Leaf, packed index and value. -/
  bytes    : List (Nat × Byte)
  poisoned : Bool := false
  /-- Bytes taken in the present slice, dropped on rollback. -/
  partialBytes : List (Nat × Byte) := []
  /-- Bytes taken by the run-in of the next slice (R127). -/
  runBytes : List (Nat × Byte) := []
  /-- Number of the UPDATE whose read of an operand this gathers for the Ledger, plus 1; 0 for the bytes that are written. -/
  reader   : Nat := 0
  deriving DecidableEq, Repr

/-- What the present slice of a lane task has written, counted when it commits (R30, R117, R120, R132). -/
structure SliceTally where
  task      : Nat
  /-- Elements written. -/
  written   : Nat
  nonfinite : Nat
  saturated : Nat
  /-- Largest |p| written, FP32 bits. -/
  amax      : Nat
  deriving DecidableEq, Repr

/-- The update unit (R106 to R133). -/
structure UpdateUnit where
  /-- Stream buffers of the Gallery; 05 R124, 02 R27; reset empty. -/
  streams : List StreamBuf := []
  /-- LANE_MAP: physical lane of each active logical lane, battery-backed; 05 R129 R131; reset identity. -/
  laneMap : List Nat := List.range 128
  /-- Retired physical lanes, battery-backed; 05 R131; reset none. -/
  retired : List Nat := []
  /-- Position of the shadow role in the ring of healthy spares; 05 R129; reset 0 (lowest-numbered spare). -/
  shadowAt : Nat := 0
  /-- Mismatch awaiting its repair frame; 05 R130; reset none. -/
  suspect : List LaneSuspect := []
  /-- The active kernel image; 05 R121; reset the image of the bundle (none before it is loaded). -/
  kernels : KernelSet := {}
  /-- Kernel image activated and waiting for its boundary; 05 R123; reset none. -/
  kernelsNext : Option KernelSet := none
  /-- Statistics of ADAFACTOR tasks; 05 R115; reset empty. -/
  stats : List AdaStats := []
  /-- Leaf digests of new state; 01 R13; reset empty. -/
  digests : List LeafDigest := []
  /-- Largest |p| and saturation count of FP8-weight tasks, by task; 05 R117; reset empty. -/
  amax : List (Nat × Nat × Nat) := []
  /-- Non-finite elements written, by task; 05 R120; reset empty. -/
  nonfinite : List (Nat × Nat) := []
  /-- Tallies of the running slices; 05 R117 R120, 02 R30; reset empty. -/
  tallies : List SliceTally := []
  /-- Elements written by a task in committed slices; 05 R132; reset empty. -/
  written : List (Nat × Nat) := []
  deriving DecidableEq, Repr

/-- State of a factor-set record (R144). -/
inductive FsState
  | none | projecting | projected | completing | complete
  deriving DecidableEq, Repr

def FsState.code : FsState → Nat
  | .none => 0 | .projecting => 1 | .projected => 2 | .completing => 3 | .complete => 4

/-- A factor-set record (R144). -/
structure FactorSet where
  job       : Nat
  holding   : Nat
  state     : FsState
  step      : Nat
  rank      : Nat
  tensor    : Nat
  gradient  : Nat
  ef        : Nat
  nrows     : Nat
  ncols     : Nat
  efReset   : Bool
  pieceLog2 : Nat
  pieceSync : Nat
  level     : Nat
  deriving DecidableEq, Repr

/-- A residency of the factor cache (R151): Q or Q-hat as FP32 bit patterns, row-major. -/
structure Residency where
  job     : Nat
  /-- Factor Holding, or none for the Q-hat packet of a Ledger record. -/
  holding : Option Nat
  step    : Nat
  rank    : Nat
  blocks  : Nat
  q       : List Nat
  /-- Copy in the statistics area at the start of the slice (R150). -/
  snapshot : Option (List Nat)
  /-- Units of the task committed when the copy was taken. -/
  snapDone : Nat := 0
  /-- Q-hat complete: may be evicted (R152). -/
  complete : Bool
  deriving DecidableEq, Repr

/-- Phase of a WOAD_COMPRESS in progress beside its task entry (R140, R149). -/
structure WoadRun where
  task       : Nat
  /-- Vector operations of Gram-Schmidt done in committed slices. -/
  opsDone    : Nat := 0
  /-- Degenerate columns found. -/
  degenerate : Nat := 0
  /-- Columns of P_prev that the factor Holding supplies; the others are drawn (R141). -/
  kept       : Nat := 0
  deriving DecidableEq, Repr

/-- Woad (R134 to R161). -/
structure Woad where
  /-- Factor-set records; 06 R144; reset none. -/
  sets : List FactorSet := []
  /-- Residencies of the factor cache, oldest first; 06 R151; reset none. -/
  cache : List Residency := []
  /-- WOAD_COMPRESS tasks in progress; 06 R149; reset none. -/
  runs : List WoadRun := []
  /-- Pieces an UPDATE has seen present: task and piece; 06 R147; reset none. -/
  pieces : List (Nat × Nat) := []
  /-- EF_STEP by EF Holding; 06 R154; reset unknown. -/
  efStep : List (Nat × Nat) := []
  /-- Physical row of each logical row, battery-backed; 06 R157; reset identity. -/
  rowMap : List Nat := List.range 128
  /-- Physical column of each logical column, battery-backed; 06 R157; reset identity. -/
  colMap : List Nat := List.range 128
  /-- Physical rows retired; 06 R158; reset none. -/
  rowsRetired : List Nat := []
  /-- Physical columns retired; 06 R158; reset none. -/
  colsRetired : List Nat := []
  /-- Position of the shadow role among the healthy spare columns; 06 R157; reset 0. -/
  shadowAt : Nat := 0
  /-- Frame of the check failure awaiting its repair frame; 06 R158; reset none. -/
  suspect : Option Nat := none
  /-- WOAD_LEVEL of the active image, 16 bits; 06 R143; reset the image's (0 before one is loaded). -/
  level : Nat := 0
  /-- WOAD_LEVEL waiting for its boundary; 06 R143; reset none. -/
  levelNext : Option Nat := none
  deriving DecidableEq, Repr

/-- One code table of a generation (R167): its FORMAT and its lengths by symbol. -/
structure CodeTable where
  format  : Nat
  lengths : List Nat
  deriving DecidableEq, Repr

/-- A generation (R167). -/
structure Generation where
  id     : Nat
  tables : List CodeTable
  image  : Bytes
  deriving DecidableEq, Repr

/-- Who owns a Leaf in the encoder (R162): a Band capture or restore serving. -/
inductive EncOwner
  | band (task : Nat) (leaf : Nat)
  | serve (xfer : Nat)
  deriving DecidableEq, Repr

/-- A Leaf in the encoder (R163, R171). -/
structure EncLeaf where
  id     : Nat
  owner  : EncOwner
  format : Nat
  /-- Raw bytes of the Leaf. -/
  raw    : Bytes
  /-- GEN_ID taken with the first block (R171); none before it. -/
  gen    : Option Nat
  /-- Tables of that generation: a load that takes effect meanwhile changes nothing for the Leaf (R171). -/
  tables : List CodeTable := []
  /-- Elements encoded so far. -/
  done   : Nat
  coded  : Bytes
  deriving DecidableEq, Repr

/-- Madder (R162 to R184). -/
structure Madder where
  /-- Slot CURRENT; 07 R176; reset empty. -/
  current : Option Generation := none
  /-- Slot PREVIOUS; 07 R176; reset empty. -/
  previous : Option Generation := none
  /-- Load waiting for its boundary; 07 R176; reset none. -/
  load : Option Generation := none
  /-- Recall waiting for its boundary; 07 R177; reset none. -/
  recalled : Option Generation := none
  /-- Frame in which the load or recall that waits was accepted; 07 R176 R177; reset 0. -/
  pendSince : Nat := 0
  /-- The outgoing PREVIOUS no longer decodes; 07 R176; reset false. -/
  prevDead : Bool := false
  /-- Histograms of the five formats, 256 saturating U32 bins each, as (format, symbol, count); 07 R170; reset zero. -/
  histo : List (Nat × Nat × Nat) := []
  /-- Leaves in the encoder; 07 R171; reset empty. -/
  enc : List EncLeaf := []
  /-- ENC_LANE_MAP, battery-backed; 07 R178; reset identity. -/
  encMap : List Nat := List.range 64
  /-- DEC_LANE_MAP, battery-backed; 07 R178; reset identity. -/
  decMap : List Nat := List.range 64
  /-- Retired encoder lanes; 07 R182; reset none. -/
  encRetired : List Nat := []
  /-- Retired decoder lanes; 07 R182; reset none. -/
  decRetired : List Nat := []
  /-- Position of the verify role among the healthy spare encoder lanes; 07 R180; reset 0. -/
  verifyAt : Nat := 0
  /-- Active lane whose next block the verify lane checks; 07 R180; reset 0. -/
  verifyNext : Nat := 0
  /-- Lane awaiting the item 3 vectors: decoder (true) or encoder, physical lane, frame; 07 R174 R181; reset none. -/
  suspect : List (Bool × Nat × Nat) := []
  /-- Emitting lanes of verify mismatches after which neither lane fails the vectors of the boundary; 07 R181; reset none. -/
  transients : List Nat := []
  deriving DecidableEq, Repr

/-- A granule of a stream buffer that held an uncorrectable word (R202). -/
structure Refetch where
  task    : Nat
  holding : Nat
  leaf    : Nat
  /-- Carrier address of the granule. -/
  addr    : Nat
  /-- Gallery address of the granule, in granules of 256 bytes. -/
  granule : Nat
  deriving DecidableEq, Repr

/-- Units of the Gallery regions from which work takes space in the midst of a frame (R190). -/
structure Space where
  partner    : Nat := 0
  own        : Nat := 0
  quarantine : Nat := 0
  deriving DecidableEq, Repr

/-- A row waiting for the remap engine of its die or being remapped (R197, R198). -/
structure RemapJob where
  channel : Nat
  row     : Nat
  /-- 0 waiting, 1 copied into the spare, 2 entry written, switch at the next boundary. -/
  stage   : Nat
  secondary : Bool
  spare   : Nat
  /-- The row is a spare moving on (R198). -/
  again   : Bool
  since   : Nat
  /-- Frame in which the row was found (R33). -/
  found   : Nat := 0
  /-- Addresses of the words of the row that cannot be corrected (R194). -/
  bad     : List Nat := []
  /-- Granules to be fetched again once the row has moved (R202). -/
  refetch : List Refetch := []
  deriving DecidableEq, Repr

/-- The Gallery (R185 to R203). -/
structure Gallery where
  /-- Next unused primary and secondary spare of each channel, listed when either is above 0, battery-backed; 08 R200;
  reset none used. -/
  spareNext : List (Nat × Nat × Nat) := []
  /-- Remap table entries, copy A, battery-backed; 08 R200; reset empty. -/
  tableA : List (BitVec 64) := []
  /-- Remap table entries, copy B, battery-backed; 08 R200; reset empty. -/
  tableB : List (BitVec 64) := []
  /-- Bank counters of copy B, battery-backed; 08 R201; reset none used. -/
  spareNextB : List (Nat × Nat × Nat) := []
  /-- Translation in force: channel, row, spare kind (secondary), spare index; 08 R197; reset none. -/
  xlate : List (Nat × Nat × Bool × Nat) := []
  /-- Rows in the remap engines and their queues, in detection order; 08 R197; reset empty. -/
  remaps : List RemapJob := []
  /-- Error tracker: channel, row, corrected words, at most 1,024 rows; 08 R196; reset empty. -/
  tracker : List (Nat × Nat × Nat) := []
  /-- Words written poisoned and not yet counted, by Gallery address; 08 R194; reset none. -/
  poisoned : List Nat := []
  /-- Next row of the scrubber, channel × 32,768 + row; 08 R195; reset 0. -/
  scrubAt : Nat := 0
  /-- Frame of the next scrub visit; 08 R195; reset 0. -/
  scrubFrame : Nat := 0
  /-- Slots retired, battery-backed; 08 R199; reset none. -/
  slotsRetired : List Nat := []
  /-- Work waited for space in this frame; 08 R190; reset false. -/
  waited : Bool := false
  /-- Space in use at the last boundary; 08 R190; reset 0. -/
  usedAt : Space := {}
  /-- Space taken since; 08 R190; reset 0. -/
  taken : Space := {}
  deriving DecidableEq, Repr

/-- PAIR_STATE (Table 09-5). -/
inductive PairState
  | unpaired | offering | accepting | paired | lost
  deriving DecidableEq, Repr

def PairState.code : PairState → Nat
  | .unpaired => 0 | .offering => 1 | .accepting => 2 | .paired => 3 | .lost => 4

/-- Mirror mode (R204). -/
inductive MirrorMode
  | none | replay | copy
  deriving DecidableEq, Repr

def MirrorMode.code : MirrorMode → Nat
  | .none => 0 | .replay => 1 | .copy => 2

/-- A span of the inbound mirror (R221), named by the partner's MASTER HOLDING_ID and its index. -/
structure InSpan where
  master : Nat
  index  : Nat
  stale  : Bool
  skip   : Nat
  copy   : Nat
  deriving DecidableEq, Repr

/-- A span of the own shard in the primary's table (R227, R230). -/
structure OutSpan where
  master    : Nat
  index     : Nat
  copyPending : Bool
  lastWrite : Nat
  deriving DecidableEq, Repr

/-- A partner's record held or arriving (R216, R217, R221). -/
structure InRecord where
  step     : Nat
  head     : BitVec 512
  entries  : List (BitVec 1024)
  /-- RECORD_DATA received: entry, index, payload. -/
  data     : List (Nat × Nat × Bytes)
  digests  : List (BitVec 320)
  parts    : Nat
  lastPart : Bool
  /-- Complete and acknowledged (R217). -/
  complete : Bool
  /-- Entries whose MIRROR_APPLY has completed (R221). -/
  applied  : List Nat
  /-- Digests of mirror Leaves written: local Holding, Leaf, digest (R222). -/
  written  : List (Nat × Nat × Nat)
  deriving DecidableEq, Repr

/-- A RECORD_DATA message staged in the own part (R213): its SEQ once sent, and whether a WELD_ACK has covered it. -/
structure StagedMsg where
  entry   : Nat
  index   : Nat
  payload : Bytes
  seq     : Option Nat := none
  covered : Bool := false
  deriving DecidableEq, Repr

/-- The Holdings that one UPDATE names, keyed by MASTER (the mirror table's groups): the primary's HOLDING_IDs of
WEIGHT, MASTER, MOMENT1, MOMENT2, ROW_STAT, COL_STAT (0xFFFF where unused), elements and elements per span. -/
structure SpanGroup where
  master : Nat
  hids   : List Nat
  count  : Nat
  span   : Nat
  deriving DecidableEq, Repr

/-- A direct read of one Leaf of a pending span (R227). -/
structure CopyRead where
  id     : Nat
  master : Nat
  index  : Nat
  stamp  : Nat
  holding : Nat
  leaf   : Nat
  deriving DecidableEq, Repr

/-- A record of this engine on its way to the partner (R213 to R218, R245). -/
structure OutRecord where
  step     : Nat
  /-- The LEDGER_SEND, or none for the implicit one of a VERDICT (R213). -/
  task     : Option Nat
  /-- UPDATE tasks carried, in entry order: admission number and task record. -/
  updates  : List (Nat × BitVec 1024)
  openSent : Bool
  /-- RECORD_DATA staged and not freed. -/
  staged   : List StagedMsg
  /-- Entry and index of the RECORD_DATA staged so far, freed or not (R213, R215). -/
  had      : List (Nat × Nat) := []
  trailerSent : Bool
  /-- LEDGER_ACK received, or the record given up (R218). -/
  acked    : Bool
  ended    : Bool
  /-- Bound for the Vault (R244) and already moved to EGRESS (R245). -/
  toVault  : Bool
  moved    : Bool
  /-- Arithmetic level that each UPDATE used, by admission number (05 R121). -/
  levels   : List (Nat × Nat) := []
  deriving DecidableEq, Repr

/-- Leaves of a span copy held until the span can be installed (R228). -/
structure HeldCopy where
  master : Nat
  index  : Nat
  stamp  : Nat
  leaves : List (Nat × Nat × Bytes)
  /-- Being written to the MIRROR Holdings. -/
  writing : Bool := false
  deriving DecidableEq, Repr

/-- A WELD_ROLLBACK in progress (R230). -/
structure RollbackRun where
  task    : Nat
  target  : Nat
  waiting : List (Nat × Nat)
  missing : Nat
  total   : Nat
  /-- Leaves written: Holding and Leaf. -/
  got     : List (Nat × Nat) := []
  /-- Leaves asked for a second time (R255). -/
  again   : List (Nat × Nat) := []
  /-- Leaves counted as sent, and Leaves that have come, as for a restore (R253). -/
  told    : Nat := 0
  arrived : Nat := 0
  /-- What Madder last reported of a Leaf: code, DETAIL, DETAIL2 (07 R183). -/
  outcome : Option (Nat × Nat × Nat) := none
  deriving DecidableEq, Repr

/-- A ROLLBACK_REQUEST or RESTORE_REQ this engine serves (R230, R254). -/
structure ServeReq where
  id       : Nat
  job      : Nat
  toEngine : Nat
  fill     : Nat
  urgent   : Bool
  curGen   : Nat
  prevGen  : Nat
  /-- Leaves still to serve: primary Holding and Leaf. -/
  leaves   : List (Nat × Nat)
  sent     : Nat
  missing  : Nat
  rollback : Bool
  /-- The Leaf at the head is in the encoder. -/
  coding   : Bool := false
  /-- Number of the read of the Leaf at the head. -/
  buf      : Option Nat := none
  /-- Step that the Leaf at the head holds (01 Table 01-6). -/
  stamp    : Nat := 0
  deriving DecidableEq, Repr

/-- The Weld state of one job (R204 to R234). -/
structure Weld where
  /-- PAIR_STATE; 09 R210; reset UNPAIRED. -/
  state : PairState := .unpaired
  /-- Engine ID of the partner, 32 bits (battery-backed copy in the job record); 09 R210, 15 R398; reset 0. -/
  partner : Nat := 0
  /-- MIRROR_MODE; 09 R204; reset NONE. -/
  mode : MirrorMode := .none
  /-- PAIR_CLASS, 0 qualified, 1 restricted, 2 refused; 09 R204; reset 0. -/
  cls : Nat := 0
  /-- MODE_REQ this side sends; 09 Table 09-8; reset 0. -/
  modeReq : Nat := 0
  /-- WELD_PAIR that pairing answers, none for AUTO_PAIR; 09 R209; reset none. -/
  pairTask : Option Nat := none
  /-- Frame of the first offer; 09 R210; reset none. -/
  firstOffer : Option Nat := none
  /-- Frame of the last offer; 09 R209; reset none. -/
  lastOffer : Option Nat := none
  /-- Offer kept for a WELD_PAIR that is not yet ready, with its sender; 09 R209; reset none. -/
  keptOffer : Option (Nat × BitVec 1024) := none
  /-- SEQ of the next message sent, 32 bits; 09 R206; reset 1. -/
  txSeq : Nat := 1
  /-- SEQ expected next, 32 bits; 09 R206; reset 1. -/
  rxSeq : Nat := 1
  /-- Frame of the last message from the partner; 09 R231; reset none. -/
  lastRx : Option Nat := none
  /-- Frame of the last message sent on VC2; 09 R207; reset none. -/
  lastTx : Option Nat := none
  /-- A Weld message was received in this frame; 09 R207; reset false. -/
  rxThisFrame : Bool := false
  /-- Local MIRROR Holding and partner HOLDING_ID of each binding; 09 R208; reset empty. -/
  binds : List (Nat × Nat) := []
  /-- Inbound mirror spans; 09 R221; reset empty. -/
  inSpans : List InSpan := []
  /-- APPLIED; 09 R221; reset 0. -/
  applied : Nat := 0
  /-- Groups of the inbound mirror, as the partner's entries name them; 09 R221; reset none. -/
  inGroups : List SpanGroup := []
  /-- Groups of the own shard, as UPDATE tasks name them; 09 R227; reset none. -/
  outGroups : List SpanGroup := []
  /-- A COPY_REQUEST with ALL has come: a span named later starts pending too; 09 R227; reset false. -/
  allPending : Bool := false
  /-- Stale spans to be asked for at the end of the frame; 09 R226; reset none. -/
  copyAsk : List (Nat × Nat) := []
  /-- Direct reads of pending spans in progress; 09 R227; reset none. -/
  copyReads : List CopyRead := []
  /-- MIRROR_STEP last sent; 09 R222; reset 0. -/
  mirrorStep : Nat := 0
  /-- Partner records; 09 R217; reset empty. -/
  inRecords : List InRecord := []
  /-- Steps of lost records, spans named, waiting for their verdict; 09 R219; reset empty. -/
  lostSteps : List (Nat × List (Nat × Nat)) := []
  /-- Own records; 09 R213; reset empty. -/
  outRecords : List OutRecord := []
  /-- Steps whose LEDGER_SEND has been admitted: later UPDATEs complete LEDGER_CLOSED; 09 R213; reset empty. -/
  closedSteps : List Nat := []
  /-- Messages sent and not yet covered by WELD_ACK: SEQ and bytes staged; 09 R207; reset empty. -/
  unacked : List (Nat × Nat) := []
  /-- OUT_STALE_FROM; 09 R220; reset none. -/
  outStale : Option Nat := none
  /-- Own spans; 09 R227; reset empty. -/
  outSpans : List OutSpan := []
  /-- Copies held; 09 R228; reset empty. -/
  copies : List HeldCopy := []
  /-- WELD_ROLLBACK in progress; 09 R230; reset none. -/
  rollback : Option RollbackRun := none
  /-- WELD_RESYNC tasks and the spans they wait for; 09 R232; reset empty. -/
  resyncs : List (Nat × List (Nat × Nat)) := []
  /-- Engine that also receives the record stream (SHADOW_SOURCE), 0 none; 10 R264; reset 0. -/
  shadowTo : Nat := 0
  /-- SEQ of the next message of the record stream to the spare, 32 bits; 10 R264; reset 1. -/
  shadowSeq : Nat := 1
  /-- MIRROR_STEP of the last MIRROR_CONFIRM since JOB_OPEN: M is the lower of it and V; 01 R18, 09 R222; reset 0. -/
  peerStep : Nat := 0
  /-- The first whole MIRROR_CONFIRM since JOB_OPEN has come; 09 R212; reset false. -/
  confirmed : Bool := false
  deriving DecidableEq, Repr

/-- Accession states (Table 10-1). -/
inductive AccState
  | open_ | sealing | complete | partial_ | abandoned | deaccessioned
  deriving DecidableEq, Repr

/-- Where a captured Leaf stands. -/
inductive LeafPlace
  | encoding | egress | acked (vault : Nat) | missing
  deriving DecidableEq, Repr

/-- A Leaf of a Band (R237, R239, R248). -/
structure BandLeaf where
  holding  : Nat
  leaf     : Nat
  capture  : Nat
  elemBase : Nat
  tensor   : Nat
  elements : Nat
  role     : Nat
  format   : Nat
  gen      : Nat
  coded    : Nat
  digest   : Nat
  serial   : Nat
  place    : LeafPlace
  /-- CAPTURE_BAND that captured the Leaf, and the number of its EGRESS object. -/
  task     : Nat
  obj      : Nat
  deriving DecidableEq, Repr

/-- An OPEN or SEALING Accession, or the memory of one this run has ended (R235, R236). -/
structure Accession where
  job    : Nat
  id     : Nat
  shard  : Nat
  state  : AccState
  /-- S_A once sealing. -/
  sa     : Nat
  leaves : List BandLeaf
  /-- Generations named by its Leaves, with their images (R250). -/
  gens   : List (Nat × Bytes)
  /-- Step of the UPDATE that takes the first Band (R244). -/
  firstStep : Option Nat
  /-- Holding and Leaf of each Catalogue entry, by serial, fixed at the first Band (R248; log entry 45). -/
  order  : List (Nat × Nat)
  /-- ACC_SEAL task and how far its order has come: 0 waiting, 1 images, 2 Catalogue, 3 COMMIT (R250). -/
  sealRun : Option (Nat × Nat)
  deriving DecidableEq, Repr

/-- A capture tap armed by CAPTURE_BAND (R237). -/
structure CaptureTap where
  task    : Nat
  acc     : Nat
  holding : Nat
  first   : Nat
  count   : Nat
  /-- Step it will ride; raised at each deferral. -/
  step    : Nat
  /-- Riding task, and Leaf bytes taken so far as (leaf, packed offset, value). -/
  rider   : Option Nat
  cells   : List (Nat × Nat × Byte)
  poisonedLeaves : List Nat
  /-- First of its reserved EGRESS objects, one for each Leaf, while it rides. -/
  base    : Nat := 0
  deriving DecidableEq, Repr

/-- An object in EGRESS (R189, R239, R245). -/
structure EgressObj where
  id     : Nat
  job    : Nat
  name   : BitVec 256
  bytes  : Bytes
  /-- 4 KiB units reserved and headroom units. -/
  units  : Nat
  head   : Nat
  /-- Outstanding REQ_ID. -/
  req    : Option Nat
  /-- Its PUT has been sent: rank 7 drains it (Table 01-4). -/
  asked  : Bool := false
  deriving DecidableEq, Repr

/-- What a Vault request is for. -/
inductive VaultOwner
  | object (egress : Nat)
  | catalogue (task : Nat) (part : Nat)
  | commit (task : Nat)
  | delete (task : Option Nat)
  | fetchCat (task : Nat) (part : Nat)
  /-- The GET of a wanted Leaf, by its place among those of the task. -/
  | restoreLeaf (task : Nat) (want : Nat)
  | restoreRecord (task : Nat) (shard : Nat) (step : Nat) (index : Nat)
  /-- The GEN_IMAGE put for an ACC_SEAL, and the one got for a restore. -/
  | genPut (task : Nat) (gen : Nat)
  | genGet (task : Nat) (gen : Nat)
  /-- The Catalogue read of Stage C for a job (15 R393). -/
  | stageC (job : Nat)
  deriving DecidableEq, Repr

/-- An outstanding Vault request (R243). -/
structure VaultReq where
  id      : Nat
  type    : Nat
  name    : BitVec 256
  target  : Nat
  retries : Nat
  frame   : Nat
  owner   : VaultOwner
  /-- What the request carries: the stored object of a PUT, without its tag, or nothing but the name. -/
  payload : Bytes := []
  /-- Targets given up for this request. -/
  tried   : List Nat := []
  deriving DecidableEq, Repr

/-- Who waits for a Leaf in quarantine. -/
inductive QOwner
  | mirror (task : Nat) (leaf : Nat)
  | vault (task : Nat) (leaf : Nat)
  | rollback (job : Nat) (holding : Nat) (leaf : Nat)
  deriving DecidableEq, Repr

/-- A Leaf in quarantine whose tag has verified (R175, R255, R258). -/
structure QLeaf where
  id      : Nat
  owner   : QOwner
  format  : Nat
  count   : Nat
  coded   : Bytes
  digest  : Nat
  holding : Nat
  leaf    : Nat
  deriving DecidableEq, Repr

/-- One Leaf asked for by a restore. -/
structure WantedLeaf where
  holding  : Nat
  leaf     : Nat
  /-- 0 outstanding, 1 in quarantine, 2 written (or, from a Vault, decoded), 3 missing, 4 waiting for its generation,
  5 not yet asked for. -/
  status   : Nat
  /-- Already asked for a second time (R255). -/
  again    : Bool
  /-- RESTORE_VAULT: serial, shard, accession, capture step, role, ELEM_BASE, elements, digest, target. -/
  serial   : Nat := 0
  shard    : Nat := 0
  acc      : Nat := 0
  vault    : Nat := 0
  capture  : Nat := 0
  role     : Nat := 0
  elemBase : Nat := 0
  elements : Nat := 0
  format   : Nat := 0
  digest   : Nat := 0
  gen      : Nat := 0
  /-- What Madder last reported of the Leaf: code, DETAIL, DETAIL2 (07 R183). -/
  outcome  : Option (Nat × Nat × Nat) := none
  deriving DecidableEq, Repr

/-- A record object fetched by a restore: shard, step, index; its bytes, none while it is outstanding. -/
structure RestoreObj where
  shard : Nat
  step  : Nat
  index : Nat
  bytes : Option Bytes
  again : Bool := false
  deriving DecidableEq, Repr

/-- A restore task in progress (R256, R257). -/
structure RestoreRun where
  task    : Nat
  mirror  : Bool
  server  : Nat := 0
  fill    : Nat
  wants   : List WantedLeaf := []
  lastRx  : Nat := 0
  /-- RESTORE_REQ sent and not yet answered by RESTORE_DONE. -/
  asks    : Nat := 0
  /-- Leaves that RESTORE_DONE has counted as sent, and Leaves that have come, since Leaves were last asked for again (R253). -/
  told    : Nat := 0
  arrived : Nat := 0
  firstMissing : Nat := 0
  serverLost : Bool := false
  /-- RESTORE_VAULT: 0 reading the Catalogues, 1 Leaves, 2 records, 3 writing the Leaves, 4 waiting for ROLL_FORWARD,
  5 writing the result. -/
  phase   : Nat := 0
  /-- Catalogues read: Accession, S_A and shard. -/
  heads   : List (Nat × Nat × Nat) := []
  /-- First step rolled forward. -/
  w       : Nat := 0
  /-- Values restored: role, element and bits in the format of the role (R258, R259). -/
  values  : List (Nat × Nat × Nat) := []
  /-- Values as roll-forward has brought them on, by role and element (R259). -/
  vals    : List (Nat × Nat) := []
  /-- Entry of a record that roll-forward stands at, what it has replayed of it, and the frame of its last slice (R259). -/
  item    : Nat := 0
  done    : Nat := 0
  rolledAt : Option Nat := none
  /-- Record objects (R258). -/
  records : List RestoreObj := []
  /-- Records lost: shard and step (R258). -/
  lost    : List (Nat × Nat) := []
  /-- Generation image waiting to be recalled (R255). -/
  recalled  : Option (Nat × Bytes) := none
  /-- Target Leaves that agree with the trailer of record T: Holding and Leaf (R261). -/
  verified : List (Nat × Nat) := []
  /-- Target Leaves that differ from the trailer of record T: Holding and Leaf (R261). -/
  differ  : List (Nat × Nat) := []
  /-- Elements missing: role and element (R258). -/
  missing : List (Nat × Nat) := []
  deriving DecidableEq, Repr

/-- A DEACCESSION in progress (R251): requests go out one after another. -/
structure DeaccRun where
  task   : Nat
  job    : Nat
  acc    : Nat
  shard  : Nat
  below  : Nat
  /-- Next request: 0 the Leaves, 1 the Catalogue, 2 + k the record of step k. -/
  next   : Nat
  failed : Bool
  deriving DecidableEq, Repr

/-- A CATALOGUE_FETCH in progress (R252). -/
structure FetchRun where
  task    : Nat
  /-- Accession read; 0 until the first part names it. -/
  acc     : Nat
  part    : Nat
  parts   : Nat
  bytes   : Bytes
  writing : Bool
  /-- The Catalogue is longer than the room that the task names (R93, R252). -/
  long    : Bool := false
  deriving DecidableEq, Repr

/-- SPARE_STATE (Table 10-10). -/
inductive SpareState
  | idle | shadowing | ready | promoted
  deriving DecidableEq, Repr

def SpareState.code : SpareState → Nat
  | .idle => 0 | .shadowing => 1 | .ready => 2 | .promoted => 3

/-- Accessions, Vault, restore and spares (R235 to R269). -/
structure Vault where
  /-- Accessions known; 10 R236; reset none. -/
  accs : List Accession := []
  /-- Armed captures; 10 R237; reset none. -/
  taps : List CaptureTap := []
  /-- EGRESS objects, oldest first; 08 R189, 10 R239; reset empty. -/
  egress : List EgressObj := []
  /-- Outstanding Vault requests; 10 R243; reset empty. -/
  reqs : List VaultReq := []
  /-- Next REQ_ID, 64 bits; 10 R242; reset 1, DESIGN CHOICE. -/
  nextReq : Nat := 1
  /-- Next number of an EGRESS or quarantine or encoder object; model's own name; reset 0. -/
  nextObj : Nat := 0
  /-- Acknowledged GEN_IMAGE objects: lineage and GEN_ID; 10 R250; reset none. -/
  genAcked : List (Nat × Nat) := []
  /-- Record objects acknowledged, for D: job, step, objects left; 10 R246; reset none. -/
  recordsOut : List (Nat × Nat × Nat) := []
  /-- Records fully durable above D: job, step; 10 R246; reset none. -/
  durable : List (Nat × Nat) := []
  /-- Leaves in quarantine; 08 R187, 10 R255; reset empty. -/
  quarantine : List QLeaf := []
  /-- Restores in progress; 10 R256 R257; reset none. -/
  restores : List RestoreRun := []
  /-- Requests served; 10 R254; reset none. -/
  serves : List ServeReq := []
  /-- DEACCESSION tasks in progress; 10 R251; reset none. -/
  deacc : List DeaccRun := []
  /-- CATALOGUE_FETCH tasks in progress; 10 R252; reset none. -/
  fetches : List FetchRun := []
  /-- Requests whose every target has been tried and whose owner has not yet been told; 10 R243; reset none. -/
  failed : List (VaultOwner × BitVec 256) := []
  /-- Captures deferred, which no entry counts; 01 Table 01-6, 10 R238; reset 0. -/
  deferred : Nat := 0
  /-- Mirror Leaves a restore has written whose span is not yet VALID: job, Holding, Leaf, step; 10 R256; reset none. -/
  filled : List (Nat × Nat × Nat × Nat) := []
  /-- Leaves of MIRROR Holdings written by a restore and not verified: Holding, Leaf; 10 R266; reset none. -/
  unverified : List (Nat × Nat) := []
  /-- TENSOR_ID and ELEM_BASE by Holding, as the last task named them; 10 R248; reset none. -/
  tensors : List (Nat × Nat × Nat) := []
  /-- SPARE_STATE; 10 R264; reset IDLE. -/
  spare : SpareState := .idle
  /-- Job that shadows, source engine, SHADOW_STEPS, clean records in a row, fill step; 10 R264; reset 0. -/
  spareJob : Nat := 0
  spareSource : Nat := 0
  spareSteps : Nat := 0
  spareClean : Nat := 0
  spareFill : Nat := 0
  deriving DecidableEq, Repr

/-- A joined group (R273). -/
structure Group where
  id      : Nat
  epoch   : Nat
  job     : Nat
  axes    : Nat
  sizes   : List Nat
  root    : List Nat
  /-- Engine ID at each position, 0 absent. -/
  members : List Nat
  /-- Own position index. -/
  own     : Nat
  fold    : Nat
  /-- COLL_SEQ of the last collective posted (R274). -/
  lastSeq : Nat
  reforming : Bool
  deriving DecidableEq, Repr

/-- An ABORT held for a collective (R286, R287): frame, source, reason. -/
structure HeldAbort where
  frame  : Nat
  source : Nat
  reason : Nat
  deriving DecidableEq, Repr

/-- A RESULT held (R287). -/
structure HeldResult where
  frame   : Nat
  reason  : Nat
  payload : Bytes
  deriving DecidableEq, Repr

/-- One piece of a value on its way through a reduction (R275, R280). -/
structure CollPart where
  /-- 0 count exchange, 1 reduction. -/
  phase   : Nat
  index   : Nat
  /-- Axis at which the piece stands at this member. -/
  axis    : Nat := 0
  /-- Value so far; an element of MINMAX is the pair (min, max), any other stands twice. -/
  elems   : List (Nat × Nat)
  /-- This member's part in the reduction of the piece has ended (R275), or the piece is complete at the root. -/
  ended   : Bool := false
  /-- Sent to a switch on this axis in this frame and not answered (R290). -/
  switch  : Option Nat := none
  /-- The line of this axis runs its ring after all (R290). -/
  ring    : Bool := false
  deriving DecidableEq, Repr

/-- A posted collective that has not ended (R274 to R290). -/
structure Coll where
  task    : Nat
  job     : Nat
  group   : Nat
  seq     : Nat
  /-- 0 VERDICT, 1 REDUCE, 2 BROADCAST, 3 ALLREDUCE. -/
  kind    : Nat
  op      : Nat
  dtype   : Nat
  exchange : Bool
  root    : List Nat
  step    : Nat
  /-- Elements declared, and the agreed count once known (R282). -/
  count   : Nat
  agreed  : Option Nat := none
  /-- Own contribution, once the engine has it. -/
  own     : Option (List (Nat × Nat)) := none
  /-- Pieces of the own value, of the count exchange and of the reduction. -/
  parts   : List CollPart := []
  /-- Partials received and not yet taken: phase, axis, index, elements. -/
  held    : List (Nat × Nat × Nat × List (Nat × Nat)) := []
  /-- Pieces of the output. -/
  out     : List (Nat × List (Nat × Nat)) := []
  /-- Base deadline (R285). -/
  base    : Nat
  /-- Largest accepted GRACE (R288). -/
  grace   : Nat := 0
  aborts  : List HeldAbort := []
  result  : Option HeldResult := none
  /-- Outcome committed; data still to come or output being written (R287). -/
  committed : Bool := false
  /-- The output is being written to the destination Holding. -/
  writing : Bool := false
  /-- A VERDICT abandoned by a REPLAY mark: its outcome decides nothing for the job (R87, R289). -/
  abandoned : Bool := false
  deriving DecidableEq, Repr

/-- A GOOD verdict held until V reaches the step before it (R272). -/
structure HeldVerdict where
  job  : Nat
  step : Nat
  deriving DecidableEq, Repr

/-- Inputs of a fingerprint gathered while the tasks of a step end (Table 11-1, lanes 3 to 7). -/
structure StepFaults where
  job       : Nat
  step      : Nat
  nonfinite : Nat
  poison    : Nat
  length    : Nat
  cancelled : Nat
  failed    : Nat
  deriving DecidableEq, Repr

/-- A message held for a collective not yet posted (R281). -/
structure EarlyMsg where
  hdr     : BitVec 512
  payload : Bytes
  deriving DecidableEq, Repr

/-- Verdicts and collectives (R270 to R296). -/
structure Colls where
  /-- Groups joined, at most 8; 11 R273; reset none. -/
  groups : List Group := []
  /-- Collectives posted and not ended, in posting order; 11 R274; reset none. -/
  open_ : List Coll := []
  /-- GOOD verdicts held; 11 R272; reset none. -/
  held : List HeldVerdict := []
  /-- Fault counts per step for the fingerprint; 11 R270; reset none. -/
  faults : List StepFaults := []
  /-- Collective receive buffer; 11 R281; reset empty. -/
  early : List EarlyMsg := []
  /-- VC1 credits withheld for want of buffer in this frame; 11 R281; reset false. -/
  rxWait : Bool := false
  /-- V when each VERDICT was admitted: task and V; 11 R270 lane 2; reset empty. -/
  priorV : List (Nat × Nat) := []
  /-- THERMAL_GRACE sent: group, COLL_SEQ and frames; 03 R71; reset none. -/
  graces : List (Nat × Nat × Nat) := []
  deriving DecidableEq, Repr

/-- LINK_STATE (Table 12-2). -/
inductive LinkState
  | disabled | down | training | up | retraining | failed
  deriving DecidableEq, Repr

def LinkState.code : LinkState → Nat
  | .disabled => 0 | .down => 1 | .training => 2 | .up => 3 | .retraining => 4 | .failed => 5

/-- A message queued on a port for one VC (R308, R315). -/
structure TxMsg where
  id    : Nat
  vc    : Nat
  dst   : Nat
  proto : Nat
  /-- Bytes with the route header. -/
  bytes : Nat
  /-- Flits sent so far. -/
  sent  : Nat
  deriving DecidableEq, Repr

/-- A live swap under way (R304). -/
structure LiveSwap where
  number : Nat
  lane   : Nat
  /-- True at the receiver that asked, false at the transmitter that answered. -/
  asked  : Bool
  /-- Switch point named by SWAP_ACK. -/
  point  : Option Nat
  frame  : Nat
  deriving DecidableEq, Repr

/-- One optical port (R297 to R322). -/
structure PortState where
  /-- LINK_STATE; 12 R301; reset DISABLED until Stage B, then by LINK_ENABLE. -/
  state : LinkState := .disabled
  /-- LINK_PARTNER_ID, 32 bits; 12 R302; reset 0. -/
  partner : Nat := 0
  /-- Frame of entry into the present state; 12 R301; reset 0. -/
  since : Nat := 0
  /-- Consecutive entries into TRAINING without reaching UP; 12 R301; reset 0. -/
  entries : Nat := 0
  /-- The cause of the retrain is a fault (scored) or planned; 12 R303, 17 R443; reset false. -/
  planned : Bool := false
  /-- LANE_MAP_TX, battery-backed; 12 R299; reset identity. -/
  txMap : List Nat := List.range 8
  /-- LANE_MAP_RX, battery-backed; 12 R299; reset identity. -/
  rxMap : List Nat := List.range 8
  /-- Retired transmit lanes, battery-backed; 12 R299; reset none. -/
  txRetired : List Nat := []
  /-- Retired receive lanes, battery-backed; 12 R299; reset none. -/
  rxRetired : List Nat := []
  /-- LASER_ACTIVE: 0 A, 1 B, 255 none, battery-backed; 12 R300; reset 0. -/
  laser : Nat := 0
  /-- Lasers that have failed; 12 R306; reset none. -/
  lasersBad : List Nat := []
  /-- LASER_BIAS_PCT of the active laser; 12 R306; reset 100. -/
  biasPct : Nat := 100
  /-- Bias current of each source at its first full training, battery-backed; 12 R300; reset not recorded. -/
  biasRef : Vector (Option Nat) 2 := Vector.replicate 2 none
  /-- The link partner supports a spare lane; 12 R302; reset true, DESIGN CHOICE. -/
  farSpare : Bool := true
  /-- SEQ of the next DATA flit sent, 16 bits; 12 R302; reset 0. -/
  txSeq : Nat := 0
  /-- SEQ expected next, 16 bits; 12 R302; reset 0. -/
  rxSeq : Nat := 0
  /-- Retry buffer: SEQ, VC, message and whether it is the message's last flit, oldest first; 12 R310; reset empty. -/
  retry : List (Nat × Nat × Nat × Bool) := []
  /-- SEQ last replayed and times in a row; 12 R311; reset none. -/
  replayed : Option (Nat × Nat) := none
  /-- A DATA flit has been refused: RETRY_REQ is repeated until the SEQ arrives; 12 R310; reset false. -/
  retrying : Bool := false
  /-- Credits held for each VC of the peer; 12 R312; reset 0. -/
  credits : Vector Nat 6 := Vector.replicate 6 0
  /-- Credits owed to the peer for each VC; 12 R312; reset 0. -/
  owed : Vector Nat 6 := Vector.replicate 6 0
  /-- Deficit of each VC, bytes; 12 R315; reset 0. -/
  deficit : Vector Nat 6 := Vector.replicate 6 0
  /-- VC of VC1 to VC5 that the round robin visits next, or still visits; 12 R315; reset 1, DESIGN CHOICE. -/
  turn : Nat := 1
  /-- The visit has begun: its weight is in the deficit; 12 R315; reset false. -/
  visiting : Bool := false
  /-- Flit slots taken in the present frame; 12 R297, R315; reset 0. -/
  used : Nat := 0
  /-- Flits to replay that have had no slot yet; 12 R310; reset 0. -/
  replay : Nat := 0
  /-- A VC had a message ready and no credit in the present frame; 12 R312; reset false. -/
  stalled : Bool := false
  /-- Messages queued or in flight, in order; 12 R308; reset empty. -/
  queue : List TxMsg := []
  /-- Agent ID stamped on the last message accepted here: PARTNER, whatever the message holds; 00 R1; reset none. -/
  stamp : Option Agent := none
  /-- Message being assembled on each VC: bytes so far, nothing for one whose flits are dropped; 12 R308, R309; reset none. -/
  assembling : List (Nat × Option Bytes) := []
  /-- Live swaps under way; 12 R304; reset none. -/
  swaps : List LiveSwap := []
  /-- Request number of the next SWAP_REQ, 16 bits; 12 Table 12-5; reset 0, DESIGN CHOICE. -/
  swapNo : Nat := 0
  /-- Windows over LANE_CE_LIMIT in a row, by receive lane; 12 R304; reset none. -/
  ceRuns : List (Nat × Nat) := []
  /-- Frames of windows over the limit, by receive lane (flap events); 12 R304; reset none. -/
  flaps : List (Nat × Nat) := []
  /-- Frames of fast retrains, by lane that caused them; 12 R304; reset none. -/
  causes : List (Dir × Nat × Nat) := []
  /-- NO_SPARE reported for the direction; 12 R305; reset none. -/
  noSpare : List Dir := []
  /-- Corrected symbols per physical lane (LANE_CE); 12 R322; reset zero. -/
  laneCe : List (Nat × Nat) := []
  /-- Planned retrain: reason and start frame; 12 R306; reset none. -/
  plan : Option (Nat × Nat) := none
  /-- Engines named unreachable on this port and the frame; 12 R318; reset none. -/
  unreach : List (Nat × Nat) := []
  /-- Destinations answered with DEST_UNREACH and the frame; 12 R309; reset none. -/
  answered : List (Nat × Nat) := []
  deriving DecidableEq, Repr

/-- A binding of a destination and VC to a port (R317). -/
structure Binding where
  dst  : Nat
  vc   : Nat
  port : Nat
  last : Nat
  deriving DecidableEq, Repr

/-- The fabric ports (R297 to R322). -/
structure Fabric where
  /-- The four ports; 12 R301. -/
  ports : Vector PortState 4 := Vector.replicate 4 {}
  /-- Bindings; 12 R317; reset none. -/
  bindings : List Binding := []
  /-- Number of the next message offered; model's own name; reset 0. -/
  nextMsg : Nat := 0
  deriving DecidableEq, Repr

/-- STATE of a key slot (Table 13-3). -/
inductive SlotState
  | empty | loaded | exhausted
  deriving DecidableEq, Repr

def SlotState.code : SlotState → Nat
  | .empty => 0 | .loaded => 1 | .exhausted => 2

/-- A key slot: the record of Table 13-3 and the key behind it (R326, R328). -/
structure KeySlot where
  state   : SlotState := .empty
  keyId   : Nat := 0
  usage   : Nat := 0
  ivEpoch : Nat := 0
  limitM1 : Nat := 0xFFFFFFFF
  useMask : Nat := 0
  ops     : Nat := 0
  gen     : Nat := 0
  parent  : Nat := 0xFF
  purpose : Nat := 0
  key     : Nat := 0
  /-- Host agent that loaded a user slot (R331). -/
  loader  : Option Host2 := none
  /-- New load of the same key, for the switch at the boundary after this frame (R336). -/
  newLoad : Option (Nat × Nat) := none
  /-- Erase or overwrite waiting for the last message under the key (R331). -/
  dying   : Bool := false
  /-- Place of the last use among all uses, for reclaiming a pool slot (R328). -/
  lastUse : Nat := 0
  deriving DecidableEq, Repr

/-- A KEY_ROLLOVER waiting for its SWITCH_FRAME (R332). -/
structure Rollover where
  /-- The KEY_ROLLOVER that waits. -/
  task  : Nat
  frame : Nat
  blob  : Bytes
  gen   : Nat
  ops   : Nat
  mask  : Nat
  deriving DecidableEq, Repr

/-- An agent page's cipher half (Table 13-5). -/
structure CipherPage where
  slot      : Nat := 0
  op        : Nat := 0
  aadLen    : Nat := 0
  msgLen    : Nat := 0
  iv        : Nat := 0
  lastBytes : Nat := 0
  tag       : Nat := 0
  /-- C_STATUS bits [7:0]. -/
  busy      : Bool := false
  done      : Bool := false
  suspended : Bool := false
  tagOk     : Bool := false
  tagFail   : Bool := false
  denied    : Bool := false
  overrun   : Bool := false
  seqErr    : Bool := false
  /-- Bytes fed, input ended, bytes already processed, and how many were when the message last began to run (R350). -/
  fed       : Bytes := []
  ended     : Bool := false
  taken     : Nat := 0
  since     : Nat := 0
  /-- Output not yet read. -/
  out       : Bytes := []
  deriving DecidableEq, Repr

/-- An agent page's digest half (Table 13-5). -/
structure DigestPage where
  alg       : Nat := 0
  slot      : Nat := 0
  lastBytes : Nat := 0
  result    : Nat := 0
  expect    : Nat := 0
  busy      : Bool := false
  done      : Bool := false
  suspended : Bool := false
  equal     : Bool := false
  notEqual  : Bool := false
  denied    : Bool := false
  overrun   : Bool := false
  seqErr    : Bool := false
  importRefused : Bool := false
  fed       : Bytes := []
  ended     : Bool := false
  taken     : Nat := 0
  since     : Nat := 0
  /-- Chaining state that an import has brought, and the whole blocks behind it in bytes (R351). -/
  chain     : Option Nat := none
  before    : Nat := 0
  /-- A keyed result stands behind the comparator. -/
  keyed     : Bool := false
  blob      : Bytes := []
  deriving DecidableEq, Repr

/-- A cipher pair out of service, awaiting its repair frame (R339). -/
structure CipherSuspect where
  pair  : Nat
  frame : Nat
  first : Nat
  second : Nat
  deriving DecidableEq, Repr

/-- Cipher, digest and key store (R323 to R356). -/
structure Security where
  /-- The 64 slots; 13 R326; reset every slot EMPTY. -/
  slots : Vector KeySlot 64 := Vector.replicate 64 {}
  /-- Battery copies A and B of slots 1, 2, 3 and 7; 13 R328; reset none. -/
  copyA : List (Nat × KeySlot) := []
  copyB : List (Nat × KeySlot) := []
  /-- The key store is in alarm; 13 R353; reset false. -/
  alarm : Bool := false
  /-- Uses of keys so far; model's own order of use for R328; reset 0. -/
  uses : Nat := 0
  /-- Erases (none) and overwrites that wait for the last message under the old key; 13 R331; reset none. -/
  deferred : List (Nat × Option KeySlot) := []
  /-- Rollover pending; 13 R332; reset none. -/
  rollover : Option Rollover := none
  /-- Physical pipes of each logical pair, battery-backed; 13 R337; reset identity. -/
  pairMap : List (Nat × Nat) := (List.range 64).map (fun p => (2 * p, 2 * p + 1))
  /-- Pipes retired, battery-backed; 13 R339; reset none. -/
  pipesRetired : List Nat := []
  /-- Pairs retired for want of pipes; 13 R340; reset none. -/
  pairsRetired : List Nat := []
  /-- Pairs awaiting repair, oldest first; 13 R339; reset none. -/
  suspects : List CipherSuspect := []
  /-- Health-test failures in a row; 13 R338; reset 0. -/
  entropyFails : Nat := 0
  /-- Seeding stopped; 13 R338; reset false. -/
  seedStopped : Bool := false
  /-- Frame of the last health-test failure; 13 R338; reset 0. -/
  entropyFrame : Nat := 0
  /-- Cipher half of each agent's page, agents 0 to 7; 13 R346. -/
  cPages : Vector CipherPage 8 := Vector.replicate 8 {}
  /-- Digest half of each agent's page; 13 R346. -/
  dPages : Vector DigestPage 8 := Vector.replicate 8 {}
  /-- Pages in service order; the head holds the shared pair; 13 R350; reset none. -/
  cQueue : List Nat := []
  /-- Pages in service order; the head holds the shared digest core; 13 R350; reset none. -/
  dQueue : List Nat := []
  deriving DecidableEq, Repr

/-- A registered waiter on a sync word (R364, R375). -/
structure Waiter where
  who   : Thread
  word  : Nat
  op    : SyncOp
  /-- FRAME_EXT of registration. -/
  frame : Nat
  /-- Class of R375: 0 none, 1 STALL, 2 ORPHAN, 3 DEADLOCK. -/
  cls   : Nat := 0
  deriving DecidableEq, Repr

/-- Owner of a sync word (R371): a thread, or a host agent. -/
inductive SyncOwner
  | thread (t : Thread)
  | agent (a : Agent)
  deriving DecidableEq, Repr

/-- One sync word that is not at its reset value (Table 14-5). -/
structure SyncWord where
  data      : Nat := 0
  full      : Bool := false
  owner     : Option SyncOwner := none
  lastAgent : Nat := 0
  lastFrame : Nat := 0
  deriving DecidableEq, Repr

/-- Events of the input log (Table 14-1). -/
inductive LogEvent
  | sync (thread : Fin 4) (result : Nat)
  | value (thread : Fin 4) (value : Nat)
  | action (number : Nat)
  deriving DecidableEq, Repr

/-- One logical Docent core (R357 to R363). -/
structure DocentCore where
  /-- Physical core that carries the logical core (DOCENT_MAP); 14 R357; reset identity. -/
  phys    : Nat
  /-- Frozen by a core fault: the frame and the physical core that failed; 14 R361; reset none. -/
  frozen  : Option (Nat × Nat) := none
  /-- Frame whose snapshot is the saved context; 14 R358; reset 0. -/
  saved   : Nat := 0
  /-- Input log since the saved context, oldest first, at most 2,048 entries; 14 R359; reset empty. -/
  log     : List LogEvent := []
  /-- Operations of threads stalled by a full log, with the cycle of the stall; 14 R359; reset none. -/
  stalled : List (Fin 4 × Nat × SyncOp × Nat) := []
  /-- Clock gated to lend its power; 14 R377; reset false. -/
  gated   : Bool := false
  /-- Woken from gating at the next boundary; 14 R377; reset false. -/
  waking  : Bool := false
  /-- Frozen to be exchanged under a pin or by plan, no fault (Table 17-6); 17 R447; reset false. -/
  pinSwap : Bool := false
  deriving DecidableEq, Repr

/-- The Docent cores (R357 to R363, R377). -/
structure Docent where
  /-- The 20 logical cores; 14 R357. -/
  cores   : Vector DocentCore 20 := Vector.ofFn (fun i => { phys := i.val })
  /-- Physical cores retired; 14 R361; reset none. -/
  retired : List Nat := []
  /-- Physical cores in the spare pool; 14 R357; reset 20 to 23. -/
  spares  : List Nat := [20, 21, 22, 23]
  /-- Power of the cores woken since the boundary, mW; 14 R377; reset 0. -/
  woken   : Nat := 0
  deriving DecidableEq, Repr

/-- The sync memory (R364 to R376). -/
structure SyncMem where
  /-- Words not at reset (data 0, empty, no owner, never changed), by rising number; 14 R364; reset none. -/
  words   : List (Nat × SyncWord) := []
  /-- Registered waiters, in order of registration; 14 R365; reset none. -/
  waiters : List Waiter := []
  /-- Waits completed while their thread was frozen, held for WAIT_CANCEL or replay; 14 R372 R374; reset none. -/
  results : List (Thread × Nat) := []
  deriving DecidableEq, Repr

/-- One mailbox channel (Table 14-7). -/
structure Mailbox where
  /-- H2E_MSG, 256 bytes as a list of offset and byte, zero where not listed; 14 Table 14-7; reset 0. -/
  h2eMsg   : List (Nat × Byte) := []
  /-- E2H_MSG, 256 bytes; 14 Table 14-7; reset 0. -/
  e2hMsg   : List (Nat × Byte) := []
  /-- H2E_DOORBELL, 32 bits; 14 Table 14-7; reset 0. -/
  h2eBell  : BitVec 32 := 0
  /-- H2E_ACK: DONE, SEQ [7:0], RETURN_CODE; 14 Table 14-7; reset 0. -/
  ackDone  : Bool := false
  ackSeq   : Nat := 0
  ackCode  : Nat := 0
  /-- E2H_DOORBELL, 32 bits; 14 Table 14-7; reset 0. -/
  e2hBell  : BitVec 32 := 0
  /-- E2H_DB_MASK, 32 bits; 14 Table 14-7; reset 0xFFFF_FFFF. -/
  e2hMask  : BitVec 32 := 0xFFFFFFFF
  /-- CH_STATUS [5] E2H_TIMEOUT, W1C; 14 Table 14-9; reset 0. -/
  e2hTimeout : Bool := false
  /-- CH_STATUS [4] SEQ_ERR, W1C; 14 Table 14-9; reset 0. -/
  seqErr   : Bool := false
  /-- CH_STATUS [3] E2H_VALID; 14 Table 14-9; reset 0. -/
  e2hValid : Bool := false
  /-- CH_STATUS [2] H2E_BUSY; 14 Table 14-9; reset 0. -/
  h2eBusy  : Bool := false
  /-- CH_CONTROL, 9 bits; 14 Table 14-7; reset 0. -/
  control  : Nat := 0
  /-- Agents that wrote H2E_MSG since the last ring, by ID (WRITERS); 14 Table 14-8; reset none. -/
  writers  : List Nat := []
  /-- The snapshot presented to firmware, 256 bytes; 14 R380; reset none. -/
  snapshot : Option Bytes := none
  /-- Frame of the ring awaiting an acknowledge; 14 R382; reset none. -/
  h2eFrame : Option Nat := none
  /-- Frame of the E2H message awaiting an acknowledge; 14 R382; reset none. -/
  e2hFrame : Option Nat := none
  /-- SEQ values acknowledged by MBOX_TIMEOUT whose firmware acknowledge may still come; 14 R382; reset none. -/
  late     : List Nat := []
  /-- Service class in force for the message presented (MBOX_CLASS at its ring); 14 R383; reset 0. -/
  cls      : Nat := 0
  /-- Return code the host last gave for an E2H message; 14 Table 14-7 E2H_ACK; reset 0. -/
  e2hCode  : Nat := 0
  /-- Frame of the last INTR of the channel; 14 R381; reset none. -/
  intrFrame : Option Nat := none
  deriving DecidableEq, Repr

/-- The start stages of Table 15-3. -/
inductive Stage
  | none | a | b | c | d
  deriving DecidableEq, Repr

/-- Code of START_STAGE (Table 03-6). -/
def Stage.code : Stage → Nat
  | .none => 0 | .a => 1 | .b => 2 | .c => 3 | .d => 4

/-- A job record (Table 15-7). -/
structure JobRecord where
  lineage  : Nat := 0
  v        : Nat := 0
  d        : Nat := 0
  aLast    : Nat := 0
  aLastId  : Nat := 0
  partner  : Nat := 0
  shard    : Nat := 0
  vaultIdx : Nat := 0
  used     : Bool := false
  gen      : Nat := 0
  deriving DecidableEq, Repr

/-- The battery domain (Table 15-5), but for the parts that other units hold: key slots and IV_EPOCH (Security), the
remap table (Gallery), lane and core maps (their units). -/
structure Battery where
  /-- The canary at 0x00008, 64 bits; 15 R386; reset 0 (first power-up finds VBAT lost), DESIGN CHOICE. -/
  canary   : Nat := 0
  /-- ENGINE_ID, 32 bits; 15 R397; reset 0. -/
  engineId : Nat := 0
  /-- START_HOLD, 2 bits; 15 R396; reset 0. -/
  startHold : Nat := 0
  /-- BOOT_CHOICE, 2 bits; 15 Table 15-6; reset 0. -/
  bootChoice : Nat := 0
  /-- START_COUNT, 32 bits; 15 Table 15-6; reset 0. -/
  startCount : Nat := 0
  /-- ALARM_STANDING, 1 bit; 15 Table 15-6; reset 0. -/
  alarmStanding : Bool := false
  /-- ALARM_SOURCE, 8 bits; 15 Table 15-6; reset 0. -/
  alarmSource : Nat := 0
  /-- ALARM_COUNT, 32 bits; 15 Table 15-6; reset 0. -/
  alarmCount : Nat := 0
  /-- WRITE_GEN of the Curator state region, 32 bits; 15 Table 15-6; reset 0. -/
  curatorGen : Nat := 0
  /-- Retention counter seconds, 48 bits; 15 Table 15-5; reset 0. -/
  seconds  : Nat := 0
  /-- Retention counter VALID, 1 bit; 15 Table 15-5; reset 0. -/
  secondsValid : Bool := false
  /-- The four job records; 15 Table 15-7; reset zero. -/
  records  : Vector JobRecord 4 := Vector.replicate 4 {}
  /-- Security-version counters Curator, Docent, kernel, bundle; 15 R402; reset none: the boot-ROM floor. -/
  svn      : Vector (Option Nat) 4 := Vector.replicate 4 none
  /-- PUF enrolments run so far (each gives new helper data, key and DEVICE_SERIAL); 15 R389; reset 0. -/
  enrolment : Nat := 0
  /-- PUF helper data written by FIELD, when written; 15 R397; reset none: as enrolled. -/
  helper   : Option Bytes := none
  /-- Persistent dictionary store: values that differ from their default, by key; 15 R400; reset empty. -/
  store    : List (Nat × Nat) := []
  /-- Curator image A; 15 R403; reset none. -/
  imageA   : Option CuratorImage := none
  /-- Curator image B; 15 R403; reset none. -/
  imageB   : Option CuratorImage := none
  deriving DecidableEq, Repr

/-- A barrier message queued or in flight (Table 15-8). -/
structure BarrierMsg where
  type    : Nat
  seq     : Nat
  payload : Bytes
  deriving DecidableEq, Repr

/-- The field side of the isolation barrier (R404 to R406, R478). -/
structure FieldSide where
  /-- PoDL power present; 18 R478; reset false. -/
  podl     : Bool := false
  /-- Own address and PLCA settings of the last C_CONFIG (14 bytes); 15 R405; reset none. -/
  config   : Option Bytes := none
  /-- Frames queued for transmission (destination and payload); 15 R405; reset empty. -/
  queue    : List Bytes := []
  /-- TIME_NS of the last C_HEARTBEAT; 15 R405; reset none. -/
  beat     : Option Nat := none
  /-- SEQ of the next message to the Curator, 8 bits; 15 Table 15-8; reset 0, DESIGN CHOICE. -/
  txSeq    : Nat := 0
  /-- SEQ expected from the Curator; 15 R406; reset none: the first message sets it, DESIGN CHOICE. -/
  rxSeq    : Option Nat := none
  /-- FCS errors of F_STATUS, 32 bits; 15 Table 15-9; reset 0. -/
  fcsErrs  : Nat := 0
  /-- Frames filtered of F_STATUS, 32 bits; 15 R405; reset 0. -/
  filtered : Nat := 0
  deriving DecidableEq, Repr

/-- The Curator and the start (R385 to R407). -/
structure Curator where
  /-- START_STAGE; 15 R388; reset none. -/
  stage    : Stage := .none
  /-- Main power-good; 18 R467; reset false. -/
  powerGood : Bool := false
  /-- TIME_NS of main power-good, for the 3 s of R391 and R392, moved along with a step of the time; 15 R392; reset none. -/
  powerAt  : Option Int := none
  /-- 3 s have passed since main power-good (STAGE_C_DEADLINE); 15 R391 R392; reset false. -/
  deadline : Bool := false
  /-- A transition whose trigger was met is stopped by a hold: the stage it leads to; 15 R388; reset none. -/
  held     : Option Stage := none
  /-- STAGE_TIMES_US of Stages A to D, 32 bits each; 15 Table 15-11; reset 0. -/
  stageUs  : Vector Nat 4 := Vector.replicate 4 0
  /-- STAGE_C_UNMET, 4 bits; 15 R392; reset 0. -/
  unmet    : Nat := 0
  /-- Pairing attempts of condition 4 that have ended in failure, by job; 15 R392; reset none. -/
  pairFailed : List Nat := []
  /-- CATALOGUE_CHECKED, 4 bits; 15 R393; reset 0. -/
  checked  : Nat := 0
  /-- Jobs whose Catalogue check at Stage C is still under way; 15 R393; reset none. -/
  checking : List Nat := []
  /-- VBAT_LOST; 15 R386; reset 0. -/
  vbatLost : Bool := false
  /-- CURATOR_IMAGE_SLOT: 0 ROM, 1 A, 2 B; 15 R403; reset 0. -/
  slot     : Nat := 0
  /-- A Curator activation accepted, with the slot named; 17 R456; reset none. -/
  activate : Option (Nat × Nat) := none
  /-- The Curator is paused by a restart until this frame; 17 R456; reset none. -/
  pausedTo : Option Nat := none
  /-- Curator trial: frame of its start; 17 R456; reset none. -/
  trial    : Option Nat := none
  /-- Job records waiting for the Curator to resume; 17 R456; reset none. -/
  recQueue : List (JobId × JobRecord) := []
  /-- The field side of the barrier. -/
  field    : FieldSide := {}
  /-- SEQ of the next message to the field side, 8 bits; 15 Table 15-8; reset 0, DESIGN CHOICE. -/
  txSeq    : Nat := 0
  /-- SEQ expected from the field side; 15 R406; reset none: the first message sets it, DESIGN CHOICE. -/
  rxSeq    : Option Nat := none
  /-- TIME_NS of the last F_STATUS; 15 R406; reset none. -/
  statusAt : Option Nat := none
  /-- The last F_STATUS payload; 15 Table 15-9; reset none. -/
  status   : Option Bytes := none
  /-- FIELD_LINK_UP; 15 R406; reset 0. -/
  linkUp   : Bool := false
  deriving DecidableEq, Repr

/-- An event record (Table 16-5). -/
structure Event where
  seq     : Nat
  frame   : Nat
  detail  : Nat
  detail2 : Nat
  index   : Nat
  sub     : Nat
  deriving DecidableEq, Repr

/-- An open write transfer of a path (R418, R420, R427). -/
structure Transfer where
  key    : Nat
  total  : Nat
  got    : Bytes
  frame  : Nat
  /-- Offset and length of the last accepted part. -/
  last   : Option (Nat × Nat) := none
  /-- Source of the transfer (Phoaz) and TRANSACTION of its last frame. -/
  source : Nat := 0
  trans  : Nat := 0
  deriving DecidableEq, Repr

/-- A read snapshot of a path (R418). -/
structure Snapshot where
  key   : Nat
  value : Bytes
  frame : Nat
  deriving DecidableEq, Repr

/-- The last Phoaz request completed and its stored response (R428). -/
structure StoredReq where
  src    : Nat
  trans  : Nat
  type   : Nat
  index  : Nat
  sub    : Nat
  rspHdr : BitVec 128
  rspBody : Bytes
  deriving DecidableEq, Repr

/-- One bank of the OD window (Table 16-3). -/
structure OdBank where
  /-- OD_ADDR, 24 bits; 16 Table 16-3; reset 0. -/
  addr   : Nat := 0
  /-- OD_LEN, 32 bits; 16 Table 16-3; reset 0. -/
  len    : Nat := 0
  /-- OD_TOTAL, 32 bits; 16 Table 16-3; reset 0. -/
  total  : Nat := 0
  /-- OD_OFFSET, 32 bits; 16 Table 16-3; reset 0. -/
  offset : Nat := 0
  /-- OD_STATUS [1] DONE, W1C; 16 Table 16-4; reset 0. -/
  done   : Bool := false
  /-- OD_STATUS [2] ERROR, W1C; 16 Table 16-4; reset 0. -/
  error  : Bool := false
  /-- OD_STATUS [5] CMD_IGNORED, W1C; 16 Table 16-4; reset 0. -/
  ignored : Bool := false
  /-- OD_ABORT, 32 bits; 16 Table 16-3; reset 0. -/
  abort  : Nat := 0
  /-- OD_INTR, 9 bits; 16 Table 16-3; reset 0. -/
  intr   : Nat := 0
  /-- OD_DATA, 4,096 bytes, zero where not listed; 16 Table 16-3; reset 0. -/
  data   : List (Nat × Byte) := []
  /-- The open transfer of the bank (TRANSFER_OPEN); 16 R418; reset none. -/
  transfer : Option Transfer := none
  /-- The held snapshot of the bank (SNAPSHOT_HELD); 16 R418; reset none. -/
  snapshot : Option Snapshot := none
  deriving DecidableEq, Repr

/-- The dictionary's paths, events and the Phoaz side (R408 to R438). -/
structure Dictionary where
  /-- Accepted writes that have not taken effect: key, and the value still in force; 16 R413 R414; reset none. -/
  pendingW : List (Nat × Nat) := []
  /-- STEP entries: value in force per job where it differs from the accepted one; 16 R415; reset none. -/
  stepHeld : List (Nat × Nat × Nat) := []
  /-- Banks HOST_NS and HOST_S; 16 R419. -/
  bankNs : OdBank := {}
  bankS  : OdBank := {}
  /-- The open Phoaz transfer; 16 R427; reset none. -/
  transfer : Option Transfer := none
  /-- The held Phoaz snapshot; 16 R426; reset none. -/
  snapshot : Option Snapshot := none
  /-- The last request completed: source, TRANSACTION, TYPE, INDEX, SUB, and its stored response; 16 R428; reset
  none. -/
  lastReq : Option StoredReq := none
  /-- Well-formed frames received across the barrier and not yet handled; 16 R424, 15 R404; reset none. -/
  phoazIn : List PhoazFrame := []
  /-- The stored response of the last accepted segment; 16 R427; reset none. -/
  segRsp : Option (BitVec 128) := none
  /-- EVENT_SEQ, 32 bits; 16 R423; reset 0. -/
  eventSeq : Nat := 0
  /-- ERROR_HISTORY, newest first, at most 64; 16 R423; reset empty. -/
  history : List Event := []
  /-- Events waiting for the field master, in SEQ order, at most 64; 16 R433; reset empty. -/
  waiting : List Event := []
  /-- Sends so far of the event at the head and TIME_NS of the last; 16 R433; reset none. -/
  sends : Option (Nat × Nat) := none
  /-- TIME_SYNC received: SYNC_SEQ, and TIME_NS when its F_FRAME began to cross the barrier; 16 R432; reset none. -/
  timeSync : Option (Nat × Nat) := none
  /-- DISCOVER frames awaiting their answer: sender, TRANSACTION and TIME_NS due; 16 R434; reset none. -/
  discover : List (Nat × Nat × Nat) := []
  deriving DecidableEq, Repr

/-- STATE of a score record (Table 17-3). -/
inductive PartState
  | healthy | watch | suspect | retired
  deriving DecidableEq, Repr

def PartState.code : PartState → Nat
  | .healthy => 0 | .watch => 1 | .suspect => 2 | .retired => 3

/-- A score record (Table 17-3). -/
structure Score where
  score     : Nat := 0
  /-- Events in bands 0 to 3. -/
  bands     : Vector Nat 4 := Vector.replicate 4 0
  /-- Events in load classes 0 to 3. -/
  loads     : Vector Nat 4 := Vector.replicate 4 0
  state     : PartState := .healthy
  loadBound : Bool := false
  bandBound : Bool := false
  deriving DecidableEq, Repr

/-- A pinned part (R447). -/
structure Pin where
  part  : Nat
  /-- Matching frames passed without a failure. -/
  clean : Nat
  deriving DecidableEq, Repr

/-- BUNDLE_STATE (Table 17-13). -/
inductive BundleState
  | none | active | staged | trial
  deriving DecidableEq, Repr

def BundleState.code : BundleState → Nat
  | .none => 0 | .active => 1 | .staged => 2 | .trial => 3

/-- Scores, images and compatibility (R439 to R465). -/
structure Service where
  /-- Score records not at reset, by rising PART_ID; 17 R442; reset none. -/
  scores   : List (Nat × Score) := []
  /-- Battery copies A and B of the score region as last written; 17 R443; reset none. -/
  scoreCopy : List (Nat × Score) := []
  /-- WRITE_GEN of the score region, 32 bits; 17 R442; reset 0. -/
  scoreGen : Nat := 0
  /-- Band of the logic-die sensor of each part class, classes 1 to 12; 17 R444; reset 0. -/
  bands    : Vector (BitVec 2) 12 := Vector.replicate 12 0
  /-- Load class of the frame; 17 R444; reset 0. -/
  load     : Nat := 0
  /-- Bound SUSPECT parts, oldest first; 17 R447; reset none. -/
  suspects : List Nat := []
  /-- Pins, at most one per class; 17 R447; reset none. -/
  pins     : List Pin := []
  /-- Parts of classes 8, 11 and 12 already reported at RETIRE_THRESHOLD; 17 R448; reset none. -/
  reported : List Nat := []
  /-- The active bundle; 17 R451; reset none. -/
  active   : Option Bundle := none
  /-- The staged bundle; 17 R452; reset none. -/
  staged   : Option Bundle := none
  /-- The bundle that a trial would revert to; 17 R455; reset none. -/
  previous : Option Bundle := none
  /-- Activation armed: frame of acceptance; 17 R453; reset none. -/
  armed    : Option Nat := none
  /-- Bundle trial: frame of its start; 17 R455; reset none. -/
  trial    : Option Nat := none
  /-- The trial has failed and reverts at the next boundary; 17 R455; reset false. -/
  trialBad : Bool := false
  /-- Jobs whose latest pairing attempt was refused with reason CLASS; 17 R461; reset none. -/
  classRefused : List Nat := []
  /-- WRAP loaded since IV_EPOCH saturated; 17 R464; reset false. -/
  newWrap  : Bool := false
  /-- KEY_ROLLOVER taken effect since IV_EPOCH saturated; 17 R464; reset false. -/
  newRoll  : Bool := false
  /-- Repairs past their budget already counted: PART_ID and frame of the fault; 02 R33 R480; reset none. -/
  overruns : List (Nat × Nat) := []
  deriving DecidableEq, Repr

/-- Thermal state and test access of the engine's own package (R466 to R479). -/
structure Electrical where
  /-- Classes of the logic die, DRAM dies and optical engines, 1 WARM to 3 CRITICAL; 18 R475; reset 0 COOL. -/
  die      : Vector Nat 3 := Vector.replicate 3 0
  /-- The part whose main-off temperature dropped main power-good; 18 R476; reset none. -/
  shutdown : Option ThermalPart := none
  /-- Test access port in BYPASS, or the instruction in force; 18 R474; reset BYPASS. -/
  tap      : TapInstr := .bypass
  deriving DecidableEq, Repr

/-- What leaves the engine. Outputs are not state of the engine: the list keeps what commands have sent, newest first,
so that statements can speak of it (log entry 3). -/
inductive OutMsg
  /-- A transaction-layer message to the carrier (Table 03-2): MSG_TYPE, SECURE, TAG, ADDR, LEN, AUX and payload bytes
  by carrier address. -/
  | d2d (type : Nat) (secure : Bool) (tag addr len aux : Nat) (payload : List (Nat × Byte))
  /-- CW_CPL of a control-window access: TAG, STATUS and data (Table 03-3). -/
  | cwCpl (path : CwPath) (tag : Option Nat) (status data : Nat)
  /-- INTR on a vector (Table 03-3). -/
  | intr (vector : Nat)
  /-- A message offered to the fabric: number, port, destination engine, VC, PROTO, header words, payload. -/
  | fabric (id : Nat) (port : Option Nat) (dst vc proto : Nat) (hdr : Nat) (payload : Bytes)
  /-- A CTRL flit on a port: type of Table 12-5 and its fields. -/
  | ctrl (port type : Nat) (fields : List Nat)
  /-- A flit replayed or sent on a port: SEQ, VC. -/
  | flit (port seq vc : Nat)
  /-- Credits returned on a port: VC and flits (Table 12-3). -/
  | credit (port vc flits : Nat)
  /-- A PTP message on a port: messageType, sequenceId, correction and body fields. -/
  | ptp (port type seq : Nat) (correction : Int) (fields : List Nat)
  /-- A barrier message: towards the field side when `down`. -/
  | barrier (down : Bool) (msg : BarrierMsg)
  /-- An Ethernet frame on the field pair: destination and payload (R405). -/
  | ethernet (frame : Bytes)
  /-- The result of a sync operation, returned to a thread or to the host. -/
  | sync (who : SyncWho) (word result : Nat)
  /-- A sync result that is no data: 1 UNDERFLOW, 2 WORD_LOST, 3 OWNER_RESET, 4 CANCELLED, 5 done, no data. -/
  | syncNote (who : SyncWho) (word note : Nat)
  /-- A mailbox message presented to firmware: channel and snapshot (R380). -/
  | mailbox (ch : Nat) (snapshot : Bytes)
  /-- A value returned on a dictionary path other than a bank of the OD window. -/
  | od (agent : Nat) (abort : Nat) (value : Bytes)
  /-- A value read from an agent page. -/
  | page (agent : Nat) (value : Nat)
  /-- A firmware transfer received on VC5, delivered to Docent firmware (R313). -/
  | mgmt (stamp : Agent) (source : Nat) (payload : Bytes)
  /-- A value shifted out of the test access port (R474). -/
  | tap (value : Nat)
  deriving DecidableEq, Repr

/-- The W1C bits of the register pages (R10). -/
inductive W1c
  /-- STEP_REFUSED of TIME_STATUS (Table 02-7). -/
  | stepRefused
  /-- THERMAL_CRITICAL, D2D_DEGRADED and XLAT_TIMEOUT of ALARM_SUMMARY (Table 03-7). -/
  | thermalCritical | d2dDegraded | xlatTimeout
  /-- FETCH_ERR and DOORBELL_ERR of a pair (Table 04-3). -/
  | fetchErr (q : Nat) | doorbellErr (q : Nat)
  /-- A bit of C_STATUS or D_STATUS of an agent's page (Table 13-5). -/
  | cStatus (agent bit : Nat) | dStatus (agent bit : Nat)
  /-- DONE of H2E_ACK, a bell of E2H_DOORBELL, E2H_TIMEOUT and SEQ_ERR of a channel (Tables 14-7 and 14-9). -/
  | ackDone (ch : Nat) | e2hBell (ch bit : Nat) | e2hTimeout (ch : Nat) | mboxSeqErr (ch : Nat)
  /-- A bit of OD_STATUS of a bank (Table 16-4). -/
  | odStatus (secure : Bool) (bit : Nat)
  deriving DecidableEq, Repr

/-- The state of the engine. -/
structure State where
  time    : TimeUnit := {}
  carrier : Carrier := {}
  sched   : Sched := {}
  /-- The four jobs (Table 04-4). -/
  jobs    : Vector Job 4 := Vector.replicate 4 {}
  update  : UpdateUnit := {}
  woad    : Woad := {}
  madder  : Madder := {}
  gallery : Gallery := {}
  /-- The Weld state of each job. -/
  welds   : Vector Weld 4 := Vector.replicate 4 {}
  vault   : Vault := {}
  colls   : Colls := {}
  fabric  : Fabric := {}
  sec     : Security := {}
  docent  : Docent := {}
  sync    : SyncMem := {}
  /-- The 16 mailbox channels. -/
  mboxes  : Vector Mailbox 16 := Vector.replicate 16 {}
  curator : Curator := {}
  battery : Battery := {}
  dict    : Dictionary := {}
  service : Service := {}
  elec    : Electrical := {}
  /-- Object-dictionary values that differ from their default, by rising key (index × 256 + subindex), as numbers
  (little-endian for a DOMAIN); 16 R408; reset none. -/
  od      : List (Nat × Nat) := []
  /-- W1C bits that the hardware has set in the present DCLK cycle; 00 R10; reset none. -/
  raised  : List W1c := []
  /-- Commands that wait, first in first out. -/
  pending : List Instr := []
  /-- What the engine has sent, newest first; model's own (log entry 3). -/
  outbox  : List OutMsg := []
  /-- Free values drawn so far; model's own (log entry 4); reset 0, DESIGN CHOICE. -/
  freeCtr : Nat := 0
  deriving DecidableEq, Repr

/-- The engine right after reset: every field at its default, no stage entered (R388). -/
def State.reset : State := {}

/-- Why the block would stop with a fault. There is none: R439 says that the engine handles every fault it detects and
continues. -/
inductive Fault
  deriving DecidableEq, Repr

/-- Why a command has no meaning. -/
inductive Refusal
  /-- The model gives the command of this mnemonic no meaning yet. Raised by an arm of Dispatch only; safe. -/
  | notModelled (mnemonic : String)
  deriving DecidableEq, Repr

end Sys2Proof.Machine
end

