-- ==== Sys2Proof/Machine/Ops.lean ====
section
/-!
DEFINITION. The named operations that every family uses: keyed lists, vectors, the object dictionary's values, events,
output, time, jobs and tasks, completion entries and the carrier's read and write requests.
-/
namespace Sys2Proof.Machine

/-- What a command answers. -/
abbrev Out := Host.Outcome State Fault Refusal

/-! Keyed lists -/

/-- The value under a key. -/
def assoc {α : Type} (l : List (Nat × α)) (k : Nat) : Option α := (l.find? (fun p => p.1 == k)).map (·.2)

/-- The list without a key. -/
def assocErase {α : Type} (l : List (Nat × α)) (k : Nat) : List (Nat × α) := l.filter (fun p => p.1 != k)

/-- The list, sorted by key, with a key set. -/
def assocSet {α : Type} : List (Nat × α) → Nat → α → List (Nat × α)
  | [], k, v => [(k, v)]
  | (a, x) :: l, k, v =>
    if k < a then (k, v) :: (a, x) :: l else if k == a then (k, v) :: l else (a, x) :: assocSet l k v

/-- Replace the elements that satisfy a test. -/
def mapIf {α : Type} (l : List α) (p : α → Bool) (f : α → α) : List α := l.map (fun a => if p a then f a else a)

/-- A value added to a list without repeats. -/
def addOnce {α : Type} [BEq α] (l : List α) (a : α) : List α := if l.contains a then l else l ++ [a]

/-- Change one element of a vector, by number; a number outside the vector changes nothing. -/
def vmod {α : Type} {n : Nat} (v : Vector α n) (i : Nat) (f : α → α) : Vector α n :=
  if h : i < n then v.set i (f v[i]) else v

/-- A job number from a field of two bits. -/
def jobOf (n : Nat) : JobId := Fin.ofNat 4 n

/-- A port number from a number below 4. -/
def portOf (n : Nat) : Port := Fin.ofNat 4 n

/-! W1C bits (R10) -/

/-- The hardware sets a W1C bit: a write of 1 in the same DCLK cycle does not clear it. -/
def State.raise (s : State) (b : W1c) : State := { s with raised := addOnce s.raised b }

/-- A new DCLK cycle begins: the W1C bits set before may be cleared. -/
def State.newCycle (s : State) : State := { s with raised := [] }

/-- A W1C bit after a write: kept unless the write has a 1 for it, and kept in any case if it was set in this cycle. -/
def State.w1c (s : State) (b : W1c) (old : Bool) (value bit : Nat) : Bool :=
  old && (value / 2 ^ bit % 2 == 0 || s.raised.contains b)

/-! The object dictionary's values (R408, R413) -/

/-- The accepted value of an entry. -/
def State.odGet (s : State) (r : OdRef) : Nat := (assoc s.od r.key).getD r.dflt

/-- Set the accepted value of an entry; a value equal to the default is not listed. -/
def State.odSet (s : State) (r : OdRef) (v : Nat) : State :=
  { s with od := if v == r.dflt then assocErase s.od r.key else assocSet s.od r.key v }

/-- The value of a setting in force: the accepted one unless a write is still pending (R413, R414). -/
def State.cfg (s : State) (r : OdRef) : Nat := (assoc s.dict.pendingW r.key).getD (s.odGet r)

/-- The value of a STEP setting in force for a job (R415). -/
def State.cfgStep (s : State) (j : JobId) (r : OdRef) : Nat :=
  ((s.dict.stepHeld.find? (fun p => p.1 == j.val && p.2.1 == r.key)).map (·.2.2)).getD (s.odGet r)

/-- A signed setting in force. -/
def State.cfgInt (s : State) (r : OdRef) : Int := signed 32 (s.cfg r)

/-- Count in an event counter: it saturates at the largest value of its type (R462). -/
def State.bumpBy (s : State) (r : OdRef) (n : Nat) : State := s.odSet r (min (s.odGet r + n) (2 ^ r.width - 1))

/-- Count one. -/
def State.bump (s : State) (r : OdRef) : State := s.bumpBy r 1

/-- Add to a total: it wraps modulo 2^64 (R462). -/
def State.total (s : State) (r : OdRef) (n : Nat) : State := s.odSet r ((s.odGet r + n) % 2 ^ r.width)

/-! Time -/

/-- FRAME_EXT (R23). -/
def State.frame (s : State) : Nat := s.time.frameExt

/-- FRAME_NO (R23). -/
def State.frameNo (s : State) : Nat := s.time.frameExt % 2 ^ 32

/-- TIME_NS (R23, R24: 160,000 DCLK cycles of 0.625 ns in a frame). -/
def State.timeNs (s : State) : Nat := s.time.frameExt * 100000 + s.time.cycle * 5 / 8

/-- A limit of N frames from an event in frame f has lapsed at the boundary that closes the present frame, or has
lapsed before (R480). -/
def State.lapsed (s : State) (f n : Nat) : Bool := f + n ≤ s.frame

/-- Extend a received 32-bit frame number (R47). -/
def State.extend (s : State) (f : Nat) : Nat :=
  let l := s.frame
  let d := (f % 2 ^ 32 + 2 ^ 32 - l % 2 ^ 32) % 2 ^ 32
  if d < 2 ^ 31 then l + d else l - (2 ^ 32 - d)

/-! Output and free values -/

/-- Send something out of the engine. -/
def State.send (s : State) (m : OutMsg) : State := { s with outbox := m :: s.outbox }

/-- Draw a free value (log entry 4). -/
def State.free (s : State) : Nat × State := (Config.freeNat s.freeCtr, { s with freeCtr := s.freeCtr + 1 })

/-- Draw several free values, numbered from the counter on (log entry 4). -/
def State.freeMore (s : State) (n : Nat) : State := { s with freeCtr := s.freeCtr + n }

/-- The main domain is up and served (Table 15-4). -/
def State.mainUp (s : State) : Bool :=
  match s.curator.stage with
  | .none => false | .a => false | .b => true | .c => true | .d => true

/-- The optics run, and the Gallery is out of self-refresh: E0 and E1 (R100, Table 04-12a). -/
def State.opticsOn (s : State) : Bool := s.sched.power == .e0 || s.sched.power == .e1

/-- HW_REVISION, counted from 1 (R60). -/
def hwRevision : Nat := 1 + Config.hwRevision % 255

/-- An INTR message to the host. -/
def State.intr (s : State) (vector : Nat) : State := s.send (.intr vector)

/-! Mailbox doorbells towards the host (R381) -/

/-- Ring E2H doorbell bits of a channel: an unmasked bit sends INTR, at most one per channel and frame. -/
def State.ringE2h (s : State) (ch : Nat) (bits : BitVec 32) : State :=
  if h : ch < 16 then
    let m := s.mboxes[ch]
    let fires := (bits &&& ~~~m.e2hMask) != 0 && m.intrFrame != some s.frame
    let m' := { m with e2hBell := m.e2hBell ||| bits, intrFrame := if fires then some s.frame else m.intrFrame }
    let s := { s with mboxes := s.mboxes.set ch m' }
    let s := ((List.range 32).filter (fun n => bitOf bits n)).foldl (fun s n => s.raise (.e2hBell ch n)) s
    if fires then s.intr (m.control % 256) else s
  else s

/-! The barrier towards the field side (R404) -/

/-- The Curator does not answer while it restarts (R456). -/
def State.curatorPaused (s : State) : Bool :=
  match s.curator.pausedTo with
  | some f => s.frame < f
  | none => false

/-- Send a barrier message towards the field side. -/
def State.barrierDown (s : State) (type : Nat) (payload : Bytes) : State :=
  let m : BarrierMsg := { type := type, seq := s.curator.txSeq, payload := payload }
  { s.send (.barrier true m) with curator := { s.curator with txSeq := (s.curator.txSeq + 1) % 256 } }

/-- Header of a Phoaz frame (Table 16-7). -/
def phoazHdr (type flags trans len index sub param : Nat) : BitVec 128 :=
  BitVec.ofNat 128 (packFields [(32, param), (8, 0), (8, sub), (16, index), (16, len), (16, trans), (8, 0), (8, flags),
    (8, type), (8, 1)])

/-- Send a Phoaz frame: a C_FRAME across the barrier (R404, R424). -/
def State.phoaz (s : State) (dst : Nat) (hdr : BitVec 128) (body : Bytes) : State :=
  s.barrierDown 0x81 (beBytes 6 dst ++ beBytes 16 hdr.toNat ++ body)

/-! Events (R422, R423, R433) -/

/-- CLASS of an event, by its index (Table 16-6). -/
def eventClass (index : Nat) : Nat :=
  if index == 0x3020 then 1
  else if 0xA000 ≤ index && index ≤ 0xAFFF then 1
  else if 0x3000 ≤ index && index ≤ 0x3FFF then 2
  else if 0x6000 ≤ index && index ≤ 0x6FFF then 3
  else if 0x4000 ≤ index && index ≤ 0x4FFF then 4
  else if 0x9000 ≤ index && index ≤ 0x9FFF then 4
  else if 0x7000 ≤ index && index ≤ 0x7FFF then 5
  else if 0x5000 ≤ index && index ≤ 0x5FFF then 6
  else if 0x2000 ≤ index && index ≤ 0x2FFF then 7
  else 0

/-- The 24-byte record of an event (Table 16-5), as a number. -/
def Event.record (e : Event) : Nat :=
  packFields [(3, eventClass e.index), (5, 0), (8, e.sub), (16, e.index), (32, e.detail2), (32, e.detail),
    (64, e.frame), (32, e.seq)]

/-- The Phoaz group address. -/
def phoazGroup : Nat := 0x034C52000001

/-- FIELD_MASTER_ADDR in transmission order, as a 48-bit number (Table 16-13). -/
def State.masterAddr (s : State) : Nat := beNat (leBytes 6 (s.cfg Od.fieldMasterAddr))

/-- Send one EVENT frame (R433). -/
def State.sendEvent (s : State) (e : Event) : State :=
  s.phoaz s.masterAddr (phoazHdr 0x0B 0 0 24 0 0 e.seq) (beBytes 24 e.record)

/-- The event at the head of the waiting queue is sent for the first time. -/
def State.startEvent (s : State) : State :=
  match s.dict.sends, s.dict.waiting with
  | none, e :: _ => { s.sendEvent e with dict := { s.dict with sends := some (1, s.timeNs) } }
  | _, _ => s

/-- Hand an event to the field port (R433): sent once to the group address, queued for a unicast master. -/
def State.eventToField (s : State) (e : Event) : State :=
  if s.cfg Od.fieldEventMask / 2 ^ eventClass e.index % 2 == 0 then s
  else if s.masterAddr == phoazGroup then s.sendEvent e
  else if s.dict.waiting.length < 64 then
    State.startEvent { s with dict := { s.dict with waiting := s.dict.waiting ++ [e] } }
  else
    let s := { s with dict := { s.dict with waiting := s.dict.waiting.drop 1 ++ [e], sends := none } }
    (s.bump Od.eventDropCount).startEvent

/-- Report an event that names an entry's index and subindex (R422, R423). -/
def State.eventAt (s : State) (index sub detail detail2 : Nat) : State :=
  let seq := (s.dict.eventSeq + 1) % 2 ^ 32
  let e : Event := { seq := seq, frame := s.frame, detail := detail % 2 ^ 32, detail2 := detail2 % 2 ^ 32,
                     index := index, sub := sub }
  let s := { s with dict := { s.dict with eventSeq := seq, history := (e :: s.dict.history).take 64 } }
  let s := if s.mainUp then
      let s := s.ringE2h 0 2
      if eventClass index == 5 then s.ringE2h 8 2 else s
    else s
  s.eventToField e

/-- Report an event that names an entry. -/
def State.event (s : State) (r : OdRef) (detail detail2 : Nat := 0) : State :=
  s.eventAt (r.key / 256) (r.key % 256) detail detail2

/-- Count and report: the usual first and fourth step of a fault rule. -/
def State.countEvent (s : State) (r : OdRef) (detail detail2 : Nat := 0) : State := (s.bump r).event r detail detail2

/-! Jobs -/

/-- A job of the engine. -/
def State.job (s : State) (j : JobId) : Job := s.jobs[j]

/-- Change a job. -/
def State.setJob (s : State) (j : JobId) (f : Job → Job) : State := { s with jobs := s.jobs.set j (f s.jobs[j]) }

/-- The Weld state of a job. -/
def State.weld (s : State) (j : JobId) : Weld := s.welds[j]

/-- Change the Weld state of a job. -/
def State.setWeld (s : State) (j : JobId) (f : Weld → Weld) : State := { s with welds := s.welds.set j (f s.welds[j]) }

/-- A job is open (R38). -/
def State.anyJob (s : State) : Bool := s.jobs.toList.any (·.open_)

/-- Write fields of a job record in the battery domain (R400), or queue the write while the Curator restarts (R456). -/
def State.writeRecord (s : State) (j : JobId) (f : JobRecord → JobRecord) : State :=
  let last := ((s.curator.recQueue.filter (fun p => p.1 == j)).getLast?.map (·.2)).getD s.battery.records[j]
  let r := { f last with gen := (last.gen + 1) % 2 ^ 32 }
  if s.curatorPaused then { s with curator := { s.curator with recQueue := s.curator.recQueue ++ [(j, r)] } }
  else { s with battery := { s.battery with records := s.battery.records.set j r } }

/-! Unit updates -/

/-- Change the scheduler. -/
def State.setSched (s : State) (f : Sched → Sched) : State := { s with sched := f s.sched }

/-- Change the carrier interface. -/
def State.setCarrier (s : State) (f : Carrier → Carrier) : State := { s with carrier := f s.carrier }

/-- Change the time unit. -/
def State.setTime (s : State) (f : TimeUnit → TimeUnit) : State := { s with time := f s.time }

/-- Change the update unit. -/
def State.setUpdate (s : State) (f : UpdateUnit → UpdateUnit) : State := { s with update := f s.update }

/-- Change Woad. -/
def State.setWoad (s : State) (f : Woad → Woad) : State := { s with woad := f s.woad }

/-- Change Madder. -/
def State.setMadder (s : State) (f : Madder → Madder) : State := { s with madder := f s.madder }

/-- Change the Gallery. -/
def State.setGallery (s : State) (f : Gallery → Gallery) : State := { s with gallery := f s.gallery }

/-- Change the Vault side. -/
def State.setVault (s : State) (f : Vault → Vault) : State := { s with vault := f s.vault }

/-- Change the collectives. -/
def State.setColls (s : State) (f : Colls → Colls) : State := { s with colls := f s.colls }

/-- Change the fabric. -/
def State.setFabric (s : State) (f : Fabric → Fabric) : State := { s with fabric := f s.fabric }

/-- Change the security unit. -/
def State.setSec (s : State) (f : Security → Security) : State := { s with sec := f s.sec }

/-- Change the dictionary's paths. -/
def State.setDict (s : State) (f : Dictionary → Dictionary) : State := { s with dict := f s.dict }

/-- Change the Curator. -/
def State.setCurator (s : State) (f : Curator → Curator) : State := { s with curator := f s.curator }

/-- Change the battery domain. -/
def State.setBattery (s : State) (f : Battery → Battery) : State := { s with battery := f s.battery }

/-- The persistent store takes a value (R400, R413). -/
def State.odStore (s : State) (r : OdRef) (v : Nat) : State :=
  s.setBattery fun b => { b with store := if v == r.dflt then assocErase b.store r.key else assocSet b.store r.key v }

/-- Set a persistent dictionary value that the engine itself keeps. -/
def State.odSetP (s : State) (r : OdRef) (v : Nat) : State := (s.odSet r v).odStore r v

/-- Change the service unit. -/
def State.setService (s : State) (f : Service → Service) : State := { s with service := f s.service }

/-- A wake event (R101): the exit from E1, E2 or E3 begins. -/
def State.wakeUp (s : State) : State := if s.sched.power == .e0 then s else s.setSched fun c => { c with exiting := true }

/-- Nothing is commanded: once the always-on domain has power, the clock goes on to the next cycle of the frame, up to its
last; the tick itself is FRAME_BOUNDARY (log entry 1). -/
def State.idle (s : State) : State :=
  if s.curator.stage != .none && s.time.cycle < 159999 then State.newCycle (s.setTime fun t => { t with cycle := t.cycle + 1 }) else s

/-- ENGINE_ID (R397). -/
def State.engineId (s : State) : Nat := s.battery.engineId

/-- The frames of a bundle trial run (R455). -/
def State.trialing (s : State) : Bool :=
  match s.service.trial with
  | some f => !s.lapsed f (s.cfg Od.trialFrames)
  | none => false

/-- The helper data in use: as written by FIELD, or as enrolled (R389, R397). -/
def State.helperData (s : State) : Bytes := s.battery.helper.getD (Config.helper s.battery.enrolment)

/-- The key store's alarm (R353). -/
def State.alarmed (s : State) : Bool := s.sec.alarm

end Sys2Proof.Machine
end

