-- ==== Sys2Proof/Machine/Tasks.lean ====
section
/-!
DEFINITION. Task records and their life: fields of the record (Table 04-4), dependences and readiness (R88 to R92),
completion entries and the completion rings (R76, R77, R83), carrier requests (R55).
-/
namespace Sys2Proof.Machine

/-! Record fields (Table 04-4) -/

/-- Bits high:low of a task's record. -/
def Task.f (t : Task) (hi lo : Nat) : Nat := bitsOf t.record hi lo

/-- TASK_TYPE. -/
def Task.type (t : Task) : Nat := t.f 7 0

/-- TAG. -/
def Task.tag (t : Task) : Nat := t.f 31 16

/-- JOB_ID. -/
def Task.job (t : Task) : JobId := jobOf (t.f 41 40)

/-- STEP_NO. -/
def Task.step (t : Task) : Nat := t.f 191 128

/-- DECLARED_LEN. -/
def Task.len (t : Task) : Nat := t.f 255 192

/-- Task types that the engine has (Tables 04-5, 10-13, 09-8, 11-6, 13-4). -/
def taskTypeKnown (ty : Nat) : Bool :=
  ty ≤ 0x06 || (0x10 ≤ ty && ty ≤ 0x16) || (0x20 ≤ ty && ty ≤ 0x24) || (0x30 ≤ ty && ty ≤ 0x33) ||
  (0x40 ≤ ty && ty ≤ 0x44) || (0x50 ≤ ty && ty ≤ 0x55) || (0x60 ≤ ty && ty ≤ 0x63)

/-- Job-bound types (Table 04-5). -/
def taskJobBound (ty : Nat) : Bool :=
  (0x01 ≤ ty && ty ≤ 0x04) || (0x10 ≤ ty && ty ≤ 0x5F)

/-- Own-step types (Tables 04-5, 10-13). -/
def taskOwnStep (ty : Nat) : Bool := (0x11 ≤ ty && ty ≤ 0x15) || ty == 0x31

/-- Control tasks that run from Stage B (R78): codes below 0x10, and WELD_PAIR, WELD_BIND, WELD_UNPAIR. -/
def taskFromStageB (ty : Nat) : Bool := ty < 0x10 || (0x40 ≤ ty && ty ≤ 0x42)

/-- Whether the operands of a control record are illegal (R80, R82): CANCEL with predecessors or a sync wait, an illegal
SCOPE, an illegal MODE. -/
def recordMalformed (r : BitVec 1024) : Bool :=
  let ty := bitsOf r 7 0
  !taskTypeKnown ty || bitsOf r 34 32 > 4 ||
  (bitOf r 8 && !(0x20 ≤ ty && ty ≤ 0x2F)) ||
  (ty == 0x05 && (bitsOf r 34 32 != 0 || bitOf r 35 || bitsOf r 279 278 == 3)) ||
  (ty == 0x10 && bitsOf r 257 256 > 1)

/-- A Holding field of 16 bits: none when 0xFFFF. -/
def hidField (v : Nat) : List Nat := if v == 0xFFFF then [] else [v]

/-- Holdings that a task writes (Table 04-10). -/
def Task.writes (t : Task) : List Nat :=
  let ty := t.type
  if ty == 0x11 || ty == 0x16 then
    hidField (t.f 303 288) ++ hidField (t.f 319 304) ++ hidField (t.f 335 320) ++ hidField (t.f 351 336) ++
    hidField (t.f 383 368) ++ hidField (t.f 399 384)
  else if ty == 0x12 then hidField (t.f 367 352) ++ hidField (t.f 383 368)
  else if ty == 0x20 then
    hidField (t.f 383 368) ++ hidField (t.f 399 384) ++ hidField (t.f 415 400) ++ hidField (t.f 431 416) ++
    hidField (t.f 447 432) ++ hidField (t.f 463 448) ++ hidField (t.f 479 464)
  else if ty == 0x21 then [t.f 315 304]
  else if ty == 0x33 then [t.f 347 336]
  else if ty == 0x43 then (if t.f 256 256 == 1 then [] else [t.f 283 272])
  else if 0x53 ≤ ty && ty ≤ 0x55 then hidField (t.f 351 336)
  else []

/-- Holdings that a task reads (Table 04-10). A CAPTURE_BAND rides another task's reads and follows R22 instead. -/
def Task.reads (t : Task) : List Nat :=
  let ty := t.type
  if ty == 0x11 then hidField (t.f 367 352)
  else if ty == 0x12 then hidField (t.f 351 336)
  else if ty == 0x20 then [t.f 363 352]
  else if ty == 0x50 || ty == 0x51 then [t.f 351 340]
  else if 0x53 ≤ ty && ty ≤ 0x55 then hidField (t.f 335 320)
  else if ty == 0x61 || ty == 0x63 then hidField (t.f 335 320)
  else []

/-- Holdings that a task names, for RELEASE_HOLDING. -/
def Task.names (t : Task) : List Nat :=
  t.writes ++ t.reads ++
  (if t.type == 0x15 then [t.f 331 320] else if t.type == 0x03 || t.type == 0x04 || t.type == 0x41 then [t.f 267 256] else [])

/-! Tasks in the scheduler -/

/-- An admitted task by its number. -/
def State.task? (s : State) (id : Nat) : Option Task := s.sched.tasks.find? (fun t => t.id == id)

/-- Change an admitted task. -/
def State.setTask (s : State) (id : Nat) (f : Task → Task) : State :=
  s.setSched fun c => { c with tasks := mapIf c.tasks (fun t => t.id == id) f }

/-- State of a tag of an owner agent; none is FREE (R89). -/
def State.tagState (s : State) (o : Host2) (tag : Nat) : Option TagState :=
  (s.sched.tags.find? (fun p => p.1 == o && p.2.1 == tag)).map (·.2.2)

/-- Set the state of a tag. -/
def State.setTag (s : State) (o : Host2) (tag : Nat) (v : TagState) : State :=
  s.setSched fun c =>
    { c with tags := (o, tag, v) :: c.tags.filter (fun p => !(p.1 == o && p.2.1 == tag)) }

/-- PRED_TAG field k of a record. -/
def predTag (r : BitVec 1024) (k : Nat) : Nat := bitsOf r (79 + 16 * k) (64 + 16 * k)

/-- The predecessor tags that a record names. -/
def Task.preds (t : Task) : List Nat := (List.range (t.f 34 32)).map (predTag t.record)

/-! Queue pairs -/

/-- A queue pair that exists. -/
def State.qp? (s : State) (q : Nat) : Option QueuePair := s.sched.qps.find? (fun p => p.q == q)

/-- Change a queue pair. -/
def State.setQp (s : State) (q : Nat) (f : QueuePair → QueuePair) : State :=
  s.setSched fun c => { c with qps := mapIf c.qps (fun p => p.q == q) f }

/-! Carrier requests (R55, Table 03-2) -/

/-- A request tag that is not outstanding, from a starting value: at most as many steps as requests are outstanding. -/
def freeTag (reqs : List D2dReq) : Nat → Nat → Nat
  | 0, t => t
  | k + 1, t => if reqs.any (fun r => r.tag == t) then freeTag reqs k ((t + 1) % 65536) else t

/-- A request of ranks 1 and 2 (Table 01-4): rings, tables, and the Holdings of collectives, key and digest tasks. -/
def State.controlReq (s : State) (o : ReqOwner) : Bool :=
  let task (t : Nat) : Bool := (s.sched.tasks.find? (fun x => x.id == t)).any (fun x => decide (0x50 ≤ x.type))
  match o with
  | .sqRead _ _ | .cqWrite _ _ | .extentTable _ | .memberTable _ => true
  | .taskRead t | .taskWrite t => task t
  | _ => false

/-- A request of ranks 1 and 2 takes its bytes before what the planner leaves to lower ranks (R15). -/
def State.chargeControl (s : State) (o : ReqOwner) (read : Bool) (bytes : Nat) : Units :=
  let u := s.carrier.left
  if !s.controlReq o then u else if read then { u with read := u.read - bytes } else { u with write := u.write - bytes }

/-- Send an MRD of `len` 64-byte units. -/
def State.mrd (s : State) (owner : ReqOwner) (addr len : Nat) (extent : Option (Nat × Nat)) (secure : Bool) : State :=
  let tag := freeTag s.carrier.reqs s.carrier.reqs.length s.carrier.nextTag
  let r : D2dReq := { tag := tag, kind := .read, addr := addr, len := len, frame := s.frame, owner := owner,
                      extent := extent, cells := [] }
  { s.send (.d2d 0x01 secure tag addr len 0 []) with
    carrier := { s.carrier with reqs := s.carrier.reqs ++ [r], nextTag := (tag + 1) % 65536,
                                left := s.chargeControl owner true (64 * len) } }

/-- Send an MWR of `len` 64-byte units, with the bytes by carrier address. -/
def State.mwr (s : State) (owner : ReqOwner) (addr len : Nat) (cells : List (Nat × Byte)) (extent : Option (Nat × Nat))
    (secure : Bool) : State :=
  let tag := freeTag s.carrier.reqs s.carrier.reqs.length s.carrier.nextTag
  let r : D2dReq := { tag := tag, kind := .write, addr := addr, len := len, frame := s.frame, owner := owner,
                      extent := extent, cells := cells }
  { s.send (.d2d 0x03 secure tag addr len 0 cells) with
    carrier := { s.carrier with reqs := s.carrier.reqs ++ [r], nextTag := (tag + 1) % 65536,
                                left := s.chargeControl owner false (64 * len) } }

/-- Byte cells of a byte string placed at an address. -/
def cellsAt (addr : Nat) (bs : Bytes) : List (Nat × Byte) := bs.mapIdx (fun i b => (addr + i, b))

/-- A write to this 64-byte granule is outstanding (R55). -/
def State.granuleBusy (s : State) (addr : Nat) : Bool :=
  s.carrier.reqs.any fun r => r.kind == .write && r.addr ≤ addr && addr < r.addr + 64 * r.len

/-! Completion rings (R76, R77, R83) -/

/-- The 64-byte granule of the ring that holds a slot: each entry as last written, zero before. -/
def QueuePair.granule (p : QueuePair) (slot : Nat) : Bytes :=
  let at_ (k : Nat) : Bytes := leBytes 32 (((p.ring.find? (fun e => e.1 == k)).map (fun e => e.2.toNat)).getD 0)
  at_ (slot / 2 * 2) ++ at_ (slot / 2 * 2 + 1)

/-- Write the oldest held entry at CQ_TAIL. -/
def State.cqWriteOne (s : State) (q : Nat) (p : QueuePair) (e : HeldEntry) : State :=
  let phase := if p.written / 2 ^ p.cqLog2 % 2 == 0 then 1 else 0
  let bits := BitVec.ofNat 256 (e.bits.toNat + p.sqHead * 2 ^ 32 + phase * 2 ^ 48)
  let p' := { p with writing := true, ring := (p.cqTail, bits) :: p.ring.filter (fun x => x.1 != p.cqTail) }
  let addr := p.cqBase + p.cqTail / 2 * 64
  (s.setQp q (fun _ => p')).mwr (.cqWrite q p.cqTail) addr 1 (cellsAt addr (p'.granule p.cqTail)) none (p.owner == .s)

/-- An entry of a task that this CANCEL has ended is not yet written (R97). -/
def State.entryOwed (s : State) (cancel : Nat) : Bool :=
  s.sched.qps.any (fun p => p.entries.any (fun e => e.behind == some cancel))

/-- Write the oldest held entry of a pair, one at a time so that entries are written in the order in which tasks complete
(R83): when the ring has room, no access of the pair has failed, and for a CANCEL every target's entry is written (R76,
R77, R97). -/
def State.cqPump (s : State) (q : Nat) : State :=
  match s.qp? q with
  | none => s
  | some p =>
    match p.entries with
    | [] => s
    | e :: _ =>
      let full := (p.cqTail + 1) % 2 ^ p.cqLog2 == p.cqHead
      let addr := p.cqBase + p.cqTail / 2 * 64
      if p.writing || p.badWrite || !p.badReads.isEmpty || !s.carrier.mainband || full || s.granuleBusy addr ||
         s.entryOwed e.task then s
      else s.cqWriteOne q p e

/-- Hold a completion entry for a pair and write what can be written. -/
def State.putEntry (s : State) (q : Nat) (e : HeldEntry) : State :=
  (s.setQp q (fun p => { p with entries := p.entries ++ [e] })).cqPump q

/-- A completion entry without SQ_HEAD and PHASE, which are set when it is written (Table 04-7). -/
def entryOf (record : BitVec 1024) (frame status detail detail2 result rollbacks : Nat) : BitVec 256 :=
  BitVec.ofNat 256 (packFields [(16, bitsOf record 31 16), (16, status), (16, 0), (1, 0), (7, 0), (8, bitsOf record 7 0),
    (16, min rollbacks 65535), (16, detail), (32, detail2), (64, result), (64, frame)])

/-! Holdings -/

/-- A registered Holding. -/
def State.holding? (s : State) (id : Nat) : Option Holding :=
  s.carrier.holdings.find? (fun h => bitsOf h.desc 11 0 == id)

/-- A Holding registered in a job (R86). -/
def State.holdingIn (s : State) (j : JobId) (id : Nat) : Option Holding :=
  match s.holding? id with
  | some h => if h.job == j then some h else none
  | none => none

/-- HOLDING_ID, KIND, FORMAT, ROLE of a descriptor (Table 03-8). -/
def Holding.id (h : Holding) : Nat := bitsOf h.desc 11 0
def Holding.kind (h : Holding) : Nat := bitsOf h.desc 19 16
def Holding.format (h : Holding) : Nat := bitsOf h.desc 27 24
def Holding.role (h : Holding) : Nat := bitsOf h.desc 31 28

/-- Element width in bytes of a FORMAT. -/
def formatWidth (f : Nat) : Nat := if f == 0 then 4 else if f ≤ 2 then 2 else 1

/-- SIZE of dimension k and STRIDE of dimension k (stride 0 is 1), of a descriptor. -/
def descSize (d : BitVec 512) (k : Nat) : Nat := bitsOf d (95 + 32 * k) (64 + 32 * k)
def descStride (d : BitVec 512) (k : Nat) : Nat := if k == 0 then 1 else bitsOf d (191 + 64 * k) (128 + 64 * k)

/-- Number of dimensions. -/
def descDims (d : BitVec 512) : Nat := bitsOf d 33 32 + 1

/-- Elements of a Holding. -/
def descCount (d : BitVec 512) : Nat := (List.range (descDims d)).foldl (fun n k => n * descSize d k) 1

def Holding.count (h : Holding) : Nat := descCount h.desc
def Holding.width (h : Holding) : Nat := formatWidth h.format
def Holding.bytes (h : Holding) : Nat := h.count * h.width
/-- Leaves of a Holding (R63). -/
def Holding.leaves (h : Holding) : Nat := ceilDiv h.bytes 1048576
/-- Packed bytes of Leaf k (R63). -/
def Holding.leafBytes (h : Holding) (k : Nat) : Nat := min 1048576 (h.bytes - k * 1048576)

/-- Element offset of element i (R62). -/
def descOffset (d : BitVec 512) : List Nat → Nat → Nat → Nat
  | [], _, off => off
  | k :: ks, i, off =>
    let n := descSize d k
    descOffset d ks (i / n) (off + i % n * descStride d k)

/-- Byte offset of element i within the Holding's extents (R62). -/
def Holding.byteOffset (h : Holding) (i : Nat) : Nat :=
  descOffset h.desc (List.range (descDims h.desc)) i 0 * h.width

/-- The extent-table entry of an extent. -/
def Holding.entry (h : Holding) (e : Nat) : BitVec 64 := h.extents.getD e 0

/-- Carrier address of element i, when its extent is valid, and its extent (R62). -/
def Holding.addrOf (h : Holding) (i : Nat) : Option Nat × Nat :=
  let b := h.byteOffset i
  let e := b / 2 ^ 21
  let x := h.entry e
  (if bitOf x 0 then some (bitsOf x 63 21 * 2 ^ 21 + b % 2 ^ 21) else none, e)

/-- Holdings registered by HOST_S are accessed with SECURE set (Table 03-2). -/
def State.holdingSecure (s : State) (h : Holding) : Bool := (s.job h.job).owner == .s

/-! Readiness (R88 to R92) -/

/-- The STEP_MARK of the task's step has been accepted (R88). -/
def State.markAccepted (s : State) (t : Task) : Bool :=
  let j := s.job t.job
  decide (t.step ≤ j.c) && decide (j.openStep < t.step)

/-- Holdings that a task writes, with those that the tables of the job name for it: the own groups that a WELD_ROLLBACK
writes, the bound MIRROR Holdings of a WELD_RESYNC of all (Table 04-10). -/
def State.writesOf (s : State) (t : Task) : List Nat :=
  if t.type == 0x44 then (s.weld t.job).outGroups.flatMap (·.hids)
  else if t.type == 0x43 && t.f 256 256 == 1 then (s.weld t.job).binds.map (·.1)
  else t.writes

/-- Two tasks touch one Holding and at least one writes it (Table 04-10). -/
def State.conflict (s : State) (a b : Task) : Bool :=
  let (x, y) := (s.writesOf a, s.writesOf b)
  x.any (fun h => y.contains h || b.reads.contains h) || y.any (fun h => a.reads.contains h)

/-- The dependences that the engine adds, all but the sync word (Table 04-10, R78, R391, R416). What a VERDICT waits for
holds its contribution back, not its posting (log entry 92). -/
def State.addedMet (s : State) (t : Task) : Bool :=
  let ty := t.type
  let earlier := s.sched.tasks.filter (fun u => u.id < t.id)
  let stageOk := match s.curator.stage with
    | .none => false | .a => false | .b => taskFromStageB ty | .c => taskFromStageB ty | .d => true
  stageOk && !s.sched.exiting && s.sched.power == .e0 &&
  (!(taskJobBound ty && ty != 0x01) || !earlier.any (fun u => u.type == 0x01 && u.job == t.job)) &&
  (!taskOwnStep ty || !(s.job t.job).open_ ||
    (s.markAccepted t && !earlier.any (fun u => u.type == 0x10 && u.job == t.job && u.step == t.step))) &&
  (ty != 0x01 ||
    ((s.time.state != .unset && s.time.state != .coarse || s.curator.deadline) &&
     !s.dict.pendingW.any (fun p => ((odRowOf p.1).map (·.effect)) == some .stopped))) &&
  (ty != 0x02 || !earlier.any (fun u => taskJobBound u.type && u.job == t.job)) &&
  (ty != 0x04 || !earlier.any (fun u => u.names.contains (t.f 267 256))) &&
  (ty != 0x06 || s.sched.selftest == none) &&
  (!(ty == 0x11 && t.f 274 273 == 1) || !earlier.any (fun u =>
    u.type == 0x12 && u.job == t.job && u.step == t.step && u.f 383 368 == t.f 367 352)) &&
  (ty != 0x16 || (decide (t.step ≤ (s.job t.job).v) &&
    !s.sched.tasks.any (fun u => u.type == 0x16 && u.job == t.job && u.step + 1 == t.step))) &&
  (!(ty == 0x10 && t.f 257 256 == 1) || !earlier.any (fun u => u.type == 0x44 && u.job == t.job)) &&
  (ty != 0x31 || (decide (t.step ≤ (s.job t.job).v) &&
    !earlier.any (fun u => u.type == 0x15 && u.job == t.job && u.f 319 256 == t.f 319 256))) &&
  (ty != 0x32 || !s.vault.restores.any (fun r =>
    (s.task? r.task).map (·.job) == some t.job && r.heads.any (fun h => h.1 == t.f 319 256))) &&
  !earlier.any (s.conflict t)

/-- Every predecessor has been DONE_OK (R89). -/
def Task.predsMet (t : Task) : Bool := t.preds.all (fun p => t.met.contains p)

/-- Every dependence but the sync word is met. -/
def State.depsMet (s : State) (t : Task) : Bool := t.predsMet && s.addedMet t

/-- A sync word (R364). -/
def State.syncWord (s : State) (w : Nat) : SyncWord := (assoc s.sync.words w).getD {}

/-- The sync condition of a task holds now (R90). -/
def State.syncNow (s : State) (t : Task) : Bool := (s.syncWord (t.f 63 48)).full != bitOf t.record 36

/-- Every dependence of a waiting task is met (R90, R92). -/
def State.able (s : State) (t : Task) : Bool :=
  t.phase == .waiting && s.depsMet t && (!bitOf t.record 35 || t.syncSeen || s.syncNow t)

/-- A control task, which uses no planned unit (R92). -/
def Task.control (t : Task) : Bool := t.type ≤ 0x06 || t.type == 0x10

/-- The step that R19 measures the lag from (R19, R211, R212, R223), and whether that is V in place of M. -/
def State.lagBase (s : State) (j : JobId) : Nat × Bool :=
  let w := s.weld j
  if w.state == .paired && w.outStale.isNone && w.confirmed then ((s.job j).m, false) else ((s.job j).v, true)

/-- A STEP_MARK of step C + 1 is held (R19, R246). -/
def State.markHeld (s : State) (j : JobId) : Bool :=
  let c := (s.job j).c
  let lag := s.cfg Od.durableLagLimit
  decide (s.cfg Od.mirrorLagLimit + (s.lagBase j).1 < c + 1) ||
    (s.cfgStep j Od.ledgerPolicy == 1 && lag != 0 && decide (lag + (s.job j).d < c + 1))

/-- A STEP_MARK that the lag limits hold (R19). -/
def State.heldMark (s : State) (t : Task) : Bool :=
  t.type == 0x10 && t.f 257 256 == 0 && t.step == (s.job t.job).c + 1 && !(s.job t.job).badVerdict && s.markHeld t.job

/-- A task is ready and it is its turn: ready control tasks run in admission order; a STEP_MARK that the lag limits hold
holds no other back (R90, R92, log entry 151). -/
def State.ready (s : State) (t : Task) : Bool :=
  s.able t && (!t.control || !s.sched.tasks.any (fun u => u.id < t.id && u.control && s.able u && !s.heldMark u))

/-- The engine observes sync words for the tasks whose other conditions are met (R90). -/
def State.observeSync (s : State) : State :=
  s.setSched fun c =>
    let sees (t : Task) : Bool :=
      t.phase == .waiting && bitOf t.record 35 && !t.syncSeen && s.depsMet t && s.syncNow t
    { c with tasks := mapIf c.tasks sees (fun t => { t with syncSeen := true }) }

/-! Completion of a task -/

/-- Lane counts of the fingerprint of a step (Table 11-1, lanes 3 to 7). -/
def State.addFault (s : State) (job step : Nat) (f : StepFaults → StepFaults) : State :=
  s.setColls fun c =>
    if c.faults.any (fun x => x.job == job && x.step == step) then
      { c with faults := mapIf c.faults (fun x => x.job == job && x.step == step) f }
    else { c with faults := f { job := job, step := step, nonfinite := 0, poison := 0, length := 0, cancelled := 0,
                                failed := 0 } :: c.faults }

/-- What the end of an UPDATE or WOAD_COMPRESS adds to the fingerprint of its step (R270: lanes 4 to 7). A MEM_POISON is
counted as its Leaves are marked. -/
def State.noteStep (s : State) (t : Task) (status : Nat) : State :=
  if !(t.type == 0x11 || t.type == 0x12) || status == 0 || status == 0x0013 then s
  else if status == 0x0018 then s.addFault t.job.val t.step (fun x => { x with length := x.length + 1 })
  else if status == 0x0005 then
    if t.done == 0 && t.pass == 1 then s else s.addFault t.job.val t.step (fun x => { x with cancelled := x.cancelled + 1 })
  else if status == 0x0023 then s
  else s.addFault t.job.val t.step (fun x => { x with failed := x.failed + 1 })

/-! Spans (the mirror table of chapter 09) -/

/-- Spans of a group. -/
def SpanGroup.spans (g : SpanGroup) : Nat := ceilDiv g.count (max 1 g.span)

/-- Mark inbound spans of a group STALE with a SKIP_STEP; a span not listed yet is added. -/
def State.markStale (s : State) (j : JobId) (master : Nat) (idx : List Nat) (skip : Nat) : State :=
  s.setWeld j fun w =>
    let fresh := idx.filter (fun i => !w.inSpans.any (fun x => x.master == master && x.index == i))
    let old := mapIf w.inSpans (fun x => x.master == master && idx.contains x.index)
      (fun x => { x with stale := true, skip := skip })
    let new : List InSpan := fresh.map (fun i => { master := master, index := i, stale := true, skip := skip, copy := 0 })
    { w with inSpans := old ++ new }

/-- Stale spans that a COPY_REQUEST is to name at the end of the frame. -/
def State.askCopies (s : State) (j : JobId) (spans : List (Nat × Nat)) : State :=
  s.setWeld j fun w => { w with copyAsk := (w.copyAsk ++ spans).eraseDups }

/-- Elements whose new values a lane task has written in committed slices: ADAFACTOR writes its state in its last pass
only (R114). -/
def Task.stored (t : Task) : Nat := if t.f 263 256 == 3 && t.pass != 3 then 0 else t.done

/-- The entry of the partner's record that a MIRROR_APPLY names. -/
def State.applyEntry (s : State) (t : Task) : Option (BitVec 1024) :=
  ((s.weld t.job).inRecords.find? (fun r => r.complete && r.step == t.step)).bind (fun r => r.entries[t.f 815 800]?)

/-- The partner's MASTER of the spans that a MIRROR_APPLY acts on: its entry's, else that of the MASTER bound here that the
task names, while its step is above APPLIED. -/
def State.applyMaster (s : State) (t : Task) : Option Nat :=
  match s.applyEntry t with
  | some e => some (bitsOf e 191 176)
  | none =>
    if t.step ≤ (s.weld t.job).applied then none
    else ((s.weld t.job).binds.find? (fun b => b.1 == t.f 319 304)).map (·.2)

/-- A MIRROR_APPLY ends (R221, R226): its entry is done, unless its record is malformed, which does nothing (R80); unless it
ends OK, the spans it has not written become STALE, but those that already hold its step by a copy. -/
def State.noteApply (s : State) (t : Task) (status : Nat) : State :=
  let s := if status == 0x0001 || (s.applyEntry t).isNone then s
    else s.setWeld t.job fun w =>
      { w with inRecords := mapIf w.inRecords (fun r => r.step == t.step)
                 (fun r => { r with applied := addOnce r.applied (t.f 815 800) }) }
  if status == 0 then
    match s.applyMaster t with
    | none => s
    | some m => s.setWeld t.job fun w =>
      { w with inSpans := mapIf w.inSpans (fun x => x.master == m && x.stale && decide (x.skip < t.step))
                 (fun x => { x with skip := t.step }) }
  else
    match (s.applyMaster t).bind (fun m => (s.weld t.job).inGroups.find? (fun g => g.master == m)) with
    | none => s
    | some g =>
      let idx := (List.range g.spans).filter (fun i => t.stored < min g.count ((i + 1) * g.span))
      (s.markStale t.job g.master idx t.step).askCopies t.job (idx.map (fun i => (g.master, i)))

/-- A LEDGER_SEND that ends with a status other than OK: its record is given up, and the outbound mirror is stale from its
step (R218, R220). -/
def State.noteLedger (s : State) (t : Task) (status : Nat) : State :=
  if status == 0 then s
  else s.setWeld t.job fun w =>
    { w with outStale := some (w.outStale.getD t.step),
             outRecords := mapIf w.outRecords (fun r => r.step == t.step)
               (fun r => { r with acked := true, ended := true, staged := if r.toVault then r.staged else [] }) }

/-- An Accession becomes ABANDONED (Table 10-1): what this engine holds of it is dropped. -/
def State.abandonAcc (s : State) (job id : Nat) : State :=
  let hit (a : Accession) : Bool := a.job == job && a.id == id && (a.state == .open_ || a.state == .sealing)
  let leaves := (s.vault.accs.filter hit).flatMap (·.leaves)
  let objs := leaves.map (·.obj)
  let s := s.setVault fun v =>
    { v with accs := mapIf v.accs hit (fun a => { a with state := .abandoned, leaves := [], sealRun := none }),
             egress := v.egress.filter (fun e => !objs.contains e.id),
             reqs := v.reqs.filter (fun r => match r.owner with | .object e => !objs.contains e | _ => true) }
  s.setMadder fun m =>
    { m with enc := m.enc.filter (fun e => match e.owner with
        | .band t l => !leaves.any (fun x => x.task == t && x.leaf == l && x.place == .encoding)
        | .serve _ => true) }

/-- An ACC_SEAL that ends with a status other than OK and ACC_PARTIAL leaves its Accession ABANDONED. -/
def State.noteSeal (s : State) (t : Task) (status : Nat) : State :=
  if status == 0 || status == 0x3005 then s
  else
    let s := s.setVault fun v =>
      { v with reqs := v.reqs.filter (fun r => match r.owner with
          | .catalogue k _ => k != t.id
          | .commit k => k != t.id
          | .genPut k _ => k != t.id
          | _ => true) }
    s.abandonAcc t.job.val (t.f 319 256)

/-- A CAPTURE_BAND ends: its tap and the space reserved for it go. -/
def State.dropTaps (s : State) (task : Nat) : State :=
  s.setVault fun v =>
    let mine := v.taps.filter (fun x => x.task == task && x.rider.isSome)
    { v with taps := v.taps.filter (fun x => x.task != task),
             egress := v.egress.filter (fun e =>
               !(e.name == 0 && mine.any (fun x => decide (x.base ≤ e.id) && decide (e.id < x.base + x.count)))) }

/-- What the end of a task leaves in other units. -/
def State.noteEnd (s : State) (t : Task) (status : Nat) : State :=
  let s := s.noteStep t status
  if t.type == 0x16 then s.noteApply t status
  else if t.type == 0x13 then s.noteLedger t status
  else if t.type == 0x31 then s.noteSeal t status
  else if t.type == 0x15 then s.dropTaps t.id
  else if t.type == 0x11 then s.setUpdate fun u => { u with digests := u.digests.filter (fun d => d.reader != t.id + 1) }
  else s

/-- What the end of a task is to the tasks that wait behind it: its tag is met for those that name it (R89), and a SELFTEST
that ran and failed fails those that waited for it (R102). -/
def Task.after (t : Task) (ok : Bool) (u : Task) : Task :=
  if ok then (if u.owner == t.owner && u.preds.contains t.tag then { u with met := addOnce u.met t.tag } else u)
  else if t.type == 0x06 && t.phase != .waiting && u.type == 0x06 && u.phase == .waiting && decide (t.id < u.id) then
    { u with predFailed := some t.tag }
  else u

/-- End one task: its tag becomes DONE, it leaves the scheduler and its entry is held for its pair (R83, R89). What it held up
may look at its sync word now (R90). -/
def State.endTask (s : State) (t : Task) (status detail detail2 result : Nat) : State :=
  let s := s.setSched fun c => { c with tasks := (c.tasks.filter (fun u => u.id != t.id)).map (t.after (status == 0)) }
  let s := s.setTag t.owner t.tag (if status == 0 then .doneOk else .doneFail)
  let s := (s.noteEnd t status).observeSync
  s.putEntry t.qp { bits := entryOf t.record s.frame status detail detail2 result t.rollbacks, intr := bitOf t.record 9,
                    task := t.id, behind := t.cancelTag }

/-- The first waiting task one of whose predecessors has failed, with that tag (R89, R102). -/
def State.failedDependent (s : State) : Option (Task × Nat) :=
  s.sched.tasks.findSome? fun t =>
    if t.phase == .waiting then
      (t.predFailed.or (t.preds.find? (fun p => !t.met.contains p && s.tagState t.owner p == some .doneFail))).map
        (fun p => (t, p))
    else none

/-- Tasks whose predecessor has failed complete with PRED_FAILED, and so do their dependents (R89). -/
def State.spreadFailure (s : State) : Nat → State
  | 0 => s
  | k + 1 =>
    match s.failedDependent with
    | none => s
    | some (t, p) => (s.endTask t 0x0003 p 0 t.done).spreadFailure k

/-- A Holding is registered in a job of the other host agent. -/
def State.foreignHolding (s : State) (t : Task) (hid : Nat) : Bool :=
  s.carrier.holdings.any (fun h => bitsOf h.desc 11 0 == hid && (s.job h.job).owner != t.owner)

/-- Complete a task with a status, and the dependents of a failed task with PRED_FAILED. HOLDING_UNKNOWN of a Holding that
the other host agent owns is DENIED (R80). -/
def State.complete (s : State) (t : Task) (status : Nat) (detail detail2 result : Nat := 0) : State :=
  let denied := status == 0x0033 && s.foreignHolding t detail
  let s := if denied then s.endTask t 0x0009 0 0 result else s.endTask t status detail detail2 result
  if status == 0 then s else s.spreadFailure s.sched.tasks.length

/-- Complete a task with a status; RESULT holds the units completed (Table 04-7). -/
def State.fail (s : State) (t : Task) (status : Nat) (detail detail2 : Nat := 0) : State :=
  s.complete t status detail detail2 t.done

/-- Complete a task as malformed when it becomes ready (R80). -/
def State.malformed (s : State) (t : Task) : State := (s.bump Od.malformedTaskCount).complete t 0x0001

/-- Run a task's meaning when the task exists, is of the given type and is ready: first the checks of R80 and R86 on its
job and owner, then `f`. -/
def State.whenReady (s : State) (id ty : Nat) (f : State → Task → State) : State :=
  match s.task? id with
  | none => s
  | some t =>
    if t.type != ty || !s.ready t then s
    else
      let s := s.setTask id (fun t => { t with readyAt := s.frame })
      if taskJobBound ty && ty != 0x01 then
        if !(s.job t.job).open_ then s.complete t 0x000A
        else if (s.job t.job).owner != t.owner then s.complete t 0x0009
        else f s t
      else f s t

/-- Put a ready task among those the frame planner serves (R92). -/
def State.start (s : State) (t : Task) : State :=
  s.setTask t.id (fun t => { t with phase := .running, readyAt := s.frame })

/-- Every carrier path is down: tasks that need carrier memory end with D2D_DOWN (R53). -/
def State.d2dDown (s : State) : Bool := s.odGet Od.d2dModulesActive == 0

end Sys2Proof.Machine
end

