-- ==== Sys2Proof/Machine/Time.lean ====
section
/-!
DEFINITION. The time unit: time states, steps and slews, IEEE 1588 messages, the PPS pulse and the latched time registers
(R23 to R50). Picoseconds are the unit of offsets; DCLK resolution is 625 ps (Table 02-4).
-/
namespace Sys2Proof.Machine

/-- The present time in picoseconds. -/
def State.timePs (s : State) : Nat := s.time.frameExt * 100000000 + s.time.cycle * 625

/-- A PTP timestamp in picoseconds (Table 02-5). -/
def stampPs (t : BitVec 80) : Nat := (bitsOf t 79 32 * 1000000000 + bitsOf t 31 0) * 1000

/-- A correctionField in picoseconds (units of 2^-16 ns). -/
def correctionPs (c : BitVec 64) : Int := c.toInt * 1000 / 65536

/-- The time as the fields of a PTP timestamp: seconds and nanoseconds. -/
def State.stampFields (s : State) : List Nat := [s.timeNs / 1000000000, s.timeNs % 1000000000]

/-- The sub-nanosecond part of the time, as a correction in 2^-16 ns. -/
def State.subNs (s : State) : Int := ((s.timePs % 1000 * 65536 / 1000 : Nat) : Int)

/-- The link of a port is UP. -/
def State.linkUp (s : State) (p : Port) : Bool := s.fabric.ports[p].state == .up

/-- A port takes part in PTP: main domain up, optics running, link UP, PORT_ENABLE set (R40, R100). -/
def State.ptpPort (s : State) (p : Port) : Bool :=
  s.mainUp && s.opticsOn && s.linkUp p && s.cfg Od.portEnable / 2 ^ p.val % 2 == 1

/-- A received message is for this clock: an active port and its one domain. -/
def State.ptpHears (s : State) (p : Port) (h : PtpHeader) : Bool :=
  s.ptpPort p && h.domain.toNat == s.cfg Od.ptpDomain

/-- Change the PTP state of a port. -/
def State.setPtp (s : State) (p : Port) (f : PtpPort → PtpPort) : State :=
  s.setTime fun t => { t with ports := t.ports.set p (f t.ports[p]) }

/-! Time states (Table 02-3) -/

/-- Enter HOLDOVER (R37): the time continues on the last frequency. -/
def State.enterHoldover (s : State) : State :=
  (s.setTime fun t => { t with state := .holdover, parent := none, candidate := none, lockRun := 0,
                               holdoverSince := some t.frameExt, holdoverReported := false, syncedSince := none }).bump
    Od.holdoverEntryCount

/-- Enter SYNCED on a parent: ALIGN_UNCERTAIN clears (R36). -/
def State.enterSynced (s : State) (p : Port) : State :=
  State.observeSync (s.setTime fun t =>
    { t with state := .synced, parent := some p, candidate := none, lockRun := 0, holdoverSince := none,
             alignUncertain := false, syncedSince := some t.frameExt,
             fieldTraced := match t.ports[p].foreigns.find? (fun m => m.source == t.parentId) with
               | some m => m.body.clockClass == 13
               | none => t.fieldTraced })

/-- Enter GRANDMASTER: the time continues (R37), ALIGN_UNCERTAIN clears (R36). -/
def State.enterGrandmaster (s : State) : State :=
  State.observeSync (s.setTime fun t =>
    { t with state := .grandmaster, parent := none, candidate := none, lockRun := 0, holdoverSince := none,
             alignUncertain := false, syncedSince := none })

/-- Whether a timer or deadline of the present epoch is held (R39). -/
def State.holdsTimer (s : State) : Bool :=
  !s.carrier.reqs.isEmpty || s.carrier.thermStacks.toList.any (fun k => k.since.isSome) ||
  s.mboxes.toList.any (fun m => m.h2eFrame.isSome || m.e2hFrame.isSome) || !s.vault.reqs.isEmpty ||
  s.fabric.ports.toList.any (fun p => !p.unreach.isEmpty || p.plan.isSome || !p.swaps.isEmpty) || !s.fabric.bindings.isEmpty ||
  s.time.holdoverSince.isSome || s.time.syncedSince.isSome || !s.sync.waiters.isEmpty || s.sec.rollover.isSome ||
  s.service.armed.isSome || s.service.trial.isSome || s.curator.pausedTo.isSome || s.curator.trial.isSome ||
  s.curator.statusAt.isSome || s.curator.field.beat.isSome || s.dict.sends.isSome || s.dict.timeSync.isSome ||
  !s.dict.discover.isEmpty || s.dict.transfer.isSome || s.dict.bankNs.transfer.isSome || s.dict.bankS.transfer.isSome ||
  s.dict.snapshot.isSome || s.dict.bankNs.snapshot.isSome || s.dict.bankS.snapshot.isSome

/-- The time unit's own waits after a step: HOLDOVER and SYNCED are measured afresh, the receipt of each Announce too, and no
PTP exchange of the earlier epoch is used (R39; log entry 9). -/
def State.discardPtp (s : State) (ns : Nat) : State :=
  let f := ns / 100000
  s.setTime fun t => { t with
    holdoverSince := t.holdoverSince.map (fun _ => f), syncedSince := t.syncedSince.map (fun _ => f),
    ports := t.ports.map (fun (p : PtpPort) => { p with
      pendingSync := none, pdelaySent := none, pdelayRsp := none,
      foreigns := p.foreigns.map (fun (m : ForeignMaster) => { m with heard := ns, before := m.before.map (fun _ => ns) }) }) }

/-- Discard timers of an earlier epoch (R39). A request outstanding keeps its tag and is measured afresh from the step, and so
are a wait in sync memory, a repair under way and a binding's age (log entry 9). -/
def State.discardTimers (s : State) (f : Nat) : State :=
  let reqs := s.carrier.reqs.map (fun (r : D2dReq) => { r with frame := f })
  let ks := s.carrier.thermStacks.map (fun (k : Stack) => { k with since := none })
  let boxes := s.mboxes.map (fun (m : Mailbox) => { m with h2eFrame := none, e2hFrame := none, intrFrame := none })
  let vreqs := s.vault.reqs.map (fun (r : VaultReq) => { r with frame := f })
  let ports := s.fabric.ports.map (fun (p : PortState) => { p with
    unreach := [], answered := [], plan := none, since := f, flaps := [], causes := [],
    swaps := p.swaps.map (fun (w : LiveSwap) => { w with frame := f }) })
  let binds := s.fabric.bindings.map (fun (b : Binding) => { b with last := f })
  let waiters := s.sync.waiters.map (fun (w : Waiter) => { w with frame := f })
  let cores := s.docent.cores.map (fun (c : DocentCore) => { c with frozen := c.frozen.map (fun p => (f, p.2)) })
  let s := s.setCarrier fun c => { c with reqs := reqs, thermStacks := ks }
  let s := { s with mboxes := boxes, sync := { s.sync with waiters := waiters }, docent := { s.docent with cores := cores } }
  let s := s.setVault fun v => { v with reqs := vreqs }
  let s := s.setUpdate fun u => { u with suspect := u.suspect.map (fun (x : LaneSuspect) => { x with frame := f }) }
  let s := s.setWoad fun w => { w with suspect := w.suspect.map (fun _ => f) }
  let s := s.setMadder fun m => { m with suspect := m.suspect.map (fun x => (x.1, x.2.1, f)) }
  let s := s.setGallery fun g => { g with
    scrubFrame := f, remaps := g.remaps.map (fun (j : RemapJob) => { j with since := f }) }
  let s := s.setSec fun x => { x with
    suspects := x.suspects.map (fun (y : CipherSuspect) => { y with frame := f }),
    rollover := x.rollover.map (fun (r : Rollover) => { r with frame := f }) }
  s.setFabric fun x => { x with ports := ports, bindings := binds }

/-- The waits of the dictionary, the Curator and the images are measured afresh from a step, and a TIME_SYNC of the earlier epoch matches no TIME_FOLLOW
(R39; log entry 9). -/
def State.discardOdTimers (s : State) (ns : Nat) : State :=
  let f := ns / 100000
  let afresh (t : Option Transfer) : Option Transfer := t.map (fun (x : Transfer) => { x with frame := f })
  let again (t : Option Snapshot) : Option Snapshot := t.map (fun (x : Snapshot) => { x with frame := f })
  let bank (b : OdBank) : OdBank := { b with transfer := afresh b.transfer, snapshot := again b.snapshot }
  let s := s.setCurator fun c => { c with
    statusAt := c.statusAt.map (fun _ => ns), field := { c.field with beat := c.field.beat.map (fun _ => ns) },
    trial := c.trial.map (fun _ => f), pausedTo := c.pausedTo.map (fun _ => f + 13) }
  let s := s.setService fun v => { v with armed := v.armed.map (fun _ => f), trial := v.trial.map (fun _ => f) }
  s.setDict fun d => { d with
    sends := d.sends.map (fun p => (p.1, ns)), timeSync := none, discover := d.discover.map (fun p => (p.1, p.2.1, ns)),
    transfer := afresh d.transfer, snapshot := again d.snapshot, bankNs := bank d.bankNs, bankS := bank d.bankS }

/-- Step the time counter to a value in ns (R39): TIME_EPOCH rises, timers of the earlier epoch are discarded and an event
reported when there were any. -/
def State.stepTime (s : State) (ns : Nat) : State :=
  let held := s.holdsTimer
  let before := s.timeNs
  let f := ns / 100000
  let s := s.setTime fun t => { t with frameExt := f, cycle := ns % 100000 * 8 / 5, slewPs := 0, slewRate := 0 }
  let moved : Int := (ns : Int) - (before : Int)
  let s := s.setCurator fun c => { c with powerAt := c.powerAt.map (fun t => t + moved) }
  let s := s.odSet Od.timeEpoch ((s.odGet Od.timeEpoch + 1) % 65536)
  let s := ((s.discardTimers f).discardOdTimers ns).discardPtp ns
  if held then s.event Od.timeEpoch (s.odGet Od.timeEpoch) else s

/-- Follow a source that is `offset` ps behind the local time (a positive offset means the local clock is ahead): step
when no job is open and `step` allows it, else slew; a correction above 1 ms with a job open is refused (R38). -/
def State.correct (s : State) (offset : Int) (step : Bool) : State :=
  if step && !s.anyJob then s.stepTime (((s.timePs : Int) - offset).toNat / 1000)
  else
    let s := s.setTime fun t => { t with slewPs := -offset }
    if s.anyJob && decide (1000000000 < offset.natAbs) then
      ((s.setTime fun t => { t with stepRefused := true }).raise .stepRefused).countEvent Od.stepRefusedCount
    else s

/-! Best master clock (R37, R40, R41): the default algorithm of IEEE 1588-2019, which Table 02-4 names (log entry 8) -/

/-- The datasets compared when the grandmasters differ: smaller is better. -/
def announceRank (b : AnnounceBody) : Nat :=
  packFields [(64, b.gmIdentity.toNat), (8, b.priority2.toNat), (16, b.variance.toNat),
    (8, b.accuracy.toNat), (8, b.clockClass.toNat), (8, b.priority1.toNat)]

/-- clockClass of the own time (R41): 13 while it traces to a field-master publication, 14 in HOLDOVER after that. -/
def State.clockClass (s : State) : Nat :=
  if s.time.fieldTraced then (if s.time.state == .holdover then 14 else 13) else 248

/-- DEVICE_SERIAL (R389). -/
def State.deviceSerial (s : State) : Nat := Config.sha3 (1 :: Config.response s.helperData) % 2 ^ 64

/-- The dataset of the engine as grandmaster. The identity, accuracy and variance are the model's choice (log entry 8). -/
def State.ownDataset (s : State) : AnnounceBody :=
  { priority1 := BitVec.ofNat 8 (s.cfg Od.priority1), clockClass := BitVec.ofNat 8 s.clockClass, accuracy := 0xFE,
    variance := 0xFFFF, priority2 := BitVec.ofNat 8 (s.cfg Od.priority2),
    gmIdentity := BitVec.ofNat 64 s.deviceSerial, stepsRemoved := 0 }

/-- The engine serves no time: UNSET, or no valid trim table (R41). -/
def State.slaveOnly (s : State) : Bool := s.time.state == .unset || s.odGet Od.trimValid == 0

/-- The engine may be grandmaster: it serves time, and GM_CAPABLE is 1 (R34, R50). -/
def State.maySteer (s : State) : Bool := !s.slaveOnly && s.cfg Od.gmCapable != 0

/-- LOG_ANNOUNCE_INTERVAL in ns; its legal range is -3 to 2 (R50). -/
def State.announceNs (s : State) : Nat := 125000000 * 2 ^ (s.cfgInt Od.logAnnounceInterval + 3).toNat

/-- ANNOUNCE_TIMEOUT intervals have passed without an Announce of a master (R37). -/
def State.silent (s : State) (m : ForeignMaster) : Bool := m.heard + s.cfg Od.announceTimeout * s.announceNs ≤ s.timeNs

/-- A foreign master counts: it is heard, its path is short, and two of its Announces fall within four intervals, which is not
asked of the clock followed. -/
def State.qualified (s : State) (p : Port) (m : ForeignMaster) : Bool :=
  s.ptpPort p && !s.silent m && decide (m.body.stepsRemoved.toNat < 255) &&
  ((m.source == s.time.parentId && (s.time.parent == some p || s.time.candidate == some p)) ||
   m.before.any (fun b => decide (s.timeNs ≤ b + 4 * s.announceNs)))

/-- Masters heard, each with its port. -/
abbrev Heard := Port × ForeignMaster

/-- Comparison of two datasets as heard on two ports: 2 the first is better, 1 it is better by topology, 0 it is not. -/
def heardBetter (own : BitVec 64) (a b : Heard) : Nat :=
  let sa := a.2.body.stepsRemoved.toNat
  let sb := b.2.body.stepsRemoved.toNat
  if a.2.body.gmIdentity != b.2.body.gmIdentity then
    if announceRank a.2.body < announceRank b.2.body then 2 else 0
  else if sa + 1 < sb then 2
  else if sa < sb then
    if own.toNat < bitsOf b.2.source 79 16 then 2 else if bitsOf b.2.source 79 16 < own.toNat then 1 else 0
  else if sb < sa then 0
  else if a.2.source.toNat < b.2.source.toNat then 1
  else if b.2.source.toNat < a.2.source.toNat then 0
  else if a.1.val < b.1.val then 1 else 0

/-- The best of the masters heard. -/
def State.bestOf (s : State) (l : List Heard) : Option Heard :=
  l.foldl (fun best x => match best with
    | some b => if heardBetter s.ownDataset.gmIdentity x b != 0 then some x else best
    | none => some x) none

/-- The masters that count on a port. -/
def State.heardOn (s : State) (p : Port) : List Heard :=
  (s.time.ports[p].foreigns.filter (s.qualified p)).map (fun m => (p, m))

/-- The best clock heard on any port. -/
def State.bestForeign (s : State) : Option Heard := s.bestOf ((List.finRange 4).flatMap s.heardOn)

/-- The algorithm selects this engine as grandmaster: no clock heard is better. -/
def State.selfBest (s : State) : Bool :=
  s.maySteer && match s.bestForeign with
  | some b => decide (announceRank s.ownDataset < announceRank b.2.body)
  | none => true

/-- In SYNCED the time traces to a field-master publication while the parent's grandmaster says so (R41). -/
def State.renewTrace (s : State) : State :=
  match s.time.state, s.time.parent with
  | .synced, some p =>
    match s.time.ports[p].foreigns.find? (fun m => m.source == s.time.parentId) with
    | some m => s.setTime fun t => { t with fieldTraced := m.body.clockClass == 13 }
    | none => s
  | _, _ => s

/-- Run the state decision (R37): the best clock heard becomes the parent to follow, or this engine the grandmaster. -/
def State.bmca (s : State) : State :=
  if s.selfBest then
    match s.time.state with
    | .coarse => s.enterGrandmaster
    | .field => s.enterGrandmaster
    | .holdover => s.enterGrandmaster
    | _ => s
  else match s.bestForeign with
    | some (p, m) =>
      let follow (s : State) : State := s.setTime fun t => { t with parentId := m.source }
      match s.time.state with
      | .synced =>
        if s.time.parent == some p && s.time.parentId == m.source then s
        else ((follow s).setTime fun t => { t with parent := some p }).renewTrace
      | .grandmaster => (follow s.enterHoldover).setTime fun t => { t with candidate := some p }
      | _ =>
        if s.time.candidate == some p && s.time.parentId == m.source then s
        else (follow s).setTime fun t => { t with candidate := some p, lockRun := 0 }
    | none => s

/-- The dataset a master port announces: the parent's grandmaster, or the engine's own. -/
def State.announced (s : State) : AnnounceBody :=
  match s.time.parent with
  | some p => match s.time.ports[p].foreigns.find? (fun m => m.source == s.time.parentId) with
    | some m => { m.body with stepsRemoved := m.body.stepsRemoved + 1 }
    | none => s.ownDataset
  | none => s.ownDataset

/-- A port is a master port: it serves time, its parent's, or its own as GRANDMASTER and in HOLDOVER, and the algorithm makes it
neither the slave port nor a passive one (R40, R41). -/
def State.masterPort (s : State) (p : Port) : Bool :=
  s.ptpPort p && !s.slaveOnly &&
  (s.time.state == .synced || s.time.state == .grandmaster || (s.time.state == .holdover && s.maySteer)) &&
  s.time.parent != some p && s.time.candidate != some p &&
  (s.selfBest || match s.bestOf (s.heardOn p), s.bestForeign with
    | some e, some b => heardBetter s.ownDataset.gmIdentity b e == 2
    | _, _ => true)

/-- The parent port has gone down: SYNCED passes to HOLDOVER (R37). -/
def State.portLost (s : State) (p : Port) : State :=
  let s := s.setPtp p (fun x => { x with foreigns := [], pendingSync := none, pdelaySent := none, pdelayRsp := none })
  if s.time.state == .synced && s.time.parent == some p then s.enterHoldover
  else if s.time.candidate == some p then s.setTime fun t => { t with candidate := none, lockRun := 0 }
  else s

/-- An offset measured from the clock on a port (R37, R38). DESIGN CHOICE (log entry 149): before the lock, an offset beyond
LOCK_THRESHOLD_PS is stepped away when no job is open, and the run of Syncs starts over. -/
def State.offsetFrom (s : State) (p : Port) (offset : Int) : State :=
  let s := s.setTime fun t => { t with offsetPs := offset }
  if s.time.state == .synced then
    if s.time.parent == some p then s.correct offset false else s
  else if s.time.candidate == some p then
    if decide (offset.natAbs ≤ s.cfg Od.lockThresholdPs) then
      if 16 ≤ s.time.lockRun + 1 then
        let s := if offset == 0 then s else s.correct offset true
        s.enterSynced p
      else s.setTime fun t => { t with lockRun := t.lockRun + 1 }
    else (s.setTime fun t => { t with lockRun := 0 }).correct offset true
  else s

/-! The rows -/

/-- HOLDOVER_ALIGN_EXPIRY (R36). -/
def execHoldoverAlignExpiry (s : State) : Out :=
  .next <| match s.time.holdoverSince with
    | some f =>
      if s.time.state == .holdover && !s.time.holdoverReported && s.lapsed f (s.cfg Od.holdoverAlignFrames) then
        (s.setTime fun t =>
          { t with alignUncertain := true, holdoverReported := true, alignCount := t.alignCount + 1 }).eventAt 0x1001 0 0 0
      else s
    | none => s

/-- TRIM_REFINE (R34): after each 600 s (6,000,000 frames) held in SYNCED. The refined table is a free value. -/
def execTrimRefine (s : State) : Out :=
  .next <| match s.time.syncedSince with
    | some f =>
      if s.time.state == .synced && f + 6000000 ≤ s.frame then
        let (v, s) := s.free
        ((s.odSetP Od.trimTable v).odSetP Od.trimValid 1).setTime fun t => { t with syncedSince := some t.frameExt }
      else s
    | none => s

/-- PPS is driven: PPS_ENABLE and a state other than UNSET, with the always-on domain up (R45). -/
def State.ppsActive (s : State) : Bool :=
  s.curator.stage != .none && s.cfg Od.ppsEnable == 1 && s.time.state != .unset

/-- The PPS pin (R45). -/
def State.ppsPin (s : State) : Bool := s.ppsActive && s.time.ppsLeft != 0

/-- REF_OUT runs: from Stage B while REF_OUT_ENABLE is 1 (R43). Its edges are not modelled (log entry 146). -/
def State.refOut (s : State) : Bool := s.mainUp && s.cfg Od.refOutEnable == 1

/-- The D2D TIME message (R56). -/
def State.sendTime (s : State) : State :=
  if s.mainUp && s.carrier.mainband then s.send (.d2d 0x09 false 0 s.timeNs 0 0 []) else s

/-- PPS (R45, R56, R473): at a whole second, high for PPS_WIDTH_FRAMES frames. DEDUCED (log entry 163): the TIME message goes
with the pulse only. -/
def execPps (s : State) : Out :=
  .next <|
    if s.ppsActive && s.time.cycle == 0 && s.frame % 10000 == 0 then
      (s.setTime fun t => { t with ppsLeft := s.cfg Od.ppsWidthFrames }).sendTime
    else s

/-- A control-window access is served: host accesses need the trained mainband, DEBUG the main domain (R54, R58,
Table 15-4). -/
def State.cwOpen (s : State) (path : CwPath) : Bool :=
  s.mainUp && (if path == .debug then s.elec.tap == .debug else s.carrier.mainband)

/-- FRAME_EXT_LO_READ (R49). -/
def execFrameExtLoRead (path : CwPath) (wide : Bool) (s : State) : Out :=
  .next <|
    if s.cwOpen path then
      let s := s.setTime fun t =>
        { t with latFrameExtHi := t.frameExt / 2 ^ 32 % 2 ^ 32, latTimeNsLo := s.timeNs % 2 ^ 32,
                 latTimeNsHi := s.timeNs / 2 ^ 32 % 2 ^ 32, latCycle := t.cycle }
      s.send (.cwCpl path none 0 (s.frame % 2 ^ 32 + if wide then s.time.latFrameExtHi * 2 ^ 32 else 0))
    else s

/-- TIME_NS_LO_READ (R49). -/
def execTimeNsLoRead (path : CwPath) (wide : Bool) (s : State) : Out :=
  .next <|
    if s.cwOpen path then
      let s := s.setTime fun t =>
        { t with latTimeNsHi := s.timeNs / 2 ^ 32 % 2 ^ 32, latCycle := t.cycle }
      s.send (.cwCpl path none 0 (s.timeNs % 2 ^ 32 + if wide then s.time.latTimeNsHi * 2 ^ 32 else 0))
    else s

/-- SYNC (R37): the receive timestamp is kept for the Follow_Up (two-step). -/
def execSync (port : Port) (h : PtpHeader) (s : State) : Out :=
  .next <|
    if s.ptpHears port h then
      s.setPtp port (fun x => { x with pendingSync := some (h.seqId, h.source, s.timePs, h.correction) })
    else s

/-- FOLLOW_UP (R37, R38): the offset from the master on this port, peer delay and asymmetry taken off. -/
def execFollowUp (port : Port) (h : PtpHeader) (origin : BitVec 80) (s : State) : Out :=
  .next <|
    if s.ptpHears port h then
      match s.time.ports[port].pendingSync with
      | some (seq, src, rx, corr) =>
        if seq == h.seqId && src == h.source then
          let path := signed 32 (s.odGet (Od.peerDelayPs port.val)) + s.cfgInt (Od.portAsymmetryPs port.val)
          let offset : Int := rx - (stampPs origin : Int) - correctionPs corr - correctionPs h.correction - path
          (s.setPtp port (fun x => { x with pendingSync := none })).offsetFrom port offset
        else s
      | none => s
    else s

/-- The masters heard on a port after an Announce at a time. -/
def hearMaster (l : List ForeignMaster) (source : BitVec 80) (body : AnnounceBody) (ns : Nat) : List ForeignMaster :=
  l.filter (fun m => m.source != source) ++
    [{ source := source, body := body, heard := ns,
       before := (l.find? (fun m => m.source == source)).map (fun m => m.heard) }]

/-- ANNOUNCE (R37, R40): the sender is noted and the state decision made. The engine's own Announce is not heard. -/
def execAnnounce (port : Port) (h : PtpHeader) (body : AnnounceBody) (s : State) : Out :=
  .next <|
    if s.ptpHears port h then
      if bitsOf h.source 79 16 == s.deviceSerial then s
      else (s.setPtp port (fun x => { x with foreigns := hearMaster x.foreigns h.source body s.timeNs })).bmca.renewTrace
    else s

/-- PDELAY_REQ (R40): answered by Pdelay_Resp with t2 and Pdelay_Resp_Follow_Up with t3. -/
def execPdelayReq (port : Port) (h : PtpHeader) (s : State) : Out :=
  .next <|
    if s.ptpHears port h then
      (s.send (.ptp port.val 3 h.seqId.toNat (-s.subNs) s.stampFields)).send
        (.ptp port.val 0xA h.seqId.toNat (s.subNs + h.correction.toInt) s.stampFields)
    else s

/-- PDELAY_RESP (R40). -/
def execPdelayResp (port : Port) (h : PtpHeader) (receipt : BitVec 80) (s : State) : Out :=
  .next <|
    if s.ptpHears port h then
      match s.time.ports[port].pdelaySent with
      | some (seq, _) =>
        if seq == h.seqId then
          s.setPtp port (fun x => { x with pdelayRsp := some ((stampPs receipt : Int) - correctionPs h.correction, s.timePs) })
        else s
      | none => s
    else s

/-- PDELAY_RESP_FOLLOW_UP (R40): the mean link delay becomes PEER_DELAY_PS. -/
def execPdelayRespFollowUp (port : Port) (h : PtpHeader) (origin : BitVec 80) (s : State) : Out :=
  .next <|
    if s.ptpHears port h then
      match s.time.ports[port].pdelaySent, s.time.ports[port].pdelayRsp with
      | some (seq, t1), some (t2, t4) =>
        if seq == h.seqId then
          let t3 : Int := (stampPs origin : Int) + correctionPs h.correction
          let d : Int := ((t4 : Int) - t1 - (t3 - t2)) / 2
          (s.odSet (Od.peerDelayPs port.val) (unsigned 32 d)).setPtp port
            (fun x => { x with pdelaySent := none, pdelayRsp := none })
        else s
      | _, _ => s
    else s

/-- SIGNALING (R40): ignored. -/
def execSignaling (_port : Port) (_h : PtpHeader) (s : State) : Out := .next s

/-- SYNC_INTERVAL (R40): a master port sends Sync, then Follow_Up with the send time. -/
def execSyncInterval (port : Port) (s : State) : Out :=
  .next <|
    if s.masterPort port then
      let q := s.time.ports[port].syncSeq
      ((s.send (.ptp port.val 0 q 0 [])).send (.ptp port.val 8 q s.subNs s.stampFields)).setPtp port
        (fun x => { x with syncSeq := (q + 1) % 65536 })
    else s

/-- ANNOUNCE_INTERVAL (R41): the state decision, then Announce from a master port. -/
def execAnnounceInterval (port : Port) (s : State) : Out :=
  .next <|
    let s := if s.mainUp then s.bmca else s
    if s.masterPort port then
      let q := s.time.ports[port].announceSeq
      let b := s.announced
      (s.send (.ptp port.val 0xB q 0 [b.priority1.toNat, b.clockClass.toNat, b.accuracy.toNat, b.variance.toNat,
        b.priority2.toNat, b.gmIdentity.toNat, b.stepsRemoved.toNat])).setPtp port
        (fun x => { x with announceSeq := (q + 1) % 65536 })
    else s

/-- PDELAY_INTERVAL (R40): Pdelay_Req with its send time kept. -/
def execPdelayInterval (port : Port) (s : State) : Out :=
  .next <|
    if s.ptpPort port then
      let q := s.time.ports[port].pdelaySeq
      (s.send (.ptp port.val 2 q 0 [])).setPtp port (fun x =>
        { x with pdelaySeq := (q + 1) % 65536, pdelaySent := some (BitVec.ofNat 16 q, s.timePs), pdelayRsp := none })
    else s

/-- ANNOUNCE_TIMEOUT (R37): after ANNOUNCE_TIMEOUT intervals without an Announce from the parent, SYNCED passes to HOLDOVER. -/
def execAnnounceTimeout (s : State) : Out :=
  .next <| match s.time.state, s.time.parent with
    | .synced, some p =>
      match s.time.ports[p].foreigns.find? (fun m => m.source == s.time.parentId) with
      | some m =>
        if s.silent m then
          (s.setPtp p (fun x => { x with foreigns := x.foreigns.filter (fun y => y.source != m.source) })).enterHoldover
        else s
      | none => s.enterHoldover
    | _, _ => s

end Sys2Proof.Machine
end

