-- ==== Sys2Proof/Machine/Scores.lean ====
section
/-!
DEFINITION. Fault scores: parts, scored events, their conditions, states, pins (R441 to R447).
-/
namespace Sys2Proof.Machine

/-- Parts of a class (Table 17-2); 0 for a reserved class. -/
def partCount (cls : Nat) : Nat :=
  match cls with
  | 1 => 132 | 2 => 130 | 3 => 130 | 4 => 68 | 5 => 68 | 6 => 136 | 7 => 24 | 8 => 128 | 10 => 8 | 11 => 4 | 12 => 16
  | _ => 0

/-- PART_ID names a part (R441): class 9 has lanes 0 to 8 in each direction of each port. -/
def partKnown (pid : Nat) : Bool :=
  let cls := pid / 4096
  let i := pid % 4096
  if cls == 9 then i < 128 && i % 16 < 9 else i < partCount cls

/-- PART_ID of a class and index. -/
def partId (cls index : Nat) : Nat := cls * 4096 + index

/-- PART_ID of an optical lane. -/
def opticalLane (p : Port) (tx : Bool) (lane : Nat) : Nat := partId 9 (32 * p.val + (if tx then 0 else 16) + lane)

/-- The score record of a part. -/
def State.score (s : State) (pid : Nat) : Score := (assoc s.service.scores pid).getD {}

/-- Set the score record of a part. -/
def State.setScore (s : State) (pid : Nat) (r : Score) : State :=
  s.setService fun v => { v with scores := if r == {} then assocErase v.scores pid else assocSet v.scores pid r }

/-- The record of Table 17-3 as a number. -/
def Score.word (r : Score) : Nat :=
  packFields ([(12, 0), (1, if r.bandBound then 1 else 0), (1, if r.loadBound then 1 else 0), (2, r.state.code)] ++
    r.loads.toList.map (fun n => (4, n)) ++ r.bands.toList.map (fun n => (4, n)) ++ [(16, r.score)])

/-- Band of a part: of the sensor of its class's block, at the last boundary (R444). -/
def State.partBand (s : State) (pid : Nat) : Nat := (s.service.bands.toList.getD (pid / 4096 - 1) 0).toNat

/-- A pin stands on the part (R447). -/
def State.pinned (s : State) (pid : Nat) : Bool := s.service.pins.any (fun p => p.part == pid)

/-- Exactly one counter is non-zero. -/
def oneBand (v : Vector Nat 4) : Bool := (v.toList.filter (fun n => n != 0)).length == 1

/-- Sum of counters. -/
def bandSum (v : Vector Nat 4) : Nat := v.toList.foldl (· + ·) 0

/-- Start a pin on the oldest bound SUSPECT part of a class that has none (R447). -/
def State.startPins (s : State) (cls : Nat) : State :=
  if s.cfg Od.scoreEnable == 0 || s.service.pins.any (fun p => p.part / 4096 == cls) then s
  else match s.service.suspects.find? (fun q => q / 4096 == cls) with
    | some q => s.setService fun v =>
        { v with suspects := v.suspects.filter (fun x => x != q), pins := v.pins ++ [{ part := q, clean := 0 }] }
    | none => s

/-- Pins start in every class that has none (R447). -/
def State.startAllPins (s : State) : State := (List.range 13).foldl (fun s c => s.startPins c) s

/-- A part leaves the SUSPECT parts and any pin. -/
def State.dropPin (s : State) (pid : Nat) : State :=
  State.startPins (s.setService fun v =>
    { v with suspects := v.suspects.filter (fun x => x != pid), pins := v.pins.filter (fun p => p.part != pid) }) (pid / 4096)

/-- STATE of Table 17-5 from SCORE and the flags; `newFlag` when a bound flag has just become 1. -/
def nextPartState (r : Score) (newFlag : Bool) (watch suspect : Nat) : PartState :=
  match r.state with
  | .healthy => if suspect ≤ r.score || newFlag then .suspect else if watch ≤ r.score then .watch else .healthy
  | .watch => if suspect ≤ r.score || newFlag then .suspect else if 2 * r.score < watch then .healthy else .watch
  | .suspect => if !(r.bandBound || r.loadBound) && 2 * r.score < suspect then .watch else .suspect
  | .retired => .retired

/-- The flags and STATE follow a change of the record (R446); a flag that sets is counted and reported. A flag clears when
a second counter becomes non-zero (log entry 10). -/
def State.settleScore (s : State) (pid : Nat) (r : Score) : State :=
  let bb := if oneBand r.bands then r.bandBound || 3 ≤ bandSum r.bands else r.bandBound && bandSum r.bands == 0
  let lb := if oneBand r.loads then r.loadBound || 3 ≤ bandSum r.loads else r.loadBound && bandSum r.loads == 0
  let sets := (if bb && !r.bandBound then 1 else 0) + (if lb && !r.loadBound then 1 else 0)
  let r := { r with bandBound := bb, loadBound := lb }
  let r := { r with state := nextPartState r (0 < sets) (s.cfg Od.watchThreshold) (s.cfg Od.suspectThreshold) }
  let s := s.setScore pid r
  let s := if 0 < sets then s.countEvent Od.conditionalCount pid else s
  let s := if sets == 2 then s.countEvent Od.conditionalCount pid else s
  if r.state == .suspect && (bb || lb) then
    if s.pinned pid then s
    else (s.setService fun v => { v with suspects := addOnce v.suspects pid }).startPins (pid / 4096)
  else s.dropPin pid

/-- Add 1 to a counter of four bits. -/
def bump4 (v : Vector Nat 4) (i : Nat) : Vector Nat 4 := vmod v i (fun n => min 15 (n + 1))

/-- Add an event's weight and condition to a record (R443). -/
def State.scoreAdd (s : State) (pid weight : Nat) (r : Score) : Score :=
  { r with score := min 65535 (r.score + weight), bands := bump4 r.bands (s.partBand pid),
           loads := bump4 r.loads s.service.load }

/-- A failure under a pin starts its count of clean frames afresh (R447). -/
def State.restartPin (s : State) (pid : Nat) : State :=
  s.setService fun v => { v with pins := mapIf v.pins (fun p => p.part == pid) (fun p => { p with clean := 0 }) }

/-- How an event names a failing part: under a pin by its PART_ID and the mark "pinned" in bit 16 (R447, log entry 90), else
as its own rule names it. -/
def State.partName (s : State) (pid plain : Nat) : Nat := if s.pinned pid then 65536 + pid else plain

/-- A scored event of a part (R443, Table 17-4). -/
def State.scored (s : State) (pid weight : Nat) : State :=
  let r := s.score pid
  if s.cfg Od.scoreEnable == 0 || r.state == .retired then s
  else (s.restartPin pid).settleScore pid (s.scoreAdd pid weight r)

/-- The retirement of a part (weight 64): STATE becomes RETIRED. -/
def State.scoreRetire (s : State) (pid : Nat) : State :=
  if s.cfg Od.scoreEnable == 0 then s.dropPin pid
  else
    let r := s.score pid
    State.dropPin (State.settleScore s pid { s.scoreAdd pid 64 r with state := .retired }) pid

/-- A transient failure of a check (weight 8). -/
def State.scoreTransient (s : State) (pid : Nat) : State := s.scored pid 8

/-- SCORE_HALVING (R445): every record that is not RETIRED is halved, rounding down. -/
def State.halveScores (s : State) : State :=
  s.service.scores.foldl (fun s p =>
    if p.2.state == .retired then s
    else s.settleScore p.1 { p.2 with score := p.2.score / 2, bands := p.2.bands.map (· / 2),
                                      loads := p.2.loads.map (· / 2) }) s

/-- The two battery copies of the score region are written (R443, R445). -/
def State.writeScores (s : State) : State :=
  if s.service.scores == s.service.scoreCopy then s
  else s.setService fun v => { v with scoreCopy := v.scores, scoreGen := (v.scoreGen + 1) % 2 ^ 32 }

/-- Retire a part and score it. The class's own mapping is the caller's. -/
def State.retirePart (s : State) (pid : Nat) : State := s.scoreRetire pid

/-- SCORE_HALVING (R445): at a boundary whose FRAME_EXT is a multiple of SCORE_HALF_LIFE_FRAMES. -/
def execScoreHalving (s : State) : Out :=
  .next <|
    if s.time.cycle == 0 && s.frame % max 1 (s.cfg Od.scoreHalfLifeFrames) == 0 && s.cfg Od.scoreEnable == 1 then
      s.halveScores.writeScores
    else s

/-! Repairs past their budget (R32, R33, Table 02-1) -/

/-- PART_ID by which an event names a part under repair (Table 17-2): a module, an optical lane, a laser, the first pipe of a
pair, a core, a lane, or the channel of a row. -/
def State.repairPid (s : State) (part : RepairPart) (i : Nat) : Nat :=
  match part with
  | .ucieLane => partId 12 i | .opticalLane => partId 9 i | .laser => partId 10 i
  | .cipherPair => partId 6 (((s.sec.suspects.find? (fun x => x.pair == i)).map (·.first)).getD (2 * i))
  | .docentCore => partId 7 i | .updateLane => partId 1 i | .galleryRow => partId 8 i

/-- Frame in which the fault of a part under repair was detected; none when no repair of it is under way. -/
def State.repairSince (s : State) (part : RepairPart) (i : Nat) : Option Nat :=
  match part with
  | .ucieLane => (s.carrier.laneRepairs.find? (fun x => x.1 == i)).map (·.2)
  | .opticalLane =>
    let p := s.fabric.ports[portOf (i / 32)]
    if p.state == .retraining then some p.since else none
  | .laser =>
    let p := s.fabric.ports[portOf (i / 2)]
    if (p.state == .retraining || p.state == .training) && p.lasersBad.contains (i % 2) then some p.since else none
  | .cipherPair => (s.sec.suspects.find? (fun x => x.pair == i)).map (·.frame)
  | .docentCore => (s.docent.cores.toList.find? (fun c => c.frozen.any (fun f => f.2 == i))).bind (fun c => c.frozen.map (·.1))
  | .updateLane => (s.update.suspect.find? (fun x => x.active == i || x.shadow == i)).map (·.frame)
  | .galleryRow => (s.gallery.remaps.find? (fun j => j.channel == i)).map (·.found)

/-- FAULT_BUDGET_OVERRUN (R33): a repair under way is past the frames of Table 02-1. It is counted and reported once (R480), and
goes on. -/
def execFaultBudgetOverrun (part : RepairPart) (index : BitVec 32) (s : State) : Out :=
  .next <| match s.repairSince part index.toNat with
    | none => s
    | some f =>
      let pid := s.repairPid part index.toNat
      if !s.lapsed f part.budget || s.service.overruns.contains (pid, f) then s
      else (s.setService fun v => { v with overruns := ((pid, f) :: v.overruns).take 64 }).countEvent
        Od.faultBudgetOverrunCount pid part.budget

/-- A pin ends clean (R447): counters and flags are cleared, and STATE follows the last rows of Table 17-5. -/
def State.pinClean (s : State) (pid : Nat) : State :=
  let r := s.score pid
  let st : PartState :=
    if r.score < s.cfg Od.suspectThreshold then (if s.cfg Od.watchThreshold ≤ r.score then .watch else .healthy)
    else r.state
  (s.setScore pid { r with bands := Vector.replicate 4 0, loads := Vector.replicate 4 0, bandBound := false,
                           loadBound := false, state := st }).dropPin pid

/-- The present frame matches a pinned part's condition (R447). -/
def State.pinMatches (s : State) (pid : Nat) : Bool :=
  let r := s.score pid
  (!r.bandBound || r.bands.toList.getD (s.partBand pid) 0 != 0) &&
  (!r.loadBound || r.loads.toList.getD s.service.load 0 != 0)

/-- PIN_END (R447): PIN_FRAMES matching frames without a failure. -/
def execPinEnd (part : BitVec 16) (s : State) : Out :=
  .next <| match s.service.pins.find? (fun p => p.part == part.toNat) with
    | some p => if s.cfg Od.pinFrames ≤ p.clean then s.pinClean part.toNat else s
    | none => s

end Sys2Proof.Machine
end

