-- ==== Sys2Proof/Machine/OdCore.lean ====
section
/-!
DEFINITION. Checks and acceptance of dictionary writes, common to every path (R408 to R417, Table 16-11). Values arrive
as their bytes in little-endian order.
-/
namespace Sys2Proof.Machine

/-! Abort codes (Table 16-11) -/

def abNoEntry : Nat := 0x01000001
def abNoSub : Nat := 0x01000002
def abAccess : Nat := 0x02000001
def abOutOfRange : Nat := 0x03000001
def abInvalid : Nat := 0x03000002
def abLengthHigh : Nat := 0x03000003
def abLengthLow : Nat := 0x03000004
def abBusy : Nat := 0x04000001
def abRunning : Nat := 0x04000002
def abNotReady : Nat := 0x04000003
def abTimeout : Nat := 0x05000001
def abOrder : Nat := 0x05000002
def abAbandoned : Nat := 0x05000003
def abNoTransfer : Nat := 0x05000004
def abAuthRequired : Nat := 0x06000001
def abAuthFail : Nat := 0x06000002
def abReplay : Nat := 0x06000003
def abKeyAlarm : Nat := 0x06000004

/-! Rights (R411, Table 16-2) -/

/-- Agents of the default read set. -/
def agentReads (a : Agent) : Bool :=
  match a with
  | .hostNs => true | .hostS => true | .docent => true | .curator => true | .field => true | .debug => true
  | .partner => false | .selftest => false

/-- Agents of the default write set. -/
def agentWrites (a : Agent) : Bool :=
  match a with
  | .hostNs => true | .hostS => true | .docent => true | .curator => true | .field => true
  | .debug => false | .partner => false | .selftest => false

/-- An agent may write an entry. -/
def OdRow.mayWrite (r : OdRow) (key : Nat) (a : Agent) : Bool :=
  match r.access with
  | .ro => false
  | .const => false
  | .rw => agentWrites a
  | .rwHostS => a == .hostS
  | .rwField => a == .field
  | .rwCurator => a == .curator
  | .rwChannel => if key % 256 ≥ r.ref.key % 256 + 8 then a == .hostS else agentWrites a
  | .woField => a == .field
  | .woHostS => a == .hostS
  | .woHostSField => a == .hostS || a == .field
  | .woHosts => a == .hostNs || a == .hostS
  | .woHostSDocent => a == .hostS || a == .docent

/-- A write-only entry. -/
def OdRow.writeOnly (r : OdRow) : Bool :=
  match r.access with
  | .woField => true | .woHostS => true | .woHostSField => true | .woHosts => true | .woHostSDocent => true
  | _ => false

/-! Checks of R412 -/

/-- Bytes of a scalar type; none for STRING and DOMAIN (Table 16-1). -/
def OdType.size (t : OdType) : Option Nat :=
  match t with
  | .bool => some 1 | .u8 => some 1 | .u16 => some 2 | .u32 => some 4 | .u64 => some 8 | .i32 => some 4
  | .domain => none | .string => none

/-- Check 2: NO_ENTRY and NO_SUBINDEX. -/
def odMissing (key : Nat) : Nat :=
  match odHighest (key / 256) with
  | none => abNoEntry
  | some _ => if key % 256 == 0 || (odRowOf key).isSome then 0 else abNoSub

/-- Check 4: the domain that holds the entry is down (R395). -/
def State.odNotReady (s : State) (r : OdRow) (key : Nat) (write : Bool) : Bool :=
  !s.mainUp && (!(odCurator key || r.persist) || (write && r.effect == .stopped))

/-- Check 5: length. A DOMAIN is limited here to 16,777,216 bytes; its owner checks its own length. -/
def odLength (r : OdRow) (n : Nat) : Nat :=
  match r.type.size with
  | some k => if k < n then abLengthHigh else if n < k then abLengthLow else 0
  | none =>
    if r.ref.key == Od.fieldMasterAddr.key then (if 6 < n then abLengthHigh else if n < 6 then abLengthLow else 0)
    else if 16777216 < n then abLengthHigh else 0

/-- Check 6: the block that a STOPPED entry belongs to runs (R416; 12 Table 12-10 for LANE_MAP_RESET). -/
def State.odRunning (s : State) (r : OdRow) (key : Nat) : Bool :=
  r.effect == .stopped &&
  (if r.ref.key == (Od.laneMapReset 0).key then
    s.fabric.ports[portOf (key / 256 - r.ref.key / 256)].state != .disabled
  else s.anyJob)

/-- Encoding of check 7: BOOL 2 to 255, and a group address other than Phoaz's own for FIELD_MASTER_ADDR. -/
def odEncodingBad (r : OdRow) (bytes : Bytes) : Bool :=
  let v := leNat bytes
  (r.type == .bool && 1 < v) ||
  (r.ref.key == Od.fieldMasterAddr.key && v % 2 == 1 && beNat bytes != phoazGroup)

/-- A value of an entry's type lies outside a legal range. -/
def OdRow.illegal (r : OdRow) (v : Nat) : Bool :=
  match r.legal with
  | none => false
  | some (lo, hi) =>
    let x : Int := if r.type == .i32 then signed 32 v else (v : Int)
    decide (x < lo) || decide (hi < x)

/-- Constraints across entries and ranges that their rules state in words: R44, R45, R188, R234, R314, R438, R441,
R465. The accepted values of the other entries count (R417). -/
def State.odOutOfRange (s : State) (key v : Nat) : Bool :=
  let g (r : OdRef) : Nat := if r.key == key then v else s.odGet r
  if key == Od.tickOutAdvancePs.key then
    decide (signed 32 v < -5000) || decide (5000 < signed 32 v)
  else if key == Od.ppsWidthFrames.key then v == 0 || 9999 < v
  else if key == Od.streamCredits.key || key == Od.statsLeaves.key || key == Od.ledgerLeaves.key ||
      key == Od.quarantineLeaves.key || key == Od.egressLeaves.key then
    decide (32768 < g Od.streamCredits + g Od.statsLeaves + g Od.ledgerLeaves + g Od.quarantineLeaves +
      g Od.egressLeaves + 128 + s.odGet Od.slotRetireCount)
  else if key == Od.lostFrames.key || key == Od.heartbeatFrames.key then
    decide (g Od.lostFrames < 2 * g Od.heartbeatFrames)
  else if (Od.vcRxCredits 0).key ≤ key && key ≤ (Od.vcRxCredits 5).key then
    let low := if key == (Od.vcRxCredits 0).key then 32 else 256
    let high := if key == (Od.vcRxCredits 0).key then 256 else 4096
    decide (v < low) || decide (high < v) ||
    decide (9280 < ((List.range 6).map (fun k => g (Od.vcRxCredits k))).foldl (· + ·) 0)
  else if key == Od.errorAckSeq.key then
    decide (2 ^ 31 ≤ (s.dict.eventSeq + 2 ^ 32 - v % 2 ^ 32) % 2 ^ 32)
  else if key == Od.partSelect.key then !partKnown v
  else if key == Od.watchThreshold.key || key == Od.suspectThreshold.key || key == Od.retireThreshold.key then
    !(decide (g Od.watchThreshold < g Od.suspectThreshold) && decide (g Od.suspectThreshold < g Od.retireThreshold))
  else false

/-- Checks 2 to 7 of R412 on a write, in order; 0 when they all pass. -/
def State.odCheck (s : State) (a : Agent) (key : Nat) (bytes : Bytes) : Nat :=
  let m := odMissing key
  if m != 0 then m
  else match odRowOf key with
  | none => abAccess
  | some r =>
    if !r.mayWrite key a then abAccess
    else if s.odNotReady r key true then abNotReady
    else
      let l := odLength r bytes.length
      if l != 0 then l
      else if s.odRunning r key then abRunning
      else if odEncodingBad r bytes then abInvalid
      else if r.illegal (leNat bytes) || s.odOutOfRange key (leNat bytes) then abOutOfRange
      else 0

/-! Acceptance (R413) -/

/-- Reserved bits of an entry's value are not stored (R6): LINK_ENABLE and PORT_ENABLE [7:4]. -/
def odMask (key v : Nat) : Nat :=
  if key == Od.linkEnable.key || key == Od.portEnable.key then v % 16 else v

/-- Accept the write of a setting: reads return the value from now on; its effect waits as its class says (R413 to
R416). -/
def State.odAccept (s : State) (key v : Nat) : State :=
  match odRowOf key with
  | none => s
  | some row =>
    let r := row.refOf key
    let v := odMask key v
    let old := s.odGet r
    let s := if row.persist then s.odStore r v else s
    let held (j : Nat) : Bool := s.dict.stepHeld.any (fun p => p.1 == j && p.2.1 == key)
    let s := match row.effect with
      | .step => s.setDict fun d =>
          { d with stepHeld := d.stepHeld ++ (((List.finRange 4).filter (fun (j : JobId) =>
              (s.job j).open_ && !held j.val)).map (fun (j : JobId) => (j.val, key, old))) }
      | .live => if (assoc s.dict.pendingW key).isSome then s
          else s.setDict fun d => { d with pendingW := d.pendingW ++ [(key, old)] }
      | .stopped => if (assoc s.dict.pendingW key).isSome then s
          else s.setDict fun d => { d with pendingW := d.pendingW ++ [(key, old)] }
      | .none => s
    s.odSet r v

/-- A refusal on any path is counted (R436). -/
def State.odRefuse (s : State) : State := s.bump Od.odAbortCount

/-- A write that has passed the checks of R412 up to the owner's: `f` answers the owner's abort code, 0 when it accepts.
A refused write changes nothing but the count; an accepted one is a wake event (R101). -/
def State.odWriteWith (s : State) (a : Agent) (key : Nat) (bytes : Bytes) (f : State → Nat × State) : Nat × State :=
  let c := s.odCheck a key bytes
  if c != 0 then (c, s.odRefuse)
  else
    let (c, t) := f s
    if c != 0 then (c, s.odRefuse) else (0, t.wakeUp)

/-- A dictionary command named by a row of its own: the answer goes back to its agent. -/
def State.odRow (s : State) (a : Agent) (key : Nat) (bytes : Bytes) (f : State → Nat × State) : State :=
  let (c, s) := s.odWriteWith a key bytes f
  s.send (.od a.code c [])

/-- The owner of a setting accepts it. -/
def acceptSetting (key v : Nat) (s : State) : Nat × State := (0, s.odAccept key v)

/-- A STEP value takes effect for a job (R415). -/
def State.stepEffect (s : State) (j : JobId) : State :=
  s.setDict fun d => { d with stepHeld := d.stepHeld.filter (fun p => p.1 != j.val) }

end Sys2Proof.Machine
end

