-- ==== Sys2Proof/Machine/Fabric.lean ====
section
/-!
DEFINITION. The fabric ports: offering messages, bindings, transmission by deficit-weighted round robin, link states,
retry, lanes and lasers (R297 to R322, R457).
-/
namespace Sys2Proof.Machine

/-- A port. -/
def State.port (s : State) (p : Port) : PortState := s.fabric.ports[p]

/-- Change a port. -/
def State.setPort (s : State) (p : Port) (f : PortState → PortState) : State :=
  s.setFabric fun x => { x with ports := x.ports.set p (f x.ports[p]) }

/-! Reaching a destination (R317, R318) -/

/-- A DEST_UNREACH on the port stands against the destination. -/
def PortState.named (p : PortState) (dst : Nat) : Bool := p.unreach.any (fun u => u.1 == dst)

/-- The destination is not unreachable on the port (R318). -/
def PortState.reaches (p : PortState) (dst : Nat) : Bool :=
  (p.state == .up || p.state == .retraining) && !p.named dst

/-- Unreachable on every port. -/
def State.unreachable (s : State) (dst : Nat) : Bool := (List.finRange 4).all (fun p => !(s.port p).reaches dst)

/-- Bytes queued on a port for a VC. -/
def PortState.queued (p : PortState) (vc : Nat) : Nat :=
  (p.queue.filter (fun m => m.vc == vc)).foldl (fun n m => n + m.bytes) 0

/-- The port for a new binding: UP, reachable, fewest bytes queued on the VC, lowest number. When none is UP, a port in
RETRAINING keeps the message (log entry 11). -/
def State.choosePort (s : State) (dst vc : Nat) : Option Port :=
  let best (l : List Port) : Option Port :=
    l.foldl (fun b p => match b with
      | none => some p
      | some q => if (s.port p).queued vc < (s.port q).queued vc then some p else b) none
  let up := (List.finRange 4).filter (fun p => (s.port p).state == .up && (s.port p).reaches dst)
  if up.isEmpty then best ((List.finRange 4).filter (fun p => (s.port p).reaches dst)) else best up

/-- The binding of a destination and VC. -/
def State.binding? (s : State) (dst vc : Nat) : Option Binding :=
  s.fabric.bindings.find? (fun b => b.dst == dst && b.vc == vc)

/-- Set or renew a binding. -/
def State.bind (s : State) (dst vc : Nat) (p : Port) : State :=
  s.setFabric fun x =>
    { x with bindings := { dst := dst, vc := vc, port := p.val, last := s.frame } ::
        x.bindings.filter (fun b => !(b.dst == dst && b.vc == vc)) }

/-- Lowest port enabled in LINK_ENABLE, for a message dropped when it is offered (R319). -/
def State.dropPort (s : State) : Nat :=
  ((List.range 4).find? (fun p => s.cfg Od.linkEnable / 2 ^ p % 2 == 1)).getD 0

/-- Offer a message of `size` bytes after its route header to the link layer, for a destination on a VC (R317). -/
def State.offer (s : State) (dst vc proto hdr size : Nat) (payload : Bytes) : State :=
  let id := s.fabric.nextMsg
  let s := s.setFabric fun x => { x with nextMsg := id + 1 }
  let port := match s.binding? dst vc with
    | some b => some (portOf b.port)
    | none => s.choosePort dst vc
  match port with
  | none =>
    let s := s.send (.fabric id none dst vc proto hdr payload)
    s.countEvent (Od.linkMsgDropCount s.dropPort) s.dropPort 1
  | some p =>
    let s := (s.bind dst vc p).setPort p (fun x =>
      { x with queue := x.queue ++ [{ id := id, vc := vc, dst := dst, proto := proto, bytes := size + 16, sent := 0 }] })
    (s.send (.fabric id (some p) dst vc proto hdr payload)).setSched fun c => { c with active := c.active || vc != 0 }

/-- A VC0 message to the link partner of one port. -/
def State.offerPartner (s : State) (p : Port) (proto hdr size : Nat) (payload : Bytes) : State :=
  let id := s.fabric.nextMsg
  let s := s.setFabric fun x => { x with nextMsg := id + 1 }
  let s := s.setPort p (fun x =>
    { x with queue := x.queue ++ [{ id := id, vc := 0, dst := 0, proto := proto, bytes := size + 16, sent := 0 }] })
  s.send (.fabric id (some p) 0 0 proto hdr payload)

/-! Losing a port or a destination (R319) -/

/-- Take one waiting message to another port, or drop it. Answers the state and whether it was dropped. -/
def State.moveMsg (s : State) (m : TxMsg) : State × Bool :=
  match if m.dst == 0 then none else
      (match s.binding? m.dst m.vc with
       | some b => some (portOf b.port)
       | none => s.choosePort m.dst m.vc) with
  | some q => ((s.bind m.dst m.vc q).setPort q (fun x => { x with queue := x.queue ++ [m] }), false)
  | none => (s, true)

/-- Move the bindings of the affected destinations off a port. Messages not started move or drop; messages started and
not wholly acknowledged drop, unless `finish` lets them run on (Table 12-7). -/
def State.reroute (s : State) (p : Port) (which : Nat → Bool) (finish : Bool) : State :=
  let x := s.port p
  let hit := x.queue.filter (fun m => which m.dst && !(finish && m.sent != 0))
  let waiting := hit.filter (fun m => m.sent == 0)
  let unacked := if finish then [] else ((x.retry.map (fun r => r.2.2.1)).eraseDups).filter
    (fun i => !waiting.any (fun m => m.id == i))
  let started := (hit.filter (fun m => m.sent != 0 && !unacked.contains m.id)).length
  let bound := s.fabric.bindings.any (fun b => b.port == p.val && which b.dst)
  let s := s.setFabric fun f => { f with bindings := f.bindings.filter (fun b => !(b.port == p.val && which b.dst)) }
  let s := s.setPort p (fun y => { y with
    queue := y.queue.filter (fun m => !hit.any (fun h => h.id == m.id)),
    retry := if finish then y.retry else [] })
  let (s, dropped) := waiting.foldl (fun (a : State × Nat) m =>
    let (t, d) := a.1.moveMsg m
    (t, a.2 + if d then 1 else 0)) (s, started + unacked.length)
  if bound || !hit.isEmpty || dropped != 0 then
    (s.bumpBy (Od.linkMsgDropCount p.val) dropped).event (Od.linkMsgDropCount p.val) p.val dropped
  else s

/-- Enter a link state. -/
def State.enterLink (s : State) (p : Port) (st : LinkState) : State :=
  s.setPort p (fun x => { x with state := st, since := s.frame })

/-- The port leaves service other than for a fast retrain: the PTP port goes down, bindings move (R37, R319). -/
def State.leaveService (s : State) (p : Port) (st : LinkState) : State :=
  let s := s.enterLink p st
  let s := s.setPort p (fun x => { x with assembling := [], swaps := [], plan := none, retrying := false, replayed := none,
                                          replay := 0 })
  (s.portLost p).reroute p (fun _ => true) false

/-- Enter TRAINING, or FAILED after RETRAIN_LIMIT entries without reaching UP (R301). -/
def State.enterTraining (s : State) (p : Port) : State :=
  let s := s.leaveService p .training
  s.setPort p (fun x => { x with entries := x.entries + 1 })

/-- A trigger of RETRAINING has come: the port stops for a fast retrain. A planned retrain is dropped unless it is the
cause (Table 12-7). -/
def State.enterRetraining (s : State) (p : Port) (planned : Bool) : State :=
  let s := s.enterLink p .retraining
  s.setPort p (fun x => { x with planned := planned, plan := none, retrying := false, replayed := none })

/-! Flits (R307, R310, R312) -/

/-- Flits of a message (R308). -/
def TxMsg.flits (m : TxMsg) : Nat := ceilDiv m.bytes 244

/-- 16-bit serial comparison: `a` is at or before `b`. -/
def seq16Le (a b : Nat) : Bool := (b + 65536 - a % 65536) % 65536 < 32768

/-- Send the next flit of a VC's oldest message. -/
def PortState.sendFlit (p : PortState) (vc : Nat) : PortState :=
  match p.queue.find? (fun m => m.vc == vc) with
  | none => p
  | some m =>
    let last := m.sent + 1 == m.flits
    { p with
      queue := if last then p.queue.filter (fun x => x.id != m.id)
               else mapIf p.queue (fun x => x.id == m.id) (fun x => { x with sent := x.sent + 1 })
      retry := p.retry ++ [(p.txSeq, vc, m.id, last)]
      txSeq := (p.txSeq + 1) % 65536
      credits := vmod p.credits vc (fun n => n - 1) }

/-- Send n flits of a VC. -/
def PortState.sendFlits (p : PortState) (vc : Nat) : Nat → PortState
  | 0 => p
  | n + 1 => (p.sendFlit vc).sendFlits vc n

/-- Flits that wait on a VC. -/
def PortState.waitingFlits (p : PortState) (vc : Nat) : Nat :=
  (p.queue.filter (fun m => m.vc == vc)).foldl (fun n m => n + (m.flits - m.sent)) 0

/-- Credits held for a VC. -/
def PortState.credit (p : PortState) (vc : Nat) : Nat := p.credits.toList.getD vc 0

/-- Flits that may leave now on a VC, out of the slots left. -/
def PortState.sendable (p : PortState) (vc slots : Nat) : Nat :=
  min (min slots (p.waitingFlits vc)) (min (p.credit vc) (8192 - p.retry.length))

/-- A visit of the round robin to the VC whose turn it is, with the slots left (R315). A visit cut short for want of a slot,
or of room in the retry buffer, goes on at the next chance. -/
def PortState.visit (p : PortState) (weight slots : Nat) : PortState × Nat :=
  let vc := p.turn
  let d := p.deficit.toList.getD vc 0 + if p.visiting then 0 else weight * 256
  let n := min (p.sendable vc slots) (d / 256)
  let q := p.sendFlits vc n
  let left := d - 256 * n
  let cut := 256 ≤ left && q.waitingFlits vc != 0 && q.credit vc != 0
  let kept := if q.waitingFlits vc == 0 then 0 else if q.credit vc == 0 then min left (2 * weight * 256) else left
  ({ q with deficit := vmod q.deficit vc (fun _ => kept), visiting := cut, turn := if cut then vc else vc % 5 + 1 }, slots - n)

/-- Visits to VC1 to VC5 in turn while fuel lasts and anything can be sent; with the slots left. -/
def PortState.rounds (p : PortState) (weights : List Nat) (slots : Nat) : Nat → PortState × Nat
  | 0 => (p, slots)
  | k + 1 =>
    if (List.range 5).all (fun i => p.sendable (i + 1) slots == 0) then (p, slots)
    else
      let (p, slots) := p.visit (weights.getD (p.turn - 1) 1) slots
      p.rounds weights slots k

/-- Use flit slots: a replay first, then VC0, then the round robin unless the link layer idles on VC1 to VC5 (R310, R315,
R100). A VC left with a message ready and no credit stalls (R312). -/
def PortState.serve (p : PortState) (weights : List Nat) (idle : Bool) (slots : Nat) : PortState :=
  let again := min p.replay slots
  let n0 := p.sendable 0 (slots - again)
  let q := { p with replay := p.replay - again }.sendFlits 0 n0
  let fuel := 5 * (((List.range 5).map (fun i => q.waitingFlits (i + 1))).foldl (· + ·) 0 + 1)
  let (q, left) := if idle then (q, slots - again - n0) else q.rounds weights (slots - again - n0) fuel
  let stalled := (List.range 6).any (fun vc => q.waitingFlits vc != 0 && q.credit vc == 0)
  { q with used := p.used + (slots - left), stalled := p.stalled || stalled }

/-- Transmit on a port in the flit slots that `upTo` cycles of the frame give, 78,125 in a whole one (R297, R315). -/
def State.transmitPort (s : State) (p : Port) (upTo : Nat) : State :=
  let x := s.port p
  if x.state != .up || !s.opticsOn then s
  else
    let y := x.serve ((List.range 5).map (fun i => s.cfg (Od.vcWeight i))) (s.sched.power != .e0)
      (upTo * 78125 / 160000 - x.used)
    let sent := (y.txSeq + 65536 - x.txSeq) % 65536
    let s := s.setPort p (fun _ => y)
    if sent == 0 then s else (s.send (.flit p.val y.txSeq sent)).setSched fun c => { c with active := true }

/-- The ACK_SEQ and the credit return that every flit carries (Table 12-3); what waited for them is sent. -/
def State.takeAck (s : State) (p : Port) (hdr : BitVec 64) : State :=
  let ack := bitsOf hdr 35 20
  let vc := bitsOf hdr 46 44
  (s.setPort p (fun x =>
    { x with retry := x.retry.filter (fun r => !seq16Le r.1 ack),
             credits := vmod x.credits vc (fun n => n + bitsOf hdr 43 36) })).transmitPort p s.time.cycle

/-- A malformed flit or message on a port (R309). -/
def State.linkMalformed (s : State) (p : Port) : State := s.countEvent (Od.linkMalformedCount p.val) p.val

/-- PROTO allowed on a VC, with the Weld types of VC2 and VC3 (Table 12-6); `type` is the Weld TYPE byte. -/
def protoAllowed (vc proto type : Nat) : Bool :=
  match vc with
  | 0 => proto ≤ 1
  | 1 => proto == 2
  | 2 => proto == 3 && 1 ≤ type && type ≤ 0x30
  | 3 => proto == 3 && 0x50 ≤ type && type ≤ 0x53
  | 4 => proto == 4
  | 5 => proto == 5
  | _ => false

/-- The sender of a message is unreachable through this engine: DEST_UNREACH to the link partner, at most once per
destination in UNREACH_HOLD_FRAMES (R309). -/
def State.answerUnreach (s : State) (p : Port) (dst : Nat) : State :=
  let hold := s.cfg Od.unreachHoldFrames
  if (s.port p).answered.any (fun a => a.1 == dst && !s.lapsed a.2 hold) then s
  else
    let s := s.setPort p (fun x => { x with answered := (dst, s.frame) :: x.answered.filter (fun a => a.1 != dst) })
    s.offerPartner p 1 0 6 (beBytes 2 1 ++ beBytes 4 dst)

/-- A whole message has arrived on a VC: its checks, its stamp (R1), and its credits (R309, R312). Its content is handled by the row of its
own message type. A message of VC1 to VC5 is incoming signal, which ends E1 (R101, log entry 148). -/
def State.arrive (s : State) (p : Port) (vc : Nat) (msg : Bytes) : State :=
  let s := s.setPort p (fun x => { x with owed := vmod x.owed vc (fun n => n + ceilDiv msg.length 244) })
  let s := if vc == 0 then s else (s.setSched fun c => { c with active := true }).wakeUp
  let dst := beNat (msg.take 4)
  let bytes := beNat ((msg.drop 8).take 3)
  let proto := ((msg.getD 11 0).toNat) / 16
  if msg.length < 17 || bytes + 16 != msg.length || !protoAllowed vc proto (msg.getD 44 0).toNat then s.linkMalformed p
  else if dst == s.engineId || (vc == 0 && dst == 0) then s.setPort p (fun x => { x with stamp := some .partner })
  else (s.bump (Od.misroutedCount p.val)).answerUnreach p dst

/-- A flit is refused: RETRY_REQ is sent and repeated until its SEQ arrives (R310). -/
def State.refuseFlit (s : State) (p : Port) : State :=
  if (s.port p).retrying then s
  else (s.setPort p (fun x => { x with retrying := true })).send (.ctrl p.val 3 [(s.port p).rxSeq])

/-- Flits of a VC leave the receive buffer undelivered: their credits are owed (R312). -/
def State.oweFlits (s : State) (p : Port) (vc n : Nat) : State :=
  s.setPort p (fun x => { x with owed := vmod x.owed vc (fun k => k + n) })

/-- A malformed DATA flit: its whole message is dropped, what has come of it and what is to come (R309). -/
def State.dropFlit (s : State) (p : Port) (vc : Nat) (held : Bytes) (eom : Bool) : State :=
  ((s.setPort p (fun x => { x with
    assembling := if eom then assocErase x.assembling vc else assocSet x.assembling vc none })).oweFlits p vc
      (ceilDiv held.length 244 + 1)).linkMalformed p

/-- A DATA flit with the expected SEQ joins its message (R307 to R309). -/
def State.takeFlit (s : State) (p : Port) (hdr : BitVec 64) (payload : Bytes) : State :=
  let vc := bitsOf hdr 59 57
  let som := bitOf hdr 56
  let eom := bitOf hdr 55
  let n := bitsOf hdr 54 47
  let at_ := assoc (s.port p).assembling vc
  let held := at_.join
  if at_ == some none && !som then
    (s.setPort p (fun x => { x with assembling := if eom then assocErase x.assembling vc else x.assembling })).oweFlits p vc 1
  else if 5 < vc || n == 0 || 244 < n || (!eom && n != 244) || som == held.isSome || payload.length != 244 then
    s.dropFlit p vc (held.getD []) eom
  else
    let msg := held.getD [] ++ payload.take n
    if eom then (s.setPort p (fun x => { x with assembling := assocErase x.assembling vc })).arrive p vc msg
    else s.setPort p (fun x => { x with assembling := assocSet x.assembling vc (some msg) })

/-- DATA_FLIT (R310). -/
def execDataFlit (port : Port) (hdr : BitVec 64) (payload : Bytes) (crcOk fecOk : Bool) (s : State) : Out :=
  .next <|
    if (s.port port).state != .up || !s.opticsOn then s
    else if !fecOk then (s.bump (Od.fecUncorrectableCount port.val)).refuseFlit port
    else if !crcOk then (s.bump (Od.flitCrcErrCount port.val)).refuseFlit port
    else if bitsOf hdr 63 60 != 1 then s.linkMalformed port
    else if bitsOf hdr 19 4 != (s.port port).rxSeq then
      if (s.port port).retrying then s else (s.bump (Od.flitCrcErrCount port.val)).refuseFlit port
    else
      let s := s.setPort port (fun x => { x with rxSeq := (x.rxSeq + 1) % 65536, retrying := false })
      (s.takeAck port hdr).takeFlit port hdr payload

/-- IDLE_FLIT (R307, R310): a VC or a LAST_BYTES other than 0 is out of range in it (Table 12-3). -/
def execIdleFlit (port : Port) (hdr : BitVec 64) (crcOk fecOk : Bool) (s : State) : Out :=
  .next <|
    if (s.port port).state != .up || !s.opticsOn then s
    else if !fecOk then s.bump (Od.fecUncorrectableCount port.val)
    else if !crcOk then s.bump (Od.flitCrcErrCount port.val)
    else if bitsOf hdr 63 60 != 0 || bitsOf hdr 59 57 != 0 || bitsOf hdr 54 47 != 0 then s.linkMalformed port
    else s.takeAck port hdr

/-! Link states (Table 12-2) -/

/-- A LINK_ENABLE value takes effect (R301; no port trains while ENGINE_ID is 0, R390). -/
def State.linkEnableEffect (s : State) (v : Nat) : State :=
  (List.finRange 4).foldl (fun s p =>
    if v / 2 ^ p.val % 2 == 0 then
      if (s.port p).state == .disabled then s
      else (s.leaveService p .disabled).setPort p (fun x => { x with entries := 0 })
    else if (s.port p).state == .disabled && s.mainUp && s.engineId != 0 then
      (s.enterLink p .down).setPort p (fun x => { x with entries := 0, planned := true })
    else s) s

/-- LINK_ENABLE (R301): the write is accepted and takes effect at the next boundary. -/
def execLinkEnable (agent : Agent) (value : BitVec 8) (s : State) : Out :=
  .next (s.odRow agent Od.linkEnable.key [value] (acceptSetting Od.linkEnable.key value.toNat))

/-- SIGNAL_DETECT (R301). -/
def execSignalDetect (port : Port) (lanes : BitVec 4) (s : State) : Out :=
  .next <|
    if (s.port port).state == .down && 8 ≤ lanes.toNat && (s.port port).laser != 255 then
      if s.cfg Od.retrainLimit ≤ (s.port port).entries then s.enterLink port .failed
      else (s.enterLink port .training).setPort port (fun x => { x with entries := x.entries + 1 })
    else s

/-- Credits this engine advertises (R312). -/
def State.ownCredits (s : State) : List Nat := (List.range 6).map (fun k => s.cfg (Od.vcRxCredits k))

/-- INIT (R302): the other side's credits and ID are recorded, sequence numbers start at 0. -/
def execInit (port : Port) (version : BitVec 8) (engine : BitVec 32) (credits : Vector (BitVec 16) 6) (s : State) : Out :=
  .next <|
    let x := s.port port
    if x.state == .training || (x.state == .up && x.txSeq == 0 && x.retry.isEmpty) then
      if version != 1 then s.linkMalformed port
      else s.setPort port (fun x =>
        { x with partner := engine.toNat, credits := credits.map (·.toNat) })
    else s

/-- TRAINING_COMPLETE (R301, R302). A retired lane is never mapped (R299). A source's bias current at its first full training
is its reference (R300). -/
def execTrainingComplete (port : Port) (partner : BitVec 32) (lanes : TrainedLanes) (bias : Vector (BitVec 32) 2)
    (s : State) : Out :=
  .next <|
    let x := s.port port
    let tx := lanes.tx.toList.map (·.val)
    let rx := lanes.rx.toList.map (·.val)
    if x.state != .training || tx.any (fun l => x.txRetired.contains l) || rx.any (fun l => x.rxRetired.contains l) ||
        tx.eraseDups.length != 8 || rx.eraseDups.length != 8 then s
    else
      let s := s.enterLink port .up
      let s := s.setPort port (fun x =>
        { x with partner := partner.toNat, txMap := tx, rxMap := rx, entries := 0, txSeq := 0, rxSeq := 0, retry := [],
                 replayed := none, retrying := false, assembling := [], deficit := Vector.replicate 6 0, turn := 1,
                 visiting := false, replay := 0, farSpare := lanes.farSpare,
                 biasRef := x.biasRef.zipWith (fun old new => old.or (some new.toNat)) bias })
      let s := s.send (.ctrl port.val 1 ([1, s.engineId, port.val] ++ s.ownCredits))
      let s := s.bump (Od.fullRetrainCount port.val)
      if x.planned then s else s.scored (partId 11 port.val) 16

/-- TRAINING_TIMEOUT (R301): 8,000 frames without completion. -/
def execTrainingTimeout (port : Port) (s : State) : Out :=
  .next <|
    if (s.port port).state == .training && s.lapsed (s.port port).since 8000 then
      let s := s.bump (Od.fullRetrainCount port.val)
      if s.cfg Od.retrainLimit ≤ (s.port port).entries then s.enterLink port .failed else s.enterLink port .down
    else s

/-- A fault stops an UP port for a fast retrain; the lane that caused it is kept for the second time of R304. -/
def State.linkFault (s : State) (p : Port) (lane : Option (Dir × Nat)) : State :=
  let s := s.enterRetraining p false
  match lane with
  | some (d, l) => s.setPort p (fun x => { x with causes := x.causes ++ [(d, l, s.frame)] })
  | none => s

/-- LINK_FAULT (R301). -/
def execLinkFault (port : Port) (_cause : LinkFaultCause) (lane : Option (Dir × Fin 9)) (s : State) : Out :=
  .next <| if (s.port port).state == .up then s.linkFault port (lane.map (fun l => (l.1, l.2.val))) else s

/-! Lanes (R299, R304, R305) -/

/-- Lane map and retired lanes of a direction. -/
def PortState.map (x : PortState) (d : Dir) : List Nat := match d with | .tx => x.txMap | .rx => x.rxMap
def PortState.gone (x : PortState) (d : Dir) : List Nat := match d with | .tx => x.txRetired | .rx => x.rxRetired

/-- The spare lane of a direction: none with a link partner that supports none (R302). -/
def PortState.spare (x : PortState) (d : Dir) : Option Nat :=
  if !x.farSpare then none
  else (List.range 9).find? (fun l => !(x.map d).contains l && !(x.gone d).contains l)

/-- Code of a direction in an event: 0 transmit, 1 receive (Table 17-2). -/
def dirNum (d : Dir) : Nat := match d with | .tx => 0 | .rx => 1

/-- Move a lane's data onto the spare and retire the old lane (R304). -/
def State.swapLane (s : State) (p : Port) (d : Dir) (old new : Nat) : State :=
  let f (l : List Nat) : List Nat := l.map (fun x => if x == old then new else x)
  let s := s.setPort p (fun x => match d with
    | .tx => { x with txMap := f x.txMap, txRetired := x.txRetired ++ [old] }
    | .rx => { x with rxMap := f x.rxMap, rxRetired := x.rxRetired ++ [old] })
  let s := (s.bump (Od.laneSwapCount p.val)).retirePart (opticalLane p (d == .tx) old)
  s.event (Od.laneSwapCount p.val) (dirNum d) old

/-- A lane has caused a second fast retrain within FLAP_WINDOW_FRAMES (R304). -/
def State.repeatLane (s : State) (p : Port) (d : Dir) : Option Nat :=
  let x := s.port p
  let recent := x.causes.filter (fun c => c.1 == d && !s.lapsed c.2.2 (s.cfg Od.flapWindowFrames))
  (x.map d).find? (fun l => 2 ≤ (recent.filter (fun c => c.2.1 == l)).length)

/-- NO_SPARE is reported once per direction (R305). -/
def State.noSpareEvent (s : State) (p : Port) (d : Dir) (lane : Nat) : State :=
  if (s.port p).noSpare.contains d then s
  else (s.setPort p (fun x => { x with noSpare := x.noSpare ++ [d] })).event (Od.laneRetired p.val) (dirNum d) lane

/-- Swap a failed or repeating lane of a direction during a fast retrain: none when a failed lane finds no spare. -/
def State.retrainSwap (s : State) (p : Port) (d : Dir) (bad : Option (Fin 9)) : Option State :=
  match bad with
  | some l =>
    if !((s.port p).map d).contains l.val then some s
    else match (s.port p).spare d with
      | some n => some (s.swapLane p d l.val n)
      | none => none
  | none =>
    match s.repeatLane p d with
    | some l => match (s.port p).spare d with
      | some n => some (s.swapLane p d l n)
      | none => some (s.noSpareEvent p d l)
    | none => some s

/-- Send PLANNED_RETRAIN for the frame that follows the next full frame. -/
def State.planRetrain (s : State) (p : Port) (reason : Nat) : State :=
  (s.setPort p (fun x => { x with plan := some (reason, s.frame + 2) })).send
    (.ctrl p.val 6 [reason, (s.frame + 2) % 2 ^ 32])

/-- The other laser of a port, when it has not failed. -/
def PortState.otherLaser (x : PortState) : Option Nat :=
  let l := if x.laser == 0 then 1 else 0
  if x.laser == 255 || x.lasersBad.contains l then none else some l

/-- The active laser is at its limit and there is another: PLANNED_RETRAIN is sent, unless one is planned (R306). -/
def State.planLaser (s : State) (p : Port) : State :=
  let x := s.port p
  if x.state == .up && s.cfg Od.laserBiasLimitPct ≤ x.biasPct && x.otherLaser.isSome && x.plan.isNone then s.planRetrain p 1
  else s

/-- FAST_RETRAIN_DONE (R303): lanes that failed to lock are swapped, RESUME is sent and the port is UP with its sequence
numbers, retry buffer, credits and messages. A planned retrain that a fault displaced is sent again while its laser is still
at its limit (Table 12-7). -/
def execFastRetrainDone (port : Port) (badTx badRx : Option (Fin 9)) (s : State) : Out :=
  .next <|
    let x := s.port port
    if x.state != .retraining || s.lapsed x.since 4 then s
    else match s.retrainSwap port .tx badTx with
      | none => s.enterTraining port
      | some s => match s.retrainSwap port .rx badRx with
        | none => s.enterTraining port
        | some s =>
          let s := (s.enterLink port .up).setPort port (fun y => { y with entries := 0 })
          let s := s.bump (Od.fastRetrainCount port.val)
          let s := if x.planned then s else s.scored (partId 11 port.val) 4
          (s.send (.ctrl port.val 2 ((s.port port).rxSeq :: (s.port port).credits.toList))).planLaser port

/-- FAST_RETRAIN_TIMEOUT (R301): not complete at the end of the third whole frame after the frame of entry. -/
def execFastRetrainTimeout (port : Port) (s : State) : Out :=
  .next <|
    if (s.port port).state == .retraining && s.lapsed (s.port port).since 3 then s.enterTraining port else s

/-- Replay the retry buffer from a SEQ: what lies before it has been received (R303, R310). -/
def State.replayFrom (s : State) (p : Port) (seq : Nat) : State :=
  let s := s.setPort p (fun x => { x with retry := x.retry.filter (fun r => seq16Le seq r.1) })
  match (s.port p).retry with
  | [] => s
  | l => (s.setPort p (fun x => { x with replay := l.length })).send (.flit p.val seq l.length)

/-- RESUME (R303). -/
def execResume (port : Port) (seq : BitVec 16) (_credits : Vector (BitVec 16) 6) (s : State) : Out :=
  .next <|
    if (s.port port).state == .up || (s.port port).state == .retraining then s.replayFrom port seq.toNat else s

/-- RETRY_REQ (R310, R311): the flits from that SEQ are replayed; the same SEQ LINK_RETRY_LIMIT times in a row stops the
port. -/
def execRetryReq (port : Port) (seq : BitVec 16) (s : State) : Out :=
  .next <|
    let x := s.port port
    if x.state != .up || !x.retry.any (fun r => r.1 == seq.toNat) then s
    else
      let n := match x.replayed with
        | some (q, k) => if q == seq.toNat then k + 1 else 1
        | none => 1
      let s := s.setPort port (fun y => { y with replayed := some (seq.toNat, n) })
      let s := (s.replayFrom port seq.toNat).bump (Od.linkRetryCount port.val)
      if s.cfg Od.linkRetryLimit ≤ n then s.linkFault port none else s

/-- RETRY_REQ_REPEAT (R310). -/
def execRetryReqRepeat (port : Port) (s : State) : Out :=
  .next <|
    if (s.port port).state == .up && (s.port port).retrying then s.send (.ctrl port.val 3 [(s.port port).rxSeq]) else s

/-- SWAP_REQ (R304): the far receiver asks to vacate a transmit lane; answered with the switch point of 8,192 codewords. A
request repeated is answered again. -/
def execSwapReq (port : Port) (number : BitVec 16) (lane : BitVec 8) (s : State) : Out :=
  .next <|
    let x := s.port port
    if x.state != .up then s
    else if x.swaps.any (fun w => !w.asked && w.number == number.toNat) then
      s.send (.ctrl port.val 5 [number.toNat, 8192])
    else if x.txMap.contains lane.toNat && (x.spare .tx).isSome && !x.swaps.any (fun w => !w.asked) then
      (s.setPort port (fun y => { y with swaps := y.swaps ++
        [{ number := number.toNat, lane := lane.toNat, asked := false, point := some 8192, frame := s.frame }] })).send
        (.ctrl port.val 5 [number.toNat, 8192])
    else s

/-- SWAP_ACK (R304). -/
def execSwapAck (port : Port) (number : BitVec 16) (point : BitVec 32) (s : State) : Out :=
  .next <|
    if (s.port port).state == .up then
      let mark (w : LiveSwap) : LiveSwap :=
        if w.asked && w.number == number.toNat then { w with point := some point.toNat } else w
      s.setPort port (fun x => { x with swaps := x.swaps.map mark })
    else s

/-- SWAP_REQ_REPEAT (R304): a SWAP_REQ with no SWAP_ACK is sent again. -/
def execSwapReqRepeat (port : Port) (s : State) : Out :=
  .next <|
    if (s.port port).state == .up then
      ((s.port port).swaps.filter (fun w => w.asked && w.point.isNone)).foldl
        (fun s w => s.send (.ctrl port.val 4 [w.number, w.lane])) s
    else s

/-- LANE_SWAP_POINT (R304): the switch point of the swap under way in a direction. -/
def execLaneSwapPoint (port : Port) (dir : Dir) (s : State) : Out :=
  .next <|
    let x := s.port port
    if x.state != .up then s
    else match x.swaps.find? (fun w => w.asked == (dir == .rx) && w.point.isSome), x.spare dir with
      | some w, some n =>
        (s.setPort port (fun y => { y with swaps := y.swaps.filter (fun v => !(v.number == w.number && v.asked == w.asked)) })).swapLane port dir w.lane n
      | _, _ => s

/-- One receive lane of a window of 100 frames (R304, R305). -/
def State.laneWindow (s : State) (p : Port) (lane symbols : Nat) : State :=
  let s := s.setPort p (fun x => { x with laneCe := assocSet x.laneCe lane ((assoc x.laneCe lane).getD 0 + symbols) })
  if !(s.port p).rxMap.contains lane then s
  else if symbols ≤ s.cfg Od.laneCeLimit then
    s.setPort p (fun x => { x with ceRuns := assocErase x.ceRuns lane })
  else
    let window := s.cfg Od.flapWindowFrames
    let now := s.frame
    let s := s.setPort p (fun x => { x with
      ceRuns := assocSet x.ceRuns lane ((assoc x.ceRuns lane).getD 0 + 1),
      flaps := (lane, now) :: x.flaps.filter (fun f => now < f.2 + window) })
    let s := (s.bump (Od.flapEventCount p.val)).scored (opticalLane p false lane) 1
    let x := s.port p
    let due := 3 ≤ (assoc x.ceRuns lane).getD 0 ||
      s.cfg Od.flapLimit ≤ (x.flaps.filter (fun f => f.1 == lane)).length
    if !due || x.swaps.any (fun w => w.asked) then s
    else match x.spare .rx with
      | none => s.noSpareEvent p .rx lane
      | some _ =>
        let w : LiveSwap := { number := x.swapNo, lane := lane, asked := true, point := none, frame := now }
        (s.setPort p (fun y => { y with swaps := y.swaps ++ [w], swapNo := (y.swapNo + 1) % 65536 })).send
          (.ctrl p.val 4 [w.number, lane])

/-- LANE_CE_WINDOW (R304). -/
def execLaneCeWindow (port : Port) (symbols : Vector (BitVec 32) 9) (s : State) : Out :=
  .next <|
    if (s.port port).state == .up then
      (List.finRange 9).foldl (fun s l => s.laneWindow port l.val (symbols[l]).toNat) s
    else s

/-! Planned retrains and lasers (R306, R457) -/

/-- PLANNED_RETRAIN (R306): received from the link partner. -/
def execPlannedRetrain (port : Port) (reason : BitVec 8) (frameNo : BitVec 32) (s : State) : Out :=
  .next <|
    if (s.port port).state == .up then
      s.setPort port (fun x => { x with plan := some (reason.toNat, s.extend frameNo.toNat) })
    else s

/-- Switch to the other laser (R306). -/
def State.switchLaser (s : State) (p : Port) (l : Nat) : State :=
  (s.setPort p (fun x => { x with laser := l, biasPct := 100 })).countEvent (Od.laserSwitchCount p.val) p.val l

/-- PLANNED_RETRAIN_START (R306, R457): at the planned frame both ends retrain; a laser at its limit is switched. -/
def execPlannedRetrainStart (port : Port) (s : State) : Out :=
  .next <| match (s.port port).plan with
    | some (reason, f) =>
      if (s.port port).state == .up && f ≤ s.frame then
        let x := s.port port
        let s := s.enterRetraining port true
        if reason == 1 && (s.cfg Od.laserBiasLimitPct ≤ x.biasPct || x.lasersBad.contains x.laser) then
          match x.otherLaser with
          | some l => s.switchLaser port l
          | none => s
        else s
      else s
    | none => s

/-- LASER_FAIL (R306). Live swaps are abandoned (Table 12-7). -/
def execLaserFail (port : Port) (s : State) : Out :=
  .next <|
    let x := s.port port
    if (x.state == .up || x.state == .retraining || x.state == .training) && x.laser != 255 then
      let other := x.otherLaser
      let s := s.setPort port (fun y => { y with lasersBad := addOnce y.lasersBad x.laser, swaps := [] })
      let s := s.retirePart (partId 10 (2 * port.val + x.laser))
      match other with
      | some l =>
        let s := s.switchLaser port l
        if x.state == .up then s.enterRetraining port false else s
      | none =>
        ((s.leaveService port .down).setPort port (fun y => { y with laser := 255 })).event (Od.laserActive port.val)
          port.val x.laser
    else s

/-- A bias current in percent of the active source's reference, in the 8 bits of LASER_BIAS_PCT (R300, R306). -/
def PortState.percent (x : PortState) (bias : Nat) : Nat :=
  match (x.biasRef.toList.getD x.laser none) with
  | some ref => min 255 (100 * bias / max 1 ref)
  | none => 100

/-- LASER_BIAS_LIMIT (R306). -/
def execLaserBiasLimit (port : Port) (bias : BitVec 32) (s : State) : Out :=
  .next ((s.setPort port (fun x => { x with biasPct := x.percent bias.toNat })).planLaser port)

/-- RECALIBRATE_PORT (R457): a planned retrain of a port that is UP. -/
def State.recalibrate (s : State) (v : Nat) : Nat × State :=
  if (s.port (portOf v)).state == .up then (0, s.planRetrain (portOf v) 2) else (abBusy, s)

/-- RECALIBRATE_PORT (R457). -/
def execRecalibratePort (agent : Agent) (value : BitVec 8) (s : State) : Out :=
  .next (s.odRow agent Od.recalibratePort.key [value] fun s => s.recalibrate value.toNat)

/-- LANE_MAP_RESET takes effect: the maps return to identity and no lane is retired (R299). -/
def State.laneMapResetEffect (s : State) (p : Port) : State :=
  let s := if s.odGet (Od.laneMapReset p.val) == 1 && (s.port p).state == .disabled then
      s.setPort p (fun x => { x with txMap := List.range 8, rxMap := List.range 8, txRetired := [], rxRetired := [],
                                     noSpare := [] })
    else s
  s.odSet (Od.laneMapReset p.val) 0

/-- LANE_MAP_RESET (R299): accepted only while the port is DISABLED. -/
def execLaneMapReset (agent : Agent) (port : Port) (value : BitVec 8) (s : State) : Out :=
  .next (s.odRow agent (Od.laneMapReset port.val).key [value] (acceptSetting (Od.laneMapReset port.val).key value.toNat))

/-! Reachability (R317, R318) -/

/-- UNREACH_HOLD_EXPIRY (R318). -/
def execUnreachHoldExpiry (port : Port) (engine : BitVec 32) (s : State) : Out :=
  .next <|
    s.setPort port (fun x => { x with
      unreach := x.unreach.filter (fun u => !(u.1 == engine.toNat && s.lapsed u.2 (s.cfg Od.unreachHoldFrames))) })

/-- BINDING_IDLE (R317). -/
def execBindingIdle (engine : BitVec 32) (vc : Fin 6) (s : State) : Out :=
  .next <|
    s.setFabric fun x => { x with bindings := x.bindings.filter (fun b =>
      !(b.dst == engine.toNat && b.vc == vc.val && s.lapsed b.last (s.cfg Od.bindingIdleFrames) &&
        !(s.port (portOf b.port)).queue.any (fun m => m.dst == b.dst && m.vc == b.vc))) }

/-- MGMT_MESSAGE (R313): the opaque bytes go to the Docent firmware. -/
def execMgmtMessage (port : Port) (source : BitVec 32) (payload : Bytes) (s : State) : Out :=
  .next <|
    if (s.port port).state == .up then
      (s.send (.mgmt .partner source.toNat payload)).setSched fun c => { c with active := true }
    else s

end Sys2Proof.Machine
end

