-- ==== Sys2Proof/Machine/Memio.lean ====
section
/-!
DEFINITION. Reads and writes of Holding bytes for work that is not a lane slice, and the handling of a translation fault
(R55, R57, R62, R65).
-/
namespace Sys2Proof.Machine

/-- Carrier address of packed byte k of a Holding, when its extent is valid, and the extent (R62, R63). -/
def Holding.packedAddr (h : Holding) (k : Nat) : Option Nat × Nat :=
  let w := max 1 h.width
  let (a, e) := h.addrOf (k / w)
  (a.map (fun x => x + k % w), e)

/-- The extents of a range of packed bytes, element by element, without repeats. -/
def Holding.extentsOf (h : Holding) (off n : Nat) : List Nat :=
  let w := max 1 h.width
  ((List.range (ceilDiv n w)).map (fun i => (h.addrOf (off / w + i)).2)).eraseDups

/-- Carrier addresses of a range of packed bytes whose extents are valid. -/
def Holding.addrs (h : Holding) (off n : Nat) : List Nat :=
  (List.range n).filterMap (fun i => (h.packedAddr (off + i)).1)

/-- Group cells by 64-byte granule. -/
def groupCells : List (Nat × Byte) → List (Nat × List (Nat × Byte))
  | [] => []
  | c :: cs =>
    match groupCells cs with
    | [] => [(c.1 / 64 * 64, [c])]
    | (g, l) :: gs => if c.1 / 64 * 64 == g then (g, c :: l) :: gs else (c.1 / 64 * 64, [c]) :: (g, l) :: gs

/-- The extent is marked pending (R65). -/
def State.extentPending (s : State) (hid e : Nat) : Bool :=
  s.carrier.pendingExt.any (fun p => p.holding == hid && p.extent == e)

/-- An access returned XLAT_FAULT, or met an extent that is not valid: counted, the extent marked pending, reported (R65).
The roll-back is the caller's. -/
def State.xlatFault (s : State) (hid e : Nat) : State :=
  let s := s.bump Od.xlatFaultCount
  let s := if s.extentPending hid e then s
    else
      let x : PendingExtent := { holding := hid, extent := e, frame := s.frame, reported := false }
      s.setCarrier fun c => { c with pendingExt := c.pendingExt ++ [x] }
  s.event Od.xlatFaultCount hid e

/-- The first extent of a range that blocks it: pending, or not valid. -/
def State.blockedExtent (s : State) (h : Holding) (off n : Nat) : Option Nat :=
  (h.extentsOf off n).find? (fun e => s.extentPending h.id e || !bitOf (h.entry e) 0)

/-- Before a transfer: an extent that is not valid is a translation fault (R64, R65). Answers whether the transfer may
issue its accesses. -/
def State.openRange (s : State) (h : Holding) (off n : Nat) : State × Bool :=
  match s.blockedExtent h off n with
  | none => (s, true)
  | some e => if s.extentPending h.id e then (s, false) else (s.xlatFault h.id e, false)

/-- The outstanding requests of an owner: they stay until they complete or time out, and nothing follows. -/
def State.orphanReqs (s : State) (p : ReqOwner → Bool) : State :=
  s.setCarrier fun c => { c with reqs := mapIf c.reqs (fun r => p r.owner) (fun r => { r with owner := .orphan }) }

/-- The requests and held writes of a transfer whose work ends. -/
def State.dropReqs (s : State) (p : ReqOwner → Bool) : State :=
  (s.orphanReqs p).setCarrier fun c => { c with writes := c.writes.filter (fun w => !p w.owner) }

/-! Reads that meet pending writes (R94) -/

/-- How a granule stands to a read: none, the bytes of a write of committed work that covers it and is not yet accepted, or a
wait for what an uncommitted slice has written. -/
def State.granuleState (s : State) (g : Nat) : Option (Option (List (Nat × Byte))) :=
  if s.carrier.dirty.any (fun d => d.lo ≤ g && g < d.hi) then some none
  else match s.carrier.reqs.find? (fun r => r.kind == .write && r.addr ≤ g && g < r.addr + 64 * r.len) with
    | none => none
    | some r =>
      let l := r.cells.filter (fun c => g ≤ c.1 && c.1 < g + 64)
      if r.owner == .orphan || l.length != 64 then some none else some (some l)

/-- A read of these granules must wait. -/
def State.readWaits (s : State) (gs : List Nat) : Bool := gs.any (fun g => s.granuleState g == some none)

/-- A slice writes [lo, hi): next to what it has written, or apart from it. -/
def dirtyWrite (l : List Dirty) (key lo hi : Nat) : List Dirty :=
  let next (d : Dirty) : Bool := d.key == key && d.open_ && d.hi == lo
  if l.any (fun d => d.key == key && d.open_ && d.lo ≤ lo && hi ≤ d.hi) then l
  else if l.any next then mapIf l next (fun d => { d with hi := hi })
  else l ++ [{ key := key, lo := lo, hi := hi, open_ := true }]

/-- What an entry keeps outside [lo, hi). -/
def Dirty.outside (d : Dirty) (lo hi : Nat) : List Dirty :=
  ([{ d with hi := min d.hi lo }, { d with lo := max d.lo hi }] : List Dirty).filter (fun x => x.lo < x.hi)

/-- The slice of a key commits: what it has written is settled, also where a slice before it had been rolled back. -/
def dirtyCommit (l : List Dirty) (key : Nat) : List Dirty :=
  let mine := l.filter (fun d => d.key == key && d.open_)
  (l.filter (fun d => !(d.key == key && d.open_))).flatMap (fun d =>
    if d.key != key then [d] else mine.foldl (fun (xs : List Dirty) m => xs.flatMap (fun x => x.outside m.lo m.hi)) [d])

/-- Change what uncommitted slices have written. -/
def State.setDirty (s : State) (f : List Dirty → List Dirty) : State := s.setCarrier fun c => { c with dirty := f c.dirty }

/-- The slice of a key rolls back: a read waits for the slice that is tried again. -/
def State.dirtyKept (s : State) (key : Nat) : State :=
  s.setDirty fun l => mapIf l (fun d => d.key == key) (fun d => { d with open_ := false })

/-- Bytes of a read that is no slice's come into its buffer. -/
def State.fillTask (s : State) (task : Nat) (cells : List (Nat × Byte)) : State :=
  s.setUpdate fun u =>
    { u with streams := mapIf u.streams (fun b => b.task == task) (fun b =>
        { b with cells := b.cells ++ cells, waiting := b.waiting - 1 }) }

/-- Read a granule into the buffer of a task: from the outbound buffer where it is there. -/
def State.readGranule (s : State) (owner : ReqOwner) (task g : Nat) (extent : Option (Nat × Nat)) (secure : Bool) : State :=
  match s.granuleState g with
  | some (some l) => (s.fillTask task l).bump Od.outboundHitCount
  | _ => s.mrd owner g 1 extent secure

/-- The granules of a range of packed bytes. -/
def Holding.granules (h : Holding) (off n : Nat) : List Nat :=
  (groupCells ((h.addrs off n).map (fun a => (a, (0 : Byte))))).map (·.1)

/-- Issue the reads of a range of packed bytes. -/
def State.readRange (s : State) (owner : ReqOwner) (task : Nat) (h : Holding) (off n : Nat) : State :=
  (h.granules off n).foldl (fun s g =>
    let e := (h.extentsOf off n).find? (fun e => bitsOf (h.entry e) 63 21 == g / 2 ^ 21)
    s.readGranule owner task g (e.map (fun e => (h.id, e))) (s.holdingSecure h)) s

/-- Issue the writes of bytes at a range of packed bytes. -/
def State.issueWrites (s : State) (owner : ReqOwner) (h : Holding) (off : Nat) (bs : Bytes) : State :=
  (groupCells ((h.addrs off bs.length).zip bs)).foldl (fun s g =>
    let e := (h.extentsOf off bs.length).find? (fun e => bitsOf (h.entry e) 63 21 == g.1 / 2 ^ 21)
    s.mwr owner g.1 1 g.2 (e.map (fun e => (h.id, e))) (s.holdingSecure h)) s

/-- Write bytes at a range of packed bytes, held until carrier memory has accepted them. They start at a boundary when a
write to one of their granules is outstanding (R55). -/
def State.writeRange (s : State) (owner : ReqOwner) (h : Holding) (off : Nat) (bs : Bytes) : State :=
  if bs.isEmpty then s
  else
  let busy := (h.addrs off bs.length).any s.granuleBusy
  let w : WriteXfer := { owner := owner, holding := h.id, off := off, bytes := bs, restart := busy }
  let s := s.setCarrier fun c => { c with writes := c.writes ++ [w] }
  if busy then s else s.issueWrites owner h off bs

/-- Write bytes at a range of packed bytes under the grant of a later boundary (R15). -/
def State.holdRange (s : State) (owner : ReqOwner) (h : Holding) (off : Nat) (bs : Bytes) : State :=
  if bs.isEmpty then s
  else s.setCarrier fun c =>
    { c with writes := c.writes ++ [{ owner := owner, holding := h.id, off := off, bytes := bs, restart := true }] }

/-- The read of a task: its bytes gather in a buffer. A blocked extent, or a granule that an uncommitted slice has written
(R94), leaves the read waiting for a later boundary. -/
def State.startRead (s : State) (owner : ReqOwner) (task : Nat) (h : Holding) (off n : Nat) : State :=
  let (s, go) := s.openRange h off n
  let gs := h.granules off n
  let buf : StreamBuf := { task := task, holding := h.id, leaf := off, waiting := max 1 gs.length, cells := [], len := n }
  let rest := s.update.streams.filter (fun b => !(b.task == task && b.holding == h.id && b.leaf == off))
  let s := s.setUpdate fun u => { u with streams := rest ++ [buf] }
  if go && !s.readWaits gs then s.readRange owner task h off n else s

/-! Units of a frame (R15, R16, R70, R99) -/

/-- Every unit of a demand is there. -/
def Units.covers (u d : Units) : Bool :=
  d.read ≤ u.read && d.write ≤ u.write && d.galRead ≤ u.galRead && d.galWrite ≤ u.galWrite && d.enc ≤ u.enc &&
  d.dec ≤ u.dec && d.cipher ≤ u.cipher && d.array ≤ u.array && d.lanes ≤ u.lanes && d.own ≤ u.own

/-- Apply an operation to each unit. -/
def Units.each (f : Nat → Nat → Nat) (u d : Units) : Units :=
  { read := f u.read d.read, write := f u.write d.write, galRead := f u.galRead d.galRead, galWrite := f u.galWrite d.galWrite,
    enc := f u.enc d.enc, dec := f u.dec d.dec, cipher := f u.cipher d.cipher, array := f u.array d.array,
    lanes := f u.lanes d.lanes, own := f u.own d.own }

/-- What a demand leaves. -/
def Units.less (u d : Units) : Units := u.each (· - ·) d

/-- The part of a demand that is there. -/
def Units.most (u d : Units) : Units := u.each min d

/-- Two demands together. -/
def Units.plus (u d : Units) : Units := u.each (· + ·) d

/-- The sum of demands. -/
def Units.sum (l : List Units) : Units := l.foldl Units.plus {}

/-- Take the units of a piece of work of a rank: out of its grant of the frame, or out of what the frame's grants leave.
Urgent work has its grant alone (R16, R99); ranks 6 to 8 stay within their part of the share (R70). None when the units are
not there (log entry 68). -/
def State.takeUnits (s : State) (w : Work) (rank : Nat) (d : Units) : Option State :=
  let c := s.carrier
  if c.grants.any (fun g => g.work == w && g.units.covers d) then
    some (s.setCarrier fun c => { c with grants := mapIf c.grants (fun g => g.work == w) (fun g => { g with units := g.units.less d }) })
  else if rank ≤ 3 || !c.left.covers d || (6 ≤ rank && (c.bulkRead < d.read || c.bulkWrite < d.write)) then none
  else
    let cut (n m : Nat) : Nat := if 6 ≤ rank then n - m else n
    some (s.setCarrier fun c =>
      { c with left := c.left.less d, bulkRead := cut c.bulkRead d.read, bulkWrite := cut c.bulkWrite d.write })

/-- The units that a piece of work may take now: its grant, or what the frame has left for its rank. -/
def State.unitsFor (s : State) (w : Work) (rank : Nat) : Units :=
  let c := s.carrier
  match c.grants.find? (fun g => g.work == w) with
  | some g => g.units
  | none =>
    if rank ≤ 3 then {}
    else if 6 ≤ rank then { c.left with read := min c.left.read c.bulkRead, write := min c.left.write c.bulkWrite }
    else c.left

/-- The buffer of a task's read. -/
def State.taskBuf (s : State) (task : Nat) : Option StreamBuf := s.update.streams.find? (fun b => b.task == task)

/-- The bytes of a finished read of a task. -/
def State.bufBytes (s : State) (b : StreamBuf) : Bytes :=
  match s.holding? b.holding with
  | some h => (h.addrs b.leaf b.len).map (fun a => (assoc b.cells a).getD 0)
  | none => []

/-- Free a task's buffers. -/
def State.freeBufs (s : State) (task : Nat) : State :=
  s.setUpdate fun u => { u with streams := u.streams.filter (fun b => b.task != task) }

/-- A request of an owner is outstanding, or a write of it is to start again. -/
def State.reqOut (s : State) (p : ReqOwner → Bool) : Bool :=
  s.carrier.reqs.any (fun r => p r.owner) || s.carrier.writes.any (fun w => w.restart && p w.owner)

/-- A Holding read or write of a task that ends: its buffers and requests go with it. -/
def State.endIo (s : State) (task : Nat) : State :=
  (s.freeBufs task).dropReqs fun o => match o with
    | .taskRead t => t == task
    | .taskWrite t => t == task
    | .memberTable t => t == task
    | .extentTable t => t == task
    | .sliceRead t _ _ => t == task
    | .sliceWrite t => t == task
    | _ => false

end Sys2Proof.Machine
end

