-- ==== Sys2Proof/Machine/Cipher.lean ====
section
/-!
DEFINITION. The key store, key tasks, usage limits, cipher pairs, the agent pages' cipher and digest halves, and the key
store's alarm (R323 to R356, R464).
-/
namespace Sys2Proof.Machine

/-- "IG8 root" in ASCII (Table 13-1). -/
def labelRoot : Bytes := [0x49, 0x47, 0x38, 0x20, 0x72, 0x6F, 0x6F, 0x74]
/-- "IG8 store" in ASCII (Table 13-1). -/
def labelStore : Bytes := [0x49, 0x47, 0x38, 0x20, 0x73, 0x74, 0x6F, 0x72, 0x65]
/-- "IG8 field transport" in ASCII (Table 13-1). -/
def labelTransport : Bytes := [0x49, 0x47, 0x38, 0x20, 0x66, 0x69, 0x65, 0x6C, 0x64, 0x20, 0x74, 0x72, 0x61, 0x6E, 0x73, 0x70, 0x6F, 0x72, 0x74]
/-- "IG8 state export" in ASCII (Table 13-1). -/
def labelExport : Bytes := [0x49, 0x47, 0x38, 0x20, 0x73, 0x74, 0x61, 0x74, 0x65, 0x20, 0x65, 0x78, 0x70, 0x6F, 0x72, 0x74]
/-- "IG8 vault session" in ASCII (Table 13-1). -/
def labelVaultSession : Bytes := [0x49, 0x47, 0x38, 0x20, 0x76, 0x61, 0x75, 0x6C, 0x74, 0x20, 0x73, 0x65, 0x73, 0x73, 0x69, 0x6F, 0x6E]
/-- "IG8 weld pair" in ASCII (Table 13-1). -/
def labelWeldPair : Bytes := [0x49, 0x47, 0x38, 0x20, 0x77, 0x65, 0x6C, 0x64, 0x20, 0x70, 0x61, 0x69, 0x72]
/-- "IG8 weld session" in ASCII (Table 13-1). -/
def labelWeldSession : Bytes := [0x49, 0x47, 0x38, 0x20, 0x77, 0x65, 0x6C, 0x64, 0x20, 0x73, 0x65, 0x73, 0x73, 0x69, 0x6F, 0x6E]
/-- "IG8 restore" in ASCII (Table 13-1). -/
def labelRestore : Bytes := [0x49, 0x47, 0x38, 0x20, 0x72, 0x65, 0x73, 0x74, 0x6F, 0x72, 0x65]
/-- "IG8 group" in ASCII (Table 13-1). -/
def labelGroup : Bytes := [0x49, 0x47, 0x38, 0x20, 0x67, 0x72, 0x6F, 0x75, 0x70]
/-- "IG8 accession" in ASCII (Table 13-1). -/
def labelAccession : Bytes := [0x49, 0x47, 0x38, 0x20, 0x61, 0x63, 0x63, 0x65, 0x73, 0x73, 0x69, 0x6F, 0x6E]
/-- "IG8 ledger" in ASCII (Table 13-1). -/
def labelLedger : Bytes := [0x49, 0x47, 0x38, 0x20, 0x6C, 0x65, 0x64, 0x67, 0x65, 0x72]
/-- "IG8 generation" in ASCII (Table 13-1). -/
def labelGeneration : Bytes := [0x49, 0x47, 0x38, 0x20, 0x67, 0x65, 0x6E, 0x65, 0x72, 0x61, 0x74, 0x69, 0x6F, 0x6E]

/-! Slots (R326, R328) -/

/-- A key slot. -/
def State.slot (s : State) (i : Nat) : KeySlot := s.sec.slots.toList.getD i {}

/-- Slots with battery copies. -/
def slotKept (i : Nat) : Bool := i == 1 || i == 2 || i == 3 || i == 7

/-- Put a record into a slot; the kept slots go to copy A and then to copy B (R328). -/
def State.putSlot (s : State) (i : Nat) (k : KeySlot) : State :=
  s.setSec fun x =>
    let put (l : List (Nat × KeySlot)) : List (Nat × KeySlot) :=
      if !slotKept i then l else if k.state == .empty then assocErase l i else assocSet l i k
    { x with slots := vmod x.slots i (fun _ => k), copyA := put x.copyA, copyB := put x.copyB }

/-- Whether OPS grants bit n. -/
def opsHas (ops n : Nat) : Bool := ops / 2 ^ n % 2 == 1

/-- Every bit of a is a bit of b. -/
def bitsWithin (a b : Nat) : Bool := a &&& b == a

/-- Load a slot: a load that grants ENCRYPT takes the next IV_EPOCH (R334), or DECRYPT only once IV_EPOCH is exhausted
(R464); the usage limit is the setting's at the load (R336). -/
def State.loadSlot (s : State) (i : Nat) (k : KeySlot) : State :=
  let k := { k with state := .loaded, usage := 0, ivEpoch := 0, limitM1 := s.cfg Od.usageLimit - 1, newLoad := none,
                    dying := false, lastUse := s.sec.uses }
  if !opsHas k.ops 0 then s.putSlot i k
  else
    let e := s.odGet Od.ivEpoch
    if 0xFFFFFFFF ≤ e then
      let s := s.bump Od.exhaustedCount
      (s.putSlot i { k with ops := k.ops - 1 }).event Od.ivEpoch i
    else
      let s := s.odSetP Od.ivEpoch (e + 1)
      let s := if e + 1 == 0xFF000001 then s.event Od.ivEpoch (e + 1) else s
      let s := if e + 1 == 0xFFFFFFFF then s.setService fun v => { v with newWrap := false, newRoll := false } else s
      s.putSlot i { k with ivEpoch := e + 1 }

/-- KEY_ID of a derived key: SHA3-256[63:0] of the parent's KEY_ID, the label and the context (Table 13-3). -/
def derivedId (parent : KeySlot) (label ctx : Bytes) : Nat := Config.sha3 (beBytes 8 parent.keyId ++ label ++ ctx) % 2 ^ 64

/-- KEY_ID of an unwrapped key: of the KEK's KEY_ID and the blob. -/
def unwrappedId (kek : KeySlot) (blob : Bytes) : Nat := Config.sha3 (beBytes 8 kek.keyId ++ blob) % 2 ^ 64

/-- ROOT: derived from the device-unique key with the engine ID as context (R323), and STORE from it (Table 13-1). -/
def State.deriveRoot (s : State) : State :=
  let ctx := beBytes 4 s.engineId
  let root : KeySlot := { state := .loaded, key := Config.kdf (Config.deviceKey s.helperData) labelRoot ctx,
                          keyId := Config.sha3 (labelRoot ++ ctx) % 2 ^ 64, ops := 8, purpose := 1 }
  let store : KeySlot := { state := .loaded, key := Config.kdf root.key labelStore ctx, keyId := derivedId root labelStore ctx,
                           ops := 0x10, parent := 0, purpose := 5 }
  (s.putSlot 0 root).putSlot 4 store

/-- FIELD_TRANSPORT follows FIELD_AUTH (Table 13-1). -/
def State.deriveTransport (s : State) : State :=
  let p := s.slot 3
  if p.state == .empty then s.putSlot 5 {}
  else
    let ctx := beBytes 4 s.engineId
    s.putSlot 5 { state := .loaded, key := Config.kdf p.key labelTransport ctx, keyId := derivedId p labelTransport ctx,
                  ops := 0x10, parent := 3, purpose := 6 }

/-! Engine-derived keys and their use (R325, R334, R336) -/

/-- Note a use of a slot. -/
def State.touchSlot (s : State) (i : Nat) : State :=
  s.setSec fun x => { x with uses := x.uses + 1, slots := vmod x.slots i (fun k => { k with lastUse := x.uses + 1 }) }

/-- The pool slot that encrypts with a derived key now. -/
def State.poolFind (s : State) (purpose id : Nat) : Option Nat :=
  (List.range 40).findSome? fun n =>
    let i := n + 8
    let k := s.slot i
    if k.state == .loaded && k.purpose == purpose && k.keyId == id && opsHas k.ops 0 &&
        !(List.range 40).any (fun m => (s.slot (m + 8)).newLoad.any (fun l => l.1 == i)) then some i else none

/-- The load under which the next message of a pool slot goes: its own, or the new load that the message waits for once no
count is left (R336, log entry 159). -/
def State.loadOf (s : State) (i : Nat) : Nat :=
  let k := s.slot i
  if k.limitM1 < k.usage then (k.newLoad.map (·.1)).getD i else i

/-- A pool slot for a new load: the first empty one, else the least recently used (R328). -/
def State.poolFree (s : State) : Nat :=
  match (List.range 40).find? (fun n => (s.slot (n + 8)).state == .empty) with
  | some n => n + 8
  | none => (List.range 40).foldl (fun b n => if (s.slot (n + 8)).lastUse < (s.slot b).lastUse then n + 8 else b) 8

/-- Derive a key of Table 13-1 into the pool when it is not there; answers its slot when the parent holds a key. -/
def State.poolKey (s : State) (purpose parent : Nat) (label ctx : Bytes) : Option Nat × State :=
  let p := s.slot parent
  if s.alarmed || p.state == .empty then (none, s)
  else
    let id := derivedId p label ctx
    match s.poolFind purpose id with
    | some i => (some (s.loadOf i), s.touchSlot (s.loadOf i))
    | none =>
      let i := s.poolFree
      let k : KeySlot := { key := Config.kdf p.key label ctx, keyId := id, ops := 7, useMask := 4, gen := p.gen,
                           parent := parent, purpose := purpose }
      (some i, (s.loadSlot i k).touchSlot i)

/-- The same key loaded once more, for encryption from the next boundary on (R336). -/
def State.secondLoad (s : State) (i : Nat) : State :=
  let k := s.slot i
  let j := s.poolFree
  if i == j then s
  else
    let s := s.loadSlot j k
    s.setSec fun x => { x with slots := vmod x.slots i (fun k => { k with newLoad := some (j, s.frame) }) }

/-- One message is encrypted under a slot's load: it takes USAGE, and the warning point prepares the next load. -/
def State.takeUse (s : State) (i : Nat) : State :=
  let k := s.slot i
  let s := s.setSec fun x => { x with slots := vmod x.slots i (fun k => { k with usage := k.usage + 1 }) }
  if 8 ≤ i && i < 48 then
    if k.newLoad.isNone && (k.limitM1 + 1) * s.cfg Od.usageWarnPct ≤ (k.usage + 1) * 100 then s.secondLoad i else s
  else if k.limitM1 < k.usage + 1 then
    s.setSec fun x => { x with slots := vmod x.slots i (fun k => { k with state := .exhausted }) }
  else s

/-- The encrypting IV of a slot's next message (R334). -/
def State.nextIv (s : State) (i : Nat) : Nat :=
  s.engineId * 2 ^ 64 + (s.slot i).ivEpoch * 2 ^ 32 + (s.slot i).usage % 2 ^ 32

/-- XOR of a text with the keystream of a key and IV. -/
def gcmText (key iv : Nat) (bs : Bytes) : Bytes := bs.mapIdx (fun i b => b ^^^ Config.gcmStream key iv i)

/-- AES-256-GCM of a text: the ciphertext and its 16-byte tag (R205, R241, R253). -/
def gcmSeal (key iv : Nat) (aad text : Bytes) : Bytes :=
  gcmText key iv text ++ beBytes 16 (Config.gcmTag key iv aad text % 2 ^ 128)

/-- Encrypt one message under a derived key, with the IV of R334: the ciphertext and the tag, or none when the key store
cannot (alarm, or no parent key). -/
def State.seal (s : State) (purpose parent : Nat) (label ctx aad text : Bytes) : Option Bytes × State :=
  match s.poolKey purpose parent label ctx with
  | (some i, s) => (some (gcmSeal (s.slot i).key (s.nextIv i) aad text), s.takeUse i)
  | (none, s) => (none, s)

/-- Whether a derived key can be had: its parent holds a key and no alarm stands. -/
def State.keyThere (s : State) (parent : Nat) : Bool := !s.alarmed && (s.slot parent).state != .empty

/-- Status of a task that needs a key it cannot have (Table 13-8): none when it can. -/
def State.keyStatus (s : State) (parent : Nat) : Option (Nat × Nat) :=
  if s.alarmed then some (0x5005, s.battery.alarmSource)
  else if (s.slot parent).state == .empty then some (0x5001, parent) else none

/-- A GCM tag failed under every generation (R333, R343). -/
def State.tagFail (s : State) : State := s.bump Od.tagFailCount

/-! Overwrite and erase (R331) -/

/-- A page message runs under the slot. -/
def State.slotInUse (s : State) (i : Nat) : Bool :=
  s.sec.cPages.toList.any (fun p => p.busy && p.slot == i) ||
  s.sec.dPages.toList.any (fun p => p.busy && p.slot == i && 2 ≤ p.alg)

/-- Overwrite a slot, or erase it, once the last message under its key has ended. -/
def State.replaceSlot (s : State) (i : Nat) (k : Option KeySlot) : State :=
  if s.slotInUse i then
    s.setSec fun x => { x with deferred := x.deferred.filter (fun d => d.1 != i) ++ [(i, k)],
                               slots := vmod x.slots i (fun k => { k with dying := true }) }
  else match k with
    | some k => s.loadSlot i k
    | none => s.putSlot i {}

/-- Apply the erases and overwrites whose last message has ended. -/
def State.settleSlots (s : State) : State :=
  s.sec.deferred.foldl (fun s d =>
    if s.slotInUse d.1 then s
    else
      let s := s.setSec fun x => { x with deferred := x.deferred.filter (fun e => e.1 != d.1) }
      match d.2 with
      | some k => s.loadSlot d.1 k
      | none => s.putSlot d.1 {}) s

/-! Key tasks (R330, R331) -/

/-- TARGET_SLOT, PARENT_SLOT or KEK_SLOT, OPS, USE_MASK, GEN of a key task's record (Table 13-4, R3). -/
def Task.keyTarget (t : Task) : Nat := t.f 261 256
def Task.keyParent (t : Task) : Nat := t.f 269 264
def Task.keyOps (t : Task) : Nat := t.f 277 272
def Task.keyMask (t : Task) : Nat := t.f 303 288 % 256
def Task.keyGen (t : Task) : Nat := t.f 383 368

/-- A user slot. -/
def userSlot (i : Nat) : Bool := 48 ≤ i && i < 64

/-- The slot may be the target of the task. -/
def Task.targetAllowed (t : Task) : Bool :=
  let i := t.keyTarget
  match t.type with
  | 0x60 => userSlot i
  | 0x61 => userSlot i || ((i == 2 || i == 7) && t.owner == .s)
  | 0x62 => userSlot i || (i == 7 && t.owner == .s)
  | _ => i == 2 && t.owner == .s

/-- The slot may be the parent or KEK of the task. -/
def Task.parentAllowed (t : Task) (p : KeySlot) : Bool :=
  let i := t.keyParent
  match t.type with
  | 0x60 => i == 2 || (userSlot i && (p.state == .empty || opsHas p.ops 3))
  | 0x61 => i == 1 || (userSlot i && (p.state == .empty || opsHas p.ops 4))
  | 0x62 => true
  | _ => i == 1

/-- A user slot loaded by the other host agent. -/
def State.foreignSlot (s : State) (i : Nat) (o : Host2) : Bool :=
  userSlot i && (match (s.slot i).loader with | some l => l != o | none => false)

/-- Check 1 of R331: the slot at fault. -/
def State.keyDenied (s : State) (t : Task) : Option Nat :=
  let p := s.slot t.keyParent
  if !t.targetAllowed || s.foreignSlot t.keyTarget t.owner then some t.keyTarget
  else if t.type == 0x62 then none
  else if !t.parentAllowed p || s.foreignSlot t.keyParent t.owner then some t.keyParent
  else if p.state == .empty then none
  else if !bitsWithin t.keyOps p.ops || !bitsWithin t.keyMask p.useMask || !opsHas p.useMask t.owner.agent.code then
    some t.keyParent
  else none

/-- LABEL and CONTEXT of a KEY_DERIVE. -/
def Task.label (t : Task) : Bytes := leBytes (t.f 309 304) (t.f 575 320)
def Task.context (t : Task) : Bytes := leBytes (t.f 317 312) (t.f 1023 576)

/-- Check 2 of R331: the operands are bad. -/
def State.keyBadOperand (s : State) (t : Task) : Bool :=
  (t.type == 0x60 && (t.f 309 304 == 0 || 32 < t.f 309 304 || t.label.take 4 == [0x49, 0x47, 0x38, 0x20])) ||
  (t.type == 0x63 && t.f 447 384 < s.frame + 2)

/-- Checks 1 to 3 of R331, in order: the status to complete with. -/
def State.keyCheck (s : State) (t : Task) : Option (Nat × Nat × Nat) :=
  if s.alarmed then some (0x5005, s.battery.alarmSource, 0)
  else match s.keyDenied t with
    | some i => some (0x5000, i, t.owner.agent.code)
    | none =>
      if s.keyBadOperand t then some (0x5002, 2, 0)
      else if t.type != 0x62 && (s.slot t.keyParent).state == .empty then some (0x5001, t.keyParent, 0)
      else none

/-- GEN conditions of check 4: slot 2 rises, slot 7 lies below slot 2. -/
def State.keyGenBad (s : State) (t : Task) : Bool :=
  (t.keyTarget == 2 && t.keyGen ≤ (s.slot 2).gen) || (t.keyTarget == 7 && (s.slot 2).gen ≤ t.keyGen)

/-- Check 4 of R331 fails. -/
def State.unwrapFail (s : State) (t : Task) : State :=
  ((s.bump Od.unwrapFailCount).endIo t.id).complete t 0x5003 t.keyTarget t.keyParent

/-- KEY_DERIVE (R324, R331). -/
def execKeyDerive (task : Nat) (s : State) : Out :=
  .next <| s.whenReady task 0x60 fun s t =>
    match s.keyCheck t with
    | some (c, d, e) => s.complete t c d e
    | none =>
      if 56 < t.f 317 312 then s.malformed t
      else
        let p := s.slot t.keyParent
        let k : KeySlot := { key := Config.kdf p.key t.label t.context, keyId := derivedId p t.label t.context,
                             ops := t.keyOps, useMask := t.keyMask, gen := p.gen, parent := t.keyParent,
                             loader := some t.owner }
        (s.replaceSlot t.keyTarget (some k)).complete t 0

/-- The blob's Holding: a SCRATCH Holding of the task's job that covers 40 bytes at SRC_OFFSET. -/
def State.blobHolding (s : State) (t : Task) : Option Holding :=
  match s.holdingIn t.job (t.f 335 320) with
  | some h => if h.kind == 3 then some h else none
  | none => none

/-- Begin the read of the 40-byte blob of a KEY_UNWRAP or KEY_ROLLOVER. -/
def State.startBlob (s : State) (t : Task) : State :=
  match s.blobHolding t with
  | none => s.complete t 0x0033 (t.f 335 320)
  | some h =>
    if t.f 367 336 % 8 != 0 then s.malformed t
    else if h.bytes < t.f 367 336 + 40 then
      (s.bump Od.lengthMismatchCount).complete t 0x0018 0 0 (h.bytes - t.f 367 336)
    else if s.d2dDown then s.fail t 0x0021
    else (s.start t).startRead (.taskRead t.id) t.id h (t.f 367 336) 40

/-- The blob, once the read has ended. -/
def State.blobRead (s : State) (t : Task) : Option Bytes :=
  match s.taskBuf t.id with
  | some b => if b.waiting == 0 then some (s.bufBytes b) else none
  | none => none

/-- The pool keys derived from slot i, made DECRYPT only, now under another slot (R332, R333). -/
def State.decryptOnly (s : State) (i j : Nat) : State :=
  s.setSec fun x => { x with slots := x.slots.mapIdx (fun n (k : KeySlot) =>
    if 8 ≤ n && n < 48 && k.parent == i then { k with ops := k.ops &&& 2, parent := j } else k) }

/-- Load an unwrapped key. -/
def State.loadUnwrapped (s : State) (t : Task) (blob : Bytes) : State :=
  let kek := s.slot t.keyParent
  let i := t.keyTarget
  let k : KeySlot := { key := Config.unwrap kek.key blob, keyId := unwrappedId kek blob,
                       ops := if i == 7 then t.keyOps &&& 0x2A else t.keyOps, useMask := t.keyMask,
                       gen := if userSlot i then 0 else t.keyGen,
                       purpose := if i == 2 then 3 else if i == 7 then 16 else 0,
                       loader := if userSlot i then some t.owner else none }
  let s := s.replaceSlot i (some k)
  if i == 7 then s.decryptOnly 7 7 else s

/-- KEY_UNWRAP (R331, R333): first the checks and the read of the blob, then, when the blob is there, check 4 and the
load. -/
def execKeyUnwrap (task : Nat) (intact : Bool) (s : State) : Out :=
  .next <| match s.task? task with
    | none => s
    | some t =>
      if t.phase == .waiting then
        s.whenReady task 0x61 fun s t =>
          match s.keyCheck t with
          | some (c, d, e) => s.complete t c d e
          | none => if s.keyGenBad t then s.unwrapFail t else s.startBlob t
      else if t.type != 0x61 then s
      else match s.blobRead t with
        | none => s
        | some blob =>
          if s.alarmed then (s.endIo task).complete t 0x5005 s.battery.alarmSource
          else if !intact || s.keyGenBad t then s.unwrapFail t
          else ((s.endIo task).loadUnwrapped t blob).complete t 0

/-- KEY_ERASE (R331). -/
def execKeyErase (task : Nat) (s : State) : Out :=
  .next <| s.whenReady task 0x62 fun s t =>
    match s.keyCheck t with
    | some (c, d, e) => s.complete t c d e
    | none => (s.replaceSlot t.keyTarget none).complete t 0

/-- SWITCH_FRAME of the rollover that is pending, its blob read or still to be read (R355). -/
def State.pendingSwitch (s : State) : Option Nat :=
  match s.sec.rollover with
  | some r => some r.frame
  | none => (s.sched.tasks.find? (fun t => t.type == 0x63 && t.phase == .running)).map (fun t => t.f 447 384)

/-- KEY_ROLLOVER (R331, R332): the blob is held until SWITCH_FRAME, and the task with it. -/
def execKeyRollover (task : Nat) (s : State) : Out :=
  .next <| match s.task? task with
    | none => s
    | some t =>
      if t.phase == .waiting then
        s.whenReady task 0x63 fun s t =>
          match s.pendingSwitch with
          | some f => s.complete t 0x5006 0 (f % 2 ^ 32)
          | none =>
            match s.keyCheck t with
            | some (c, d, e) => s.complete t c d e
            | none => if s.keyGenBad t then s.unwrapFail t else s.startBlob t
      else if t.type != 0x63 || s.sec.rollover.isSome then s
      else match s.blobRead t with
        | none => s
        | some blob =>
          (s.freeBufs task).setSec fun x =>
            { x with rollover := some { task := task, frame := t.f 447 384, blob := blob, gen := t.keyGen,
                                        ops := t.keyOps, mask := t.keyMask } }

/-- KEY_ROLLOVER_SWITCH (R332): at SWITCH_FRAME slot 2 moves into slot 7 and the blob into slot 2. -/
def execKeyRolloverSwitch (intact : Bool) (s : State) : Out :=
  .next <| match s.sec.rollover with
    | none => s
    | some r =>
      if s.frame < r.frame then s
      else
        let kek := s.slot 1
        let s' := s.setSec fun x => { x with rollover := none }
        if !intact || kek.state == .empty || r.gen ≤ (s.slot 2).gen then
          match s'.task? r.task with
          | some t => s'.unwrapFail t
          | none => s'.bump Od.unwrapFailCount
        else
          let old := s.slot 2
          let s := s'.putSlot 7 (if old.state == .empty then {} else { old with purpose := 16 })
          let s := s.loadSlot 2 { key := Config.unwrap kek.key r.blob, keyId := unwrappedId kek r.blob, ops := r.ops,
                                  useMask := r.mask, gen := r.gen, purpose := 3 }
          let s := (s.decryptOnly 2 7).odSetP Od.ivEpochRandom 0
          let s := s.setService fun v => { v with newRoll := true }
          match s.task? r.task with
          | some t => s.complete t 0
          | none => s

/-- USAGE_LOAD_SWITCH (R336): at the boundary after the new load, encryption moves to it and the old load decrypts only. -/
def execUsageLoadSwitch (slot : BitVec 6) (s : State) : Out :=
  .next <| match (s.slot slot.toNat).newLoad with
    | some (_, f) =>
      if s.time.cycle == 0 && f < s.frame then
        s.setSec fun x => { x with slots := vmod x.slots slot.toNat (fun k => { k with ops := k.ops &&& 2, newLoad := none }) }
      else s
    | none => s

/-- IV_EPOCH drawn afresh in 2^31 to 2^32 - 2^24 (R335, R464). -/
def State.drawIvEpoch (s : State) : State :=
  let v := 2 ^ 31 + Config.drbg s.freeCtr % (2 ^ 31 - 2 ^ 24 + 1)
  (({ s with freeCtr := s.freeCtr + 1 }).odSetP Od.ivEpoch v).odSetP Od.ivEpochRandom 1

/-- IV_EPOCH_REDRAW (R464). -/
def execIvEpochRedraw (s : State) : Out :=
  .next <|
    if s.odGet Od.ivEpoch == 0xFFFFFFFF && s.service.newWrap && s.service.newRoll &&
        !(List.range 16).any (fun n => (s.slot (48 + n)).state != .empty) then
      s.drawIvEpoch.setService fun v => { v with newWrap := false, newRoll := false }
    else s

/-! Alarms (R353, R354) -/

/-- Every page message is abandoned and its output erased. -/
def CipherPage.abandon (p : CipherPage) : CipherPage :=
  { p with busy := false, suspended := false, fed := [], ended := false, taken := 0, since := 0, out := [] }

/-- A digest is abandoned. -/
def DigestPage.abandon (p : DigestPage) : DigestPage :=
  { p with busy := false, suspended := false, fed := [], ended := false, taken := 0, since := 0, chain := none, before := 0,
           result := 0, keyed := false }

/-- Key tasks in progress complete with KEY_ALARM. -/
def State.keyTasksAlarm (s : State) : State :=
  (s.sched.tasks.filter (fun t => 0x60 ≤ t.type && t.type ≤ 0x63 && t.phase != .waiting)).foldl
    (fun s t => match s.task? t.id with
      | some t => (s.endIo t.id).complete t 0x5005 s.battery.alarmSource
      | none => s) s

/-- The key store enters alarm (R353): keys and battery copies erased, messages abandoned, source recorded, event. -/
def State.raiseAlarm (s : State) (source : Nat) : State :=
  if s.alarmed then s
  else
    let s := s.setSec fun x =>
      { x with slots := Vector.replicate 64 {}, copyA := [], copyB := [], alarm := true, rollover := none, deferred := [],
               cPages := x.cPages.map CipherPage.abandon, dPages := x.dPages.map DigestPage.abandon,
               cQueue := [], dQueue := [] }
    let s := s.setBattery fun b => { b with alarmStanding := true, alarmSource := source,
                                            alarmCount := min (b.alarmCount + 1) (2 ^ 32 - 1),
                                            curatorGen := (b.curatorGen + 1) % 2 ^ 32 }
    s.keyTasksAlarm.event Od.alarmCount source

/-- GLITCH_TRIP (R353, R477). -/
def execGlitchTrip (_source : GlitchSource) (s : State) : Out := .next (s.raiseAlarm 3)

/-- A health-test failure (R338); the second in a row raises the ENTROPY alarm. -/
def State.entropyFail (s : State) : State :=
  let n := s.sec.entropyFails + 1
  let s := (s.setSec fun x => { x with entropyFails := n, seedStopped := true, entropyFrame := s.frame }).countEvent
    Od.entropyFailCount n
  if 2 ≤ n then s.raiseAlarm 1 else s

/-- ENTROPY_TEST_FAIL (R338): after a failure the tests run again at the next boundary only. -/
def execEntropyTestFail (s : State) : Out := .next <| if s.sec.seedStopped then s else s.entropyFail

/-- ENTROPY_RETEST (R338): the tests on fresh samples, at the boundary after the failure. -/
def execEntropyRetest (passes : Bool) (s : State) : Out :=
  .next <|
    if !s.sec.seedStopped || s.time.cycle != 0 || s.frame == s.sec.entropyFrame then s
    else if passes then s.setSec fun x => { x with entropyFails := 0, seedStopped := false }
    else s.entropyFail

/-- ALARM_CLEAR (R354): a write of 1 with the source quiet takes the key store out of alarm. -/
def State.alarmClear (s : State) (v : Nat) (sourceActive : Bool) : Nat × State :=
  if v != 1 || !s.alarmed then (0, s)
  else if sourceActive then (abBusy, s)
  else
    let s := s.setSec fun x => { x with alarm := false, slots := Vector.replicate 64 {}, copyA := [], copyB := [] }
    let s := s.setBattery fun b => { b with alarmStanding := false, curatorGen := (b.curatorGen + 1) % 2 ^ 32 }
    (0, s.deriveRoot)

/-- ALARM_CLEAR (R354). -/
def execAlarmClear (agent : Agent) (value : BitVec 8) (sourceActive : Bool) (s : State) : Out :=
  .next (s.odRow agent Od.alarmClear.key [value] fun s => s.alarmClear value.toNat sourceActive)

/-! Loads by the field master (R327) -/

/-- FIELD_AUTH_LOAD (R327): a clear key only while slot 3 is empty, otherwise an authenticated, intact blob. -/
def State.fieldAuthLoad (s : State) (value : Bytes) (authenticated intact : Bool) : Nat × State :=
  let old := s.slot 3
  let k : KeySlot := { ops := 0x0C, useMask := 8, purpose := 4 }
  if old.state == .empty then
    if value.length == 32 then
      (0, (s.loadSlot 3 { k with key := beNat value, keyId := Config.sha3 value % 2 ^ 64 }).deriveTransport)
    else (abInvalid, s)
  else if value.length == 40 && authenticated && intact then
    let kek := s.slot 5
    (0, (s.loadSlot 3 { k with key := Config.unwrap kek.key value, keyId := unwrappedId kek value }).deriveTransport)
  else if value.length == 40 && authenticated then (abInvalid, s.bump Od.unwrapFailCount)
  else (abInvalid, s)

/-- FIELD_AUTH_LOAD (R327). -/
def execFieldAuthLoad (agent : Agent) (value : Bytes) (authenticated intact : Bool) (s : State) : Out :=
  .next <| s.odRow agent Od.fieldAuthLoad.key value fun s => s.fieldAuthLoad value authenticated intact

/-- WRAP_LOAD (R327): a 40-byte blob under FIELD_TRANSPORT. -/
def State.wrapLoad (s : State) (value : Bytes) (intact : Bool) : Nat × State :=
  let kek := s.slot 5
  if value.length != 40 || kek.state == .empty then (abInvalid, s)
  else if !intact then (abInvalid, s.bump Od.unwrapFailCount)
  else
    let id := unwrappedId kek value
    let fresh := id != (s.slot 1).keyId
    let s := s.loadSlot 1 { key := Config.unwrap kek.key value, keyId := id, ops := 0x3F, useMask := 0xFF, purpose := 2 }
    (0, if fresh then s.setService fun v => { v with newWrap := true } else s)

/-- WRAP_LOAD (R327). -/
def execWrapLoad (agent : Agent) (value : Bytes) (intact : Bool) (s : State) : Out :=
  .next <| s.odRow agent Od.wrapLoad.key value fun s => s.wrapLoad value intact

/-! Cipher pairs (R339, R340) -/

/-- Healthy spare pipes: in no pair and not retired. -/
def State.sparePipes (s : State) : List Nat :=
  (List.range 136).filter (fun q =>
    !s.sec.pairMap.any (fun p => p.1 == q || p.2 == q) && !s.sec.pipesRetired.contains q)

/-- CIPHER_MISMATCH (R339): the pair goes out of service until its repair frame; a pair out of service computes nothing. -/
def execCipherMismatch (pair : BitVec 6) (s : State) : Out :=
  .next <|
    let m := s.sec.pairMap.getD pair.toNat (0, 0)
    if s.sec.pairsRetired.contains pair.toNat || s.sec.suspects.any (fun x => x.pair == pair.toNat) then s
    else
      let x : CipherSuspect := { pair := pair.toNat, frame := s.frame, first := m.1, second := m.2 }
      (s.bump Od.cipherMismatchCount).setSec fun z => { z with suspects := z.suspects ++ [x] }

/-- A pipe fails its known answers: retired, and a spare takes its place, or its pair is retired (R339, R340). -/
def State.retirePipe (s : State) (pair pipe : Nat) : State :=
  let spare := s.sparePipes.head?
  let s := (s.bump Od.pipeRetireCount).retirePart (partId 6 pipe)
  s.setSec fun x =>
    let x := { x with pipesRetired := addOnce x.pipesRetired pipe }
    match spare with
    | some q =>
      let swap (n : Nat) : Nat := if n == pipe then q else n
      { x with pairMap := x.pairMap.mapIdx (fun i p => if i == pair then (swap p.1, swap p.2) else p) }
    | none => { x with pairsRetired := addOnce x.pairsRetired pair }

/-- CIPHER_REPAIR (R339): in the frame after the mismatch the pipes of the failing pair run item 4. The event of a transient
names it by 0xFFFF (log entry 150), with the pair beside it. -/
def execCipherRepair (firstFails secondFails again : Bool) (s : State) : Out :=
  .next <| match s.sec.suspects with
    | [] => s
    | x :: rest =>
      if s.frame ≤ x.frame then s
      else
        let s := s.setSec fun z => { z with suspects := rest }
        let bad (q : Nat) (f : Bool) : Bool := f || (s.pinned (partId 6 q) && !s.sparePipes.isEmpty)
        let b1 := bad x.first firstFails
        let b2 := bad x.second secondFails
        let n1 := s.partName (partId 6 x.first) x.first
        let n2 := s.partName (partId 6 x.second) x.second
        let s := if b1 then s.retirePipe x.pair x.first else s
        let s := if b2 then s.retirePipe x.pair x.second else s
        let s := if !b1 && !b2 then
            ((s.scoreTransient (partId 6 x.first)).scoreTransient (partId 6 x.second)).event Od.cipherMismatchCount
              0xFFFF x.pair
          else s.event Od.pipeRetireCount (if b1 then n1 else 0xFFFF) (if b2 then n2 else 0xFFFF)
        if again then s.raiseAlarm 2 else s

/-! Agent pages: cipher half (R346 to R350) -/

/-- A page's cipher half and digest half. -/
def State.cPage (s : State) (a : Agent) : CipherPage := s.sec.cPages.toList.getD a.code {}
def State.dPage (s : State) (a : Agent) : DigestPage := s.sec.dPages.toList.getD a.code {}

/-- Change a page's half. -/
def State.setC (s : State) (a : Agent) (f : CipherPage → CipherPage) : State :=
  s.setSec fun x => { x with cPages := vmod x.cPages a.code f }
def State.setD (s : State) (a : Agent) (f : DigestPage → DigestPage) : State :=
  s.setSec fun x => { x with dPages := vmod x.dPages a.code f }

/-- A sequence error on the cipher half (R349). -/
def State.cSeqErr (s : State) (a : Agent) : State :=
  ((s.bump Od.pageSeqErrCount).setC a (fun p => { p with seqErr := true })).raise (.cStatus a.code 7)

/-- A sequence error on the digest half. -/
def State.dSeqErr (s : State) (a : Agent) : State :=
  ((s.bump Od.pageSeqErrCount).setD a (fun p => { p with seqErr := true })).raise (.dStatus a.code 7)

/-- The next agent in a service order after one, in agent-ID order (R350). -/
def nextAgent (l : List Nat) (after : Nat) : Option Nat :=
  ((List.range 8).map (fun k => (after + 1 + k) % 8)).find? (fun a => l.contains a)

/-- The page that runs is the head of its queue; another page's message waits. -/
def enqueuePage (q : List Nat) (a : Nat) : List Nat := if q.contains a then q else q ++ [a]

/-- Bytes that a running message has taken once it has taken what it can: whole blocks while its input goes on, and while
another page waits no more than its quantum (R350). -/
def runTo (fed taken since block quantum : Nat) (ended others : Bool) : Nat :=
  let have_ := if ended then fed else fed / block * block
  max taken (if others then min have_ (since + quantum * block) else have_)

/-- The running cipher page takes what it has been fed, and its agreed units of output become readable. -/
def State.runCipher (s : State) : State :=
  match s.sec.cQueue with
  | [] => s
  | a :: others =>
    s.setSec fun x => { x with cPages := vmod x.cPages a (fun p =>
      let key := (s.slot p.slot).key
      let upto := runTo p.fed.length p.taken p.since 16 (s.cfg Od.userQuantumBlocks) p.ended (!others.isEmpty)
      let done := fun (n : Nat) => (n - p.aadLen) / 4096 * 4096
      let text := gcmText key p.iv (p.fed.drop p.aadLen)
      { p with taken := upto, suspended := false,
               out := if p.op == 0 then p.out ++ (text.take (done upto)).drop (done p.taken) else p.out }) }

/-- The running digest page takes what it has been fed. -/
def State.runDigest (s : State) : State :=
  match s.sec.dQueue with
  | [] => s
  | a :: others =>
    s.setSec fun x => { x with dPages := vmod x.dPages a (fun p =>
      { p with taken := runTo p.fed.length p.taken p.since (digestBlock p.alg) (s.cfg Od.userQuantumBlocks) p.ended
                 (!others.isEmpty), suspended := false }) }

/-- The page at the head of the cipher's queue begins to run, or goes on where it stopped (R350). -/
def State.headCipher (s : State) : State :=
  (s.setSec fun x => { x with cPages := match x.cQueue with
    | [] => x.cPages
    | a :: _ => vmod x.cPages a (fun p => { p with since := p.taken }) }).runCipher

/-- The page at the head of the digest core's queue begins to run, or goes on where it stopped (R350). -/
def State.headDigest (s : State) : State :=
  (s.setSec fun x => { x with dPages := match x.dQueue with
    | [] => x.dPages
    | a :: _ => vmod x.dPages a (fun p => { p with since := p.taken }) }).runDigest

/-- A cipher message of a page ends or is abandoned: the next waiting page runs. -/
def State.leaveCipher (s : State) (a : Agent) : State :=
  let q := s.sec.cQueue.filter (fun b => b != a.code)
  let q := match nextAgent q a.code with
    | some b => b :: q.filter (fun c => c != b)
    | none => q
  State.settleSlots (State.headCipher (s.setSec fun x => { x with cQueue := q }))

/-- A digest of a page ends. -/
def State.leaveDigest (s : State) (a : Agent) : State :=
  let q := s.sec.dQueue.filter (fun b => b != a.code)
  let q := match nextAgent q a.code with
    | some b => b :: q.filter (fun c => c != b)
    | none => q
  State.settleSlots (State.headDigest (s.setSec fun x => { x with dQueue := q }))

/-- A message whose input disagrees with its lengths is abandoned, its output erased (R349). -/
def State.cAbandon (s : State) (a : Agent) : State := ((s.cSeqErr a).setC a CipherPage.abandon).leaveCipher a

/-- A slot serves an operation for an agent (R329, R348). -/
def State.slotServes (s : State) (i : Nat) (a : Agent) (op : Nat) : Bool :=
  let k := s.slot i
  k.state != .empty && !k.dying && opsHas k.useMask a.code && opsHas k.ops op

/-- A check of C_START or D_START fails (R348). -/
def State.cDenied (s : State) (a : Agent) : State :=
  ((s.bump Od.pageDeniedCount).setC a (fun p => { p with denied := true })).raise (.cStatus a.code 5)

/-- C_START (R348). -/
def execCStart (agent : Agent) (size : BitVec 8) (value : BitVec 64) (s : State) : Out :=
  .next <|
    let p := s.cPage agent
    if size != 4 || p.busy || 4096 < p.aadLen || 1048576 < p.msgLen then s.cSeqErr agent
    else if value.toNat % 2 == 0 then s
    else if !s.slotServes p.slot agent p.op then s.cDenied agent
    else if p.op == 0 && (s.slot p.slot).state == .exhausted then (s.bump Od.exhaustedCount).cDenied agent
    else
      let iv := if p.op == 0 then s.nextIv p.slot else p.iv
      let s := if p.op == 0 then s.takeUse p.slot else s
      let s := s.setC agent (fun p =>
        { p with busy := true, iv := iv, fed := [], ended := false, taken := 0, since := 0, out := [] })
      s.setSec fun x => { x with cQueue := enqueuePage x.cQueue agent.code }

/-- Free bytes of an input queue (C_IN_FREE, D_IN_FREE). -/
def inFree (fed : Bytes) (taken : Nat) : Nat := 65536 - (fed.length - taken)

/-- Feed bytes to a page's cipher message. -/
def State.cFeed (s : State) (a : Agent) (bs : Bytes) (last : Bool) : State :=
  let p := s.cPage a
  let total := p.aadLen + p.msgLen
  let n := p.fed.length + bs.length
  if total < n || (last && n != total) then s.cAbandon a
  else
    let s := s.setC a (fun p => { p with fed := p.fed ++ bs, ended := last })
    if s.sec.cQueue.head? == some a.code then s.runCipher else s

/-- C_DATA (R347, R349). -/
def execCData (agent : Agent) (size : BitVec 8) (value : BitVec 64) (s : State) : Out :=
  .next <|
    let p := s.cPage agent
    if size != 8 || !p.busy || p.ended then s.cSeqErr agent
    else if inFree p.fed p.taken < 8 then
      ((s.bump Od.pageSeqErrCount).setC agent (fun p => { p with overrun := true })).raise (.cStatus agent.code 6)
    else s.cFeed agent (leBytes 8 value.toNat) false

/-- C_LAST (R347). -/
def execCLast (agent : Agent) (size : BitVec 8) (value : BitVec 64) (s : State) : Out :=
  .next <|
    let p := s.cPage agent
    if size != 8 || !p.busy || p.ended || 8 < p.lastBytes then s.cSeqErr agent
    else s.cFeed agent ((leBytes 8 value.toNat).take p.lastBytes) true

/-- C_OUT (R347): the next 8 bytes of output, zero-filled at the end. -/
def execCOut (agent : Agent) (size : BitVec 8) (s : State) : Out :=
  .next <|
    let p := s.cPage agent
    if size != 8 || p.out.isEmpty then (s.cSeqErr agent).send (.page agent.code 0)
    else (s.setC agent (fun p => { p with out := p.out.drop 8 })).send (.page agent.code (leNat (p.out.take 8)))

/-- CIPHER_MESSAGE_DONE (R347): the running page's message ends. An encryption puts its tag into C_TAG; a decryption
releases its output on TAG_OK, when the tag is that of C_TAG, or erases it on TAG_FAIL (R343). While the pipes of the pair
do not agree on the tag, the message does not end: CIPHER_MISMATCH takes the pair out (R339). -/
def execCipherMessageDone (agent : Agent) (agree : Bool) (s : State) : Out :=
  .next <|
    let p := s.cPage agent
    if !agree || s.sec.cQueue.head? != some agent.code || !p.busy || !p.ended || p.taken != p.fed.length then s
    else
      let key := (s.slot p.slot).key
      let aad := p.fed.take p.aadLen
      let data := p.fed.drop p.aadLen
      let text := gcmText key p.iv data
      let rest := text.drop (data.length / 4096 * 4096)
      let tag := Config.gcmTag key p.iv aad text % 2 ^ 128
      let s := if p.op == 0 then
          s.setC agent (fun q => { q.abandon with out := q.out ++ rest, done := true, tag := tag })
        else if tag == p.tag then
          (s.setC agent (fun q => { q.abandon with out := text, done := true, tagOk := true })).raise (.cStatus agent.code 3)
        else ((s.setC agent (fun q => { q.abandon with done := true, tagFail := true })).raise (.cStatus agent.code 4)).tagFail
      (s.raise (.cStatus agent.code 1)).leaveCipher agent

/-! Agent pages: digest half -/

/-- A digest check fails (R348). -/
def State.dDenied (s : State) (a : Agent) : State :=
  ((s.bump Od.pageDeniedCount).setD a (fun p => { p with denied := true })).raise (.dStatus a.code 5)

/-- D_START (R348). -/
def execDStart (agent : Agent) (size : BitVec 8) (value : BitVec 64) (s : State) : Out :=
  .next <|
    let p := s.dPage agent
    if size != 4 || p.busy || 3 < p.alg then s.dSeqErr agent
    else if value.toNat % 2 == 0 then s
    else if 2 ≤ p.alg && !s.slotServes p.slot agent 2 then s.dDenied agent
    else
      let s := s.setD agent (fun p =>
        { p with busy := true, fed := [], ended := false, taken := 0, since := 0, chain := none, before := 0, result := 0,
                 keyed := false })
      s.setSec fun x => { x with dQueue := enqueuePage x.dQueue agent.code }

/-- Feed bytes to a page's digest. -/
def State.dFeed (s : State) (a : Agent) (bs : Bytes) (last : Bool) : State :=
  let s := s.setD a (fun p => { p with fed := p.fed ++ bs, ended := last })
  let s := s.total Od.digestBytes bs.length
  if s.sec.dQueue.head? == some a.code then s.runDigest else s

/-- D_DATA (R347, R349). -/
def execDData (agent : Agent) (size : BitVec 8) (value : BitVec 64) (s : State) : Out :=
  .next <|
    let p := s.dPage agent
    if size != 8 || !p.busy || p.ended then s.dSeqErr agent
    else if inFree p.fed p.taken < 8 then
      ((s.bump Od.pageSeqErrCount).setD agent (fun p => { p with overrun := true })).raise (.dStatus agent.code 6)
    else s.dFeed agent (leBytes 8 value.toNat) false

/-- D_LAST (R347). -/
def execDLast (agent : Agent) (size : BitVec 8) (value : BitVec 64) (s : State) : Out :=
  .next <|
    let p := s.dPage agent
    if size != 8 || !p.busy || p.ended || 8 < p.lastBytes then s.dSeqErr agent
    else s.dFeed agent ((leBytes 8 value.toNat).take p.lastBytes) true

/-- Result of a page's digest under a key (R344): 384 bits for SHA-384 and HMAC-SHA-384, 256 for SHA3-256 and KMAC256. -/
def DigestPage.value (p : DigestPage) (key : Nat) : Nat :=
  let key := if 2 ≤ p.alg then key else 0
  hashFrom p.alg key (p.chain.getD (Config.hashStart p.alg key)) p.before p.fed % 2 ^ (if p.alg == 0 || p.alg == 2 then 384 else 256)

/-- DIGEST_DONE (R347): the running page's digest ends; a keyed result stands behind the comparator only (R345). -/
def execDigestDone (agent : Agent) (s : State) : Out :=
  .next <|
    let p := s.dPage agent
    if s.sec.dQueue.head? != some agent.code || !p.busy || !p.ended || p.taken != p.fed.length then s
    else
      let r := p.value (s.slot p.slot).key
      ((s.setD agent (fun q => { q.abandon with done := true, result := r, keyed := 2 ≤ q.alg })).raise
        (.dStatus agent.code 1)).leaveDigest agent

/-- D_COMPARE (R345): EQUAL or NOT_EQUAL; a NOT_EQUAL is counted. A keyed result goes nowhere else. -/
def execDCompare (agent : Agent) (size : BitVec 8) (low _high : BitVec 32) (s : State) : Out :=
  .next <|
    let p := s.dPage agent
    if size != 4 || p.busy || !p.done then s.dSeqErr agent
    else if low.toNat % 2 == 0 then s
    else if p.result == p.expect % 2 ^ (if p.alg == 0 || p.alg == 2 then 384 else 256) then
      (s.setD agent (fun p => { p with equal := true })).raise (.dStatus agent.code 3)
    else ((s.bump Od.compareNeCount).setD agent (fun p => { p with notEqual := true })).raise (.dStatus agent.code 4)

/-- The EXPORT key of the engine and agent (Table 13-1), when WRAP is held. -/
def State.exportKey (s : State) (a : Agent) : Option Nat :=
  let w := s.slot 1
  if s.alarmed || w.state == .empty then none
  else some (Config.kdf w.key labelExport (beBytes 4 s.engineId ++ [BitVec.ofNat 8 a.code]))

/-- KEY_ID of the slot of a page's digest, 0 when unkeyed. -/
def State.digestKeyId (s : State) (p : DigestPage) : Nat := if 2 ≤ p.alg then (s.slot p.slot).keyId else 0

/-- The 432 bytes of a digest's state at a block boundary (R351): ALG, agent ID, six reserved bytes, KEY_ID, length so far,
chaining state, partial block (empty at a boundary), and the HMAC outer state. -/
def DigestPage.stateBytes (p : DigestPage) (agent keyId key : Nat) : Bytes :=
  let key := if 2 ≤ p.alg then key else 0
  let st := (hashBlocks p.alg (p.chain.getD (Config.hashStart p.alg key)) (p.taken / digestBlock p.alg) (p.fed.take p.taken)).1
  [BitVec.ofNat 8 p.alg, BitVec.ofNat 8 agent] ++ List.replicate 6 0 ++ leBytes 8 keyId ++ leBytes 16 (p.before + p.taken) ++
    leBytes 200 st ++ List.replicate 136 0 ++ leBytes 64 (if p.alg == 2 then Config.hmacOuter key else 0)

/-- D_EXPORT (R351): at a block boundary, for a page suspended or with nothing left to take. -/
def execDExport (agent : Agent) (size : BitVec 8) (value : BitVec 64) (s : State) : Out :=
  .next <|
    let p := s.dPage agent
    if size != 4 || !p.busy || p.ended || p.taken % digestBlock p.alg != 0 || (!p.suspended && p.taken != p.fed.length) then
      s.dSeqErr agent
    else if value.toNat % 2 == 0 then s
    else if 2 ≤ p.alg && !s.slotServes p.slot agent 5 then s.dDenied agent
    else match s.exportKey agent with
      | none => s.dDenied agent
      | some k =>
        let blob := Config.wrapState k (p.stateBytes agent.code (s.digestKeyId p) (s.slot p.slot).key)
        (s.bump Od.exportCount).setD agent (fun p => { p with blob := (blob ++ List.replicate 440 0).take 440 })

/-- The digest state of D_BLOB, when an import of it is not refused: it unwraps, it names this agent, and its KEY_ID is that
of the slot in D_SLOT (R351). -/
def State.importable (s : State) (a : Agent) : Option Bytes :=
  let p := s.dPage a
  match (s.exportKey a).bind (fun k => Config.unwrapState k p.blob) with
  | none => none
  | some plain =>
    let alg := (plain.getD 0 0).toNat
    let slotId := if 2 ≤ alg then (s.slot p.slot).keyId else 0
    if (plain.getD 1 0).toNat != a.code || leNat ((plain.drop 8).take 8) != slotId || 3 < alg then none else some plain

/-- A digest page that goes on from an imported state: ALG, length so far, chaining state and partial block (R351). -/
def DigestPage.resume (p : DigestPage) (plain : Bytes) : DigestPage :=
  let alg := (plain.getD 0 0).toNat
  let len := leNat ((plain.drop 16).take 16)
  let part := len % digestBlock alg
  { p with busy := true, alg := alg, fed := (plain.drop 232).take part, taken := 0, since := 0, ended := false,
           chain := some (leNat ((plain.drop 32).take 200)), before := len - part, result := 0, keyed := false }

/-- D_IMPORT (R351): the digest goes on from the state in D_BLOB, or the import is refused. -/
def execDImport (agent : Agent) (size : BitVec 8) (low _high : BitVec 32) (intact : Bool) (s : State) : Out :=
  .next <|
    if size != 4 || (s.dPage agent).busy then s.dSeqErr agent
    else if low.toNat % 2 == 0 then s
    else match (if intact then s.importable agent else none) with
      | none =>
        ((s.bump Od.importRefusedCount).setD agent (fun p => { p with importRefused := true })).raise (.dStatus agent.code 8)
      | some plain =>
        let s := s.setD agent (fun p => p.resume plain)
        State.runDigest (s.setSec fun x => { x with dQueue := enqueuePage x.dQueue agent.code })

/-- The running message may stop here: it has run its quantum and stands at a block boundary (R350). -/
def mayStop (fed taken since block quantum : Nat) (ended : Bool) : Bool :=
  taken % block == 0 && quantum * block ≤ taken - since && !(ended && taken == fed)

/-- PAGE_SUSPEND (R350): the running message has run its quantum and another page waits. -/
def execPageSuspend (agent : Agent) (digest : Bool) (s : State) : Out :=
  .next <|
    let q := if digest then s.sec.dQueue else s.sec.cQueue
    let c := s.cPage agent
    let d := s.dPage agent
    let n := s.cfg Od.userQuantumBlocks
    let due := if digest then mayStop d.fed.length d.taken d.since (digestBlock d.alg) n d.ended
      else mayStop c.fed.length c.taken c.since 16 n c.ended
    if q.head? != some agent.code || !due then s
    else match nextAgent (q.filter (fun b => b != agent.code)) agent.code with
      | none => s
      | some b =>
        let q' := b :: q.filter (fun c => c != b)
        let s := s.total Od.suspendCount 1
        if digest then
          State.headDigest (((s.setD agent (fun p => { p with suspended := true })).raise (.dStatus agent.code 2)).setSec fun x => { x with dQueue := q' })
        else
          State.headCipher (((s.setC agent (fun p => { p with suspended := true })).raise (.cStatus agent.code 2)).setSec fun x => { x with cQueue := q' })

/-! The pages' other registers (Table 13-5) -/

/-- Replace bits [lo+w-1:lo] of a number. -/
def putBits (v lo w x : Nat) : Nat := v - v / 2 ^ lo % 2 ^ w * 2 ^ lo + x % 2 ^ w * 2 ^ lo

/-- A flag as a bit. -/
def b2n (b : Bool) : Nat := if b then 1 else 0

/-- C_STATUS and D_STATUS. -/
def CipherPage.status (p : CipherPage) : Nat :=
  packFields [(1, b2n p.busy), (1, b2n p.done), (1, b2n p.suspended), (1, b2n p.tagOk), (1, b2n p.tagFail),
    (1, b2n p.denied), (1, b2n p.overrun), (1, b2n p.seqErr)]
def DigestPage.status (p : DigestPage) : Nat :=
  packFields [(1, b2n p.busy), (1, b2n p.done), (1, b2n p.suspended), (1, b2n p.equal), (1, b2n p.notEqual),
    (1, b2n p.denied), (1, b2n p.overrun), (1, b2n p.seqErr), (1, b2n p.importRefused)]

/-- Whether an offset is written or read 8 bytes wide. -/
def pageWide (off : Nat) : Bool := off == 0x40 || off == 0x48 || off == 0x58 || off == 0x110 || off == 0x118

/-- Read a 4-byte page register. -/
def State.pageRead (s : State) (a : Agent) (off : Nat) : Nat :=
  let c := s.cPage a
  let d := s.dPage a
  if off == 0x00 then c.slot
  else if off == 0x04 then c.op
  else if off == 0x08 then c.aadLen
  else if off == 0x0C then c.msgLen
  else if 0x18 ≤ off && off < 0x24 then c.iv / 2 ^ (8 * (off - 0x18)) % 2 ^ 32
  else if off == 0x50 then c.lastBytes
  else if 0x60 ≤ off && off < 0x70 then c.tag / 2 ^ (8 * (off - 0x60)) % 2 ^ 32
  else if off == 0x70 then inFree c.fed c.taken
  else if off == 0x78 then c.status
  else if off == 0x100 then d.alg
  else if off == 0x104 then d.slot
  else if off == 0x120 then d.lastBytes
  else if off == 0x128 then inFree d.fed d.taken
  else if 0x140 ≤ off && off < 0x170 then (if d.keyed then 0 else d.result / 2 ^ (8 * (off - 0x140)) % 2 ^ 32)
  else if off == 0x1B4 then d.status
  else if 0x1000 ≤ off && off < 0x11B8 then leNat ((d.blob.drop (off - 0x1000)).take 4)
  else 0

/-- Write a 4-byte page register that is no row of its own. A control register of a message that runs is a sequence error
(R349). -/
def State.pageWrite (s : State) (a : Agent) (off v : Nat) : State :=
  let c := s.cPage a
  let d := s.dPage a
  if off == 0x50 then s.setC a (fun p => { p with lastBytes := v % 16 })
  else if off == 0x120 then s.setD a (fun p => { p with lastBytes := v % 16 })
  else if 0x60 ≤ off && off < 0x70 then
    if c.busy && c.ended then s.cSeqErr a
    else s.setC a (fun p => { p with tag := putBits p.tag (8 * (off - 0x60)) 32 v })
  else if off == 0x78 then
    let keep (n : Nat) (old : Bool) : Bool := s.w1c (.cStatus a.code n) old v n
    s.setC a (fun p => { p with done := keep 1 p.done, suspended := keep 2 p.suspended, tagOk := keep 3 p.tagOk,
                                tagFail := keep 4 p.tagFail, denied := keep 5 p.denied, overrun := keep 6 p.overrun,
                                seqErr := keep 7 p.seqErr })
  else if off == 0x1B4 then
    let keep (n : Nat) (old : Bool) : Bool := s.w1c (.dStatus a.code n) old v n
    s.setD a (fun p => { p with done := keep 1 p.done, suspended := keep 2 p.suspended, equal := keep 3 p.equal,
                                notEqual := keep 4 p.notEqual, denied := keep 5 p.denied, overrun := keep 6 p.overrun,
                                seqErr := keep 7 p.seqErr, importRefused := keep 8 p.importRefused })
  else if 0x180 ≤ off && off < 0x1B0 then
    s.setD a (fun p => { p with expect := putBits p.expect (8 * (off - 0x180)) 32 v })
  else if 0x1000 ≤ off && off < 0x11B8 then
    let whole := d.blob ++ List.replicate (440 - d.blob.length) 0
    s.setD a (fun p => { p with blob := whole.take (off - 0x1000) ++ leBytes 4 v ++ whole.drop (off - 0x1000 + 4) })
  else if off < 0x24 then
    if c.busy then s.cSeqErr a
    else if off == 0x00 then s.setC a (fun p => { p with slot := v % 64 })
    else if off == 0x04 then s.setC a (fun p => { p with op := v % 2 })
    else if off == 0x08 then s.setC a (fun p => { p with aadLen := v })
    else if off == 0x0C then s.setC a (fun p => { p with msgLen := v })
    else if 0x18 ≤ off then s.setC a (fun p => { p with iv := putBits p.iv (8 * (off - 0x18)) 32 v })
    else s
  else if off == 0x100 || off == 0x104 then
    if d.busy then s.dSeqErr a
    else if off == 0x100 then s.setD a (fun p => { p with alg := v })
    else s.setD a (fun p => { p with slot := v % 64 })
  else s

end Sys2Proof.Machine
end

