-- ==== Sys2Proof/Machine/Docent.lean ====
section
/-!
DEFINITION. The sync memory and the Docent cores (R357 to R378): the operations of Table 14-2, waiters and their wake, the
deadlock detector, the debug view, core faults and their repair, and power lending.
-/
namespace Sys2Proof.Machine

/-! Words and the debug view (Table 14-5) -/

/-- Set a sync word; a word at its reset value is not listed. -/
def State.setSyncWord (s : State) (w : Nat) (v : SyncWord) : State :=
  { s with sync := { s.sync with words := if v == {} then assocErase s.sync.words w else assocSet s.sync.words w v } }

/-- Set F of a word; a change names the agent and the frame (LAST_AGENT, LAST_FRAME). -/
def State.setFull (s : State) (w : Nat) (full : Bool) (agent : Nat) : State :=
  let x := s.syncWord w
  if x.full == full then s
  else s.setSyncWord w { x with full := full, lastAgent := agent, lastFrame := s.frameNo }

/-- Write the data of a word. -/
def State.setData (s : State) (w v : Nat) : State :=
  let x := s.syncWord w
  s.setSyncWord w { x with data := v % 2 ^ 64 }

/-- A logical core. -/
def State.core (s : State) (c : Fin 20) : DocentCore := s.docent.cores[c]

/-- Change a logical core. -/
def State.setCore (s : State) (c : Fin 20) (f : DocentCore → DocentCore) : State :=
  { s with docent := { s.docent with cores := s.docent.cores.set c (f s.docent.cores[c]) } }

/-- OWNER_THREAD, OWNER_CORE and OWNER_AGENT of the view word, as one field of 11 bits. -/
def State.ownerField (s : State) (o : Option SyncOwner) : Nat :=
  match o with
  | none => packFields [(2, 0), (5, 0), (4, 0xF)]
  | some (.agent a) => packFields [(2, 0), (5, 0), (4, a.code)]
  | some (.thread t) => packFields [(2, t.thread.val), (5, (s.core t.core).phys), (4, Agent.docent.code)]

/-- The debug-view word of word w (Table 14-5). -/
def State.viewWord (s : State) (w : Nat) : Nat :=
  let x := s.syncWord w
  packFields [(32, x.lastFrame), (9, 0), (4, x.lastAgent), (11, s.ownerField x.owner),
    (7, (s.sync.waiters.filter (fun y => y.word == w)).length), (1, if x.full then 1 else 0)]

/-! Results of threads (R359, R364, R374) -/

/-- A note in place of data: 1 UNDERFLOW, 2 WORD_LOST, 3 OWNER_RESET, 4 CANCELLED, 5 done. -/
def noteCode (n : Nat) : Nat := 2 ^ 64 + n

/-- A core's input log is full (R359). -/
def State.logFull (s : State) (c : Fin 20) : Bool := 2048 ≤ (s.core c).log.length

/-- Enter an event in a core's input log. -/
def State.logEvent (s : State) (c : Fin 20) (e : LogEvent) : State :=
  s.setCore c (fun x => { x with log := x.log ++ [e] })

/-- Hand a result to its thread. -/
def State.giveResult (s : State) (t : Thread) (w code : Nat) : State :=
  if code < 2 ^ 64 then s.send (.sync (.thread t) w code)
  else s.send (.syncNote (.thread t) w (code - 2 ^ 64))

/-- Wake a gated core (R377): at once while the saving of the cores woken since the boundary stays within the reserve,
otherwise at the next boundary. -/
def State.wakeCore (s : State) (c : Fin 20) : State :=
  let x := s.core c
  if !x.gated || x.waking then s
  else if s.docent.woken + 390 ≤ s.cfg Od.lendReserveMw then
    let s := s.setCore c (fun x => { x with gated := false })
    { s with docent := { s.docent with woken := s.docent.woken + 390 } }
  else (s.setCore c (fun x => { x with waking := true })).bump Od.lendWakeDelayCount

/-- A thread cannot take a result now: its core is frozen or its clock is gated. -/
def State.coreStopped (s : State) (c : Fin 20) : Bool := (s.core c).frozen.isSome || (s.core c).gated

/-- The result of a completed wait: logged, and held while the thread's core is stopped (R374, R377). -/
def State.deliver (s : State) (t : Thread) (w code : Nat) : State :=
  if s.logFull t.core then { s with sync := { s.sync with results := s.sync.results ++ [(t, 2 ^ 65 + code)] } }
  else
    let s := (s.logEvent t.core (.sync t.thread code)).wakeCore t.core
    if s.coreStopped t.core then { s with sync := { s.sync with results := s.sync.results ++ [(t, code)] } }
    else s.giveResult t w code

/-- The held results of a core are handed to its threads once it runs; the entry of a result that found the log full is
made now. -/
def State.releaseHeld (s : State) (c : Fin 20) : State :=
  if s.coreStopped c || s.logFull c then s
  else
    let mine := s.sync.results.filter (fun p => p.1.core == c)
    let s := { s with sync := { s.sync with results := s.sync.results.filter (fun p => p.1.core != c) } }
    mine.foldl (fun s p =>
      if p.2 < 2 ^ 65 then s.giveResult p.1 0 p.2
      else (s.logEvent c (.sync p.1.thread (p.2 - 2 ^ 65))).giveResult p.1 0 (p.2 - 2 ^ 65)) s

/-! Waiters (R364, R365) -/

/-- A thread's registered wait. -/
def State.waiter? (s : State) (t : Thread) : Option Waiter := s.sync.waiters.find? (fun w => w.who == t)

/-- Remove a thread's waiter. -/
def State.dropWaiter (s : State) (t : Thread) : State :=
  { s with sync := { s.sync with waiters := s.sync.waiters.filter (fun w => w.who != t) } }

/-- Complete a wait with a result. -/
def State.finishWait (s : State) (w : Waiter) (code : Nat) : State := (s.dropWaiter w.who).deliver w.who w.word code

/-- A waiter of a word that may complete now: its core's log has room for the result. -/
def State.canWake (s : State) (word : Nat) (w : Waiter) : Bool := w.word == word && !s.logFull w.who.core

/-- Serve the waiters of a word in registration order until none has its condition met (R365). -/
def State.wakeWord (s : State) (word : Nat) : Nat → State
  | 0 => s
  | k + 1 =>
    let x := s.syncWord word
    if x.full then
      match s.sync.waiters.find? (fun w => s.canWake word w && w.op == .readFf) with
      | some w => (s.finishWait w x.data).wakeWord word k
      | none =>
        match s.sync.waiters.find? (fun w => s.canWake word w && w.op == .readFe) with
        | some w => ((s.setFull word false 2).finishWait w x.data).wakeWord word k
        | none => s
    else
      match s.sync.waiters.findSome? (fun w =>
          match w.op with
          | .writeEf d => if s.canWake word w then some (w, d) else none
          | _ => none) with
      | some (w, d) => (((s.setData word d.toNat).setFull word true 2).finishWait w (noteCode 5)).wakeWord word k
      | none => s

/-- Serve the waiters of a word, then let the tasks that wait on sync words see them (R90). -/
def State.wake (s : State) (word : Nat) : State :=
  (s.wakeWord word (s.sync.waiters.length + 1)).observeSync

/-! The operations (Table 14-2) -/

/-- COUNT and TARGET of a tally word. -/
def tallyCount (v : Nat) : Nat := v % 2 ^ 32
def tallyTarget (v : Nat) : Nat := v / 2 ^ 32 % 2 ^ 32

/-- TALLY_ADD k (R364): COUNT saturates; F = 1 once COUNT is at least TARGET. -/
def State.tallyAdd (s : State) (word k agent : Nat) : State :=
  let v := (s.syncWord word).data
  let c := min (tallyCount v + k) (2 ^ 32 - 1)
  let s := s.setData word (tallyTarget v * 2 ^ 32 + c)
  if tallyTarget v ≤ c then s.setFull word true agent else s

/-- TALLY_SUB k (R369); none is the underflow. -/
def State.tallySub (s : State) (word k agent : Nat) : Option State :=
  let v := (s.syncWord word).data
  if tallyCount v < k then none
  else
    let c := tallyCount v - k
    let s := s.setData word (tallyTarget v * 2 ^ 32 + c)
    some (if c < tallyTarget v then s.setFull word false agent else s)

/-- The effect of an operation whose condition is met, with its result code. -/
def State.syncEffect (s : State) (owner : SyncOwner) (agent word : Nat) (op : SyncOp) : Nat × State :=
  let x := s.syncWord word
  match op with
  | .read => (x.data, s)
  | .write d => (noteCode 5, s.setData word d.toNat)
  | .readFf => (x.data, s)
  | .readFe => (x.data, s.setFull word false agent)
  | .writeEf d => (noteCode 5, (s.setData word d.toNat).setFull word true agent)
  | .writeXf d => (noteCode 5, (s.setData word d.toNat).setFull word true agent)
  | .setEmpty => (noteCode 5, s.setFull word false agent)
  | .setFull => (noteCode 5, s.setFull word true agent)
  | .fetchAdd k => (x.data, s.setData word (x.data + k.toNat))
  | .cas a b => (x.data, if x.data == a.toNat then s.setData word b.toNat else s)
  | .tallyAdd k => (x.data, s.tallyAdd word k.toNat agent)
  | .tallySub k =>
    match s.tallySub word k.toNat agent with
    | some s => (x.data, s)
    | none => (noteCode 1, s.countEvent Od.syncUnderflowCount word)
  | .status => (s.viewWord word, s)
  | .claim => (s.ownerField x.owner, s.setSyncWord word { x with owner := some owner })
  | .unclaim =>
    let s := s.setSyncWord word { x with owner := none }
    (noteCode 5, if s.sync.waiters.any (fun w => w.word == word) then s.countEvent Od.notAsFoundCount word else s)

/-- The condition of a waiting operation holds (Table 14-2). -/
def SyncOp.met (op : SyncOp) (full : Bool) : Bool :=
  match op with
  | .readFf => full | .readFe => full | .writeEf _ => !full
  | .read => true | .write _ => true | .writeXf _ => true | .setEmpty => true | .setFull => true | .fetchAdd _ => true
  | .cas _ _ => true | .tallyAdd _ => true | .tallySub _ => true | .status => true | .claim => true | .unclaim => true

/-- Cycles since reset, in DCLK. -/
def State.now (s : State) : Nat := s.time.frameExt * 160000 + s.time.cycle

/-- A thread performs an operation now: its event is logged with it (R359). -/
def State.performSync (s : State) (t : Thread) (word : Nat) (op : SyncOp) : State :=
  if Sys2Proof.Machine.SyncOp.met op (s.syncWord word).full then
    let (code, s) := s.syncEffect (.thread t) 2 word op
    ((s.logEvent t.core (.sync t.thread code)).giveResult t word code).wake word
  else
    let w : Waiter := { who := t, word := word, op := op, frame := s.frame }
    { s with sync := { s.sync with waiters := s.sync.waiters ++ [w] } }

/-- A thread issues nothing: its core is frozen, it waits, it is stalled, or a result is held for it. -/
def State.threadBusy (s : State) (t : Thread) : Bool :=
  !s.mainUp || (s.core t.core).frozen.isSome || (s.waiter? t).isSome ||
  (s.core t.core).stalled.any (fun p => p.1 == t.thread) || s.sync.results.any (fun p => p.1 == t)

/-- A Docent thread issues an operation (R364). A thread whose log is full stalls until the log is cleared (R359); an
operation of a gated core wakes it first (log entry 18). -/
def State.threadOp (s : State) (t : Thread) (word : Nat) (op : SyncOp) : State :=
  if s.threadBusy t then s
  else
    let s := s.wakeCore t.core
    if (s.core t.core).gated then s
    else if s.logFull t.core then
      s.setCore t.core (fun x => { x with stalled := x.stalled ++ [(t.thread, word, op, s.now)] })
    else s.performSync t word op

/-- The stalled operations of a core are performed once its log has been cleared; their stall is counted in Docent cycles
(three for four DCLK cycles). -/
def State.runStalled (s : State) (c : Fin 20) : State :=
  let ops := (s.core c).stalled
  let s := s.setCore c (fun x => { x with stalled := [] })
  ops.foldl (fun s p =>
    (s.total Od.logFullStallCycles ((s.now - p.2.2.2) * 3 / 4)).threadOp { core := c, thread := p.1 } p.2.1 p.2.2.1) s

/-! The sync window (R367, Table 14-3) -/

/-- An access denied under R59. -/
def State.denyCw (s : State) (path : CwPath) (tag : Option Nat) : State :=
  (s.bump Od.cwDeniedCount).send (.cwCpl path tag 0x10 0)

/-- A host access of the sync window: performed in full, answered with its result; DEBUG may make reads only. -/
def State.hostSync (s : State) (path : CwPath) (word : Nat) (op : SyncOp) (reads : Bool) (f : Nat → Nat) : State :=
  if !s.cwOpen path then s
  else if path == .debug && !reads then s.denyCw path none
  else
    let (code, s) := s.syncEffect (.agent path.agent) path.agent.code word op
    (s.send (.cwCpl path none 0 (if reads then f code else 0))).wake word

/-- A sync operation from either side. -/
def State.syncFrom (s : State) (who : SyncWho) (word : Nat) (op : SyncOp) (reads : Bool) (f : Nat → Nat) : State :=
  match who with
  | .thread t => s.threadOp t word op
  | .host p => s.hostSync p word op reads f

/-- SYNC_READ (R364, R367). -/
def execSyncRead (who : SyncWho) (word : BitVec 16) (wide : Bool) (s : State) : Out :=
  .next (s.syncFrom who word.toNat .read true (fun v => if wide then v else v % 2 ^ 32))

/-- SYNC_WRITE (R364). -/
def execSyncWrite (t : Thread) (word : BitVec 16) (data : BitVec 64) (s : State) : Out :=
  .next (s.threadOp t word.toNat (.write data))

/-- READ_FF (R364). -/
def execReadFf (t : Thread) (word : BitVec 16) (s : State) : Out := .next (s.threadOp t word.toNat .readFf)

/-- READ_FE (R364). -/
def execReadFe (t : Thread) (word : BitVec 16) (s : State) : Out := .next (s.threadOp t word.toNat .readFe)

/-- WRITE_EF (R364). -/
def execWriteEf (t : Thread) (word : BitVec 16) (data : BitVec 64) (s : State) : Out :=
  .next (s.threadOp t word.toNat (.writeEf data))

/-- WRITE_XF (R364, R367). The earlier writes of the thread have been accepted (R366, log entry 19). -/
def execWriteXf (who : SyncWho) (word : BitVec 16) (data : BitVec 64) (s : State) : Out :=
  .next (s.syncFrom who word.toNat (.writeXf data) false id)

/-- SET_EMPTY (R364, R367). -/
def execSetEmpty (who : SyncWho) (word : BitVec 16) (s : State) : Out :=
  .next (s.syncFrom who word.toNat .setEmpty false id)

/-- SET_FULL (R364, R367). -/
def execSetFull (who : SyncWho) (word : BitVec 16) (s : State) : Out :=
  .next (s.syncFrom who word.toNat .setFull false id)

/-- FETCH_ADD (R364). -/
def execFetchAdd (t : Thread) (word : BitVec 16) (k : BitVec 64) (s : State) : Out :=
  .next (s.threadOp t word.toNat (.fetchAdd k))

/-- CAS (R364). -/
def execCas (t : Thread) (word : BitVec 16) (a b : BitVec 64) (s : State) : Out :=
  .next (s.threadOp t word.toNat (.cas a b))

/-- TALLY_ADD (R364). -/
def execTallyAdd (t : Thread) (word : BitVec 16) (k : BitVec 64) (s : State) : Out :=
  .next (s.threadOp t word.toNat (.tallyAdd k))

/-- TALLY_SUB (R369). -/
def execTallySub (t : Thread) (word : BitVec 16) (k : BitVec 64) (s : State) : Out :=
  .next (s.threadOp t word.toNat (.tallySub k))

/-- SYNC_STATUS (R364, R367: the host's 4-byte read returns bits [63:32]). -/
def execSyncStatus (who : SyncWho) (word : BitVec 16) (s : State) : Out :=
  .next (s.syncFrom who word.toNat .status true (fun v => v / 2 ^ 32))

/-- CLAIM (R364, R371). -/
def execClaim (who : SyncWho) (word : BitVec 16) (s : State) : Out := .next (s.syncFrom who word.toNat .claim false id)

/-- UNCLAIM (R370). -/
def execUnclaim (who : SyncWho) (word : BitVec 16) (s : State) : Out :=
  .next (s.syncFrom who word.toNat .unclaim false id)

/-- WAIT_CANCEL (R372): the thread's waiter is removed, or its completed wait gives its result. With neither the spec
states no result (a free value). -/
def State.waitCancel (s : State) (t : Thread) : State :=
  if !s.mainUp || (s.core t.core).frozen.isSome then s
  else match s.waiter? t with
    | some w =>
      (((s.dropWaiter t).logEvent t.core (.sync t.thread (noteCode 4))).giveResult t w.word (noteCode 4)).observeSync
    | none =>
      match s.sync.results.find? (fun p => p.1 == t) with
      | some p =>
        State.giveResult { s with sync := { s.sync with results := s.sync.results.filter (fun x => x.1 != t) } } t 0
          (p.2 % 2 ^ 65)
      | none =>
        let (v, s) := s.free
        (s.logEvent t.core (.sync t.thread v)).giveResult t 0 v

/-- WAIT_CANCEL (R372). -/
def execWaitCancel (t : Thread) (s : State) : Out := .next (s.waitCancel t)

/-- SYNC_BAD_CMD (R367): a command write of a value other than 1 to 4 is counted and ignored. -/
def execSyncBadCmd (path : CwPath) (_word : BitVec 16) (value : BitVec 32) (s : State) : Out :=
  .next <|
    if !s.cwOpen path then s
    else if path == .debug then s.denyCw path none
    else if 1 ≤ value.toNat && value.toNat ≤ 4 then s
    else (s.bump Od.syncBadCmdCount).send (.cwCpl path none 0 0)

/-- SYNC_WORD_UE (R368): the word is emptied and loses its owner, and its waiters end with WORD_LOST. -/
def execSyncWordUe (word : BitVec 16) (s : State) : Out :=
  .next <|
    if !s.mainUp then s
    else
      let w := word.toNat
      let x := s.syncWord w
      let lost := s.sync.waiters.filter (fun y => y.word == w)
      let s := s.bump Od.syncUeCount
      let s := s.setSyncWord w { x with data := 0, full := false, owner := none,
                                        lastFrame := if x.full then s.frameNo else x.lastFrame }
      let s := lost.foldl (fun s y => s.finishWait y (noteCode 2)) s
      s.observeSync.event Od.syncUeCount w

/-- The words that an agent owns. -/
def State.ownedBy (s : State) (a : Agent) : List Nat :=
  (s.sync.words.filter (fun p => p.2.owner == some (.agent a))).map (·.1)

/-- The words of a host agent are unclaimed and their waiters end with OWNER_RESET (R373). -/
def State.ownerReset (s : State) (a : Agent) : State :=
  let ws := s.ownedBy a
  let waits := s.sync.waiters.filter (fun y => ws.contains y.word)
  let s := ws.foldl (fun s w => let x := s.syncWord w; s.setSyncWord w { x with owner := none }) s
  waits.foldl (fun s y => s.finishWait y (noteCode 3)) s

/-- SYNC_OWNER_RESET (R373): an agent names its own ID; any other is refused with the access abort code. -/
def State.ownerResetWrite (s : State) (agent : Agent) (v : Nat) : Nat × State :=
  if v == agent.code then (0, s.ownerReset agent) else (abAccess, s)

/-- SYNC_OWNER_RESET (R373). -/
def execSyncOwnerReset (agent : Agent) (value : BitVec 8) (s : State) : Out :=
  .next (s.odRow agent Od.syncOwnerReset.key [value] fun s => s.ownerResetWrite agent value.toNat)

/-! The deadlock detector (R375) -/

/-- A wait is suspect: registered for DEADLOCK_FRAMES frames. -/
def State.suspectWait (s : State) (w : Waiter) : Bool := s.lapsed w.frame (s.cfg Od.deadlockFrames)

/-- The threads met by following owners from a wait, through threads whose own waits are suspect; none where the walk
leaves them. -/
def State.ownerWalk (s : State) (goal : Thread) : Nat → Nat → Option (List Thread)
  | 0, _ => none
  | k + 1, word =>
    match (s.syncWord word).owner with
    | some (.thread t) =>
      if t == goal then some [t]
      else match s.waiter? t with
        | some w => if s.suspectWait w then (s.ownerWalk goal k w.word).map (fun l => t :: l) else none
        | none => none
    | _ => none

/-- Class one suspect wait that has not been reported. -/
def State.classWait (s : State) (idle : List Thread) (who : Thread) : State :=
  match s.waiter? who with
  | none => s
  | some w =>
    if w.cls != 0 || !s.suspectWait w then s
    else
      let mark (s : State) (p : Thread → Bool) (c : Nat) : State :=
        { s with sync := { s.sync with waiters := mapIf s.sync.waiters (fun y => p y.who && y.cls == 0) (fun y =>
            { y with cls := c }) } }
      match s.ownerWalk who (s.sync.waiters.length + 1) w.word with
      | some ring =>
        let members := s.sync.waiters.filter (fun y => ring.contains y.who)
        let s := (mark s (fun t => ring.contains t) 3).bump Od.deadlockCount
        members.foldl (fun s y =>
          s.event Od.deadlockCount y.word (4 * (s.core y.who.core).phys + y.who.thread.val)) s
      | none =>
        let thread := 4 * (s.core who.core).phys + who.thread.val
        match (s.syncWord w.word).owner with
        | some (.thread t) =>
          if idle.contains t && (s.waiter? t).isNone then
            (mark s (fun x => x == who) 2).countEvent Od.orphanCount w.word thread
          else (mark s (fun x => x == who) 1).countEvent Od.stallCount w.word thread
        | _ => (mark s (fun x => x == who) 1).countEvent Od.stallCount w.word thread

/-- DEADLOCK_SCAN (R375). -/
def execDeadlockScan (idle : List Thread) (s : State) : Out :=
  .next ((s.sync.waiters.map (·.who)).foldl (fun s t => s.classWait idle t) s)

/-- The 16-byte record of a wait in SYNC_WAIT_TABLE (R376). -/
def SyncOp.code (op : SyncOp) : Nat :=
  match op with
  | .read => 0 | .write _ => 1 | .readFf => 2 | .readFe => 3 | .writeEf _ => 4 | .writeXf _ => 5 | .setEmpty => 6
  | .setFull => 7 | .fetchAdd _ => 8 | .cas _ _ => 9 | .tallyAdd _ => 10 | .tallySub _ => 11 | .status => 12
  | .claim => 13 | .unclaim => 14

def State.waitRecord (s : State) (w : Waiter) : Bytes :=
  leBytes 4 w.word ++ leBytes 1 (SyncOp.code w.op) ++ leBytes 1 (s.core w.who.core).phys ++
  leBytes 1 w.who.thread.val ++ leBytes 1 w.cls ++ leBytes 8 w.frame

/-- SYNC_WAIT_TABLE, in thread order (R376). -/
def State.waitTable (s : State) : Bytes :=
  (List.finRange 20).flatMap fun c => (List.finRange 4).flatMap fun n =>
    match s.waiter? { core := c, thread := n } with
    | some w => s.waitRecord w
    | none => []

/-! Power lending (R377) -/

/-- Every thread of a core has been idle or waiting since LEND_WAIT_FRAMES boundaries. -/
def State.coreQuiet (s : State) (c : Fin 20) (idle : BitVec 4) : Bool :=
  (List.finRange 4).all fun n =>
    bitOf idle n.val ||
    (match s.waiter? { core := c, thread := n } with
     | some w => s.lapsed w.frame (s.cfg Od.lendWaitFrames)
     | none => false)

/-- CORE_GATE (R377). -/
def execCoreGate (core : Fin 20) (idle : BitVec 4) (highRank : Bool) (s : State) : Out :=
  .next <|
    if s.mainUp && s.cfg Od.lendEnable == 1 && !highRank && (s.core core).frozen.isNone && s.coreQuiet core idle then
      s.setCore core (fun x => { x with gated := true })
    else s

/-- Power lent (R377): the saving of the gated cores less the reserve, rounded down to 100 mW. -/
def State.powerLent (s : State) : Nat :=
  let saving := 390 * (s.docent.cores.toList.filter (fun c => c.gated)).length
  (saving - s.cfg Od.lendReserveMw) / 100 * 100

/-! Core faults (R361 to R363) -/

/-- Freeze a core on a fault: counted, its uncommitted state dropped; its waits become held. -/
def State.coreFault (s : State) (c : Fin 20) : State :=
  if !s.mainUp || (s.core c).frozen.isSome then s
  else
    let s := s.bump Od.docentFaultCount
    let s := if s.trialing then s.setService fun v => { v with trialBad := true } else s
    s.setCore c (fun x =>
      { x with frozen := some (s.frame, x.phys), stalled := [], gated := false, waking := false, pinSwap := false })

/-- SNAPSHOT_DEADLINE (R361): 1,200 Docent cycles (1,600 of DCLK) after the boundary. -/
def execSnapshotDeadline (core : Fin 20) (s : State) : Out :=
  .next (if 1600 ≤ s.time.cycle then s.coreFault core else s)

/-- DOCENT_CORE_FAULT (R361). -/
def execDocentCoreFault (core : Fin 20) (s : State) : Out := .next (s.coreFault core)

/-- Insert a core into the spare pool, which is kept in order of number. -/
def insertCore (l : List Nat) (c : Nat) : List Nat := l.filter (· < c) ++ [c] ++ l.filter (fun x => c < x)

/-- The end of a core repair: the failed physical core is retired or returns to the spare pool. -/
def State.settleCore (s : State) (phys : Nat) (fails : Bool) : State :=
  if fails then
    let s := { s with docent := { s.docent with retired := addOnce s.docent.retired phys } }
    let name := s.partName (partId 7 phys) phys
    ((s.bump Od.docentRetireCount).retirePart (partId 7 phys)).event Od.docentRetireCount name
  else
    let s := { s with docent := { s.docent with spares := insertCore s.docent.spares phys } }
    let s := s.odSet Od.docentSparesLeft s.docent.spares.length
    ((s.bump Od.docentTransientCount).scoreTransient (partId 7 phys)).event Od.docentTransientCount phys

/-- A logical core takes a physical core and runs on, its held results replayed. -/
def State.remapCore (s : State) (c : Fin 20) (phys : Nat) : State :=
  (s.setCore c (fun x => { x with phys := phys, frozen := none, pinSwap := false })).releaseHeld c

/-- A core exchanged under a pin has run item 6 (Table 17-6): a pass ends the pin clean and the core joins the spares. -/
def State.settlePinned (s : State) (phys : Nat) (fails : Bool) : State :=
  if fails then s.settleCore phys true
  else
    let s := { s with docent := { s.docent with spares := insertCore (s.docent.spares.filter (fun x => x != phys)) phys } }
    (s.odSet Od.docentSparesLeft s.docent.spares.length).pinClean (partId 7 phys)

/-- PIN_CHECK of a Docent core (Table 17-6): at the first matching boundary it is exchanged with a spare by the means of R361,
with no fault counted; a core among the spares runs item 6 at once. -/
def State.pinCore (s : State) (phys : Nat) (bad : List (BitVec 16)) : State :=
  if s.docent.spares.contains phys then
    let fails := bad.any (fun x => x.toNat == phys)
    let s := bif fails then { s with docent := { s.docent with spares := s.docent.spares.filter (fun x => x != phys) } } else s
    (s.odSet Od.docentSparesLeft s.docent.spares.length).settlePinned phys fails
  else match (List.finRange 20).find? (fun c => (s.core c).phys == phys) with
    | some c =>
      if (s.core c).frozen.isSome || s.docent.spares.isEmpty then s
      else s.setCore c (fun x =>
        { x with frozen := some (s.frame, phys), stalled := [], gated := false, waking := false, pinSwap := true })
    | none => s

/-- DOCENT_REPAIR (R361, R363): the two repair frames have passed. -/
def execDocentRepair (core : Fin 20) (fails : Bool) (lightest : Fin 20) (s : State) : Out :=
  .next <|
    match (s.core core).frozen with
    | none => s
    | some (f, phys) =>
      if !s.lapsed f 2 then s
      else
        let swap := (s.core core).pinSwap
        let bad := fails || s.pinned (partId 7 phys)
        match s.docent.spares with
        | spare :: rest =>
          let s := { s with docent := { s.docent with spares := rest } }
          let s := (s.odSet Od.docentSparesLeft rest.length).remapCore core spare
          if swap then s.settlePinned phys fails else s.settleCore phys bad
        | [] =>
          if swap && !fails then (s.remapCore core phys).pinClean (partId 7 phys)
          else if (s.core lightest).frozen.isSome then s
          else
            let s := s.odSet Od.docentActive (s.odGet Od.docentActive - 1)
            let s := (s.event Od.docentActive phys).remapCore core (s.core lightest).phys
            s.settleCore phys bad

/-- DOCENT_MAP (R384): the physical core of each logical core. -/
def State.docentMap (s : State) : Bytes := s.docent.cores.toList.map (fun c => BitVec.ofNat 8 c.phys)

/-- The boundary's part for one core (R358, R377): its saved context becomes this snapshot and its log is cleared, unless
the drain is late; a waking core runs on. -/
def State.coreBoundary (s : State) (late : List (BitVec 5)) (c : Fin 20) : State :=
  let x := s.core c
  let s := if x.waking then s.setCore c (fun x => { x with gated := false, waking := false }) else s
  if x.frozen.isSome then s
  else if late.contains (BitVec.ofNat 5 c.val) then (s.bump Od.contextSaveLateCount).releaseHeld c
  else ((s.setCore c (fun x => { x with saved := s.frame, log := [] })).releaseHeld c).runStalled c

/-- CONTEXT_SNAPSHOT for every core (R358); waiters that found their core's log full are served (R359). -/
def State.snapshotCores (s : State) (late : List (BitVec 5)) : State :=
  let s := { s with docent := { s.docent with woken := 0 } }
  let s := (List.finRange 20).foldl (fun s c => s.coreBoundary late c) s
  (s.sync.waiters.map (·.word)).foldl (fun s w => s.wake w) s

end Sys2Proof.Machine
end

