-- ==== Sys2Proof/Machine/Mailbox.lean ====
section
/-!
DEFINITION. The mailboxes (R379 to R383): host accesses of a channel page, messages of both directions and their
acknowledges.
-/
namespace Sys2Proof.Machine

/-- Change a mailbox channel. -/
def State.setMbox (s : State) (ch : Channel) (f : Mailbox → Mailbox) : State :=
  { s with mboxes := s.mboxes.set ch (f s.mboxes[ch]) }

/-- The 256 bytes of a message area. -/
def areaBytes (area : List (Nat × Byte)) : Bytes := (List.range 256).map (fun i => (assoc area i).getD 0)

/-- Write bytes into a message area; zero bytes are not listed. -/
def areaWrite (area : List (Nat × Byte)) (off : Nat) (bs : Bytes) : List (Nat × Byte) :=
  (bs.mapIdx (fun i b => (off + i, b))).foldl
    (fun a p => if p.2 == 0 then assocErase a p.1 else assocSet a p.1 p.2) area

/-- STATUS of a host access of a mailbox page (R59, R379): 0x10 DENIED, 0x11 MISALIGNED. -/
def mboxStatus (path : CwPath) (ch : Channel) (offset size : Nat) : Nat :=
  if path == .debug || (path == .hostNs && 8 ≤ ch.val) then 0x10
  else if size != 4 || offset % 4 != 0 then 0x11
  else 0

/-- A host access of a mailbox page: refused by its status, or performed. -/
def State.mboxAccess (s : State) (path : CwPath) (ch : Channel) (offset size : Nat) (f : State → State) : State :=
  if !s.cwOpen path then s
  else
    let st := mboxStatus path ch offset size
    if st == 0x10 then s.denyCw path none
    else if st != 0 then s.send (.cwCpl path none st 0)
    else (f s).send (.cwCpl path none 0 0)

/-- INTR of a channel, at most one per frame (R381). -/
def State.mboxIntr (s : State) (ch : Channel) : State :=
  let m := s.mboxes[ch]
  if m.intrFrame == some s.frame then s
  else (s.setMbox ch (fun m => { m with intrFrame := some s.frame })).intr (m.control % 256)

/-- A write or ring refused while H2E_BUSY is 1 (R381). -/
def State.mboxSeqErr (s : State) (ch : Channel) : State :=
  ((s.bump Od.mboxSeqErrCount).setMbox ch (fun m => { m with seqErr := true })).raise (.mboxSeqErr ch.val)

/-! Messages (Table 14-8) -/

/-- Fields of a message of 256 bytes. -/
def msgOpcode (bs : Bytes) : Nat := leNat ((bs.drop 14).take 2)
def msgSeq (bs : Bytes) : Nat := leNat ((bs.drop 12).take 2)
def msgLength (bs : Bytes) : Nat := leNat ((bs.drop 11).take 1)
def msgWriters (bs : Bytes) : Nat := leNat ((bs.drop 9).take 2)
def msgSender (bs : Bytes) : Nat := leNat ((bs.drop 8).take 1) / 16

/-- Stamp SENDER and WRITERS into a message (R380); bits [67:64] are reserved. -/
def stampMsg (bs : Bytes) (sender : Nat) (writers : List Nat) : Bytes :=
  let mask := (writers.eraseDups.map (fun n => 2 ^ n)).foldl (· + ·) 0
  bs.take 8 ++ leBytes 1 (sender * 16) ++ leBytes 2 mask ++ bs.drop 11

/-- The service table in force (R384, R390): the active image's, or the boot ROM's. -/
def State.services (s : State) : Bytes :=
  match s.service.active with
  | some b => b.services
  | none => Config.romServices

/-- An OPCODE stands in a service table of 8-byte records. -/
def hasService (op : Nat) : Nat → Bytes → Bool
  | 0, _ => false
  | k + 1, t => 8 ≤ t.length && (leNat (t.take 2) == op || hasService op k (t.drop 8))

/-- The engine's answer to a snapshot (Table 14-10), 0 when it passes every check. -/
def State.msgCheck (s : State) (bs : Bytes) (corrupt : Bool) : Nat :=
  if corrupt then 0xFFFE
  else if 240 < msgLength bs || 0x8000 ≤ msgOpcode bs then 0xFFFD
  else if msgWriters bs != 0 && msgWriters bs != 2 ^ msgSender bs then 0xFFFC
  else if !hasService (msgOpcode bs) (s.services.length / 8) s.services then 0xFFFB
  else 0

/-- Acknowledge the H2E message of a channel: DONE with SEQ and a code, H2E_BUSY cleared, INTR when enabled (R380). -/
def State.ackH2e (s : State) (ch : Channel) (seq code : Nat) : State :=
  let s := s.setMbox ch (fun m =>
    { m with ackDone := true, ackSeq := seq % 256, ackCode := code, h2eBusy := false, snapshot := none,
             h2eFrame := none, h2eBell := m.h2eBell &&& 0xFFFFFFFE })
  let s := s.raise (.ackDone ch.val)
  if s.mboxes[ch].control / 256 % 2 == 1 then s.mboxIntr ch else s

/-- Ring of H2E bit 0 (R380): snapshot, stamps, checks, presentation. -/
def State.ringMessage (s : State) (ch : Channel) (sender : Nat) (corrupt : Bool) : State :=
  let m := s.mboxes[ch]
  let snap := stampMsg (areaBytes m.h2eMsg) sender m.writers
  let s := s.setMbox ch (fun m => { m with h2eBusy := true, writers := [] })
  let code := s.msgCheck snap corrupt
  if code != 0 then (s.bump Od.mboxErrCount).ackH2e ch (msgSeq snap) code
  else
    let cls := s.cfg (Od.mboxClass ch.val)
    let s := s.setMbox ch (fun m =>
      { m with snapshot := some snap, h2eFrame := some s.frame, h2eBell := m.h2eBell ||| 1, cls := cls })
    (s.total Od.mboxMsgCount 1).send (.mailbox ch.val snap)

/-- A doorbell write: signals are set, bit 0 carries a message (R380, R381). -/
def State.ringH2e (s : State) (ch : Channel) (agent : Nat) (value : BitVec 32) (corrupt : Bool) : State :=
  let s := s.setMbox ch (fun m => { m with h2eBell := m.h2eBell ||| (value &&& 0xFFFFFFFE) })
  let s := if value == 0 then s else s.setSched fun c => { c with active := true }
  if !bitOf value 0 then s
  else if s.mboxes[ch].h2eBusy then s.mboxSeqErr ch
  else if bitOf s.mboxes[ch].h2eBell 0 then s
  else s.ringMessage ch agent corrupt

/-- H2E_DOORBELL (R380), a wake event (R101). -/
def execH2eDoorbell (path : CwPath) (ch : Channel) (size : BitVec 8) (value : BitVec 32) (corrupt : Bool) (s : State) :
    Out :=
  .next (s.mboxAccess path ch 0x200 size.toNat (fun s => s.wakeUp.ringH2e ch path.agent.code value corrupt))

/-- A write of the H2E message area (R381). -/
def State.writeH2e (s : State) (ch : Channel) (agent offset : Nat) (value : BitVec 32) : State :=
  if s.mboxes[ch].h2eBusy then s.mboxSeqErr ch
  else s.setMbox ch (fun m =>
    { m with h2eMsg := areaWrite m.h2eMsg offset (leBytes 4 value.toNat), writers := addOnce m.writers agent })

/-- H2E_MSG (R379, R381). -/
def execH2eMsg (path : CwPath) (ch : Channel) (offset : BitVec 8) (size : BitVec 8) (value : BitVec 32) (s : State) :
    Out :=
  .next (s.mboxAccess path ch offset.toNat size.toNat (fun s => s.writeH2e ch path.agent.code offset.toNat value))

/-- MBOX_ACK (R380, R382): an acknowledge that follows its timeout is dropped and counted. -/
def execMboxAck (ch : Channel) (seq code : BitVec 16) (s : State) : Out :=
  .next <|
    let m := s.mboxes[ch]
    if m.h2eBusy && (m.snapshot.map msgSeq) == some seq.toNat then s.ackH2e ch seq.toNat code.toNat
    else if m.late.contains seq.toNat then
      (s.bump Od.mboxLateAckCount).setMbox ch (fun m => { m with late := m.late.erase seq.toNat })
    else s

/-- E2H_SEND (R381): firmware writes no further message while one is unacknowledged. -/
def execE2hSend (ch : Channel) (msg : Option Bytes) (bits : BitVec 32) (s : State) : Out :=
  .next <|
    if !s.mainUp then s
    else match msg with
      | none => s.ringE2h ch.val bits
      | some bs =>
        if s.mboxes[ch].e2hValid then s
        else
          let bytes := stampMsg (areaBytes (areaWrite [] 0 (bs.take 256))) Agent.docent.code [Agent.docent.code]
          let s := s.setMbox ch (fun m =>
            { m with e2hMsg := areaWrite [] 0 bytes, e2hValid := true, e2hFrame := some s.frame })
          s.ringE2h ch.val bits

/-- E2H_ACK (R381). -/
def execE2hAck (path : CwPath) (ch : Channel) (size : BitVec 8) (value : BitVec 32) (s : State) : Out :=
  .next (s.mboxAccess path ch 0x210 size.toNat (fun s =>
    if s.mboxes[ch].e2hValid then
      s.setMbox ch (fun m => { m with e2hValid := false, e2hFrame := none, e2hCode := bitsOf value 15 0 })
    else s))

/-- MBOX_TIMEOUT (R382), of the H2E or the E2H side; the timeout of an E2H message is reported to firmware (log entry
26). -/
def execMboxTimeout (ch : Channel) (e2h : Bool) (s : State) : Out :=
  .next <|
    let m := s.mboxes[ch]
    let n := s.cfg Od.mboxTimeoutFrames
    if e2h then
      match m.e2hFrame with
      | some f =>
        if m.e2hValid && s.lapsed f n then
          let s := (s.bump Od.mboxTimeoutCount).setMbox ch (fun m =>
            { m with e2hValid := false, e2hTimeout := true, e2hFrame := none })
          (s.raise (.e2hTimeout ch.val)).send (.mailbox ch.val [])
        else s
      | none => s
    else
      match m.h2eFrame with
      | some f =>
        if m.h2eBusy && s.lapsed f n then
          let seq := (m.snapshot.map msgSeq).getD 0
          let s := s.setMbox ch (fun m => { m with late := addOnce m.late seq })
          (s.bump Od.mboxTimeoutCount).ackH2e ch seq 0xFFFF
        else s
      | none => s

/-- Firmware takes doorbell bits in a frame (Table 14-7). -/
def State.takeBells (s : State) (l : List (Fin 16 × BitVec 32)) : State :=
  l.foldl (fun s p => s.setMbox p.1 (fun m => { m with h2eBell := m.h2eBell &&& ~~~p.2 })) s

end Sys2Proof.Machine
end

