-- ==== Sys2Proof/Machine/Lanes.lean ====
section
/-!
DEFINITION. Cyclic redundancy codes and the lane maps with spares that several units share (R131, R158, R174, R182).
-/
namespace Sys2Proof.Machine

/-- One byte of CRC-32C, reflected, polynomial 0x82F63B78 (log entry 27). -/
def crc32cBits : Nat → Nat → Nat
  | 0, c => c
  | k + 1, c => crc32cBits k (if c % 2 == 1 then (c / 2) ^^^ 0x82F63B78 else c / 2)

/-- CRC-32C of a byte string: initial value and final XOR of all ones (log entry 27). -/
def crc32c (bs : Bytes) : Nat := (bs.foldl (fun c b => crc32cBits 8 (c ^^^ b.toNat)) 0xFFFFFFFF) ^^^ 0xFFFFFFFF

/-- One byte of CRC-8 with polynomial x^8 + x^2 + x + 1. -/
def crc8Bits : Nat → Nat → Nat
  | 0, c => c
  | k + 1, c => crc8Bits k (if 128 ≤ c then (2 * c % 256) ^^^ 7 else 2 * c)

/-- CRC-8 of a byte string, initial value 0 (Table 08-2). -/
def crc8 (bs : Bytes) : Nat := bs.foldl (fun c b => crc8Bits 8 (c ^^^ b.toNat)) 0

/-- Healthy spares of a pool of physical lanes, ascending. -/
def spareLanes (pool : Nat) (map retired : List Nat) : List Nat :=
  (List.range pool).filter (fun x => !map.contains x && !retired.contains x)

/-- A lane leaves a map: the given spare takes its place, or the lanes that remain close up (R131). -/
def replaceLane (map : List Nat) (lane : Nat) (spare : Option Nat) : List Nat :=
  match spare with
  | some q => map.map (fun x => if x == lane then q else x)
  | none => map.filter (fun x => x != lane)

/-- Bytes of a lane map of n logical lanes; a byte at or above the active count reads 0xFF (R133). -/
def mapBytes (n : Nat) (map : List Nat) : Bytes :=
  (List.range n).map (fun i => BitVec.ofNat 8 (map.getD i 0xFF))

/-- The spare that holds a rotating role. -/
def roleSpare (spares : List Nat) (at_ : Nat) : Option Nat := spares[at_ % max 1 spares.length]?

/-- The next position of a rotating role among n spares (R129, R157, R180). -/
def nextRole (n at_ : Nat) : Nat := if n == 0 then 0 else (at_ + 1) % n

end Sys2Proof.Machine
end

