-- ==== Sys2Proof/Machine/Madder.lean ====
section
/-!
DEFINITION. Madder's coding (R162 to R184): symbols and residuals, canonical tables, block encoding and decoding,
generation images and slots, coder lanes. The commands that encode and decode a Leaf of an owner stand in Coder.lean.
-/
namespace Sys2Proof.Machine

/-! Symbols and residuals (Table 07-1) -/

/-- Exponent bits and fraction bits of a FORMAT. -/
def symbolBits (fmt : Nat) : Nat × Nat :=
  match fmt with
  | 0 => (8, 23) | 1 => (8, 7) | 2 => (5, 10) | 3 => (4, 3) | _ => (5, 2)

/-- Alphabet of a FORMAT. -/
def alphabet (fmt : Nat) : Nat := 2 ^ (symbolBits fmt).1

/-- The symbol of an element: its exponent field. -/
def symbolOf (fmt v : Nat) : Nat := v / 2 ^ (symbolBits fmt).2 % 2 ^ (symbolBits fmt).1

/-- The residual of an element: its sign followed by its fraction. -/
def residualOf (fmt v : Nat) : Nat :=
  let (e, f) := symbolBits fmt
  v / 2 ^ (e + f) % 2 * 2 ^ f + v % 2 ^ f

/-- The element of a symbol and a residual. -/
def joinSymbol (fmt sym res : Nat) : Nat :=
  let (e, f) := symbolBits fmt
  res / 2 ^ f % 2 * 2 ^ (e + f) + sym % 2 ^ e * 2 ^ f + res % 2 ^ f

/-- Bits of a residual. -/
def residualBits (fmt : Nat) : Nat := 1 + (symbolBits fmt).2

/-- Elements of a byte string of a given width. -/
def elemsOf (width : Nat) : Nat → Bytes → List Nat
  | 0, _ => []
  | k + 1, bs => leNat (bs.take width) :: elemsOf width k (bs.drop width)

/-- The bytes of elements. -/
def elemBytes (width : Nat) (vs : List Nat) : Bytes := vs.flatMap (leBytes width)

/-! Bit strings, most significant bit first (R165) -/

/-- The n low bits of a number, most significant first. -/
def bitsMsb : Nat → Nat → List Bool
  | 0, _ => []
  | k + 1, v => (v / 2 ^ k % 2 == 1) :: bitsMsb k v

/-- The number that bits spell, most significant first. -/
def bitsNat (l : List Bool) : Nat := l.foldl (fun a b => 2 * a + (if b then 1 else 0)) 0

/-- Pack bits into bytes; the last byte is padded with zero bits. -/
def packBits : Nat → List Bool → Bytes
  | 0, _ => []
  | k + 1, l =>
    let first := l.take 8
    BitVec.ofNat 8 (bitsNat first * 2 ^ (8 - first.length)) :: packBits k (l.drop 8)

/-- A bit string as bytes. -/
def bitBytes (l : List Bool) : Bytes := packBits (ceilDiv l.length 8) l

/-- The bits of bytes. -/
def bytesBits (bs : Bytes) : List Bool := bs.flatMap (fun b => bitsMsb 8 b.toNat)

/-- RAW_CHECK (R166): Fletcher-16 of raw bytes. -/
def rawCheck (bs : Bytes) : Nat :=
  let p := bs.foldl (fun (p : Nat × Nat) x => ((p.1 + x.toNat) % 255, (p.2 + (p.1 + x.toNat) % 255) % 255)) (0, 0)
  p.2 * 256 + p.1

/-! Canonical tables (R167) -/

/-- Symbols with a code of length n. -/
def lenCount (lengths : List Nat) (n : Nat) : Nat := if n == 0 then 0 else (lengths.filter (fun l => l == n)).length

/-- First code of each length 1 to n. -/
def firstCode (lengths : List Nat) : Nat → Nat
  | 0 => 0
  | n + 1 => (firstCode lengths n + lenCount lengths n) * 2

/-- Codes of a table by symbol: symbol, length, code. -/
def codesFrom (lengths : List Nat) : Nat → List Nat → List (Nat × Nat × Nat)
  | _, [] => []
  | s, l :: ls =>
    if l == 0 then codesFrom lengths (s + 1) ls
    else (s, l, firstCode lengths l + ((lengths.take s).filter (fun x => x == l)).length) ::
      codesFrom lengths (s + 1) ls

/-- The codes of a table. -/
def CodeTable.codes (t : CodeTable) : List (Nat × Nat × Nat) := codesFrom t.lengths 0 t.lengths

/-- A table is valid: a coded symbol, and a Kraft sum of at most 1. -/
def validLengths (lengths : List Nat) : Bool :=
  let sum := (lengths.map (fun l => if l == 0 then 0 else 2 ^ (15 - l))).foldl (· + ·) 0
  sum != 0 && sum ≤ 2 ^ 15

/-! Generation images (Tables 07-3, 07-4, R168) -/

/-- The 256 nibbles of a LENGTHS field. -/
def nibbles (bs : Bytes) : List Nat := bs.flatMap (fun b => [b.toNat % 16, b.toNat / 16])

/-- One table entry of 136 bytes, when it is legal. -/
def parseTable (bs : Bytes) : Option CodeTable :=
  let fmt := leNat (bs.take 1) % 16
  let ns := nibbles ((bs.drop 8).take 128)
  let n := alphabet fmt
  if 4 < fmt || (ns.drop n).any (fun x => x != 0) || !validLengths (ns.take n) then none
  else some { format := fmt, lengths := ns.take n }

/-- The table entries of an image. -/
def parseTables : Nat → Bytes → Option (List CodeTable)
  | 0, _ => some []
  | k + 1, bs =>
    match parseTable (bs.take 136), parseTables k (bs.drop 136) with
    | some t, some ts => some (t :: ts)
    | _, _ => none

/-- The generation of an image, when it passes the checks of R168 on its own content. -/
def parseGen (image : Bytes) : Option Generation :=
  let count := leNat ((image.drop 8).take 1)
  let id := leNat ((image.drop 6).take 2)
  if leNat (image.take 2) != 0x4D61 || leNat ((image.drop 4).take 1) != 1 || count == 0 || 64 < count ||
      image.length != 16 + 136 * count || leNat ((image.drop 12).take 4) != crc32c (image.drop 16) || id == 0 then none
  else (parseTables count (image.drop 16)).map (fun ts => { id := id, tables := ts, image := image })

/-! Block encoding (R169) -/

/-- The code of each symbol in a table, when every symbol has one. -/
def codesOf (codes : List (Nat × Nat × Nat)) : List Nat → Option (List (Nat × Nat))
  | [] => some []
  | s :: ss =>
    match codes.find? (fun c => c.1 == s), codesOf codes ss with
    | some c, some cs => some (c.2 :: cs)
    | _, _ => none

/-- The best table of a format for a list of symbols: bits, index and codes; ties keep the lower index. -/
def bestTable (fmt : Nat) (syms : List Nat) : Nat → List CodeTable → Option (Nat × Nat × List (Nat × Nat))
  | _, [] => none
  | i, t :: ts =>
    let rest := bestTable fmt syms (i + 1) ts
    if t.format != fmt then rest
    else match codesOf t.codes syms with
      | none => rest
      | some cs =>
        let bits := (cs.map (·.1)).foldl (· + ·) 0
        match rest with
        | some r => if r.1 < bits then some r else some (bits, i, cs)
        | none => some (bits, i, cs)

/-- Zero padding to a multiple of 8 bytes. -/
def pad8 (bs : Bytes) : Bytes := bs ++ List.replicate ((8 - bs.length % 8) % 8) 0

/-- Block header (Table 07-2). -/
def blockHeader (check gen codeBytes table : Nat) (esc : Bool) (count : Nat) : Bytes :=
  leBytes 8 (packFields [(12, count - 1), (1, if esc then 1 else 0), (6, table), (13, codeBytes), (16, gen),
    (16, check)])

/-- Length of a residual stream in bytes. -/
def residBytes (fmt count : Nat) : Nat := ceilDiv (count * residualBits fmt) 8

/-- Encode one block: the coded block and whether it is escaped (R165, R169). -/
def encodeBlockBytes (enable : Bool) (tables : List CodeTable) (gen fmt : Nat) (raw : Bytes) : Bytes × Bool :=
  let width := formatWidth fmt
  let count := raw.length / width
  let vs := elemsOf width count raw
  let escaped := (pad8 (blockHeader (rawCheck raw) gen 0 0 true count ++ raw), true)
  if !enable then escaped
  else match bestTable fmt (vs.map (symbolOf fmt)) 0 tables with
    | none => escaped
    | some (bits, t, cs) =>
      if 15 * raw.length / 16 < residBytes fmt count + ceilDiv bits 8 then escaped
      else
        let resid := bitBytes (vs.flatMap (fun v => bitsMsb (residualBits fmt) (residualOf fmt v)))
        let code := bitBytes (cs.flatMap (fun c => bitsMsb c.1 c.2))
        (pad8 (blockHeader (rawCheck raw) gen code.length t false count ++ resid ++ code), false)

/-! Block decoding (R172 to R174) -/

/-- Fields of a block header. -/
structure BlockHead where
  check : Nat
  gen   : Nat
  codeBytes : Nat
  table : Nat
  esc   : Bool
  count : Nat
  deriving DecidableEq, Repr

/-- Read a block header. -/
def blockHead (bs : Bytes) : BlockHead :=
  let v := leNat (bs.take 8)
  { check := v / 2 ^ 48 % 65536, gen := v / 2 ^ 32 % 65536, codeBytes := v / 2 ^ 19 % 8192, table := v / 2 ^ 13 % 64,
    esc := v / 2 ^ 12 % 2 == 1, count := v % 4096 + 1 }

/-- Length of a block's body before padding. -/
def BlockHead.body (h : BlockHead) (fmt : Nat) : Nat :=
  if h.esc then h.count * formatWidth fmt else residBytes fmt h.count + h.codeBytes

/-- Length of a block with its header and padding. -/
def BlockHead.length (h : BlockHead) (fmt : Nat) : Nat := 8 + ceilDiv (h.body fmt) 8 * 8

/-- Cut a coded Leaf into its blocks; none when they do not exactly fill it. -/
def cutBlocks (fmt : Nat) : Nat → Bytes → Option (List (BlockHead × Bytes))
  | 0, bs => if bs == [] then some [] else none
  | k + 1, bs =>
    if bs == [] then some []
    else if bs.length < 8 then none
    else
      let h := blockHead bs
      let n := h.length fmt
      if bs.length < n then none
      else (cutBlocks fmt k (bs.drop n)).map (fun l => (h, (bs.drop 8).take (h.body fmt)) :: l)

/-- One symbol from a bit string: the symbol and the bits left; none where no code matches. -/
def decodeSymbol (codes : List (Nat × Nat × Nat)) : Nat → Nat → Nat → List Bool → Option (Nat × List Bool)
  | 0, _, _, _ => none
  | _ + 1, _, _, [] => none
  | k + 1, len, acc, b :: bs =>
    let acc := 2 * acc + (if b then 1 else 0)
    match codes.find? (fun c => c.2.1 == len + 1 && c.2.2 == acc) with
    | some c => some (c.1, bs)
    | none => decodeSymbol codes k (len + 1) acc bs

/-- The symbols of a code stream. -/
def decodeSymbols (codes : List (Nat × Nat × Nat)) : Nat → List Bool → Option (List Nat)
  | 0, _ => some []
  | k + 1, bits =>
    match decodeSymbol codes 15 0 0 bits with
    | some (s, rest) => (decodeSymbols codes k rest).map (fun l => s :: l)
    | none => none

/-- Residuals of a residual stream. -/
def residuals (n : Nat) : Nat → List Bool → List Nat
  | 0, _ => []
  | k + 1, bits => bitsNat (bits.take n) :: residuals n k (bits.drop n)

/-- Decode one block's body: its raw bytes, or none for a code error. -/
def decodeBlock (fmt : Nat) (tables : List CodeTable) (h : BlockHead) (body : Bytes) : Option Bytes :=
  if h.esc then some body
  else match tables[h.table]? with
    | none => none
    | some t =>
      let rb := residBytes fmt h.count
      let res := residuals (residualBits fmt) h.count (bytesBits (body.take rb))
      (decodeSymbols t.codes h.count (bytesBits (body.drop rb))).map fun syms =>
        elemBytes (formatWidth fmt) ((syms.zip res).map (fun p => joinSymbol fmt p.1 p.2))

/-- What decoding a Leaf gives: its raw bytes, or an outcome of Table 07-9. -/
inductive DecodeResult
  | raw (bytes : Bytes)
  | bad (code detail detail2 : Nat)
  deriving DecidableEq, Repr

/-- The first block, by index, that satisfies a test. -/
def firstBlock (bs : List (BlockHead × Bytes)) (p : Nat → BlockHead → Bool) : Option (Nat × BlockHead) :=
  (bs.mapIdx (fun i b => (i, b.1))).find? (fun x => p x.1 x.2)

/-- Decode the blocks in order. -/
def decodeBlocks (fmt : Nat) (tables : List CodeTable) : Nat → List (BlockHead × Bytes) → DecodeResult
  | _, [] => .raw []
  | i, (h, body) :: rest =>
    match decodeBlock fmt tables h body with
    | none => .bad 0x1022 i (h.gen * 64 + h.table)
    | some bs =>
      if rawCheck bs != h.check then .bad 0x1023 i (h.check * 65536 + rawCheck bs)
      else match decodeBlocks fmt tables (i + 1) rest with
        | .raw more => .raw (bs ++ more)
        | .bad c d d2 => .bad c d d2

/-- Decode a coded Leaf of a format and an element count, with the generations that decode now (R172 to R174). DESIGN CHOICE
(log entry 169): conditions 1 and 2 of R172 name block 0 and the last block. -/
def decodeLeafBytes (gens : List Generation) (fmt count : Nat) (coded : Bytes) : DecodeResult :=
  match cutBlocks fmt (coded.length / 8 + 1) coded with
  | none => .bad 0x1020 0 1
  | some bs =>
    let last := bs.length - 1
    let thresh (n : Nat) : Nat := 15 * (n * formatWidth fmt) / 16
    if (bs.map (fun b => b.1.count)).foldl (· + ·) 0 != count then .bad 0x1020 last 2
    else match firstBlock bs (fun i h => i != last && h.count != 4096) with
    | some (i, _) => .bad 0x1020 i 3
    | none =>
    match firstBlock bs (fun _ h => some h.gen != (bs.head?.map (fun b => b.1.gen))) with
    | some (i, _) => .bad 0x1020 i 4
    | none =>
    match firstBlock bs (fun _ h => h.esc && (h.codeBytes != 0 || h.table != 0)) with
    | some (i, _) => .bad 0x1020 i 5
    | none =>
    match firstBlock bs (fun _ h => !h.esc && (h.gen == 0 || thresh h.count < residBytes fmt h.count + h.codeBytes)) with
    | some (i, _) => .bad 0x1020 i 6
    | none =>
    match firstBlock bs (fun _ h => !h.esc) with
    | none => decodeBlocks fmt [] 0 bs
    | some (i, h) =>
      match gens.find? (fun g => g.id == h.gen) with
      | none => .bad 0x1021 i h.gen
      | some g =>
        match firstBlock bs (fun _ h => !h.esc && (g.tables[h.table]?.map (·.format)) != some fmt) with
        | some (i, _) => .bad 0x1020 i 6
        | none => decodeBlocks fmt g.tables 0 bs

/-! Generations in use (R171, R176, R177) -/

/-- The generations that decode now: CURRENT, and PREVIOUS unless a load or recall accepted in this frame puts it out. -/
def State.liveGens (s : State) : List Generation :=
  s.madder.current.toList ++ (if s.madder.prevDead then [] else s.madder.previous.toList)

/-- The generation of a Leaf that names it, in either slot. -/
def State.genOf (s : State) (id : Nat) : Option Generation :=
  (s.madder.current.toList ++ s.madder.previous.toList).find? (fun g => g.id == id)

/-- A Leaf in quarantine references a generation (R175). -/
def State.genReferenced (s : State) (id : Nat) : Bool :=
  s.vault.quarantine.any (fun q => (blockHead q.coded).gen == id && 8 ≤ q.coded.length)

/-- A load or recall has not yet taken effect. -/
def State.genPending (s : State) : Bool := s.madder.load.isSome || s.madder.recalled.isSome

/-- PREVIOUS is referenced. -/
def State.prevReferenced (s : State) : Bool :=
  match s.madder.previous with
  | some g => s.genReferenced g.id
  | none => false

/-- The answer of the owner of MADDER_GEN_LOAD. -/
def State.genLoad (s : State) (image : Bytes) : Nat × State :=
  match parseGen image with
  | none => (abInvalid, s)
  | some g =>
    if s.genPending || (s.madder.current.map (·.id)) == some g.id || (s.madder.previous.map (·.id)) == some g.id ||
        s.prevReferenced then (abBusy, s)
    else (0, s.setMadder fun m => { m with load := some g, pendSince := s.frame, prevDead := true })

/-- The answer of the owner of MADDER_GEN_RECALL; the image already in PREVIOUS changes nothing. -/
def State.genRecall (s : State) (image : Bytes) : Nat × State :=
  match parseGen image with
  | none => (abInvalid, s)
  | some g =>
    if (s.madder.current.map (·.id)) == some g.id || s.genPending then (abBusy, s)
    else if (s.madder.previous.map (·.id)) == some g.id then (0, s)
    else if s.prevReferenced then (abBusy, s)
    else (0, s.setMadder fun m => { m with recalled := some g, pendSince := s.frame, prevDead := true })

/-- A dictionary write to an entry of generations; a refusal of the image is counted (R168). -/
def State.genWrite (s : State) (a : Agent) (key : Nat) (image : Bytes) (f : State → Nat × State) : Nat × State :=
  let (c, t) := s.odWriteWith a key image f
  if c == abInvalid || c == abBusy then (c, t.bump Od.genRefusedCount) else (c, t)

/-- MADDER_GEN_LOAD (R168, R176). -/
def execMadderGenLoad (agent : Agent) (image : Bytes) (s : State) : Out :=
  let (c, s) := s.genWrite agent Od.madderGenLoad.key image (fun s => s.genLoad image)
  .next (s.send (.od agent.code c []))

/-- MADDER_GEN_RECALL (R168, R177). -/
def execMadderGenRecall (agent : Agent) (image : Bytes) (s : State) : Out :=
  let (c, s) := s.genWrite agent Od.madderGenRecall.key image (fun s => s.genRecall image)
  .next (s.send (.od agent.code c []))

/-- At a boundary after its acceptance a load or recall takes its slot (R176, R177). -/
def State.swapGens (s : State) : State :=
  if s.time.cycle != 0 || s.frame ≤ s.madder.pendSince then s
  else match s.madder.load, s.madder.recalled with
  | some g, _ =>
    (s.bump Od.genLoadCount).setMadder fun m =>
      { m with previous := m.current, current := some g, load := none, prevDead := false }
  | none, some g => s.setMadder fun m => { m with previous := some g, recalled := none, prevDead := false }
  | none, none => s

/-- GEN_SWAP (R176, R177): at the boundary; FRAME_BOUNDARY leaves none waiting. -/
def execGenSwap (s : State) : Out := .next s.swapGens

/-! Histograms (R170) -/

/-- The count of a symbol of a format. -/
def State.histCount (s : State) (fmt sym : Nat) : Nat :=
  ((s.madder.histo.find? (fun h => h.1 == fmt && h.2.1 == sym)).map (·.2.2)).getD 0

/-- Count a symbol; the count saturates. -/
def countSymbol (h : List (Nat × Nat × Nat)) (fmt sym : Nat) : List (Nat × Nat × Nat) :=
  if h.any (fun x => x.1 == fmt && x.2.1 == sym) then
    mapIf h (fun x => x.1 == fmt && x.2.1 == sym) (fun x => (fmt, sym, min (2 ^ 32 - 1) (x.2.2 + 1)))
  else (fmt, sym, 1) :: h

/-- The histogram of a format, 256 U32 bins. -/
def State.histBytes (s : State) (fmt : Nat) : Bytes :=
  (List.range 256).flatMap (fun i => leBytes 4 (s.histCount fmt i))

/-- A read of HIST returns the histogram of the selected format and clears it. -/
def State.takeHist (s : State) : Bytes × State :=
  let fmt := s.cfg Od.histSelect
  (s.histBytes fmt, s.setMadder fun m => { m with histo := m.histo.filter (fun x => x.1 != fmt) })

/-- HIST (R170): a read by an agent with the right to read. -/
def execHist (agent : Agent) (s : State) : Out :=
  .next <|
    if !agentReads agent then s.odRefuse.send (.od agent.code abAccess [])
    else if !s.mainUp then s.odRefuse.send (.od agent.code abNotReady [])
    else
      let (bs, s) := s.takeHist
      s.send (.od agent.code 0 bs)

/-! Coder lanes (R178, R180 to R182) -/

/-- Healthy spares of the encoder and the decoder. -/
def State.encSpares (s : State) : List Nat := spareLanes 68 s.madder.encMap s.madder.encRetired
def State.decSpares (s : State) : List Nat := spareLanes 68 s.madder.decMap s.madder.decRetired

/-- The verify coverage follows the healthy spares (R180). -/
def State.verifyCover (s : State) : State :=
  let v := if s.encSpares.isEmpty then 0 else 1
  if s.odGet Od.verifyCoverage == v then s
  else
    let s := s.odSet Od.verifyCoverage v
    if v == 0 then s.event Od.verifyCoverage else s

/-- A coder lane is retired onto a spare, or the coder runs on without it (R174, R182). -/
def State.retireCoder (s : State) (dec : Bool) (lane : Nat) : State :=
  let part := partId (if dec then 5 else 4) lane
  let name := s.partName part part
  let s := ((s.bump Od.coderLaneRetireCount).retirePart part).event Od.coderLaneRetireCount name
  if dec then
    let spare := s.decSpares.head?
    let s := s.setMadder fun m =>
      { m with decMap := replaceLane m.decMap lane spare, decRetired := addOnce m.decRetired lane }
    s.odSet Od.decLanesActive s.madder.decMap.length
  else
    let spare := s.encSpares.head?
    let s := s.setMadder fun m =>
      { m with encMap := replaceLane m.encMap lane spare, encRetired := addOnce m.encRetired lane, verifyAt := 0 }
    (s.odSet Od.encLanesActive s.madder.encMap.length).verifyCover

/-- CODER_LANE_TEST (R174): the oldest suspected decoder lane runs the vectors at the boundary after its error. A pinned
lane counts as failing while a spare is healthy (R447). -/
def execCoderLaneTest (fails : Bool) (s : State) : Out :=
  .next <| match s.madder.suspect.find? (fun x => x.1) with
    | none => s
    | some x =>
      if !s.lapsed x.2.2 1 then s
      else
        let s := s.setMadder fun m => { m with suspect := m.suspect.erase x }
        if fails || (s.pinned (partId 5 x.2.1) && !s.decSpares.isEmpty) then s.retireCoder true x.2.1
        else s.scoreTransient (partId 5 x.2.1)

/-- At the boundary: encoder lanes that fail the vectors after a verify mismatch are retired, a mismatch after which none fails
is reported as transient, and the verify role moves on, to the lowest when the set of spares is no longer `spares`
(R180, R181). -/
def State.madderBoundary (s : State) (spares : List Nat) : State :=
  let bad := s.madder.suspect.filter (fun x => !x.1)
  let pass := s.madder.transients
  let s := s.setMadder fun m => { m with suspect := m.suspect.filter (fun x => x.1), transients := [] }
  let s := bad.foldl (fun s x => s.retireCoder false x.2.1) s
  let s := pass.foldl (fun (s : State) lane => (s.scoreTransient (partId 4 lane)).event Od.verifyMismatchCount 0xFFFF) s
  s.setMadder fun m => { m with verifyAt := if s.encSpares == spares then nextRole spares.length m.verifyAt else 0 }

end Sys2Proof.Machine
end

