-- ==== Sys2Proof/Machine/Float.lean ====
section
/-!
DEFINITION. Floating-point arithmetic (R11, R109, R116): FP32 bit patterns as numbers, every operation computed exactly
and rounded once, to nearest with ties to even. A finite value is its sign and its magnitude in units of 2^-149, the least
positive FP32 value, of which every finite value of every format of Table 03-8 is a whole multiple.
-/
namespace Sys2Proof.Machine

/-- A value of any format. -/
inductive Fp
  | nan
  | inf (neg : Bool)
  | fin (neg : Bool) (mag : Nat)
  deriving DecidableEq, Repr

/-- A format: exponent bits, fraction bits, and log2 of its least positive value in units of 2^-149. -/
structure FpFormat where
  ebits : Nat
  fbits : Nat
  unit  : Nat
  /-- The all-ones exponent holds numbers but for the one NaN (OCP E4M3). -/
  ocp43 : Bool := false
  deriving DecidableEq, Repr

/-- The format under a FORMAT code (Table 03-8). -/
def fpFormat (fmt : Nat) : FpFormat :=
  match fmt with
  | 0 => ⟨8, 23, 0, false⟩
  | 1 => ⟨8, 7, 16, false⟩
  | 2 => ⟨5, 10, 125, false⟩
  | 3 => ⟨4, 3, 140, true⟩
  | _ => ⟨5, 2, 133, false⟩

/-- Magnitude of the low bits of a pattern. -/
def FpFormat.mag (f : FpFormat) (bits : Nat) : Nat :=
  let e := bits / 2 ^ f.fbits % 2 ^ f.ebits
  let m := bits % 2 ^ f.fbits
  (if e == 0 then m else (2 ^ f.fbits + m) * 2 ^ (e - 1)) * 2 ^ f.unit

/-- The value of a bit pattern. -/
def FpFormat.decode (f : FpFormat) (bits : Nat) : Fp :=
  let neg := bits / 2 ^ (f.ebits + f.fbits) % 2 == 1
  let e := bits / 2 ^ f.fbits % 2 ^ f.ebits
  let m := bits % 2 ^ f.fbits
  if e == 2 ^ f.ebits - 1 then
    if f.ocp43 then (if m == 2 ^ f.fbits - 1 then .nan else .fin neg (f.mag bits))
    else if m == 0 then .inf neg else .nan
  else .fin neg (f.mag bits)

/-- Magnitude bits of a whole number of the format's units; the number has at most fbits + 1 significant bits. -/
def FpFormat.encodeMag (f : FpFormat) (m : Nat) : Nat :=
  if m < 2 ^ f.fbits then m
  else
    let e := m.log2 - f.fbits + 1
    e * 2 ^ f.fbits + (m / 2 ^ (e - 1) - 2 ^ f.fbits)

/-- Round num / den to an integer, ties to even. -/
def roundEven (num den : Nat) : Nat :=
  let q := num / den
  let r := num % den
  if 2 * r < den then q else if den < 2 * r then q + 1 else if q % 2 == 0 then q else q + 1

/-- Round num / den units of 2^-149 to a whole number of the format's units, to nearest with ties to even. -/
def FpFormat.round (f : FpFormat) (num den : Nat) : Nat :=
  let den := den * 2 ^ f.unit
  let q := num / den
  if q < 2 ^ (f.fbits + 1) then roundEven num den
  else
    let k := q.log2 - f.fbits
    roundEven num (den * 2 ^ k) * 2 ^ k

/-- The sign bit. -/
def FpFormat.sign (f : FpFormat) (neg : Bool) : Nat := if neg then 2 ^ (f.ebits + f.fbits) else 0

/-- The pattern of an infinity. -/
def FpFormat.infinity (f : FpFormat) (neg : Bool) : Nat := f.sign neg + (2 ^ f.ebits - 1) * 2 ^ f.fbits

/-- Round and encode; a result beyond the largest finite number is an infinity. -/
def FpFormat.encode (f : FpFormat) (neg : Bool) (num den : Nat) : Nat :=
  let b := f.encodeMag (f.round num den)
  if (2 ^ f.ebits - 1) * 2 ^ f.fbits ≤ b && !f.ocp43 then f.infinity neg else f.sign neg + b

/-! FP32 (R11, R109) -/

def f32 : FpFormat := fpFormat 0

/-- The canonical NaN of FP32. -/
def f32Nan : Nat := 0x7FC00000

def f32One : Nat := 0x3F800000

/-- Flip the sign of an FP32 pattern. -/
def fneg (a : Nat) : Nat := if 2 ^ 31 ≤ a then a - 2 ^ 31 else a + 2 ^ 31

/-- A signed magnitude as an integer. -/
def signedMag (neg : Bool) (m : Nat) : Int := if neg then -(m : Int) else (m : Int)

/-- An exact result, in units of 2^-149 over a denominator; a zero takes the given sign. -/
def fromInt (v : Int) (den : Nat) (zeroNeg : Bool) : Nat :=
  if v == 0 then f32.sign zeroNeg else f32.encode (decide (v < 0)) v.natAbs den

/-- Sum. -/
def fadd (a b : Nat) : Nat :=
  match f32.decode a, f32.decode b with
  | .nan, _ => f32Nan
  | _, .nan => f32Nan
  | .inf x, .inf y => if x == y then f32.infinity x else f32Nan
  | .inf x, .fin _ _ => f32.infinity x
  | .fin _ _, .inf y => f32.infinity y
  | .fin x m, .fin y n => fromInt (signedMag x m + signedMag y n) 1 (x && y)

/-- Difference. -/
def fsub (a b : Nat) : Nat := fadd a (fneg b)

/-- Product. -/
def fmul (a b : Nat) : Nat :=
  match f32.decode a, f32.decode b with
  | .nan, _ => f32Nan
  | _, .nan => f32Nan
  | .inf x, .inf y => f32.infinity (x != y)
  | .inf x, .fin y n => if n == 0 then f32Nan else f32.infinity (x != y)
  | .fin x m, .inf y => if m == 0 then f32Nan else f32.infinity (x != y)
  | .fin x m, .fin y n => f32.encode (x != y) (m * n) (2 ^ 149)

/-- Fused multiply-add: a × b + c, rounded once. -/
def ffma (a b c : Nat) : Nat :=
  match f32.decode a, f32.decode b, f32.decode c with
  | .nan, _, _ => f32Nan
  | _, .nan, _ => f32Nan
  | _, _, .nan => f32Nan
  | .fin x m, .fin y n, .fin z k =>
    fromInt (signedMag (x != y) (m * n) + signedMag z (k * 2 ^ 149)) (2 ^ 149) ((x != y) && z)
  | .fin _ _, .fin _ _, .inf z => f32.infinity z
  | _, _, _ => fadd (fmul a b) c

/-- Quotient, correctly rounded. -/
def fdiv (a b : Nat) : Nat :=
  match f32.decode a, f32.decode b with
  | .nan, _ => f32Nan
  | _, .nan => f32Nan
  | .inf _, .inf _ => f32Nan
  | .inf x, .fin y _ => f32.infinity (x != y)
  | .fin x _, .inf y => f32.sign (x != y)
  | .fin x m, .fin y n =>
    if n == 0 then (if m == 0 then f32Nan else f32.infinity (x != y))
    else f32.encode (x != y) (m * 2 ^ 149) n

/-- The largest r, of at most k bits more than `r`, with r² ≤ v. -/
def isqrtBits (v : Nat) : Nat → Nat → Nat
  | 0, r => r
  | k + 1, r => let t := r + 2 ^ k; isqrtBits v k (if t * t ≤ v then t else r)

/-- Square root, correctly rounded: the integer root carries a sticky bit. -/
def fsqrt (a : Nat) : Nat :=
  match f32.decode a with
  | .nan => f32Nan
  | .inf neg => if neg then f32Nan else a
  | .fin neg m =>
    if m == 0 then a
    else if neg then f32Nan
    else
      let v := m * 2 ^ 149
      let r := isqrtBits v 216 0
      f32.encode false (2 * r + (if r * r == v then 0 else 1)) 2

/-- f32(n) of a natural number (R109). -/
def fnat (n : Nat) : Nat := f32.encode false (n * 2 ^ 149) 1

/-- Order of two values that are not NaN, −0 below +0: a is below b. -/
def fbelow (a b : Nat) : Bool :=
  let key (v : Nat) : Int := if 2 ^ 31 ≤ v then -((v - 2 ^ 31 : Nat) : Int) - 1 else (v : Int)
  decide (key a < key b)

/-- A NaN pattern. -/
def fisNan (a : Nat) : Bool := f32.decode a == .nan

/-- A NaN or an infinity. -/
def fnonfinite (a : Nat) : Bool :=
  match f32.decode a with
  | .fin _ _ => false | .nan => true | .inf _ => true

/-- max and min (R109). -/
def fmax (a b : Nat) : Nat := if fisNan a || fisNan b then f32Nan else if fbelow a b then b else a
def fmin (a b : Nat) : Nat := if fisNan a || fisNan b then f32Nan else if fbelow b a then b else a

/-- sign (R112). -/
def fsign (a : Nat) : Nat :=
  match f32.decode a with
  | .nan => f32Nan
  | .inf n => if n then fneg f32One else f32One
  | .fin n m => if m == 0 then 0 else if n then fneg f32One else f32One

/-- |x|. -/
def fabs (a : Nat) : Nat := a % 2 ^ 31

/-- Widen a value of a format to FP32, exactly (R109). -/
def fwiden (fmt v : Nat) : Nat :=
  if fmt == 0 then v
  else match (fpFormat fmt).decode v with
  | .nan => f32Nan
  | .inf n => f32.infinity n
  | .fin n m => f32.encode n m 1

/-! Narrowing (R116, Table 05-4) -/

/-- Canonical NaN of a narrow format. -/
def narrowNan (fmt : Nat) : Nat :=
  match fmt with
  | 1 => 0x7FC0 | 2 => 0x7E00 | 3 => 0x7F | _ => 0x7E

/-- maxfin of a narrow format. -/
def maxfin (fmt : Nat) : Nat :=
  match fmt with
  | 1 => 0x7F7F | 2 => 0x7BFF | 3 => 0x7E | _ => 0x7B

/-- An FP8 format. -/
def isFp8 (fmt : Nat) : Bool := fmt == 3 || fmt == 4

/-- narrow(x, fmt, r): the pattern written and whether it was saturated. -/
def fnarrow (fmt : Nat) (sr : Bool) (x r : Nat) : Nat × Bool :=
  let f := fpFormat fmt
  match f32.decode x with
  | .nan => (narrowNan fmt, false)
  | .inf n => if isFp8 fmt then (f.sign n + maxfin fmt, true) else (f.infinity n, false)
  | .fin n m =>
    let top := f.mag (maxfin fmt)
    if isFp8 fmt && top < m then (f.sign n + maxfin fmt, true)
    else if !sr then (f.encode n m 1, false)
    else
      let q := m / 2 ^ f.unit
      let lo := if q < 2 ^ (f.fbits + 1) then q else let k := q.log2 - f.fbits; q / 2 ^ k * 2 ^ k
      let lob := min (f.encodeMag lo) (maxfin fmt)
      let low := f.mag lob
      if low == m || lob == maxfin fmt then (f.sign n + lob, false)
      else
        let part := 2 ^ 16 * (m - low) / (f.mag (lob + 1) - low)
        (f.sign n + (if 2 ^ 16 ≤ r / 2 ^ 16 + part then lob + 1 else lob), false)

/-- Pairwise sum of 2^k terms, level by level (R114). -/
def pairs : List Nat → List Nat
  | a :: b :: l => fadd a b :: pairs l
  | l => l

/-- The tree sum of a 128-element block padded with +0.0. -/
def treeSum (terms : List Nat) : Nat :=
  let t := (terms ++ List.replicate (128 - terms.length) 0).take 128
  ((pairs (pairs (pairs (pairs (pairs (pairs (pairs t))))))).head?).getD 0

/-- blocksum over index order (R114). -/
def blocksum : Nat → Nat → List Nat → Nat
  | 0, s, _ => s
  | k + 1, s, l => if l == [] then s else blocksum k (fadd s (treeSum (l.take 128))) (l.drop 128)

/-! The random stream (R118, R119) -/

/-- One round of Philox-4x32. -/
def philoxRound (c : Nat × Nat × Nat × Nat) (k0 k1 : Nat) : Nat × Nat × Nat × Nat :=
  let p0 := 0xD2511F53 * c.1
  let p1 := 0xCD9E8D57 * c.2.2.1
  ((p1 / 2 ^ 32) ^^^ c.2.1 ^^^ k0, p1 % 2 ^ 32, (p0 / 2 ^ 32) ^^^ c.2.2.2 ^^^ k1, p0 % 2 ^ 32)

/-- Rounds of Philox-4x32. -/
def philoxRounds : Nat → Nat × Nat × Nat × Nat → Nat → Nat → Nat × Nat × Nat × Nat
  | 0, c, _, _ => c
  | n + 1, c, k0, k1 =>
    philoxRounds n (philoxRound c k0 k1) ((k0 + 0x9E3779B9) % 2 ^ 32) ((k1 + 0xBB67AE85) % 2 ^ 32)

/-- philox4x32_10 (R119). -/
def philox (c : Nat × Nat × Nat × Nat) (k0 k1 : Nat) : Nat × Nat × Nat × Nat := philoxRounds 10 c k0 k1

/-- The key of a tensor in a lineage (R118). -/
def philoxKey (lineage tensor : Nat) : Nat × Nat :=
  let w (k : Nat) : Nat := lineage / 2 ^ (32 * k) % 2 ^ 32
  (w 0 ^^^ w 2 ^^^ tensor % 2 ^ 32, w 1 ^^^ w 3)

/-- The words of element n of a tensor at a step (R118). -/
def randomWords (lineage tensor step n : Nat) : Nat × Nat × Nat × Nat :=
  let (k0, k1) := philoxKey lineage tensor
  philox (n % 2 ^ 32, n / 2 ^ 32 % 2 ^ 32, step % 2 ^ 32, step / 2 ^ 32 % 2 ^ 32) k0 k1

end Sys2Proof.Machine
end

