-- ==== Sys2Proof/Machine/Kernels.lean ====
section
/-!
DEFINITION. The kernels of the update unit (R106, R110 to R118): what each computes for one element, and ADAFACTOR's
statistics.
-/
namespace Sys2Proof.Machine

/-- The replay fields of an update with its lineage and step (R106). -/
structure KernelArgs where
  kernel   : Nat
  sr       : Bool
  scaleExp : Nat
  tensor   : Nat
  elemBase : Nat
  len      : Nat
  lr       : Nat
  beta1    : Nat
  beta2    : Nat
  eps      : Nat
  wd       : Nat
  gradMul  : Nat
  bc1      : Nat
  bc2      : Nat
  clip     : Nat
  level    : Nat
  lineage  : Nat
  step     : Nat
  deriving DecidableEq, Repr

/-- The parameter block, cut into its nine FP32 fields. -/
def paramFields (block : Nat) : List Nat := unpackFields [32, 32, 32, 32, 32, 32, 32, 32, 32] block

/-- The replay fields of an UPDATE (Table 05-1), with the arithmetic level used. -/
def Task.updateArgs (t : Task) (lineage level : Nat) : KernelArgs :=
  { kernel := t.f 263 256, sr := t.f 272 272 == 1, scaleExp := t.f 287 280, tensor := t.f 447 416,
    elemBase := t.f 511 448, len := t.len, lr := t.f 543 512, beta1 := t.f 575 544, beta2 := t.f 607 576,
    eps := t.f 639 608, wd := t.f 671 640, gradMul := t.f 703 672, bc1 := t.f 735 704, bc2 := t.f 767 736,
    clip := t.f 799 768, level := level, lineage := lineage, step := t.step }

/-- The arithmetic level of a kernel (R121). -/
def KernelSet.level (k : KernelSet) (kernel : Nat) : Nat :=
  (match kernel with
   | 0 => k.adamw | 1 => k.lion | 2 => k.sgdm | _ => k.adafactor) / 256

/-- The FP32 inputs of an element: gradient (after R110), master, moments. -/
structure ElemIn where
  g : Nat
  p : Nat
  m : Nat
  v : Nat
  deriving DecidableEq, Repr

/-- The FP32 results of an element. -/
structure ElemOut where
  p : Nat
  m : Nat
  v : Nat
  deriving DecidableEq, Repr

/-- The gradient of an element (R110). -/
def KernelArgs.gradient (a : KernelArgs) (x : Nat) : Nat := fmul x a.gradMul

/-- Decoupled weight decay: p − (LR × WEIGHT_DECAY) × p. -/
def KernelArgs.decay (a : KernelArgs) (p : Nat) : Nat := fsub p (fmul (fmul a.lr a.wd) p)

/-- ADAMW (R111). -/
def adamw (a : KernelArgs) (x : ElemIn) : ElemOut :=
  let m := ffma a.beta1 x.m (fmul (fsub f32One a.beta1) x.g)
  let v := ffma a.beta2 x.v (fmul (fmul (fsub f32One a.beta2) x.g) x.g)
  let u := fdiv (fmul m a.bc1) (fadd (fsqrt (fmul v a.bc2)) a.eps)
  { p := fsub (a.decay x.p) (fmul a.lr u), m := m, v := v }

/-- LION (R112). -/
def lion (a : KernelArgs) (x : ElemIn) : ElemOut :=
  let c := ffma a.beta1 x.m (fmul (fsub f32One a.beta1) x.g)
  { p := fsub (a.decay x.p) (fmul a.lr (fsign c)),
    m := ffma a.beta2 x.m (fmul (fsub f32One a.beta2) x.g), v := x.v }

/-- SGDM (R113). -/
def sgdm (a : KernelArgs) (x : ElemIn) : ElemOut :=
  let h := ffma a.wd x.p x.g
  let m := ffma a.beta1 x.m (fmul (fsub f32One a.beta2) h)
  { p := fsub x.p (fmul a.lr m), m := m, v := x.v }

/-- ADAFACTOR's q of pass 1 (R114). -/
def adaSquare (a : KernelArgs) (g : Nat) : Nat := ffma g g a.eps

/-- ADAFACTOR's unfactored second moment of pass 1. -/
def adaMoment (a : KernelArgs) (v q : Nat) : Nat := ffma a.beta2 v (fmul (fsub f32One a.beta2) q)

/-- ADAFACTOR's factored second moment: (R[i] × C[j]) / rtot. -/
def adaFactored (r c rtot : Nat) : Nat := fdiv (fmul r c) rtot

/-- ADAFACTOR's u of passes 2 and 3, before clipping. -/
def adaU (g vh : Nat) : Nat := fdiv g (fsqrt vh)

/-- A statistic at the end of pass 1: fma(BETA2, R, (1 − BETA2) × (sum / f32(n))). -/
def adaStat (a : KernelArgs) (old sum n : Nat) : Nat :=
  ffma a.beta2 old (fmul (fsub f32One a.beta2) (fdiv sum (fnat n)))

/-- The clip factor at the end of pass 2. -/
def adaClip (a : KernelArgs) (ss : Nat) : Nat := fmax f32One (fdiv (fsqrt (fdiv ss (fnat a.len))) a.clip)

/-- Pass 3 of ADAFACTOR, with MOMENT1 or without. -/
def adaPass3 (a : KernelArgs) (named : Bool) (cl vh : Nat) (x : ElemIn) : ElemOut :=
  let u := fdiv (adaU x.g vh) cl
  let m := if named then ffma a.beta1 x.m (fmul (fsub f32One a.beta1) u) else x.m
  { p := fsub (a.decay x.p) (fmul a.lr (if named then m else u)), m := m, v := x.v }

/-- A single-pass kernel. -/
def KernelArgs.run (a : KernelArgs) (x : ElemIn) : ElemOut :=
  match a.kernel with
  | 0 => adamw a x | 1 => lion a x | _ => sgdm a x

/-- The FP32 value 2^FP8_SCALE_EXP (R117). -/
def scaleValue (e : Nat) : Nat := f32.encode false (2 ^ (149 + signed 8 e).toNat) 1

/-- The words of element e (R118). -/
def KernelArgs.words (a : KernelArgs) (e : Nat) : Nat × Nat × Nat × Nat :=
  randomWords a.lineage a.tensor a.step (a.elemBase + e)

/-- The weight written for a master value, in a format, and whether it was saturated (R113, R117). -/
def KernelArgs.weight (a : KernelArgs) (fmt p w0 : Nat) : Nat × Bool :=
  fnarrow fmt a.sr (if isFp8 fmt then fmul p (scaleValue a.scaleExp) else p) w0

/-- A moment written back in its own format. -/
def KernelArgs.moment (a : KernelArgs) (fmt x w : Nat) : Nat :=
  if fmt == 0 then x else (fnarrow fmt a.sr x w).1

/-! ADAFACTOR's statistics (R114, R115) -/

/-- Add a term to the open 128-element block; a block that is full, or that the caller ends, joins the sum. -/
def addTerm (block : List Nat) (sum x : Nat) (ends : Bool) : List Nat × Nat :=
  let b := block ++ [x]
  if b.length == 128 || ends then ([], fadd sum (treeSum b)) else (b, sum)

/-- Pass 1 of the factored form takes q of element e. -/
def AdaSums.takeSquare (st : AdaSums) (ncols e q : Nat) : AdaSums :=
  let i := e / ncols
  let j := e % ncols
  let (b, r) := addTerm st.block (st.rowsum.getD i 0) q (j + 1 == ncols)
  { st with block := b, rowsum := st.rowsum.set i r, colsum := st.colsum.set j (fadd (st.colsum.getD j 0) q) }

/-- Pass 2 takes u × u of element e of n. -/
def AdaSums.takeU (st : AdaSums) (n e u : Nat) : AdaSums :=
  let (b, ss) := addTerm st.block st.total (fmul u u) (e + 1 == n)
  { st with block := b, total := ss }

end Sys2Proof.Machine
end

