-- ==== Sys2Proof/Machine/Update.lean ====
section
/-!
DEFINITION. The update unit but for the issue of elements (R106 to R133): the UPDATE task's operands and checks, lanes and
their repair, kernel images. The fetch engine and the lanes' issue stand in Issue.lean.
-/
namespace Sys2Proof.Machine

/-! Operands (Tables 05-1, 05-2) -/

/-- The Holding field of a ROLE code in the record of UPDATE and MIRROR_APPLY. -/
def Task.roleHid (t : Task) (role : Nat) : Nat :=
  match role with
  | 0 => t.f 303 288 | 1 => t.f 319 304 | 2 => t.f 335 320 | 3 => t.f 351 336 | 4 => t.f 367 352
  | 6 => t.f 383 368 | _ => t.f 399 384

/-- The ROLE codes in the order of Table 05-2. -/
def laneRoles : List Nat := [4, 1, 0, 2, 3, 6, 7]

/-- A role is named. -/
def Task.named (t : Task) (role : Nat) : Bool := t.roleHid role != 0xFFFF

/-- KERNEL, GRAD_SRC. -/
def Task.kernel (t : Task) : Nat := t.f 263 256
def Task.gradSrc (t : Task) : Nat := t.f 274 273

/-- ADAFACTOR in its factored form. -/
def Task.factored (t : Task) : Bool := t.kernel == 3 && t.named 6 && t.named 7

/-- How a kernel uses a role (Table 05-2): 0 forbidden, 1 required, 2 optional. -/
def Task.roleUse (t : Task) (role : Nat) : Nat :=
  let ada := t.kernel == 3
  let split := t.named 6 || t.named 7
  match role with
  | 4 => 1
  | 1 => 1
  | 0 => 2
  | 2 => if ada then 2 else 1
  | 3 => if ada then (if split then 0 else 1) else if t.kernel == 0 then 1 else 0
  | _ => if ada && split then 1 else 0

/-- Formats of a role (Table 05-2). -/
def roleFormat (role fmt : Nat) : Bool :=
  match role with
  | 4 => fmt ≤ 2
  | 0 => 1 ≤ fmt && fmt ≤ 4
  | 2 => fmt ≤ 1
  | 3 => fmt ≤ 1
  | _ => fmt == 0

/-- A Holding field outside 0 to 4,095 that is not 0xFFFF. -/
def badHidField (v : Nat) : Bool := 4096 ≤ v && v != 0xFFFF

/-- Check 1 of R108. -/
def Task.updateMalformed (t : Task) : Bool :=
  3 < t.kernel || 2 ≤ t.gradSrc || laneRoles.any (fun r => badHidField (t.roleHid r))

/-- The first named Holding that is not registered in the job (check 2 of R108). -/
def State.unknownHolding (s : State) (t : Task) (roles : List Nat) : Option Nat :=
  (roles.find? (fun r => t.named r && (s.holdingIn t.job (t.roleHid r)).isNone)).map t.roleHid

/-- The Holding of a role. -/
def State.roleHolding (s : State) (t : Task) (role : Nat) : Option Holding :=
  if t.named role then s.holdingIn t.job (t.roleHid role) else none

/-- A role's own fault under check 3 of R108: its Holding (0xFFFF when unused) and its ROLE code. `kinds` are the KINDs
allowed. -/
def State.roleFault (s : State) (t : Task) (kinds : Nat → Nat → Bool) (role : Nat) : Option (Nat × Nat) :=
  match s.roleHolding t role with
  | none => if t.roleUse role == 1 then some (0xFFFF, role) else none
  | some h =>
    if t.roleUse role == 0 || h.role != role || !roleFormat role h.format || !kinds role h.kind then
      some (t.roleHid role, role)
    else none

/-- KINDs of an UPDATE: OWN_STATE, and GRADIENT or SCRATCH for the gradient (R107). -/
def updateKinds (role kind : Nat) : Bool := if role == 4 then kind == 2 || kind == 3 else kind == 0

/-- The factor-set record of a Holding (R144). -/
def State.factorSet? (s : State) (j : JobId) (hid : Nat) : Option FactorSet :=
  s.woad.sets.find? (fun f => f.job == j.val && f.holding == hid)

/-- ncols of a factored ADAFACTOR: SIZE0 of its gradient Holding, or NCOLS of its factor set (log entry 30). -/
def State.adaCols (s : State) (t : Task) : Nat :=
  if t.gradSrc == 1 then ((s.factorSet? t.job (t.roleHid 4)).map (·.ncols)).getD 1
  else ((s.roleHolding t 4).map (fun h => descSize h.desc 0)).getD 1

/-- Elements that a role's Holding must have (check 4 of R108). -/
def State.roleCount (s : State) (t : Task) (len role : Nat) : Nat :=
  match role with
  | 6 => len / max 1 (s.adaCols t)
  | 7 => s.adaCols t
  | _ => len

/-- The first role whose Holding has another element count: the count found. -/
def State.lengthFault (s : State) (t : Task) (len : Nat) (roles : List Nat) : Option Nat :=
  roles.findSome? fun r =>
    match s.roleHolding t r with
    | some h => if h.count != s.roleCount t len r then some h.count else none
    | none => none

/-- A task ends with LENGTH_MISMATCH (R93): DETAIL 0 at readiness, RESULT the length found. -/
def State.lengthMismatch (s : State) (t : Task) (detail result : Nat) : State :=
  (s.bump Od.lengthMismatchCount).complete t 0x0018 detail 0 result

/-- The checks of R145 on the factor set of an UPDATE under GRAD_SRC WOAD: status, DETAIL, DETAIL2, RESULT. -/
def State.woadUpdateFault (s : State) (t : Task) : Option (Nat × Nat × Nat × Nat) :=
  match s.factorSet? t.job (t.roleHid 4) with
  | none => some (0x1013, t.roleHid 4, 0, 0)
  | some f =>
    if f.state != .complete || f.step != t.step then some (0x1013, t.roleHid 4, f.step % 2 ^ 32, 0)
    else if f.tensor != t.f 447 416 then some (0x1010, t.roleHid 4, 4, 0)
    else if f.nrows * f.ncols < t.f 511 448 + t.len then some (0x0018, 0, 0, f.nrows * f.ncols)
    else none

/-- Checks 2 to 5 of R108, with R145 between 2 and 3: status, DETAIL, DETAIL2, RESULT of the first failure. DESIGN CHOICE
(log entry 165): of several Holdings at fault under one check, the first row of Table 05-2 is named. -/
def State.updateFault (s : State) (t : Task) : Option (Nat × Nat × Nat × Nat) :=
  let woad := t.gradSrc == 1
  let roles := if woad then laneRoles.filter (fun r => r != 4) else laneRoles
  match s.unknownHolding t laneRoles with
  | some h => some (0x0033, h, 0, 0)
  | none =>
  match (if woad then s.woadUpdateFault t else none) with
  | some x => some x
  | none =>
  match roles.findSome? (s.roleFault t updateKinds) with
  | some (h, r) => some (0x1000, h, r, 0)
  | none =>
  if t.factored && !woad && ((s.roleHolding t 4).map (fun h => descDims h.desc)) == some 1 then
    some (0x1000, t.roleHid 4, 4, 0)
  else
  match s.lengthFault t t.len roles with
  | some n => some (0x0018, 0, 0, n)
  | none =>
    let level := s.update.kernels.level t.kernel
    if t.f 271 264 != 0 && t.f 271 264 != level then some (0x1001, t.f 271 264, level, 0) else none

/-- A lane task that fails a check ends with its status and does no work. -/
def State.failCheck (s : State) (t : Task) (x : Nat × Nat × Nat × Nat) : State :=
  if x.1 == 0x0018 then s.lengthMismatch t x.2.1 x.2.2.2 else s.complete t x.1 x.2.1 x.2.2.1 x.2.2.2

/-- UPDATE (R108): the checks, then the frame planner serves the task. An UPDATE that came after its step's LEDGER_SEND
ends with LEDGER_CLOSED (R213). -/
def execUpdate (task : Nat) (s : State) : Out :=
  .next <| s.whenReady task 0x11 fun s t =>
    match t.failWith with
    | some x => s.complete t x.1 x.2.1 x.2.2
    | none =>
      if t.updateMalformed then s.malformed t
      else match s.updateFault t with
        | some x => s.failCheck t x
        | none => if s.d2dDown then s.fail t 0x0021 else s.start t

/-! Lanes (R129 to R131) -/

/-- Healthy spare lanes, ascending. -/
def State.laneSpares (s : State) : List Nat := spareLanes 132 s.update.laneMap s.update.retired

/-- The shadow lane of a slot of the role: the spare at its position of the ring, and the next one. -/
def State.shadowLane (s : State) (second : Bool) : Option Nat :=
  let sp := s.laneSpares
  if second then (if 2 ≤ sp.length then roleSpare sp (s.update.shadowAt + 1) else none) else roleSpare sp s.update.shadowAt

/-- Elements checked in each cycle (SHADOW_COVERAGE): while a lane is pinned and its condition holds, the second shadow lane
follows that lane (Table 17-6). -/
def State.shadowCoverage (s : State) : Nat :=
  min (if s.service.pins.any (fun p => p.part / 4096 == 1 && s.pinMatches p.part) then 1 else 2) s.laneSpares.length

/-- The counts follow the lane map: LANES_ACTIVE, SPARE_LANES_LEFT, SHADOW_COVERAGE, with their events (R129, R131). -/
def State.settleLanes (s : State) : State :=
  let fall := s.update.laneMap.length != s.odGet Od.lanesActive
  let off := s.shadowCoverage == 0 && s.odGet Od.shadowCoverage != 0
  let s := s.odSet Od.lanesActive s.update.laneMap.length
  let s := s.odSetP Od.spareLanesLeft s.laneSpares.length
  let s := s.odSet Od.shadowCoverage s.shadowCoverage
  let s := if fall then s.event Od.lanesActive s.update.laneMap.length else s
  if off then s.event Od.shadowCoverage else s

/-- Retire a lane: the lowest healthy spare takes its position (log entry 147), or the lanes that remain close up (R130, R131). -/
def State.retireLane (s : State) (lane : Nat) : State :=
  let s := s.setUpdate fun u => { u with retired := addOnce u.retired lane, shadowAt := 0 }
  let spare := s.laneSpares.head?
  let s := if s.update.laneMap.contains lane then
      s.setUpdate fun u => { u with laneMap := replaceLane u.laneMap lane spare }
    else s
  ((s.bump Od.laneRetireCount).retirePart (partId 1 lane)).settleLanes

/-- Mark a task's slice as interrupted by a fault: it rolls back at the closing tick (R30). -/
def State.faultSlice (s : State) (task : Nat) (free : Bool) : State :=
  s.setTask task (fun t =>
    { t with slice := t.slice.map (fun x => { x with faulted := true, free := free && (x.free || !x.faulted) }) })

/-- A task has an uninterrupted slice in the frame. -/
def Task.slicing (t : Task) : Bool :=
  match t.slice with
  | some x => !x.faulted
  | none => false

/-- A fault whose repair the retry waits for interrupts a task's slice (R30, Table 02-1). -/
def State.faultFor (s : State) (task : Nat) (cause : Repair) : State :=
  (s.faultSlice task false).setTask task (fun t =>
    { t with slice := t.slice.map (fun x => { x with cause := some cause }) })

/-- LANE_REPAIR (R130): in the repair frame both lanes of the oldest comparison run the vectors of self-test item 1. A
pinned lane counts as failing while a spare is healthy (R447). The lowest healthy spare takes the place of a retired lane,
and where both lanes fail, the one event names the active lane in DETAIL (log entry 147). -/
def execLaneRepair (activeFails shadowFails : Bool) (s : State) : Out :=
  .next <| match s.update.suspect with
    | [] => s
    | x :: rest =>
      if !s.lapsed x.frame 1 then s
      else
        let a := activeFails || (s.pinned (partId 1 x.active) && !s.laneSpares.isEmpty)
        let b := shadowFails || s.pinned (partId 1 x.shadow)
        let na := s.partName (partId 1 x.active) x.active
        let nb := s.partName (partId 1 x.shadow) x.shadow
        let s := s.setUpdate fun u => { u with suspect := rest }
        if !a && !b then
          ((((s.bump Od.laneTransientCount).scoreTransient (partId 1 x.active)).scoreTransient
            (partId 1 x.shadow))).event Od.laneTransientCount x.active x.shadow
        else
          let fresh (lane : Nat) : Bool := !s.update.retired.contains lane
          let s := if b && fresh x.shadow then s.retireLane x.shadow else s
          let s := if a && fresh x.active then s.retireLane x.active else s
          if a then s.event Od.laneRetireCount na nb else s.event Od.laneRetireCount nb na

/-- KERNEL_IMAGE_SWITCH (R123, R143): at a boundary with no UPDATE, WOAD_COMPRESS or MIRROR_APPLY incomplete. -/
def execKernelImageSwitch (s : State) : Out :=
  .next <| match s.update.kernelsNext with
    | none => s
    | some k =>
      if s.time.cycle != 0 || s.sched.tasks.any (fun t => t.type == 0x11 || t.type == 0x12 || t.type == 0x16) then s
      else
        let s := s.setUpdate fun u => { u with kernels := k, kernelsNext := none }
        s.setWoad fun w => { w with level := w.levelNext.getD w.level, levelNext := none }

/-! Slice tallies (R117, R120, R132) -/

/-- Add to the tally of a task's slice. -/
def State.addTally (s : State) (task written nonfinite saturated amax : Nat) : State :=
  let old := (s.update.tallies.find? (fun x => x.task == task)).getD ⟨task, 0, 0, 0, 0⟩
  let new : SliceTally := { task := task, written := old.written + written, nonfinite := old.nonfinite + nonfinite,
                            saturated := old.saturated + saturated, amax := max old.amax amax }
  s.setUpdate fun u => { u with tallies := new :: u.tallies.filter (fun x => x.task != task) }

/-- Drop the tally of a task's slice. -/
def State.dropTally (s : State) (task : Nat) : State :=
  s.setUpdate fun u => { u with tallies := u.tallies.filter (fun x => x.task != task) }

/-- Sum of the counts under a key. -/
def countOf (l : List (Nat × Nat)) (k : Nat) : Nat := (assoc l k).getD 0

/-- A slice commits: its tally joins the task's counts and the engine's (R117, R120, R133). -/
def State.commitTally (s : State) (t : Task) : State :=
  match s.update.tallies.find? (fun x => x.task == t.id) with
  | none => s
  | some y =>
    let s := s.dropTally t.id
    let (m, k) := ((s.update.amax.find? (fun x => x.1 == t.id)).map (·.2)).getD (0, 0)
    let rest := s.update.amax.filter (fun x => x.1 != t.id)
    let s := s.setUpdate fun u =>
      { u with nonfinite := assocSet u.nonfinite t.id (countOf u.nonfinite t.id + y.nonfinite),
               written := assocSet u.written t.id (countOf u.written t.id + y.written),
               amax := (t.id, max m y.amax, k + y.saturated) :: rest }
    let s := s.total Od.nonfiniteCount y.nonfinite
    let s := s.total Od.fp8SaturateCount y.saturated
    let s := s.total (if t.type == 0x16 then Od.elementsApplied else Od.elementsUpdated) y.written
    if t.type == 0x11 && y.nonfinite != 0 then
      s.addFault t.job.val t.step (fun x => { x with nonfinite := x.nonfinite + y.nonfinite })
    else s

/-- The completion fields of an UPDATE that ends OK (R117, R132): DETAIL, DETAIL2, RESULT. DESIGN CHOICE (log entry 164):
the non-finite count saturates at 65,535. -/
def State.updateResult (s : State) (t : Task) : Nat × Nat × Nat :=
  let nf := countOf s.update.nonfinite t.id
  let w := countOf s.update.written t.id
  let (m, k) := ((s.update.amax.find? (fun x => x.1 == t.id)).map (·.2)).getD (0, 0)
  let fp8 := ((s.roleHolding t 0).map (fun h => isFp8 h.format)).getD false
  (if fp8 then min k 65535 else 0, if fp8 then m else 0, w % 2 ^ 48 + min nf 65535 * 2 ^ 48)

/-- Forget what a task that ends has gathered in the update unit. -/
def State.dropLaneWork (s : State) (task : Nat) : State :=
  s.setUpdate fun u =>
    { u with tallies := u.tallies.filter (fun x => x.task != task), nonfinite := assocErase u.nonfinite task,
             written := assocErase u.written task, amax := u.amax.filter (fun x => x.1 != task),
             stats := u.stats.filter (fun x => x.task != task) }

end Sys2Proof.Machine
end

