-- ==== Sys2Proof/Machine/Woad.lean ====
section
/-!
DEFINITION. Woad (R134 to R161): the compression task and its checks, the arithmetic of both phases and of the expansion,
factor-set records, the factor cache, factor packets, and the array's checks and repair.
-/
namespace Sys2Proof.Machine

/-! Arithmetic (R138 to R142) -/

/-- bf(x): rounded to BF16 and widened back. -/
def bf16 (x : Nat) : Nat := fwiden 1 (fnarrow 1 false x 0).1

/-- dot(a, b): the fixed-order sum of the rounded products. -/
def fdot (a b : List Nat) : Nat :=
  let x := List.zipWith fmul a b
  blocksum (x.length / 128 + 1) 0 x

/-- An accumulation in index order of bf(a) × bf(b). -/
def bfAcc (acc : Nat) : List Nat → List Nat → Nat
  | a :: as, b :: bs => bfAcc (ffma (bf16 a) (bf16 b) acc) as bs
  | _, _ => acc

/-- Row k of a row-major matrix of r columns. -/
def rowOf (q : List Nat) (r k : Nat) : List Nat := (q.drop (k * r)).take r

/-- Column k of a row-major matrix of r columns and n rows. -/
def colOf (q : List Nat) (r n k : Nat) : List Nat := (List.range n).map (fun j => q.getD (j * r + k) 0)

/-- PHASE 0 takes element e = (i, j) with value x: Q[j][k] gains bf(x) × bf(Pp[i][k]) (R139). -/
def projectElem (q : List Nat) (r j x : Nat) (pp : List Nat) : List Nat :=
  q.mapIdx (fun n v => if n / r == j then ffma (bf16 x) (bf16 (pp.getD (n % r) 0)) v else v)

/-- One column of Gram–Schmidt against the columns before it, and whether it is degenerate (R140). -/
def gsColumn (done : List (List Nat)) (c : List Nat) : List Nat × Bool :=
  let c := done.foldl (fun c q => let d := fdot q c; List.zipWith (fun a b => ffma (fneg d) a b) q c) c
  let s := fsqrt (fdot c c)
  if s == 0 || fnonfinite s then (c.map (fun _ => 0), true) else (c.map (fun v => fdiv v s), false)

/-- Modified Gram–Schmidt over columns, with the count of degenerate columns. -/
def gsColumns : List (List Nat) → List (List Nat) → List (List Nat) × Nat
  | done, [] => (done, 0)
  | done, c :: cs =>
    let (v, bad) := gsColumn done c
    let (out, n) := gsColumns (done ++ [v]) cs
    (out, n + if bad then 1 else 0)

/-- Q̂ of the summed Q, row-major, with the count of degenerate columns (R140). -/
def orthonormal (q : List Nat) (r n : Nat) : List Nat × Nat :=
  let (cols, bad) := gsColumns [] ((List.range r).map (colOf q r n))
  ((List.range n).flatMap (fun j => cols.map (fun c => c.getD j 0)), bad)

/-- Cycles of Gram–Schmidt (Table 06-3). -/
def gsCycles (r ncols : Nat) : Nat := (r * r + r) * (ceilDiv ncols 128 + 24)

/-- Row i of P from a row of M′ and Q̂ (R140). -/
def completeRow (xs qh : List Nat) (r n : Nat) : List Nat :=
  (List.range r).map (fun k => bfAcc 0 xs (colOf qh r n k))

/-- woad_value from a row of P and a row of Q̂ (R142). -/
def woadValue (p q : List Nat) : Nat := bfAcc 0 p q

/-- E′ of an element (R140). -/
def efValue (x : Nat) (p q : List Nat) : Nat := fsub x (bfAcc 0 p q)

/-- A drawn value of P_prev (R141). -/
def drawP (lineage tensor step i k : Nat) : Nat :=
  let (k0, k1) := philoxKey lineage tensor
  let (w0, _, _, _) := philox (i % 2 ^ 32, k, step % 2 ^ 32, step / 2 ^ 32 % 2 ^ 32) (k0 ^^^ 0x574F4144) k1
  let n := signed 32 w0
  fmul (fromInt (n * (2 ^ 149 : Nat)) 1 false) 0x30000000

/-! The task (Table 06-1) -/

def Task.wPhase (t : Task) : Nat := t.f 257 256
def Task.wEfReset (t : Task) : Bool := t.f 258 258 == 1
def Task.wInit (t : Task) : Bool := t.f 259 259 == 1
def Task.wRank (t : Task) : Nat := t.f 327 320
def Task.wGrad (t : Task) : Nat := t.f 351 336
def Task.wEf (t : Task) : Nat := t.f 367 352
def Task.wFactor (t : Task) : Nat := t.f 383 368
def Task.wPieceLog2 (t : Task) : Nat := t.f 399 392
def Task.wPieceSync (t : Task) : Nat := t.f 415 400
def Task.wTensor (t : Task) : Nat := t.f 447 416

/-- Check 1 of R137; a PIECE_LOG2 outside its range counts for PHASE 1 (log entry 32). -/
def Task.woadMalformed (t : Task) : Bool :=
  2 ≤ t.wPhase || t.wRank < 4 || 64 < t.wRank || t.wRank % 4 != 0 || 4096 ≤ t.wGrad || 4096 ≤ t.wEf || 4096 ≤ t.wFactor ||
  (t.wPhase == 1 && (t.wPieceLog2 < 6 || 16 < t.wPieceLog2))

/-- ncols and nrows of the matrix view. -/
def State.woadCols (s : State) (t : Task) : Nat := ((s.holdingIn t.job t.wGrad).map (fun h => descSize h.desc 0)).getD 1
def State.woadRows (s : State) (t : Task) : Nat := t.len / max 1 (s.woadCols t)

/-- Checks 2 to 6 of R137: status, DETAIL, DETAIL2, RESULT of the first failure. DEDUCED (log entry 168): a factor Holding
of another SIZE1 is LENGTH_MISMATCH. -/
def State.woadFault (s : State) (t : Task) : Option (Nat × Nat × Nat × Nat) :=
  match s.holdingIn t.job t.wGrad, s.holdingIn t.job t.wEf, s.holdingIn t.job t.wFactor with
  | none, _, _ => some (0x0033, t.wGrad, 0, 0)
  | _, none, _ => some (0x0033, t.wEf, 0, 0)
  | _, _, none => some (0x0033, t.wFactor, 0, 0)
  | some g, some e, some f =>
    let ncols := descSize g.desc 0
    let nrows := t.len / max 1 ncols
    let cache := ncols * t.wRank * 4
    if g.role != 4 || !(g.kind == 2 || g.kind == 3) || 2 < g.format || descDims g.desc == 1 then
      some (0x1010, t.wGrad, 4, 0)
    else if e.kind != 0 || e.role != 5 || 1 < e.format then some (0x1010, t.wEf, 5, 0)
    else if f.kind != 3 || f.role != 4 || 1 < f.format || descDims f.desc != 2 || descSize f.desc 0 < t.wRank then
      some (0x1010, t.wFactor, 4, 0)
    else if t.len % max 1 ncols != 0 then some (0x0018, 0, 0, g.count)
    else if e.count != t.len then some (0x0018, 0, 0, e.count)
    else if descSize f.desc 1 != nrows + ncols then some (0x0018, 0, 0, f.count)
    else if 16777216 < cache || (t.wPhase == 1 && 65536 < t.wPieceSync + ceilDiv nrows (2 ^ t.wPieceLog2)) then
      some (0x1011, t.wFactor, min cache (2 ^ 32 - 1), 0)
    else if t.wPhase == 1 then
      match s.factorSet? t.job t.wFactor with
      | none => some (0x1012, t.wFactor, 0, 0)
      | some x =>
        if x.state == .projected && x.step == t.step && x.rank == t.wRank && x.tensor == t.wTensor &&
            x.gradient == t.wGrad && x.ef == t.wEf then none
        else some (0x1012, t.wFactor, x.state.code + x.step % 2 ^ 29 * 8, 0)
    else none

/-- EF_STEP of an EF Holding, by its HOLDING_ID (R154). -/
def State.efStep? (s : State) (hid : Nat) : Option Nat := assoc s.woad.efStep hid

/-- The EF gap of a PHASE 0 (R154): 0 when EF_STEP is unknown or is the step before. DESIGN CHOICE (log entry 166): above
the step before, the difference is taken modulo 2^64. -/
def State.efGap (s : State) (t : Task) : Nat :=
  if t.wPhase != 0 || t.wEfReset then 0
  else match s.efStep? t.wEf with
    | none => 0
    | some k => if k + 1 == t.step then 0 else min 65535 ((t.step + 2 ^ 64 - 1 - k) % 2 ^ 64)

/-- WOAD_COMPRESS (R137): the checks, the EF gap, then the frame planner serves the task. -/
def execWoadCompress (task : Nat) (s : State) : Out :=
  .next <| s.whenReady task 0x12 fun s t =>
    if t.woadMalformed then s.malformed t
    else match s.woadFault t with
      | some x => s.failCheck t x
      | none =>
        if s.d2dDown then s.fail t 0x0021
        else
          let gap := s.efGap t
          let s := if gap == 0 then s else s.bump Od.efGapCount
          let s := if t.wPhase == 0 && t.wEfReset then
              s.setWoad fun w => { w with efStep := assocSet w.efStep t.wEf ((t.step + 2 ^ 64 - 1) % 2 ^ 64) }
            else s
          (s.setTask t.id (fun t => { t with detail := gap })).start t

/-! Factor-set records (R144) -/

/-- Set the record of a factor Holding. -/
def State.setFactorSet (s : State) (f : FactorSet) : State :=
  s.setWoad fun w => { w with sets := f :: w.sets.filter (fun x => !(x.job == f.job && x.holding == f.holding)) }

/-- Drop the records that satisfy a test: their state is NONE again. -/
def State.dropFactorSets (s : State) (p : FactorSet → Bool) : State :=
  s.setWoad fun w => { w with sets := w.sets.filter (fun x => !p x) }

/-- The record at the first slice of a phase (Table 06-2). -/
def State.startPhase (s : State) (t : Task) : State :=
  let old := s.factorSet? t.job t.wFactor
  if t.wPhase == 0 then
    s.setFactorSet
      { job := t.job.val, holding := t.wFactor, state := .projecting, step := t.step, rank := t.wRank, tensor := t.wTensor,
        gradient := t.wGrad, ef := t.wEf, nrows := s.woadRows t, ncols := s.woadCols t, efReset := t.wEfReset,
        pieceLog2 := 0, pieceSync := 0, level := s.woad.level / 256 }
  else match old with
    | some f => s.setFactorSet { f with state := .completing, pieceLog2 := t.wPieceLog2, pieceSync := t.wPieceSync,
                                        level := s.woad.level / 256 }
    | none => s

/-- A WOAD_COMPRESS ends: its record follows (Table 06-2). -/
def State.endPhase (s : State) (t : Task) (ok : Bool) : State :=
  match s.factorSet? t.job t.wFactor with
  | none => s
  | some f =>
    if !(f.step == t.step && (f.state == .projecting && t.wPhase == 0 || f.state == .completing && t.wPhase == 1)) then s
    else if !ok then s.dropFactorSets (fun x => x.job == f.job && x.holding == f.holding)
    else s.setFactorSet { f with state := if t.wPhase == 0 then .projected else .complete }

/-! The factor cache (R151, R152) -/

/-- Blocks of a residency. -/
def cacheBlocks (ncols r : Nat) : Nat := ceilDiv (ncols * r * 4) 65536

/-- Blocks free. -/
def State.cacheFree (s : State) : Nat := 256 - (s.woad.cache.map (·.blocks)).foldl (· + ·) 0

/-- The residency of a factor Holding, or of a Ledger record, at a step. -/
def State.residency? (s : State) (job : Nat) (holding : Option Nat) (step : Nat) : Option Residency :=
  s.woad.cache.find? (fun r => r.job == job && r.holding == holding && r.step == step)

/-- The residency a task uses: job, factor Holding and step. -/
def State.cacheKey (s : State) (t : Task) : Option (Nat × Option Nat × Nat) :=
  if t.type == 0x12 then some (t.job.val, some t.wFactor, t.step)
  else if t.type == 0x11 && t.gradSrc == 1 then some (t.job.val, some (t.roleHid 4), t.step)
  else if t.type == 0x16 then
    match (s.weld t.job).inRecords.find? (fun r => r.step == t.step) with
    | some r =>
      if ((r.entries[t.f 815 800]?).map (fun e => bitsOf e 159 152)) == some 0x10 then
        some (t.job.val, none, t.step * 65536 + t.f 815 800)
      else none
    | none => none
  else none

/-- A residency that a ready task names. -/
def State.cacheNamed (s : State) (r : Residency) : Bool :=
  s.sched.tasks.any (fun t => t.phase == .running && s.cacheKey t == some (r.job, r.holding, r.step))

/-- Evict COMPLETE residencies that no ready task names, oldest first, until the blocks are free (R152). -/
def State.evictCache (s : State) (need : Nat) : Nat → State
  | 0 => s
  | k + 1 =>
    if need ≤ s.cacheFree then s
    else match s.woad.cache.find? (fun r => r.complete && !s.cacheNamed r) with
      | none => s
      | some r =>
        State.evictCache ((s.setWoad fun w => { w with cache := w.cache.erase r }).bump Od.factorCacheEvictCount) need k

/-- Open a residency when the blocks can be had. -/
def State.openResidency (s : State) (key : Nat × Option Nat × Nat) (ncols r : Nat) : State × Bool :=
  let need := cacheBlocks ncols r
  let s := s.evictCache need s.woad.cache.length
  if s.cacheFree < need then (s, false)
  else
    let x : Residency := { job := key.1, holding := key.2.1, step := key.2.2, rank := r, blocks := need,
                           q := List.replicate (ncols * r) 0, snapshot := none, complete := false }
    (s.setWoad fun w => { w with cache := w.cache ++ [x] }, true)

/-- Change a residency. -/
def State.setResidency (s : State) (key : Nat × Option Nat × Nat) (f : Residency → Residency) : State :=
  s.setWoad fun w =>
    { w with cache := mapIf w.cache (fun r => r.job == key.1 && r.holding == key.2.1 && r.step == key.2.2) f }

/-- Close a residency. -/
def State.closeResidency (s : State) (key : Nat × Option Nat × Nat) : State :=
  s.setWoad fun w =>
    { w with cache := w.cache.filter (fun r => !(r.job == key.1 && r.holding == key.2.1 && r.step == key.2.2)) }

/-- FACTOR_CACHE_UE (R152): the residency of a factor Holding, or of an entry of a Ledger record, at a step is dropped, and
its slices roll back. Q of an open phase is rebuilt from its copy; without a slice under way the terms taken since that copy
are added again. Q̂ is loaded again when a task needs it. -/
def execFactorCacheUe (job : JobId) (set : FactorName) (s : State) : Out :=
  .next <|
    let at_ := match set.holding with | some _ => set.step.toNat | none => set.step.toNat * 65536 + set.entry.toNat
    match s.residency? job.val (set.holding.map (fun h => h.toNat)) at_ with
    | none => s
    | some r =>
      let key := (r.job, r.holding, r.step)
      let users := s.sched.tasks.filter (fun t => t.slicing && s.cacheKey t == some key)
      let s := s.bump Od.factorCacheUeCount
      let s := users.foldl (fun s t => s.faultSlice t.id false) s
      let s : State := match r.snapshot with
        | some q =>
          if r.complete then s.closeResidency key
          else
            let s : State := s.setResidency key (fun r => { r with q := q })
            let open_ := s.sched.tasks.filter (fun (t : Task) =>
              t.slice.isNone && t.type == 0x12 && t.wPhase == 0 && s.cacheKey t == some key)
            open_.foldl (fun (s : State) (t : Task) => s.setTask t.id (fun t => { t with done := r.snapDone })) s
        | none => s.closeResidency key
      s.event Od.factorCacheUeCount ((set.holding.map (fun h => h.toNat)).getD 0xFFFF) set.step.toNat

/-! Factor packets (R155, R156) -/

/-- A factor packet: its header as a number and its payload. -/
structure FactorPacket where
  step    : Nat
  tensor  : Nat
  nrows   : Nat
  ncols   : Nat
  first   : Nat
  rows    : Nat
  rank    : Nat
  side    : Nat
  format  : Nat
  level   : Nat
  payload : Bytes
  deriving DecidableEq, Repr

/-- The bytes of a packet, header most significant byte first (R5). -/
def FactorPacket.bytes (p : FactorPacket) : Bytes :=
  beBytes 64 (packFields [(40, 0), (8, 1), (16, 0x57AD), (128, 0), (32, crc32c p.payload), (32, p.payload.length), (24, 0),
    (8, p.level), (4, p.format), (4, p.side), (8, p.rank), (16, p.rows), (32, p.first), (32, p.ncols), (32, p.nrows),
    (32, p.tensor), (64, p.step)]) ++ p.payload

/-- Read a packet; none when it is malformed or its payload fails its check (R156). -/
def readPacket (bs : Bytes) : Option FactorPacket :=
  let h := beNat (bs.take 64)
  let g (hi lo : Nat) : Nat := h / 2 ^ lo % 2 ^ (hi + 1 - lo)
  let p : FactorPacket :=
    { step := g 511 448, tensor := g 447 416, nrows := g 415 384, ncols := g 383 352, first := g 351 320, rows := g 319 304,
      rank := g 303 296, side := g 295 292, format := g 291 288, level := g 287 280, payload := bs.drop 64 }
  let limit := if p.side == 0 then p.nrows else p.ncols
  if bs.length < 64 || g 63 48 != 0x57AD || g 47 40 != 1 || 1 < p.side || 1 < p.format || p.rank < 4 || 64 < p.rank ||
      p.rank % 4 != 0 || p.rows == 0 || g 255 224 != p.rows * p.rank * formatWidth p.format ||
      p.payload.length != g 255 224 || limit < p.first + p.rows || 1048576 < bs.length ||
      crc32c p.payload != g 223 192 then none
  else some p

/-- The values of row i of a side, widened, from packets. -/
def packetRow (ps : List FactorPacket) (side i : Nat) : Option (List Nat) :=
  (ps.find? (fun p => p.side == side && p.first ≤ i && i < p.first + p.rows)).map fun p =>
    let w := formatWidth p.format
    (elemsOf w p.rank (p.payload.drop ((i - p.first) * p.rank * w))).map (fwiden p.format)

/-- Q̂ of a set of packets, row-major. -/
def packetQ (ps : List FactorPacket) (ncols r : Nat) : List Nat :=
  (List.range ncols).flatMap (fun j => (packetRow ps 1 j).getD (List.replicate r 0))

/-- Cut rows into packets of a side, in ascending FIRST_ROW. -/
def cutPackets (head : FactorPacket) (perPacket rowBytes : Nat) : Nat → Nat → Bytes → List FactorPacket
  | 0, _, _ => []
  | k + 1, first, bs =>
    if bs == [] then []
    else
      let n := min perPacket (bs.length / rowBytes)
      { head with first := first, rows := n, payload := bs.take (n * rowBytes) } ::
        cutPackets head perPacket rowBytes k (first + n) (bs.drop (n * rowBytes))

/-- The packets of rows of a side of a factor set, from a first row, with the row bytes in the factor Holding's format: as
many rows as a Leaf and ROW_COUNT hold. -/
def FactorSet.packets (f : FactorSet) (side format first : Nat) (rows : Bytes) : List FactorPacket :=
  let rowBytes := f.rank * formatWidth format
  let head : FactorPacket :=
    { step := f.step, tensor := f.tensor, nrows := f.nrows, ncols := f.ncols, first := 0, rows := 0, rank := f.rank,
      side := side, format := format, level := f.level, payload := [] }
  cutPackets head (min 65535 (1048512 / max 1 rowBytes)) (max 1 rowBytes) rows.length first rows

/-! Checking the array (R157 to R159) -/

/-- Healthy spare rows and columns. -/
def State.rowSpares (s : State) : List Nat := spareLanes 130 s.woad.rowMap s.woad.rowsRetired
def State.colSpares (s : State) : List Nat := spareLanes 130 s.woad.colMap s.woad.colsRetired

/-- A task's slice uses the array. -/
def State.usesArray (s : State) (t : Task) : Bool := t.slicing && (s.cacheKey t).isSome

/-- ARRAY_CHECK_FAIL (R158): the array stops and every slice that uses it rolls back. -/
def execArrayCheckFail (residue : Bool) (s : State) : Out :=
  .next <|
    if !s.mainUp || (!residue && s.colSpares.isEmpty) then s
    else
      let s := s.bump (if residue then Od.arrayResidueErrCount else Od.arrayShadowMismatchCount)
      let users := s.sched.tasks.filter s.usesArray
      let s := users.foldl (fun s t => s.faultFor t.id .array) s
      if s.woad.suspect.isSome then s else s.setWoad fun w => { w with suspect := some s.frame }

/-- Retire a physical row. -/
def State.retireRow (s : State) (row : Nat) : State :=
  let name := s.partName (partId 2 row) (partId 2 row)
  let s := s.setWoad fun w => { w with rowsRetired := addOnce w.rowsRetired row }
  let spare := s.rowSpares.head?
  let s := s.setWoad fun w => { w with rowMap := replaceLane w.rowMap row spare }
  let s := ((s.bump Od.arrayRetireCount).retirePart (partId 2 row)).odSet Od.arrayRowsActive s.woad.rowMap.length
  s.event Od.arrayRetireCount name

/-- Retire a physical column; with no spare column left the shadow check stops, with an event (R159). -/
def State.retireCol (s : State) (col : Nat) : State :=
  let name := s.partName (partId 3 col) (partId 3 col)
  let s := s.setWoad fun w => { w with colsRetired := addOnce w.colsRetired col, shadowAt := 0 }
  let spare := s.colSpares.head?
  let s := s.setWoad fun w => { w with colMap := replaceLane w.colMap col spare }
  let s := ((s.bump Od.arrayRetireCount).retirePart (partId 3 col)).odSet Od.arrayColsActive s.woad.colMap.length
  let s := s.event Od.arrayRetireCount name
  if s.colSpares.isEmpty then s.event Od.arrayColsActive s.woad.colMap.length else s

/-- ARRAY_REPAIR (R158): in the repair frame the vectors of self-test item 2 name the physical rows and columns that fail,
spares among them. A pinned part counts as failing while a spare of its kind is healthy (R447). An event with DETAIL 0xFFFF
stands for "transient" (log entry 150). -/
def execArrayRepair (badRows badCols : List (Fin 130)) (s : State) : Out :=
  .next <| match s.woad.suspect with
    | none => s
    | some f =>
      if !s.lapsed f 1 then s
      else
        let named (gone : List Nat) (l : List (Fin 130)) : List Nat := (l.map (·.val)).filter (fun n => !gone.contains n)
        let pins (map : List Nat) (cls : Nat) (spares : List Nat) : List Nat :=
          if spares.isEmpty then [] else map.filter (fun p => s.pinned (partId cls p))
        let rows := (named s.woad.rowsRetired badRows ++ pins s.woad.rowMap 2 s.rowSpares).eraseDups
        let cols := (named s.woad.colsRetired badCols ++ pins s.woad.colMap 3 s.colSpares).eraseDups
        let s := s.setWoad fun w => { w with suspect := none }
        if rows == [] && cols == [] then s.event Od.arrayRetireCount 0xFFFF
        else cols.foldl (fun s c => s.retireCol c) (rows.foldl (fun s r => s.retireRow r) s)

end Sys2Proof.Machine
end

