-- ==== Sys2Proof/Machine/Gallery.lean ====
section
/-!
DEFINITION. The Gallery: addresses, the space its regions use, the error tracker and scrubber, row remapping and the remap
table (R185 to R203). GALLERY_UE and SCRUB_ROW, whose drop rules reach into other units, stand in Drop.lean.
-/
namespace Sys2Proof.Machine

/-! Addresses (Table 08-1) -/

/-- ROW of a Gallery address, which is also its slot. -/
def galRow (a : BitVec 35) : Nat := bitsOf a 34 20

/-- Channel of a Gallery address: die × 32 + bank (R185). -/
def galChannel (a : BitVec 35) : Nat := bitsOf a 14 13 * 32 + bitsOf a 12 8

/-- GRANULE of a Gallery address, within its row. -/
def galGranule (a : BitVec 35) : Nat := bitsOf a 19 15

/-- BYTE of a Gallery address, within its granule. -/
def galByte (a : BitVec 35) : Nat := bitsOf a 7 0

/-- Byte of the slot at a Gallery address (R186). -/
def slotByte (a : BitVec 35) : Nat := galGranule a * 32768 + galChannel a * 256 + galByte a

/-- Gallery address of a byte of a slot (R186): channel floor(b / 256) mod 128, granule floor(b / 32,768). -/
def slotAddr (slot b : Nat) : BitVec 35 :=
  BitVec.ofNat 35 (packFields [(8, b), (7, b / 256), (5, b / 32768), (15, slot)])

/-- Gallery address of a word of a row: 64 words to each of its 32 granules. -/
def wordAddr (channel row word : Nat) : BitVec 35 := slotAddr row (word / 64 * 32768 + channel * 256 + word % 64 * 4)

/-! Codewords (R192, R194) -/

/-- The codeword under which a 32-bit word is stored: data in [31:0], check bits in [38:32]. -/
def codeword (d : BitVec 32) : BitVec 39 := Config.checkBits d ++ d

/-- A word written poisoned: bits [38:37] inverted. -/
def poisonWord (d : BitVec 32) : BitVec 39 := codeword d ^^^ 0x6000000000

/-- What a consumer's check finds in a word that it reads. -/
inductive WordCheck
  | clean | corrected | poisoned | bad
  deriving DecidableEq, Repr

/-- The codewords that differ from a word in one bit, if there is one. -/
def nearWord (w : BitVec 39) : Bool :=
  (List.range 39).any (fun i => let v := w ^^^ (1#39 <<< i); v == codeword (v.extractLsb' 0 32))

/-- The check of a word (R192 to R194): it is a codeword, or a poisoned one, or one bit from a codeword, or uncorrectable. -/
def checkWord (w : BitVec 39) : WordCheck :=
  if w == codeword (w.extractLsb' 0 32) then .clean
  else if w == poisonWord (w.extractLsb' 0 32) then .poisoned
  else if nearWord w then .corrected else .bad

/-! Space (R187 to R191) -/

/-- 4 KiB units that an object takes (R189). -/
def unitsOf (n : Nat) : Nat := ceilDiv n 4096

/-- Sum of a list of counts. -/
def sumOf (l : List Nat) : Nat := l.foldl (· + ·) 0

/-- Slots that no region holds (R187). -/
def State.unassigned (s : State) : Nat :=
  32768 - s.odGet Od.slotRetireCount -
    (s.cfg Od.streamCredits + s.cfg Od.statsLeaves + s.cfg Od.ledgerLeaves + s.cfg Od.quarantineLeaves +
      s.cfg Od.egressLeaves + 128)

/-- STREAM credits in use: one for each Leaf fetched for a lane task (R27). -/
def State.streamUsed (s : State) : Nat :=
  (s.update.streams.filter (fun b => s.sched.tasks.any (fun t =>
    !b.side && t.id == b.task && (t.type == 0x11 || t.type == 0x12 || t.type == 0x16)))).length

/-- Blocks of 64 KiB of an ADAFACTOR task's sums and their slice-start copies (R191). -/
def statsBlocks (rows cols : Nat) : Nat := max 1 (ceilDiv (8 * (rows + cols)) 65536)

/-- STATS blocks in use. -/
def State.statsUsed (s : State) : Nat :=
  sumOf (s.update.stats.map (fun x => statsBlocks x.now.rowsum.length x.now.colsum.length)) +
  sumOf (s.woad.cache.map (fun r => match r.snapshot with | some q => ceilDiv (4 * q.length) 65536 | none => 0))

/-- STATS blocks free. -/
def State.statsFree (s : State) : Nat := s.cfg Od.statsLeaves * 16 - s.statsUsed

/-- Units of the LEDGER region, and of its partner part (R214). -/
def State.ledgerUnits (s : State) : Nat := s.cfg Od.ledgerLeaves * 256
def State.partnerUnits (s : State) : Nat := s.ledgerUnits * s.cfg Od.ledgerPartnerPct / 100

/-- Units a record's reservation takes: RECORD_OPEN, each RECORD_DATA and each trailer part (R217). An entry of factor
packets counts its bytes and one unit more for each packet after the first. -/
def recordUnits (head : BitVec 512) (entries : List (BitVec 1024)) : Nat :=
  let grad (e : BitVec 1024) : Nat := bitsOf e 351 288
  let fac := entries.filter (fun e => bitsOf e 159 152 == 0x10)
  let plain := entries.filter (fun e => bitsOf e 159 152 != 0x10)
  let leaves (e : BitVec 1024) : Nat := ceilDiv (grad e) 1048576
  let msgs := bitsOf head 255 224
  let facMsgs := msgs - sumOf (plain.map leaves)
  let cut (n : Nat) : Nat := n / 1048576 * 256 + unitsOf (n % 1048576)
  unitsOf (64 + 128 * entries.length) + sumOf (plain.map (fun e => cut (grad e))) + sumOf (fac.map (fun e => unitsOf (grad e))) +
    (facMsgs - fac.length) + cut (40 * bitsOf head 223 192)

/-- Units of the partner part in use: records and copies received. -/
def State.partnerUsed (s : State) : Nat :=
  sumOf (s.welds.toList.map (fun w =>
    sumOf (w.inRecords.map (fun r => recordUnits r.head r.entries)) +
    sumOf (w.copies.map (fun c => sumOf (c.leaves.map (fun l => unitsOf l.2.2.length))))))

/-- Units of the own part in use: staged messages that no WELD_ACK covers, or that a Vault copy still needs (R213), and record
objects that a restore has fetched (R258). -/
def State.ownUsed (s : State) : Nat :=
  sumOf (s.welds.toList.map (fun w =>
    sumOf (w.outRecords.map (fun r => sumOf (r.staged.map (fun m => unitsOf m.payload.length)))) +
    sumOf (w.unacked.map (fun m => unitsOf m.2)))) +
  sumOf (s.vault.restores.map (fun r => sumOf (r.records.map (fun o => unitsOf ((o.bytes.getD []).length)))))

/-- Units in use now of the regions in which space is taken in the midst of a frame. -/
def State.spaceUsed (s : State) : Space :=
  { partner := s.partnerUsed, own := s.ownUsed,
    quarantine := sumOf (s.vault.quarantine.map (fun q => unitsOf (q.coded.length + 16))) }

/-- Units of a region of which so many stand free in the frame: what was freed since the boundary does not count (R190). -/
def State.spaceFree (s : State) (units : Nat) (of : Space → Nat) : Nat :=
  units - max (of s.spaceUsed) (of s.gallery.usedAt + of s.gallery.taken)

/-- Space taken in the frame. -/
def State.takeSpace (s : State) (d : Space) : State :=
  s.setGallery fun g =>
    { g with taken := ⟨g.taken.partner + d.partner, g.taken.own + d.own, g.taken.quarantine + d.quarantine⟩ }

/-- The space that an operation has taken counts for the frame. -/
def State.tookSince (s before : State) : State :=
  let u := s.spaceUsed
  let v := before.spaceUsed
  s.takeSpace ⟨u.partner - v.partner, u.own - v.own, u.quarantine - v.quarantine⟩

/-- Units of the partner part free. -/
def State.partnerFree (s : State) : Nat := s.spaceFree s.partnerUnits (·.partner)

/-- Units of the own part free. -/
def State.ownFree (s : State) : Nat := s.spaceFree (s.ledgerUnits - s.partnerUnits) (·.own)

/-- QUARANTINE units free. -/
def State.quarantineFree (s : State) : Nat := s.spaceFree (s.cfg Od.quarantineLeaves * 256) (·.quarantine)

/-- EGRESS units in use: those of the Leaves and records, and the headroom units (R189). -/
def State.egressUsed (s : State) : Nat := sumOf (s.vault.egress.map (·.units))
def State.egressHead (s : State) : Nat := sumOf (s.vault.egress.map (·.head))

/-- EGRESS units free outside the headroom, and free headroom units (2 of every slot). -/
def State.egressFree (s : State) : Nat := s.cfg Od.egressLeaves * 254 - s.egressUsed
def State.egressHeadFree (s : State) : Nat := s.cfg Od.egressLeaves * 2 - s.egressHead

/-- Units in use of the six regions, in the order of REGION_SHORT_MASK (REGION_USED). -/
def State.regionUsed (s : State) : List Nat :=
  [s.streamUsed * 256, s.statsUsed * 16, s.partnerUsed + s.ownUsed, s.spaceUsed.quarantine, s.egressUsed + s.egressHead, 0]

/-- Size of a region in units. -/
def State.regionUnits (s : State) (region : Nat) : Nat :=
  256 * (match region with
    | 0 => s.cfg Od.streamCredits | 1 => s.cfg Od.statsLeaves | 2 => s.cfg Od.ledgerLeaves
    | 3 => s.cfg Od.quarantineLeaves | 4 => s.cfg Od.egressLeaves | _ => 128)

/-- Work waited for space in this frame (R190). -/
def State.waitSpace (s : State) : State := s.setGallery fun g => { g with waited := true }

/-- A single object is larger than its whole region (R191). -/
def State.oversize (s : State) (region units : Nat) : State := s.countEvent Od.regionOversizeCount region units

/-! The remap table (R200) -/

/-- Bytes 7 down to 1 of an entry, which its CRC covers. -/
def entryCrc (v : Nat) : Nat := crc8 (beBytes 7 (v / 256))

/-- A remap table entry (Table 08-3). -/
def remapEntry (kind channel row spare : Nat) : BitVec 64 :=
  let v := packFields [(8, 0), (22, 0), (10, spare), (15, row), (5, channel % 32), (2, channel / 32), (2, kind)]
  BitVec.ofNat 64 (v + entryCrc v)

/-- An entry that may be used: its CRC is right and its fields are legal. -/
def entryUsable (e : BitVec 64) : Bool :=
  let kind := bitsOf e 63 62
  let spare := bitsOf e 39 30
  entryCrc e.toNat == bitsOf e 7 0 &&
    (kind == 1 && spare < 656 || kind == 2 && spare < 64 || kind == 3 && spare == 0)

/-- Channel and row of an entry. -/
def entryRow (e : BitVec 64) : Nat × Nat := (bitsOf e 61 60 * 32 + bitsOf e 59 55, bitsOf e 54 40)

/-- Next unused primary and secondary spare of a bank. -/
def spareOf (l : List (Nat × Nat × Nat)) (channel : Nat) : Nat × Nat := (assoc l channel).getD (0, 0)

/-- Set an entry of a table: the row's own entry is rewritten, another is added at the end while there is room. -/
def putRemap (table : List (BitVec 64)) (e : BitVec 64) : List (BitVec 64) :=
  if table.any (fun x => entryRow x == entryRow e) then mapIf table (fun x => entryRow x == entryRow e) (fun _ => e)
  else if table.length < 4096 then table ++ [e] else table

/-- Record a change: bank counter, then entry, in copy A and then in copy B (R201). A full table records nothing. -/
def State.recordRemap (s : State) (kind channel row spare : Nat) : State :=
  let e := remapEntry kind channel row spare
  let known := s.gallery.tableA.any (fun x => entryRow x == (channel, row))
  if !known && 4096 ≤ s.gallery.tableA.length then
    (s.bump Od.remapEntryLostCount).event Od.remapTableUsed channel row
  else s.setGallery fun g =>
    { g with tableA := putRemap g.tableA e, tableB := putRemap g.tableB e,
             spareNextB := assocSet g.spareNextB channel (spareOf g.spareNext channel) }

/-- Translation in force of a row, if it is remapped. -/
def State.xlated (s : State) (channel row : Nat) : Option (Bool × Nat) :=
  (s.gallery.xlate.find? (fun x => x.1 == channel && x.2.1 == row)).map (fun x => x.2.2)

/-- Set the translation of a row. -/
def State.setXlate (s : State) (channel row : Nat) (secondary : Bool) (spare : Nat) : State :=
  s.setGallery fun g =>
    { g with xlate := (channel, row, secondary, spare) :: g.xlate.filter (fun x => !(x.1 == channel && x.2.1 == row)) }

/-- A row must move (R196): it queues for the remap engine of its die. -/
def State.queueRemap (s : State) (channel row : Nat) (bad : List Nat) : State :=
  if s.gallery.remaps.any (fun x => x.channel == channel && x.row == row) then
    s.setGallery fun g =>
      { g with remaps := mapIf g.remaps (fun x => x.channel == channel && x.row == row)
                 (fun x => { x with bad := (x.bad ++ bad).eraseDups }) }
  else
    let j : RemapJob := { channel := channel, row := row, stage := 0, secondary := false, spare := 0,
                          again := (s.xlated channel row).isSome, since := s.frame, found := s.frame, bad := bad }
    s.setGallery fun g => { g with remaps := g.remaps ++ [j], tracker := g.tracker.filter (fun x =>
      !(x.1 == channel && x.2.1 == row)) }

/-- The error tracker counts corrected words of a row; at CE_REMAP_THRESHOLD the row is remapped (R196). When the tracker
is full the entry with the lowest count gives way. -/
def State.trackRow (s : State) (channel row n : Nat) : State :=
  if n == 0 then s
  else
    let old := ((s.gallery.tracker.find? (fun x => x.1 == channel && x.2.1 == row)).map (·.2.2)).getD 0
    let rest := s.gallery.tracker.filter (fun x => !(x.1 == channel && x.2.1 == row))
    let low := rest.foldl (fun m x => min m x.2.2) (2 ^ 32)
    let rest := if rest.length < 1024 then rest
      else match rest.find? (fun x => x.2.2 == low) with
        | some x => rest.erase x
        | none => rest
    let s := s.setGallery fun g => { g with tracker := rest ++ [(channel, row, old + n)] }
    if s.cfg Od.ceRemapThreshold ≤ old + n then (s.scored (partId 8 channel) 1).queueRemap channel row [] else s

/-- Change the remap under way of a row. -/
def State.setRemap (s : State) (channel row : Nat) (f : RemapJob → RemapJob) : State :=
  s.setGallery fun g => { g with remaps := mapIf g.remaps (fun x => x.channel == channel && x.row == row) f }

/-- Remove the remap of a row. -/
def State.dropRemap (s : State) (channel row : Nat) : State :=
  s.setGallery fun g => { g with remaps := g.remaps.filter (fun x => !(x.channel == channel && x.row == row)) }

/-- Frame 1 of a remap: the next unused spare is taken, the row copied and read back (R197, R198). A failed read-back
abandons the spare, and the row moves on to a secondary one. -/
def State.copyRow (s : State) (j : RemapJob) (secondary : Bool) (spare : Nat) (readback : Bool) : State :=
  let (p, q) := spareOf s.gallery.spareNext j.channel
  let next := if secondary then (p, q + 1) else (p + 1, q)
  let s := s.setGallery fun g => { g with spareNext := assocSet g.spareNext j.channel next }
  if readback then
    (s.setRemap j.channel j.row (fun x => { x with stage := 1, secondary := secondary, spare := spare, since := s.frame })).setGallery
      fun g => { g with poisoned := (g.poisoned ++ j.bad).eraseDups }
  else s.setRemap j.channel j.row (fun x => { x with again := true, since := s.frame })

/-- Frame 2 of a remap: bank counter and entry are written (R197). The switch follows at the boundary. -/
def State.writeRemap (s : State) (j : RemapJob) : State :=
  let s := s.recordRemap (if j.secondary then 2 else 1) j.channel j.row j.spare
  let s := s.setRemap j.channel j.row (fun x => { x with stage := 2, since := s.frame })
  let s := (s.bump Od.rowRemapCount).scored (partId 8 j.channel) 4
  if j.again then s.bump Od.secondaryRemapCount else s

/-- At the boundary, rows whose entry is written switch to their spare (R197); a frame in which work waited for space is
counted, and space freed in it counts from here (R190). -/
def State.galleryBoundary (s : State) : State :=
  let ready := s.gallery.remaps.filter (fun j => j.stage == 2)
  let s := ready.foldl (fun s j => (s.setXlate j.channel j.row j.secondary j.spare).dropRemap j.channel j.row) s
  let s := s.setGallery fun g => { g with usedAt := s.spaceUsed, taken := {} }
  if s.gallery.waited then
    (s.total Od.regionWaitFrames 1).setGallery fun g => { g with waited := false }
  else s

/-- The size of a region falls by one slot (R199). A slot that no region holds shrinks none. -/
def State.shrinkRegion (s : State) (region : Nat) : State :=
  if 5 < region then s else
  let less (s : State) (r : OdRef) : State := s.odSetP r (s.odGet r - 1)
  let s := match region with
    | 0 => less s Od.streamCredits | 1 => less s Od.statsLeaves | 2 => less s Od.ledgerLeaves
    | 3 => less s Od.quarantineLeaves | 4 => less s Od.egressLeaves | _ => s
  s.odSetP Od.regionShortMask (s.odGet Od.regionShortMask ||| 2 ^ region)

/-- Load the remap table from its copies (R201): each entry from a copy that passes its CRC; entries that fail in both are
lost. -/
def State.loadRemap (s : State) (bad : List (BitVec 12 × Bool)) : State :=
  let a := s.gallery.tableA
  let b := s.gallery.tableB
  let fails (i : Nat) (copy : Bool) : Bool := bad.any (fun x => x.1.toNat == i && x.2 == copy)
  let pick (i : Nat) : Option (BitVec 64) :=
    match (if fails i false then none else a[i]?) with
    | some e => some e
    | none => if fails i true then none else b[i]?
  let all := (List.range (max a.length b.length)).map pick
  let good := all.filterMap id
  let lost := (all.filter (·.isNone)).length
  let s := if lost == 0 then s
    else (s.bumpBy Od.remapEntryLostCount lost).event Od.remapEntryLostCount lost
  let chans := ((s.gallery.spareNext.map (·.1)) ++ (s.gallery.spareNextB.map (·.1))).eraseDups
  let counters := chans.foldl (fun l c =>
    let (p, q) := spareOf s.gallery.spareNext c
    let (p', q') := spareOf s.gallery.spareNextB c
    assocSet l c (max p p', max q q')) ([] : List (Nat × Nat × Nat))
  let used := good.filter entryUsable
  let rows := used.filterMap (fun e =>
    if bitsOf e 63 62 == 3 then none
    else some ((entryRow e).1, (entryRow e).2, bitsOf e 63 62 == 2, bitsOf e 39 30))
  let slots := used.filterMap (fun e => if bitsOf e 63 62 == 3 then some (entryRow e).2 else none)
  let s := s.setGallery fun g =>
    { g with tableA := good, tableB := good, spareNext := counters, spareNextB := counters, xlate := rows,
             slotsRetired := slots, remaps := [], tracker := [], poisoned := [], scrubAt := 0, scrubFrame := s.frame }
  s.odSet Od.tableValid 1

/-- The next spare of a kind that has not failed, from an index up. -/
def nextSpare (bad : List (Nat × Bool × Nat)) (channel : Nat) (secondary : Bool) (i size : Nat) : Option Nat :=
  ((List.range size).drop i).find? (fun k => !bad.contains (channel, secondary, k))

/-- A row that fails March C− takes the next spare of its bank that passes; with no spare left its slot is retired (R199,
R201). -/
def State.rebuildRow (s : State) (bad : List (Nat × Bool × Nat)) (r : Nat × Nat) : State :=
  let (p, q) := spareOf s.gallery.spareNext r.1
  let passed (next : Nat × Nat) : State := s.setGallery fun g => { g with spareNext := assocSet g.spareNext r.1 next }
  match nextSpare bad r.1 false p 656, nextSpare bad r.1 true q 64 with
  | some i, _ => ((passed (i + 1, q)).setXlate r.1 r.2 false i).recordRemap 1 r.1 r.2 i
  | none, some i => ((passed (656, i + 1)).setXlate r.1 r.2 true i).recordRemap 2 r.1 r.2 i
  | none, none =>
    let s := ((passed (656, 64)).bump Od.slotRetireCount).setGallery fun g =>
      { g with slotsRetired := addOnce g.slotsRetired r.2 }
    (s.recordRemap 3 r.1 r.2 0).event Od.slotRetireCount r.2 r.1

/-- Rebuild the table after VBAT loss from the data rows and the spare rows that fail March C− (R201). -/
def State.rebuildRemap (s : State) (rows : List (Nat × Nat)) (bad : List (Nat × Bool × Nat)) : State :=
  let s := s.setGallery fun g =>
    { g with tableA := [], tableB := [], spareNext := [], spareNextB := [], xlate := [], slotsRetired := [], remaps := [],
             tracker := [], poisoned := [], scrubAt := 0, scrubFrame := s.frame }
  let s := rows.foldl (fun (s : State) r => s.rebuildRow bad r) s
  s.odSet Od.tableValid 0

/-- Spares left of all banks: primary and secondary. -/
def State.sparesLeft (s : State) : Nat × Nat :=
  (83968 - sumOf (s.gallery.spareNext.map (fun x => min 656 x.2.1)),
   8192 - sumOf (s.gallery.spareNext.map (fun x => min 64 x.2.2)))

/-- REMAP_TABLE: copy A in the layout of R200. -/
def State.remapBytes (s : State) : Bytes :=
  let head := (List.range 128).flatMap (fun c =>
    let (p, q) := spareOf s.gallery.spareNext c
    leBytes 4 (p % 65536 + q * 65536))
  let body := s.gallery.tableA.flatMap (fun e => leBytes 8 e.toNat)
  head ++ body ++ List.replicate (32768 - body.length) 0

end Sys2Proof.Machine
end

