-- ==== Sys2Proof/Machine/Matrix.lean ====
section
/-!
DEFINITION. The compatibility matrix of a bundle: its checks, and the class it gives to the engine's own combination and to
a pair (R458 to R460).
-/
namespace Sys2Proof.Machine

/-- A field of a little-endian matrix header or row, bits high:low. -/
def leField (bs : Bytes) (hi lo : Nat) : Nat := leNat bs / 2 ^ lo % 2 ^ (hi + 1 - lo)

/-- The rows of a matrix, 40 bytes each. -/
def matrixRows : Nat → Bytes → List Bytes
  | 0, _ => []
  | k + 1, bs => bs.take 40 :: matrixRows k (bs.drop 40)

/-- The rows that a matrix's header counts. -/
def rowsOf (m : Bytes) : List Bytes := matrixRows (leField (m.take 16) 95 80) (m.drop 16)

/-- The ranges of a row: (minimum, maximum) of HW_REVISION, CURATOR_FW, DOCENT_FW, KERNEL_IMAGE_ID, BUNDLE_ID
(Table 17-10). -/
def rowRanges (r : Bytes) : List (Nat × Nat) :=
  [(leField r 303 296, leField r 295 288), (leField r 255 224, leField r 223 192), (leField r 191 160, leField r 159 128),
   (leField r 127 96, leField r 95 64), (leField r 63 32, leField r 31 0)]

/-- A row's SCOPE and CLASS. -/
def rowScope (r : Bytes) : Nat := leField r 319 312
def rowClass (r : Bytes) : Nat := leField r 311 304

/-- The matrix passes R458 for a bundle of this BUNDLE_ID (R452). An illegal SCOPE fails it too (R8). -/
def matrixOk (m : Bytes) (bundle : Nat) : Bool :=
  let h := m.take 16
  let n := leField h 95 80
  let rows := rowsOf m
  m.length == 16 + 40 * n && leField h 15 0 == 0x434D && leField h 23 16 == 1 && n ≤ 4096 &&
  leField h 127 96 == crc32c (m.drop 16) && leField h 79 72 ≤ 2 && leField h 71 64 ≤ 2 &&
  leField h 63 32 == bundle &&
  rows.all (fun r => rowScope r ≤ 1 && rowClass r ≤ 2 && (rowRanges r).all (fun p => p.1 ≤ p.2))

/-- A value list is inside a row's ranges; a PAIR row has no KERNEL range (Table 17-10). -/
def rowHolds (r : Bytes) (vals : List (Option Nat)) : Bool :=
  ((rowRanges r).zip vals).all (fun x => match x.2 with | some v => x.1.1 ≤ v && v ≤ x.1.2 | none => true)

/-- The class that a matrix gives in a scope (R459): the first row that holds every value, else the scope's default. -/
def matrixClass (m : Bytes) (scope : Nat) (vals : List (Option Nat)) : Nat :=
  match (rowsOf m).find? (fun r => rowScope r == scope && rowHolds r vals) with
  | some r => rowClass r
  | none => if scope == 0 then leField (m.take 16) 71 64 else leField (m.take 16) 79 72

/-- CURATOR_FW of an image slot: the ROM image, or image A or B (R403). -/
def State.slotFw (s : State) (slot : Nat) : Nat :=
  match slot with
  | 1 => (s.battery.imageA.map (fun i => i.fw.toNat)).getD 0
  | 2 => (s.battery.imageB.map (fun i => i.fw.toNat)).getD 0
  | _ => Config.romFw % 2 ^ 32

/-- CURATOR_FW of the running image. -/
def State.curatorFw (s : State) : Nat := s.slotFw s.curator.slot

/-- DOCENT_FW, KERNEL_IMAGE_ID and BUNDLE_ID of the active bundle, 0 when none is active (R451). -/
def State.docentFw (s : State) : Nat := (s.service.active.map (fun b => b.docentFw.toNat)).getD 0
def State.bundleId (s : State) : Nat := (s.service.active.map (fun b => b.id.toNat)).getD 0

/-- The class of an own combination: a bundle with a Curator image (R459). -/
def ownClassOf (b : Bundle) (curatorFw : Nat) : Nat :=
  matrixClass b.matrix 0 [some hwRevision, some curatorFw, some b.docentFw.toNat, some b.kernelId.toNat,
    some b.id.toNat]

/-- The class of the engine's own combination; with no bundle active there is no matrix, and the class is restricted as a
combination that no row names (R459). -/
def State.ownClass (s : State) : Nat := match s.service.active with
  | some b => ownClassOf b s.curatorFw
  | none => 1

/-- The class of a pair from this engine's matrix, by the partner's HW_REVISION, CURATOR_FW, DOCENT_FW and BUNDLE_ID
(R459). An own combination that is restricted keeps every pair to COPY mode (R460). -/
def State.pairClass (s : State) (hw curator docent bundle : Nat) : Nat :=
  match s.service.active with
  | none => 1
  | some b => max (min 1 s.ownClass) (matrixClass b.matrix 1 [some hw, some curator, some docent, none, some bundle])

end Sys2Proof.Machine
end

