-- ==== Sys2Proof/Machine/CollCore.lean ====
section
/-!
DEFINITION. Groups, the ring, tree and flood of collectives, their messages, and ABORT (chapter 11, R273 to R279, R286).
-/
namespace Sys2Proof.Machine

/-! Groups on a logical torus (R273) -/

/-- Size of an axis. -/
def Group.size (g : Group) (a : Nat) : Nat := g.sizes.getD a 1

/-- Distance in index between neighbours on an axis. -/
def Group.stride (g : Group) (a : Nat) : Nat := (g.sizes.take a).foldl (· * ·) 1

/-- Coordinate of a position on an axis. -/
def Group.coord (g : Group) (v a : Nat) : Nat := v / g.stride a % max 1 (g.size a)

/-- A position with one coordinate changed. -/
def Group.move (g : Group) (v a c : Nat) : Nat := v - g.coord v a * g.stride a + c * g.stride a

/-- The position of coordinates. -/
def Group.position (g : Group) (xs : List Nat) : Nat :=
  ((List.range g.axes).map (fun a => xs.getD a 0 * g.stride a)).foldl (· + ·) 0

/-- Engine at a position, 0 when it is absent. -/
def Group.member (g : Group) (v : Nat) : Nat := g.members.getD v 0

/-- Absent positions. -/
def Group.absent (g : Group) : Nat := (g.members.filter (· == 0)).length

/-- The position with offset k on a line of an axis, counted from the root's coordinate (R275). -/
def Group.offset (g : Group) (root : List Nat) (v a k : Nat) : Nat :=
  g.move v a ((root.getD a 0 + k) % max 1 (g.size a))

/-- The position that stands for a position on an axis: itself while it is present, on a later axis the last present one
before the root of its line (R276); none when the whole line is absent. -/
def Group.holder (g : Group) (root : List Nat) : Nat → Nat → Option Nat
  | 0, v => if g.member v == 0 then none else some v
  | a + 1, v =>
    match g.holder root a v with
    | some x => some x
    | none => (List.range (g.size a - 1)).findSome? (fun k => g.holder root a (g.offset root v a (g.size a - 1 - k)))

/-- Present positions of a line in the order of its ring, the root's place last (R275, R276). -/
def Group.chain (g : Group) (root : List Nat) (a v : Nat) : List Nat :=
  (List.range (g.size a)).filterMap (fun k => g.holder root a (g.offset root v a (k + 1)))

/-- The axes on which a position takes part, each with the place that it holds there. -/
def Group.places (g : Group) (root : List Nat) (me : Nat) : Nat → Nat → Nat → List (Nat × Nat)
  | 0, _, _ => []
  | k + 1, a, v =>
    (a, v) :: (if (g.chain root a v).getLast? == some me then g.places root me k (a + 1) (g.offset root v a 0) else [])

/-- The places of this engine. -/
def Group.own' (g : Group) (root : List Nat) : List (Nat × Nat) := g.places root g.own g.axes 0 g.own

/-- The engine holds the root's place. -/
def Group.isRoot (g : Group) (root : List Nat) : Bool := g.position root == g.own

/-- The element that follows another in a list. -/
def nextIn (l : List Nat) (x : Nat) : Option Nat := (l.drop (l.idxOf x + 1)).head?

/-- Positions to which this engine passes data on its way outward (R277: tree), highest axis first. -/
def Group.treeNext (g : Group) (root : List Nat) : List Nat :=
  (g.own' root).reverse.flatMap fun p =>
    let n := g.size p.1
    let src := (g.chain root p.1 p.2).getLast?
    let at_ (k : Nat) : Option Nat := g.holder root p.1 (g.offset root p.2 p.1 k)
    let up := ((List.range (n / 2)).filterMap (fun k => at_ (k + 1))).filter (fun x => some x != src)
    let down := ((List.range (n - 1 - n / 2)).filterMap (fun k => at_ (n - 1 - k))).filter (fun x => some x != src)
    let after (l : List Nat) : Option Nat :=
      if src == some g.own then l.head? else if l.contains g.own then nextIn l g.own else none
    (after up).toList ++ (after down).toList

/-- Ring neighbours of this engine on every axis, absent positions and lost members skipped (R277: flood). -/
def Group.neighbours (g : Group) (lost : List Nat) : List Nat :=
  ((List.range g.axes).flatMap fun a =>
    let n := g.size a
    let c := g.coord g.own a
    let at_ (k : Nat) : Nat := g.move g.own a ((c + k) % max 1 n)
    let live (v : Nat) : Bool := v != g.own && g.member v != 0 && !lost.contains (g.member v)
    let ring := (List.range (n - 1)).map (fun k => at_ (k + 1))
    (ring.find? live).toList ++ (ring.reverse.find? live).toList).eraseDups

/-- GROUP_FOLD (R273). -/
def groupFold (axes epoch : Nat) (sizes root members : List Nat) : Nat :=
  Config.sha3 (leBytes 1 axes ++ sizes.flatMap (leBytes 1) ++ root.flatMap (leBytes 1) ++ leBytes 2 epoch ++
    members.flatMap (leBytes 4)) % 2 ^ 64

/-- A joined group. -/
def State.group? (s : State) (id : Nat) : Option Group := s.colls.groups.find? (fun g => g.id == id)

/-- Change a group. -/
def State.setGroup (s : State) (id : Nat) (f : Group → Group) : State :=
  s.setColls fun c => { c with groups := mapIf c.groups (fun g => g.id == id) f }

/-- A group joined in a job. -/
def State.groupIn (s : State) (j : JobId) (id : Nat) : Option Group :=
  s.colls.groups.find? (fun g => g.id == id && g.job == j.val)

/-- An open collective. -/
def State.coll? (s : State) (group seq : Nat) : Option Coll :=
  s.colls.open_.find? (fun c => c.group == group && c.seq == seq)

/-- Change an open collective. -/
def State.setColl (s : State) (group seq : Nat) (f : Coll → Coll) : State :=
  s.setColls fun x => { x with open_ := mapIf x.open_ (fun c => c.group == group && c.seq == seq) f }

/-- The effective deadline of a collective (R285). -/
def Coll.deadline (c : Coll) : Nat := c.base + c.grace

/-- Engines that a pair of this engine has declared lost. -/
def State.lostEngines (s : State) : List Nat :=
  s.welds.toList.filterMap (fun w => if w.state == .lost then some w.partner else none)

/-! Messages (R279) -/

/-- The fields of a collective message that vary from one message of a collective to another. -/
structure CollMsg where
  type    : Nat
  src     : Nat
  reason  : Nat := 0
  grace   : Nat := 0
  event   : Nat
  phase   : Nat := 0
  axis    : Nat := 0
  piece   : Nat := 0
  count   : Nat
  payload : Bytes := []

/-- The header of Table 11-2. -/
def collHdr (c : Coll) (g : Group) (dst : Nat) (m : CollMsg) : Nat :=
  packFields [(32, 0), (32, m.payload.length), (8, 0),
    (24, packFields ((List.range 4).map (fun a => (6, c.root.getD a 0)))), (6, 0), (2, m.axis), (2, m.phase),
    (2, if c.exchange then 1 else 0), (4, c.dtype), (4, c.op), (4, c.kind), (8, m.type), (8, m.reason), (8, m.grace),
    (16, m.piece), (16, g.id), (16, g.epoch), (32, m.count), (32, m.event), (32, c.base), (32, c.seq), (32, dst), (32, m.src),
    (64, g.fold), (64, c.step)]

/-- Send a message of a collective to an engine on VC1, under the group key; nothing is sent without the key. -/
def State.collSend (s : State) (c : Coll) (g : Group) (dst : Nat) (m : CollMsg) : State :=
  let ctx := beBytes 16 (s.job (jobOf g.job)).lineage ++ beBytes 2 g.id ++ beBytes 2 g.epoch
  let hdr := collHdr c g dst m
  match s.seal 12 2 labelGroup ctx (beBytes 64 hdr) m.payload with
  | (some sealed, s) => s.offer dst 1 2 hdr (64 + sealed.length) sealed
  | (none, s) => s

/-- Flood a message (R277). -/
def State.collFlood (s : State) (c : Coll) (g : Group) (m : CollMsg) : State :=
  (g.neighbours s.lostEngines).foldl (fun s v => s.collSend c g (g.member v) m) s

/-- COUNT of a collective's messages: the agreed count once it is known. -/
def Coll.countNow (c : Coll) : Nat := c.agreed.getD c.count

/-- Send ABORT for a collective with a reason (R286): once by this engine, and not after its commit. -/
def State.abortCollAt (s : State) (c : Coll) (reason frame : Nat) : State :=
  if c.committed || c.aborts.any (fun a => a.source == s.engineId) then s
  else
    match s.group? c.group with
    | none => s
    | some g =>
      let a : HeldAbort := { frame := frame, source := s.engineId, reason := reason }
      let s := s.bump Od.collAbortCount
      let s := if reason == 1 then s.bump Od.collTimeoutCount else s
      (s.setColl c.group c.seq (fun c => { c with aborts := c.aborts ++ [a] })).collFlood c g
        { type := 2, src := s.engineId, reason := reason, event := frame, count := c.countNow }

/-- Send an ABORT in the present frame. -/
def State.abortColl (s : State) (c : Coll) (reason : Nat) : State := s.abortCollAt c reason s.frame

/-- Abort the open collectives that satisfy a test. -/
def State.abortColls (s : State) (p : Coll → Bool) (reason frame : Nat) : State :=
  (s.colls.open_.filter p).foldl (fun s c => s.abortCollAt c reason frame) s

/-- The partner of a pair is declared lost: collectives of the groups in which it holds a position are aborted with
MEMBER_LOST (R286). -/
def State.abortLost (s : State) (engine frame : Nat) : State :=
  s.abortColls (fun c => ((s.group? c.group).map (fun g => g.members.contains engine)).getD false) 3 frame

end Sys2Proof.Machine
end

