-- ==== Sys2Proof/Machine/Weld.lean ====
section
/-!
DEFINITION. Weld: the message header and its checks, sequence numbers, binding and pairing (R204 to R212).
-/
namespace Sys2Proof.Machine

/-! The header (Table 09-2) -/

def wStep (h : BitVec 256) : Nat := bitsOf h 255 192
def wAux (h : BitVec 256) (hi lo : Nat) : Nat := bitsOf h hi lo
def wSrc (h : BitVec 256) : Nat := bitsOf h 127 96
def wSeq (h : BitVec 256) : Nat := bitsOf h 63 32
def wType (h : BitVec 256) : Nat := bitsOf h 31 24
def wJob (h : BitVec 256) : JobId := jobOf (bitsOf h 23 22)
def wLen (h : BitVec 256) : Nat := bitsOf h 20 0

/-- A header as a number. -/
def weldHdr (step aux src dst seq type job len : Nat) : Nat :=
  packFields [(21, len), (1, 0), (2, job), (8, type), (32, seq), (32, dst), (32, src), (64, aux), (64, step)]

/-- The LINEAGE_ID of a job as key context (Table 13-1). -/
def State.lineageCtx (s : State) (j : JobId) : Bytes := beBytes 16 (s.job j).lineage

/-- Context of a Weld session key: lineage, lower engine ID, higher engine ID. -/
def State.sessionCtx (s : State) (j : JobId) (peer : Nat) : Bytes :=
  s.lineageCtx j ++ beBytes 4 (min s.engineId peer) ++ beBytes 4 (max s.engineId peer)

/-- The engine whose mirror this job's Weld state holds as holder: the partner of a pair, or the source that a spare
shadows (R264). -/
def State.weldPeer (s : State) (j : JobId) : Option Nat :=
  if (s.weld j).state == .paired then some (s.weld j).partner
  else if (s.vault.spare == .shadowing || s.vault.spare == .ready) && s.vault.spareJob == j.val &&
      s.vault.spareSource != 0 then some s.vault.spareSource
  else none

/-- Offer a Weld message to an engine, encrypted under the pair's session key with its header as additional data (R205);
nothing is sent without the key. -/
def State.weldTo (s : State) (j : JobId) (dst seq type step aux : Nat) (payload : Bytes) : State :=
  let hdr := weldHdr step aux s.engineId dst seq type j.val payload.length
  match s.seal 10 2 labelWeldSession (s.sessionCtx j dst) (beBytes 32 hdr) payload with
  | (some sealed, s) =>
    (s.offer dst 2 3 hdr (32 + sealed.length) sealed).setWeld j fun w => { w with lastTx := some s.frame }
  | (none, s) => s

/-- Send an encrypted Weld message to the partner, or to the source that a spare shadows, with the next SEQ (R206). A
message of a record or a copy is staged until a WELD_ACK covers it (R207). -/
def State.weldSend (s : State) (j : JobId) (type step aux : Nat) (payload : Bytes) : State :=
  let w := s.weld j
  let staged := type == 0x10 || type == 0x12 || type == 0x22
  let s := (s.weldTo j ((s.weldPeer j).getD w.partner) w.txSeq type step aux payload).setWeld j fun w =>
    { w with txSeq := (w.txSeq + 1) % 2 ^ 32,
             unacked := if staged then w.unacked ++ [(w.txSeq, payload.length)] else w.unacked }
  if staged then s.takeSpace { own := unitsOf payload.length } else s

/-- Send a message of the record stream to the spare that shadows this engine (R264). -/
def State.shadowSend (s : State) (j : JobId) (type step aux : Nat) (payload : Bytes) : State :=
  let w := s.weld j
  if w.shadowTo == 0 then s
  else (s.weldTo j w.shadowTo w.shadowSeq type step aux payload).setWeld j fun w =>
    { w with shadowSeq := (w.shadowSeq + 1) % 2 ^ 32 }

/-- A pairing message, in clear (R205). -/
def State.pairSend (s : State) (j : JobId) (dst type aux : Nat) (payload : Bytes) : State :=
  (s.offer dst 2 3 (weldHdr 0 aux s.engineId dst 0 type j.val payload.length) (32 + payload.length) payload).setWeld j
    fun w => { w with lastTx := some s.frame }

/-- A malformed Weld message (R206): counted, dropped, reported. -/
def State.weldMalformed (s : State) (j : JobId) : State := s.countEvent Od.weldMalformedCount j.val

/-- The message comes from the spare that shadows this engine. -/
def State.fromSpare (s : State) (j : JobId) (h : BitVec 256) : Bool :=
  (s.weld j).shadowTo != 0 && wSrc h == (s.weld j).shadowTo

/-- The span references that a record's entries name: the groups of its entries with all their spans. -/
def State.entrySpans (s : State) (j : JobId) (entries : List (BitVec 1024)) : List (Nat × Nat) :=
  entries.flatMap fun e =>
    match (s.weld j).inGroups.find? (fun g => g.master == bitsOf e 191 176) with
    | some g => (List.range g.spans).map (fun i => (g.master, i))
    | none => []

/-- Lost records of steps that are known to be good ask for their spans, which are STALE then (R219, R226). -/
def State.askLost (s : State) (j : JobId) : State :=
  let v := (s.job j).v
  let due := (s.weld j).lostSteps.filter (fun l => decide (l.1 ≤ v))
  let s := s.setWeld j fun w => { w with lostSteps := w.lostSteps.filter (fun l => decide (v < l.1)) }
  due.foldl (fun s l =>
    (l.2.foldl (fun (s : State) x => s.markStale j x.1 [x.2] l.1) s).askCopies j l.2) s

/-- A record of step N is lost at the holder (R219): counted, dropped, NAKed if not yet acknowledged; the spans of a
complete record become STALE, and copies are asked for once the verdict is known to be good. -/
def State.loseRecord (s : State) (j : JobId) (step reason : Nat) : State :=
  let s := s.bump Od.recordLostCount
  let s := match (s.weld j).inRecords.find? (fun r => r.step == step) with
    | some r =>
      let spans := s.entrySpans j r.entries
      let s := s.setWeld j fun w =>
        { w with inRecords := w.inRecords.filter (fun x => x.step != step), lostSteps := w.lostSteps ++ [(step, spans)] }
      if r.complete then
        spans.foldl (fun (s : State) (x : Nat × Nat) => s.markStale j x.1 [x.2] step) s
      else s.weldSend j 0x14 step (reason * 2 ^ 56) []
    | none =>
      (s.setWeld j fun w => { w with lostSteps := w.lostSteps ++ [(step, [])] }).weldSend j 0x14 step (reason * 2 ^ 56) []
  (s.event Od.recordLostCount step reason).askLost j

/-- The local MIRROR Holding bound to a partner's HOLDING_ID. -/
def State.boundTo (s : State) (j : JobId) (hid : Nat) : Option Nat :=
  ((s.weld j).binds.find? (fun b => b.2 == hid)).map (·.1)

/-- Spans of a group that hold a Leaf of one of its Holdings: one, or all for ROW_STAT and COL_STAT. -/
def leafSpans (g : SpanGroup) (hid leaf width : Nat) : List Nat :=
  if g.hids.getD 4 0xFFFF == hid || g.hids.getD 5 0xFFFF == hid then List.range g.spans
  else [leaf * (1048576 / max 1 width) / max 1 g.span]

/-- Leaves of a Holding of the group that a span holds. -/
def spanLeaves (g : SpanGroup) (index hid width leaves : Nat) : List Nat :=
  (List.range leaves).filter (fun l => (leafSpans g hid l width).contains index)

/-- Every Leaf of an inbound span: local Holding and Leaf, with the partner's HOLDING_ID. -/
def State.inLeaves (s : State) (j : JobId) (g : SpanGroup) (index : Nat) : List (Nat × Nat × Nat) :=
  (g.hids.filter (fun h => h != 0xFFFF)).flatMap fun h =>
    match (s.boundTo j h).bind (s.holdingIn j) with
    | some x => (spanLeaves g index h x.width x.leaves).map (fun l => (x.id, l, h))
    | none => []

/-- Inbound group of a MASTER. -/
def State.inGroup? (s : State) (j : JobId) (master : Nat) : Option SpanGroup :=
  (s.weld j).inGroups.find? (fun g => g.master == master)

/-- Every Leaf of the span has arrived in the copy. -/
def State.copyFull (s : State) (j : JobId) (c : HeldCopy) : Bool :=
  match s.inGroup? j c.master with
  | some g => (s.inLeaves j g c.index).all (fun l => c.leaves.any (fun x => x.1 == l.2.2 && x.2.1 == l.2.1))
  | none => false

/-- Messages have been lost in between (R206): every record open at the receiver is lost; a COPY_LEAF may be among them, so
copies that lack Leaves are given up, and every stale span without a whole copy is asked for again (log entry 155). -/
def State.seqGap (s : State) (j : JobId) : State :=
  let s := ((s.weld j).inRecords.filter (fun r => !r.complete)).foldl (fun s r => s.loseRecord j r.step 3) s
  let s := s.setWeld j fun w => { w with copies := w.copies.filter (fun c => c.writing || s.copyFull j c) }
  let w := s.weld j
  s.askCopies j ((w.inSpans.filter (fun x =>
    x.stale && !w.copies.any (fun c => c.master == x.master && c.index == x.index))).map (fun x => (x.master, x.index)))

/-- How a received message stands against the expected SEQ (R206). -/
def State.takeSeq (s : State) (j : JobId) (h : BitVec 256) : State × Bool :=
  let w := s.weld j
  let got := BitVec.ofNat 32 (wSeq h)
  let want := BitVec.ofNat 32 w.rxSeq
  if serialLater want got then (s.bump Od.weldMalformedCount, false)
  else
    let s := if serialLater got want then s.seqGap j else s
    (s.setWeld j fun w => { w with rxSeq := (wSeq h + 1) % 2 ^ 32 }, true)

/-- An encrypted Weld message received (R205, R206): its checks and its SEQ, then `f`. A failed tag is malformed, but for
record messages, whose meaning handles it. The spare's side of a record stream is answered without effect (R264). -/
def State.weldIn (s : State) (h : BitVec 256) (type size : Nat) (tagOk record : Bool) (f : JobId → State → State) : State :=
  let j := wJob h
  if s.alarmed || s.fromSpare j h then s
  else if wType h != type || s.weldPeer j != some (wSrc h) || wLen h != size || 1048576 < wLen h then s.weldMalformed j
  else if !tagOk && !record then s.tagFail.weldMalformed j
  else
    let s := if tagOk then s else s.tagFail
    let s := s.setWeld j fun w => { w with lastRx := some s.frame, rxThisFrame := true }
    let (s, go) := s.takeSeq j h
    if go then f j s else s

/-! Binding (R208) -/

/-- A 16-byte tuple of the map digest. -/
def mapTuple (hid role fmt count : Nat) : Bytes :=
  leBytes 2 hid ++ leBytes 1 role ++ leBytes 1 fmt ++ leBytes 4 0 ++ leBytes 8 count

/-- The map of the own shard: OWN_STATE Holdings but EF_BUFFER. -/
def State.ownMap (s : State) (j : JobId) : Bytes :=
  (s.carrier.holdings.filter (fun h => h.job == j && h.kind == 0 && h.role != 5)).flatMap
    (fun h => mapTuple h.id h.role h.format h.count)

/-- The map of the Holdings bound to the partner's. -/
def State.boundMap (s : State) (j : JobId) : Bytes :=
  let byPartner := (s.weld j).binds.foldl (fun l b => assocSet l b.2 b.1) ([] : List (Nat × Nat))
  byPartner.flatMap fun p =>
    match s.holdingIn j p.2 with
    | some h => mapTuple p.1 h.role h.format h.count
    | none => mapTuple p.1 0 0 0

/-- The groups of a shard before an UPDATE or a record has named them (log entry 44): each MASTER with the Holdings of the
other roles that stand at its place among those of their role and element count. A Holding is given as (HOLDING_ID, ROLE,
element count, element width). -/
def defaultGroups (l : List (Nat × Nat × Nat × Nat)) : List SpanGroup :=
  let masters := l.filter (fun h => h.2.1 == 1)
  masters.zipIdx.map fun (m, k) =>
    let place := (masters.take k).countP (fun x => x.2.2.1 == m.2.2.1)
    let pick (role : Nat) : Option (Nat × Nat × Nat × Nat) :=
      if role == 6 || role == 7 then (l.filter (fun h => h.2.1 == role))[k]?
      else (l.filter (fun h => h.2.1 == role && h.2.2.1 == m.2.2.1))[place]?
    let found := [0, 1, 2, 3, 6, 7].map pick
    let width := (found.filterMap (fun x => x.map (fun h => h.2.2.2))).foldl min 4
    { master := m.1, hids := found.map (fun x => (x.map (·.1)).getD 0xFFFF), count := m.2.2.1, span := 1048576 / max 1 width }

/-- The inbound groups that the bindings give, with every span STALE (R211). -/
def State.boundGroups (s : State) (j : JobId) : List SpanGroup :=
  defaultGroups ((s.weld j).binds.filterMap (fun b =>
    (s.holdingIn j b.1).map (fun h => (b.2, h.role, h.count, h.width))))

/-- Spans of a list of groups, STALE. -/
def staleSpans (gs : List SpanGroup) : List InSpan :=
  gs.flatMap (fun g => (List.range g.spans).map (fun i =>
    { master := g.master, index := i, stale := true, skip := 0, copy := 0 }))

/-- A group of the inbound mirror is named: its spans are kept when the group is as it was, and are STALE otherwise. -/
def State.learnGroup (s : State) (j : JobId) (g : SpanGroup) : State :=
  if (s.weld j).inGroups.contains g then s
  else s.setWeld j fun w =>
    { w with inGroups := g :: w.inGroups.filter (fun x => x.master != g.master),
             inSpans := w.inSpans.filter (fun x => x.master != g.master) ++ staleSpans [g] }

/-- WELD_BIND (R208, R232). -/
def execWeldBind (task : Nat) (s : State) : Out :=
  .next <| s.whenReady task 0x41 fun s t =>
    let lid := t.f 267 256
    let phid := t.f 287 272
    let w := s.weld t.job
    if 4096 ≤ phid && phid != 0xFFFF then s.malformed t
    else if w.state == .paired then s.complete t 0x2006
    else match s.holdingIn t.job lid with
      | none => s.complete t 0x0033 lid
      | some h =>
        if h.kind != 1 then s.complete t 0x2007 lid
        else
          let rest := w.binds.filter (fun b => b.1 != lid && b.2 != phid)
          let s := s.setWeld t.job fun w => { w with binds := if phid == 0xFFFF then w.binds.filter (fun b => b.1 != lid)
                                                               else rest ++ [(lid, phid)] }
          s.complete t 0

/-! Pairing (R209 to R212) -/

/-- KVER of the active kernel image, ADAFACTOR, SGDM, LION, ADAMW from high to low (Table 09-4). -/
def State.kver (s : State) : Nat :=
  let k := s.update.kernels
  packFields [(16, k.adamw), (16, k.lion), (16, k.sgdm), (16, k.adafactor)]

/-- The pairing key of the job (Table 13-1): none when the key store cannot give it. -/
def State.pairKey (s : State) (j : JobId) : Option Nat × State :=
  match s.poolKey 9 2 labelWeldPair (s.lineageCtx j) with
  | (some i, s) => (some (s.slot i).key, s)
  | (none, s) => (none, s)

/-- Payload of PAIR_OFFER and PAIR_ACCEPT but for AUTH (Table 09-4). -/
def State.pairFields (s : State) (j : JobId) (modeReq : Nat) : Nat :=
  packFields [(8, modeReq), (8, hwRevision), (16, s.woad.level), (64, s.kver), (32, s.docentFw), (32, s.curatorFw),
    (32, s.bundleId), (128, (s.job j).lineage), (64, (s.job j).c), (64, (s.job j).v), (64, (s.weld j).mirrorStep),
    (256, Config.sha3 (s.ownMap j))]

/-- Send PAIR_OFFER or PAIR_ACCEPT (R209): AUTH covers the header and the payload above it. -/
def State.sendPair (s : State) (j : JobId) (dst type aux modeReq : Nat) : State :=
  match s.pairKey j with
  | (none, s) => s
  | (some key, s) =>
    let body := s.pairFields j modeReq
    let hdr := weldHdr 0 aux s.engineId dst 0 type j.val 128
    let auth := Config.kmac key 1 (beBytes 32 hdr ++ beBytes 96 body)
    s.pairSend j dst type aux (beBytes 128 (auth % 2 ^ 256 + 2 ^ 256 * body))

/-- AUTH of a received offer or acceptance, recomputed and compared through the hardware comparator (R209, R345). -/
def State.authGood (s : State) (j : JobId) (hdr : BitVec 256) (b : BitVec 1024) : Bool × State :=
  match s.pairKey j with
  | (none, s) => (false, s)
  | (some key, s) =>
    if Config.kmac key 1 (beBytes 32 hdr.toNat ++ beBytes 96 (bitsOf b 1023 256)) % 2 ^ 256 == bitsOf b 255 0 then (true, s)
    else (false, s.bump Od.compareNeCount)

/-- MODE_REQ that the engine sends: FORCE_COPY asks for COPY (Table 09-12). -/
def State.modeReq (s : State) (j : JobId) (asked : Nat) : Nat :=
  if s.cfgStep j Od.forceCopy == 1 then 1 else asked

/-- An attempt at pairing ends without a pair (Table 09-5). -/
def State.pairFail (s : State) (j : JobId) (status detail detail2 : Nat) : State :=
  let w := s.weld j
  let s := s.setWeld j fun w =>
    { w with state := .unpaired, pairTask := none, firstOffer := none, lastOffer := none, keptOffer := none, mode := .none }
  let s := s.setCurator fun c => { c with pairFailed := addOnce c.pairFailed j.val }
  match w.pairTask.bind s.task? with
  | some t => s.complete t status detail detail2
  | none => s

/-- A pairing is refused for a reason of Table 09-3, by either side; reason CLASS stands in ALARM_SUMMARY (R460, R461). -/
def State.pairRefused (s : State) (j : JobId) (reason cls : Nat) : State :=
  let s := if reason == 1 then
      (s.bump Od.pairRefusedCount).setService fun v => { v with classRefused := addOnce v.classRefused j.val }
    else s
  s.pairFail j 0x2002 reason cls

/-- Send PAIR_REFUSE. -/
def State.sendRefuse (s : State) (j : JobId) (dst reason : Nat) : State := s.pairSend j dst 4 (reason * 2 ^ 56) []

/-- The class that this engine gives the pair, from the partner's payload. -/
def State.classFrom (s : State) (b : BitVec 1024) : Nat :=
  s.pairClass (bitsOf b 271 264) (bitsOf b 415 384) (bitsOf b 383 352) (bitsOf b 447 416)

/-- The refusals of R209 in their order: reason and class, or none. -/
def State.refusal (s : State) (j : JobId) (b : BitVec 1024) (authOk : Bool) : Option Nat :=
  if !authOk || !s.keyThere 2 then some 4
  else if bitsOf b 575 448 != (s.job j).lineage then some 3
  else if Config.sha3 (s.boundMap j) % 2 ^ 256 != bitsOf b 1023 768 then some 2
  else if s.classFrom b == 2 then some 1
  else none

/-- The arithmetic levels of the four kernels are equal on both sides (R204, R121). -/
def State.levelsEqual (s : State) (b : BitVec 1024) : Bool :=
  (List.range 4).all (fun k => s.kver / 2 ^ (16 * k + 8) % 256 == bitsOf b 351 288 / 2 ^ (16 * k + 8) % 256)

/-- A pairing message has legal fields: LENGTH of its payload and MODE_REQ (R206, R8). -/
def pairLegal (h : BitVec 256) (type size : Nat) (b : BitVec 1024) : Bool :=
  wType h == type && wLen h == size && bitsOf b 263 256 ≤ 1

/-- Entry to PAIRED (R211): the inbound mirror is STALE throughout, all of it is asked for, and the partner is kept in the
job record (R400). -/
def State.enterPaired (s : State) (j : JobId) (cls mode : Nat) : State :=
  let w := s.weld j
  let m : MirrorMode := if mode == 1 then .replay else .copy
  let gs := s.boundGroups j
  let s := s.setWeld j fun w =>
    { w with state := .paired, cls := cls, mode := m, txSeq := 1, rxSeq := 1, lastRx := some s.frame, lastTx := none,
             pairTask := none, firstOffer := none, lastOffer := none, keptOffer := none, confirmed := false,
             inRecords := [], lostSteps := [], copies := [], unacked := [], copyAsk := [], copyReads := [],
             allPending := false, inGroups := gs, inSpans := staleSpans gs,
             outSpans := w.outSpans.map (fun x => { x with copyPending := false }) }
  let s := s.setVault fun v =>
    { v with filled := v.filled.filter (fun x => x.1 != j.val),
             unverified := v.unverified.filter (fun x => ((s.holding? x.1).map (·.job)) != some j) }
  let s := s.setService fun v => { v with classRefused := v.classRefused.filter (fun x => x != j.val) }
  let s := s.setCurator fun c => { c with pairFailed := c.pairFailed.filter (fun x => x != j.val) }
  let s := s.writeRecord j (fun r => { r with partner := w.partner })
  let s := s.weldSend j 0x21 0 (2 ^ 63) []
  match w.pairTask.bind s.task? with
  | some t => s.complete t 0 cls 0 mode
  | none => s

/-- The engine answers an offer (R209): it refuses, or sends PAIR_ACCEPT and waits for PAIR_CONFIRM. -/
def State.answerOffer (s : State) (j : JobId) (src : Nat) (b : BitVec 1024) (authOk : Bool) : State :=
  match s.refusal j b authOk with
  | some reason => (s.sendRefuse j src reason).pairRefused j reason (s.classFrom b)
  | none =>
    let s := s.setWeld j fun w => { w with state := .accepting, partner := src, keptOffer := none }
    s.sendPair j src 2 (s.classFrom b * 2 ^ 56) (s.modeReq j (s.weld j).modeReq)

/-- Enter OFFERING and send the first offer. -/
def State.startOffer (s : State) (j : JobId) (partner asked : Nat) (task : Option Nat) : State :=
  let s := s.setWeld j fun w =>
    { w with state := .offering, partner := partner, modeReq := asked, pairTask := task, firstOffer := some s.frame,
             lastOffer := some s.frame }
  s.sendPair j partner 1 0 (s.modeReq j asked)

/-- WELD_PAIR (R209, R210, R232). A task that names the partner of a pairing under way joins it; a job that is paired, or
pairing with another engine, refuses it as not ready (log entry 41). -/
def execWeldPair (task : Nat) (s : State) : Out :=
  .next <| s.whenReady task 0x40 fun s t =>
    let w := s.weld t.job
    let partner := t.f 287 256
    if 2 ≤ t.f 289 288 then s.malformed t
    else match s.keyStatus 2 with
      | some (st, d) => s.complete t st d
      | none =>
        if w.state == .unpaired || w.state == .lost then
          let s := s.start t
          match w.keptOffer.filter (fun k => w.state == .unpaired && k.1 == partner) with
          | some k =>
            let s := s.setWeld t.job fun w =>
              { w with pairTask := some t.id, modeReq := t.f 289 288, firstOffer := some s.frame, partner := partner }
            s.answerOffer t.job partner k.2 true
          | none => s.startOffer t.job partner (t.f 289 288) (some t.id)
        else if w.state != .paired && w.partner == partner && w.pairTask == none then
          (s.start t).setWeld t.job fun w => { w with pairTask := some t.id }
        else s.complete t 0x2002 5 w.cls

/-- A WELD_PAIR naming this engine is admitted and not yet ready (R209). -/
def State.pairWaiting (s : State) (j : JobId) (src : Nat) : Bool :=
  s.sched.tasks.any (fun t => t.type == 0x40 && t.job == j && t.phase == .waiting && t.f 287 256 == src)

/-- PAIR_OFFER (R209, R210). An offer is kept from UNPAIRED alone; after a loss, the WELD_PAIR that waits offers on its own
(Table 09-5). -/
def execPairOffer (hdr : BitVec 256) (fields : BitVec 768) (auth : BitVec 256) (s : State) : Out :=
  .next <|
    let body : BitVec 1024 := fields ++ auth
    let j := wJob hdr
    let src := wSrc hdr
    let w := s.weld j
    if !s.mainUp || s.alarmed then s
    else if !pairLegal hdr 1 128 body then s.weldMalformed j
    else if w.state == .offering then
      if w.partner == src && src < s.engineId then
        let (ok, s) := s.authGood j hdr body
        s.answerOffer j src body ok
      else s
    else if w.state == .accepting then s
    else if w.state != .paired && s.pairWaiting j src then
      if w.state == .lost then s
      else
        let (ok, s) := s.authGood j hdr body
        if ok then s.setWeld j fun w => { w with keptOffer := some (src, body) } else s.sendRefuse j src 4
    else s.sendRefuse j src 5

/-- PAIR_ACCEPT (R209): the offering side fixes the mode and confirms. -/
def execPairAccept (hdr : BitVec 256) (fields : BitVec 768) (auth : BitVec 256) (s : State) : Out :=
  .next <|
    let body : BitVec 1024 := fields ++ auth
    let j := wJob hdr
    let w := s.weld j
    if !s.mainUp || s.alarmed then s
    else if !pairLegal hdr 2 128 body || 2 < wAux hdr 191 184 then s.weldMalformed j
    else if w.state != .offering || w.partner != wSrc hdr then s
    else
      let cls := max (s.classFrom body) (wAux hdr 191 184)
      let (ok, s) := s.authGood j hdr body
      match (match s.refusal j body ok with
        | some r => some r
        | none => if cls == 2 then some 1 else none) with
      | some reason => (s.sendRefuse j w.partner reason).pairRefused j reason cls
      | none =>
        let auto := s.modeReq j w.modeReq == 0 && bitsOf body 263 256 == 0
        let mode := if cls == 0 && auto && s.levelsEqual body then 1 else 2
        (s.pairSend j w.partner 3 (cls * 2 ^ 56 + mode * 2 ^ 48) []).enterPaired j cls mode

/-- PAIR_CONFIRM (R210). -/
def execPairConfirm (hdr : BitVec 256) (s : State) : Out :=
  .next <|
    let j := wJob hdr
    let w := s.weld j
    let cls := wAux hdr 191 184
    let mode := wAux hdr 183 176
    if !s.mainUp then s
    else if wType hdr != 3 || wLen hdr != 0 || 1 < cls || mode == 0 || 2 < mode then s.weldMalformed j
    else if w.state != .accepting || w.partner != wSrc hdr then s
    else s.enterPaired j cls mode

/-- PAIR_REFUSE (R210). -/
def execPairRefuse (hdr : BitVec 256) (s : State) : Out :=
  .next <|
    let j := wJob hdr
    let w := s.weld j
    let reason := wAux hdr 191 184
    if !s.mainUp then s
    else if wType hdr != 4 || wLen hdr != 0 || reason == 0 || 5 < reason then s.weldMalformed j
    else if (w.state == .offering || w.state == .accepting) && w.partner == wSrc hdr then s.pairRefused j reason w.cls
    else s

/-- PAIR_OFFER_REPEAT (R209): every 100 frames while OFFERING. -/
def execPairOfferRepeat (job : JobId) (s : State) : Out :=
  .next <|
    let w := s.weld job
    match w.lastOffer with
    | some f =>
      if w.state == .offering && f + 100 ≤ s.frame + 1 then
        (s.setWeld job fun w => { w with lastOffer := some (s.frame + 1) }).sendPair job w.partner 1 0 (s.modeReq job w.modeReq)
      else s
    | none => s

/-- PAIR_TIMEOUT (R210). -/
def execPairTimeout (job : JobId) (s : State) : Out :=
  .next <|
    let w := s.weld job
    match w.firstOffer with
    | some f =>
      if (w.state == .offering || w.state == .accepting) && s.lapsed f (s.cfg Od.pairTimeoutFrames) then
        s.pairFail job 0x2001 0 0
      else s
    | none => s

/-- AUTO_PAIR (R210, R211): from Stage B, an open job whose record names a partner, and a port UP. -/
def execAutoPair (job : JobId) (s : State) : Out :=
  .next <|
    let w := s.weld job
    let partner := s.battery.records[job].partner
    let up := (List.finRange 4).any (fun p => (s.port p).state == .up)
    if s.mainUp && (s.job job).open_ && partner != 0 && up && s.keyThere 2 && (w.state == .unpaired || w.state == .lost) then
      s.startOffer job partner 0 none
    else s

/-- The pair of a job ends (Table 09-5): tasks of the pair end with WELD_NOT_PAIRED. -/
def State.endPair (s : State) (j : JobId) (close : Bool) : State :=
  let w := s.weld j
  if w.state != .paired then s
  else
    let s := if close then s.pairSend j w.partner 5 0 [] else s
    let s := s.setWeld j fun w =>
      { w with state := .unpaired, mode := .none, inRecords := w.inRecords.filter (fun r => r.complete), copies := [],
               unacked := [], copyAsk := [], copyReads := [], resyncs := [], rollback := none,
               outRecords := w.outRecords.map (fun r =>
                 { r with acked := true, ended := true, staged := if r.toVault then r.staged else [] }) }
    let open_ := s.sched.tasks.filter (fun t =>
      t.job == j && t.phase != .waiting && (t.type == 0x13 || t.type == 0x43 || t.type == 0x44))
    open_.foldl (fun s t => match s.task? t.id with | some t => s.complete t 0x2000 | none => s) s

/-- PAIR_CLOSE (R210). -/
def execPairClose (hdr : BitVec 256) (s : State) : Out :=
  .next <|
    let j := wJob hdr
    if !s.mainUp then s
    else if wType hdr != 5 || wLen hdr != 0 then s.weldMalformed j
    else if (s.weld j).partner != wSrc hdr then s.weldMalformed j
    else s.endPair j false

/-- WELD_UNPAIR (R210, R232). -/
def execWeldUnpair (task : Nat) (s : State) : Out :=
  .next <| s.whenReady task 0x42 fun s t =>
    if (s.weld t.job).state != .paired then s.complete t 0x2000
    else (s.complete t 0).endPair t.job true

end Sys2Proof.Machine
end

