-- ==== Sys2Proof/Machine/Ledger.lean ====
section
/-!
DEFINITION. Ledger records: the record of a step as the primary builds and sends it, as the holder receives it, what a lost
record does, acknowledgement, heartbeat and the loss of the partner (R207, R213 to R220, R231).
-/
namespace Sys2Proof.Machine

/-! The record that this engine sends (R213, Tables 09-5a, 09-6) -/

/-- A task record read as a task, for the fields of an UPDATE that has ended. -/
def taskOfRecord (id : Nat) (r : BitVec 1024) : Task := { id := id, qp := 0, owner := .ns, record := r }

/-- Rank, rows and columns of the factors that an UPDATE of a step uses: of its factor set, or of the WOAD_COMPRESS that
will make it. -/
def State.factorShape (s : State) (t : Task) : Nat × Nat × Nat :=
  let hid := t.roleHid 4
  match s.factorSet? t.job hid, s.sched.tasks.find? (fun u => u.type == 0x12 && u.job == t.job && u.step == t.step &&
      u.wFactor == hid) with
  | some f, none => (f.rank, f.nrows, f.ncols)
  | some f, some u => if f.step == t.step then (f.rank, f.nrows, f.ncols) else (u.wRank, s.woadRows u, s.woadCols u)
  | none, some u => (u.wRank, s.woadRows u, s.woadCols u)
  | none, none => (1, 0, 0)

/-- Rows that one packet carries. -/
def packetRows (rowBytes : Nat) : Nat := 1048512 / max 1 rowBytes

/-- Rows of P that an UPDATE reads: the first and their number (R142). -/
def Task.pRows (t : Task) (ncols : Nat) : Nat × Nat :=
  let first := t.f 511 448 / max 1 ncols
  (first, if t.len == 0 then 0 else (t.f 511 448 + t.len - 1) / max 1 ncols + 1 - first)

/-- Bytes and messages of the gradient data of an UPDATE's entry: gradient Leaves, or Q̂ packets and the P packets of its
rows (log entry 65). -/
def State.gradData (s : State) (t : Task) : Nat × Nat :=
  match s.holdingIn t.job (t.roleHid 4) with
  | none => (0, 0)
  | some h =>
    if t.gradSrc == 1 then
      let (r, _, nc) := s.factorShape t
      let nr := (t.pRows nc).2
      let rowBytes := r * h.width
      let packets := ceilDiv nr (packetRows rowBytes) + ceilDiv nc (packetRows rowBytes)
      (64 * packets + (nr + nc) * rowBytes, packets)
    else (t.len * h.width, ceilDiv (t.len * h.width) 1048576)

/-- Holdings that an UPDATE writes, as in its record entry: WEIGHT, MASTER, MOMENT1, MOMENT2, ROW_STAT, COL_STAT. -/
def Task.stateHids (t : Task) : List Nat := [0, 1, 2, 3, 6, 7].map t.roleHid

/-- Leaves that some UPDATEs of a job write, each Leaf once. -/
def State.leavesWritten (s : State) (j : JobId) (ts : List Task) : Nat :=
  sumOf ((ts.flatMap Task.stateHids).eraseDups.map (fun h => ((s.holdingIn j h).map (·.leaves)).getD 0))

/-- The entry of an UPDATE (Table 09-6), in the REPLAY form or the COPY form, with the level that it used (R121). -/
def State.recordEntry (s : State) (t : Task) (copy : Bool) : BitVec 1024 :=
  let fmt := if copy then 0x20 else if t.gradSrc == 1 then 0x10
    else ((s.holdingIn t.job (t.roleHid 4)).map (·.format)).getD 0
  let level := (((s.weld t.job).outRecords.find? (fun r => r.step == t.step)).bind (fun r => assoc r.levels t.id)).getD (s.update.kernels.level t.kernel)
  BitVec.ofNat 1024 (packFields [(120, 0), (8, t.kernel), (1, t.f 272 272), (7, 0), (8, t.f 287 280), (8, level), (8, fmt),
    (64, t.f 351 288), (32, t.f 399 368), (16, 0), (16, t.tag), (64, if copy then 0 else (s.gradData t).1),
    (32, t.f 447 416), (64, t.len), (64, t.f 511 448), (288, t.f 799 512), (224, 0)])

/-- The UPDATE tasks of a record, in entry order. -/
def OutRecord.tasks (r : OutRecord) : List Task := r.updates.map (fun u => taskOfRecord u.1 u.2)

/-- Entries of a record. -/
def State.recordEntries (s : State) (r : OutRecord) (copy : Bool) : List (BitVec 1024) :=
  r.tasks.map (fun t => s.recordEntry t copy)

/-- BODY_BYTES of a record (Table 09-5a). -/
def State.bodyBytes (s : State) (r : OutRecord) (copy : Bool) : Nat :=
  64 + 128 * r.updates.length + (if copy then 0 else sumOf (r.tasks.map (fun t => (s.gradData t).1)))

/-- The record header (Table 09-5a). -/
def State.recordHead (s : State) (j : JobId) (r : OutRecord) (copy : Bool) : BitVec 512 :=
  let msgs := if copy then 0 else sumOf (r.tasks.map (fun t => (s.gradData t).2))
  BitVec.ofNat 512 (packFields [(8, 0), (8, 1), (16, 0x4C47), (136, 0), (8, if copy then 2 else 1),
    (16, r.updates.length), (32, s.leavesWritten j r.tasks), (32, msgs), (64, s.bodyBytes r copy),
    (128, (s.job j).lineage), (64, r.step)])

/-- Payload of RECORD_OPEN. -/
def State.openPayload (s : State) (j : JobId) (r : OutRecord) (copy : Bool) : Bytes :=
  beBytes 64 (s.recordHead j r copy).toNat ++ (s.recordEntries r copy).flatMap (fun e => beBytes 128 e.toNat)

/-- The digest of a Leaf whose bytes are complete (R13). -/
def LeafDigest.digest (d : LeafDigest) : Nat := Config.sha3 (d.bytes.map (·.2)) % 2 ^ 256

/-- Leaves of own state that a step has written and digested, in order. -/
def State.stepDigests (s : State) (j : JobId) (step : Nat) : List LeafDigest :=
  s.update.digests.filter (fun d => d.reader == 0 && d.job == j.val && d.step == step &&
    match s.holdingIn j d.holding with
    | some h => h.kind == 0 && h.role != 5 && d.bytes.length == h.leafBytes d.leaf
    | none => false)

/-- Trailer entries of a record (Table 09-7). -/
def State.trailerEntries (s : State) (j : JobId) (step : Nat) : List (BitVec 320) :=
  (s.stepDigests j step).map (fun d =>
    BitVec.ofNat 320 (packFields [(16, d.holding), (16, 0), (32, d.leaf), (256, d.digest)]))

/-- Trailer payloads: parts of at most 1,048,576 bytes, at least one. -/
def trailerParts : Nat → List (BitVec 320) → List Bytes
  | 0, l => [l.flatMap (fun d => beBytes 40 d.toNat)]
  | k + 1, l =>
    if l.length ≤ 26214 then [l.flatMap (fun d => beBytes 40 d.toNat)]
    else (l.take 26214).flatMap (fun d => beBytes 40 d.toNat) :: trailerParts k (l.drop 26214)

/-- Change a record of this engine. -/
def State.setOut (s : State) (j : JobId) (step : Nat) (f : OutRecord → OutRecord) : State :=
  s.setWeld j fun w => { w with outRecords := mapIf w.outRecords (fun r => r.step == step) f }

/-- The record of a step. -/
def State.out? (s : State) (j : JobId) (step : Nat) : Option OutRecord :=
  (s.weld j).outRecords.find? (fun r => r.step == step)

/-- The record of a step, listed when it is not. -/
def State.withOut (s : State) (j : JobId) (step : Nat) : State :=
  if (s.out? j step).isSome then s
  else
    let r : OutRecord := { step := step, task := none, updates := [], openSent := false, staged := [], trailerSent := false,
                           acked := false, ended := false, toVault := false, moved := false }
    s.setWeld j fun w => { w with outRecords := w.outRecords ++ [r] }

/-- The engine sends a record in COPY form to its partner (R204). -/
def State.copyForm (s : State) (j : JobId) : Bool := (s.weld j).mode == .copy

/-- The record of a step goes to the Vault (R244): every step under DURABLE; under PARTNER_ONLY from the step of an
Accession's first Band, while the Accession is OPEN or SEALING, to its S_A. A capture armed for the step counts. -/
def State.boundForVault (s : State) (j : JobId) (step : Nat) : Bool :=
  s.cfgStep j Od.ledgerPolicy == 1 ||
  s.vault.accs.any (fun a => a.job == j.val && (a.state == .open_ || a.state == .sealing) &&
    (match a.firstStep with | some f => decide (f ≤ step) | none => false) &&
    (match s.sched.tasks.find? (fun t => t.type == 0x31 && t.job == j && t.f 319 256 == a.id) with
     | some t => decide (step ≤ t.step)
     | none => true)) ||
  s.vault.taps.any (fun t => t.step == step && s.vault.accs.any (fun a => a.job == j.val && a.id == t.acc && a.state == .open_))

/-- An UPDATE stages its gradient (R213, R245). -/
def State.stages (s : State) (t : Task) : Bool :=
  ((s.weld t.job).state == .paired && (s.weld t.job).mode == .replay) || s.boundForVault t.job t.step

/-- An UPDATE is admitted (R213): it joins the record of its step, unless the record is closed; while the
job is PAIRED it is then too late. -/
def State.joinRecord (s : State) (t : Task) : State :=
  if (s.weld t.job).closedSteps.contains t.step then
    if (s.weld t.job).state == .paired then s.setTask t.id (fun t => { t with failWith := some (0x200A, 0, 0) }) else s
  else
    (s.withOut t.job t.step).setOut t.job t.step (fun r => { r with updates := r.updates ++ [(t.id, t.record)] })

/-- A LEDGER_SEND, or a VERDICT without one before it, is admitted (R213): the record of its step is closed. -/
def State.closeRecord (s : State) (j : JobId) (step : Nat) (task : Option Nat) : State :=
  ((s.withOut j step).setOut j step (fun r => { r with task := r.task.or task })).setWeld j fun w =>
    { w with closedSteps := addOnce w.closedSteps step }

/-- A RECORD_DATA message of an entry may still be staged: it has not been before, and the record has not ended, or goes to
the Vault still (R213, R215, R220). -/
def OutRecord.stages (r : OutRecord) (entry index : Nat) : Bool :=
  !r.had.contains (entry, index) && (!r.ended || (r.toVault && !r.moved))

/-- Stage a RECORD_DATA message of an entry, once. -/
def State.stageData (s : State) (j : JobId) (step entry index : Nat) (payload : Bytes) : State :=
  if ((s.out? j step).map (fun r => r.stages entry index)).getD false then
    (s.setOut j step fun r =>
      { r with staged := r.staged ++ [{ entry := entry, index := index, payload := payload }],
               had := r.had ++ [(entry, index)] }).takeSpace { own := unitsOf payload.length }
  else s

/-- The Q̂ packets of an entry, once its factors are COMPLETE and Q̂ is held. -/
def State.qhatPackets (s : State) (t : Task) : List Bytes :=
  match s.factorSet? t.job (t.roleHid 4), s.residency? t.job.val (some (t.roleHid 4)) t.step,
      s.holdingIn t.job (t.roleHid 4) with
  | some f, some r, some h =>
    if f.state == .complete && f.step == t.step && r.complete then
      (f.packets 1 h.format 0 (r.q.flatMap (fun x => leBytes h.width (fnarrow h.format false x 0).1))).map FactorPacket.bytes
    else []
  | _, _, _ => []

/-- Q̂ packets of the entries of a record are staged as they can be had. -/
def State.stageQhat (s : State) (j : JobId) (r : OutRecord) : State :=
  (r.tasks.zipIdx).foldl (fun s x =>
    if x.1.gradSrc == 1 && s.stages x.1 then
      ((s.qhatPackets x.1).zipIdx).foldl (fun s p => s.stageData j r.step x.2 p.2 p.1) s
    else s) s

/-- Send the RECORD_OPEN of a record to the partner and to a shadowing spare. -/
def State.sendOpen (s : State) (j : JobId) (r : OutRecord) : State :=
  let p := s.openPayload j r (s.copyForm j)
  ((s.weldSend j 0x10 r.step 0 p).shadowSend j 0x10 r.step 0 p).setOut j r.step (fun r => { r with openSent := true })

/-- Send one staged message. -/
def State.sendData (s : State) (j : JobId) (step : Nat) (m : StagedMsg) : State :=
  let aux := m.entry * 2 ^ 48 + m.index * 2 ^ 16
  let seq := (s.weld j).txSeq
  ((s.weldSend j 0x11 step aux m.payload).shadowSend j 0x11 step aux m.payload).setOut j step (fun r =>
    { r with staged := mapIf r.staged (fun x => x.entry == m.entry && x.index == m.index) (fun x => { x with seq := some seq }) })

/-- Messages that a record has still to send before its trailer. -/
def State.dataLeft (s : State) (j : JobId) (r : OutRecord) : Bool :=
  !s.copyForm j && r.tasks.any (fun t => s.sched.tasks.any (fun u => u.id == t.id))

/-- Send the trailer of a record. -/
def State.sendTrailer (s : State) (j : JobId) (step : Nat) : State :=
  let l := s.trailerEntries j step
  let parts := trailerParts l.length l
  let s := (parts.zipIdx).foldl (fun (s : State) p =>
    let aux := p.2 * 2 ^ 32 + (if p.2 + 1 == parts.length then 2 ^ 31 else 0)
    (s.weldSend j 0x12 step aux p.1).shadowSend j 0x12 step aux p.1) s
  s.setOut j step (fun r => { r with trailerSent := true })

/-- Send what can be sent of a record (R215). -/
def State.pumpRecord (s : State) (j : JobId) (step : Nat) : State :=
  match s.out? j step with
  | none => s
  | some r =>
    let s := s.stageQhat j r
    if (s.weld j).state != .paired || !r.openSent || r.ended then s
    else match s.out? j step with
      | none => s
      | some r =>
        let s := if s.copyForm j then s
          else (r.staged.filter (fun m => m.seq.isNone)).foldl (fun s m => s.sendData j step m) s
        if r.trailerSent || r.tasks.any (fun t => s.sched.tasks.any (fun u => u.id == t.id)) then s
        else s.sendTrailer j step

/-- Records without a LEDGER_SEND open once it would be ready (R213), and every record sends what it can. -/
def State.pumpRecords (s : State) (j : JobId) : State :=
  (s.weld j).outRecords.foldl (fun s r =>
    let due := (s.weld j).state == .paired && !r.openSent && !r.ended && r.task.isNone &&
      (s.weld j).closedSteps.contains r.step && decide (r.step ≤ (s.job j).c)
    let s := if due then s.sendOpen j r else s
    s.pumpRecord j r.step) s

/-- LEDGER_SEND (R215, R217). -/
def execLedgerSend (task : Nat) (s : State) : Out :=
  .next <| s.whenReady task 0x13 fun s t =>
    if (s.weld t.job).state != .paired then s.complete t 0x2000
    else
      let s := s.withOut t.job t.step
      match s.out? t.job t.step with
      | none => s
      | some r =>
        let body := s.bodyBytes r (s.copyForm t.job)
        if t.len != body then s.lengthMismatch t 0 body
        else match s.keyStatus 2 with
          | some (st, d) => s.complete t st d
          | none => (((s.start t).setOut t.job t.step (fun r => { r with task := some t.id })).sendOpen t.job r).pumpRecord
              t.job t.step

/-- The LEDGER_SEND of a record, still open. -/
def State.ledgerTask (s : State) (j : JobId) (step : Nat) : Option Task :=
  ((s.out? j step).bind (·.task)).bind s.task?

/-- LEDGER_ACK (R218). -/
def execLedgerAck (hdr : BitVec 256) (tagOk : Bool) (s : State) : Out :=
  .next <| s.weldIn hdr 0x13 0 tagOk false fun j s =>
    let step := wStep hdr
    match s.out? j step with
    | none => s
    | some r =>
      let s := s.setOut j step (fun r => { r with acked := true, ended := true })
      match s.ledgerTask j step with
      | some t => s.complete t 0 0 0 (s.bodyBytes r (s.copyForm j))
      | none => s

/-- LEDGER_NAK (R220). -/
def execLedgerNak (hdr : BitVec 256) (tagOk : Bool) (s : State) : Out :=
  .next <|
    let reason := wAux hdr 191 184
    if reason == 0 || 6 < reason then s.weldMalformed (wJob hdr)
    else s.weldIn hdr 0x14 0 tagOk false fun j s =>
      let step := wStep hdr
      if (s.out? j step).isNone then s
      else
        let s := s.bump Od.recordLostCount
        let task := s.ledgerTask j step
        let s := s.setOut j step (fun r =>
          { r with acked := true, ended := true, staged := if r.toVault then r.staged else [] })
        let s := s.setWeld j fun w => { w with outStale := some (w.outStale.getD step) }
        match task with
        | some t => s.complete t 0x2004 reason step
        | none => s

/-! Acknowledgement and heartbeat (R207) -/

/-- Staging of messages that a WELD_ACK covers is freed, but what a Vault copy still needs (R207, R213). -/
def State.coverAck (s : State) (j : JobId) (upTo : Nat) : State :=
  let covered (q : Nat) : Bool := !serialLater (BitVec.ofNat 32 q) (BitVec.ofNat 32 upTo)
  s.setWeld j fun w =>
    { w with unacked := w.unacked.filter (fun m => !covered m.1),
             outRecords := w.outRecords.map (fun r =>
               { r with staged := (r.staged.map (fun m => match m.seq with
                   | some q => { m with covered := m.covered || covered q }
                   | none => m)).filter (fun m => !(m.covered && (!r.toVault || r.moved))) }) }

/-- WELD_ACK (R207). -/
def execWeldAck (hdr : BitVec 256) (tagOk : Bool) (s : State) : Out :=
  .next <| s.weldIn hdr 0x30 0 tagOk false fun j s => s.coverAck j (wAux hdr 191 160)

/-- Send WELD_ACK: the highest SEQ received in order. -/
def State.sendAck (s : State) (j : JobId) : State :=
  s.weldSend j 0x30 0 (((s.weld j).rxSeq + 2 ^ 32 - 1) % 2 ^ 32 * 2 ^ 32) []

/-- At the end of a frame in which a Weld message came, the holder acknowledges (R207). -/
def State.ackFrame (s : State) (j : JobId) : State :=
  if (s.weld j).rxThisFrame && (s.weldPeer j).isSome then
    (s.sendAck j).setWeld j fun w => { w with rxThisFrame := false }
  else s.setWeld j fun w => { w with rxThisFrame := false }

/-- WELD_HEARTBEAT (R207): nothing received in the frame, and nothing sent on VC2 for HEARTBEAT_FRAMES frames. -/
def execWeldHeartbeat (job : JobId) (s : State) : Out :=
  .next <|
    let w := s.weld job
    let quiet := match w.lastTx with | some f => s.lapsed f (s.cfg Od.heartbeatFrames) | none => true
    if (s.weldPeer job).isSome && !w.rxThisFrame && quiet then s.sendAck job else s

/-! The record that the holder receives (R216, R217) -/

/-- A record header that R216 finds malformed. -/
def State.headMalformed (s : State) (j : JobId) (hdr : BitVec 256) (h : BitVec 512) (es : List (BitVec 1024)) : Bool :=
  let mode := bitsOf h 175 168
  let grad (e : BitVec 1024) : Nat := bitsOf e 159 152
  bitsOf h 31 16 != 0x4C47 || bitsOf h 15 8 != 1 || mode == 0 || 2 < mode ||
  ((s.weld j).state == .paired && mode != (s.weld j).mode.code) ||
  bitsOf h 447 320 != (s.job j).lineage || bitsOf h 511 448 != wStep hdr || bitsOf h 191 176 != es.length ||
  bitsOf h 319 256 != 64 + 128 * es.length + sumOf (es.map (fun e => bitsOf e 351 288)) ||
  es.any (fun e => !(grad e ≤ 2 || grad e == 0x10 || grad e == 0x20) || 3 < bitsOf e 127 120)

/-- The group that an entry names, with spans of 2^20 / w elements for the narrowest bound Holding. -/
def State.groupOf (s : State) (j : JobId) (e : BitVec 1024) : SpanGroup :=
  let hids := unpackFields [16, 16, 16, 16, 16, 16] (bitsOf e 255 160)
  let widths := hids.filterMap (fun h => if h == 0xFFFF then none
    else ((s.boundTo j h).bind (s.holdingIn j)).map (·.width))
  let w := widths.foldl min 4
  { master := bitsOf e 191 176, hids := hids, count := bitsOf e 447 384, span := 1048576 / max 1 w }

/-- The groups of a record are known to the holder. -/
def State.learnGroups (s : State) (j : JobId) (es : List (BitVec 1024)) : State :=
  es.foldl (fun s e => s.learnGroup j (s.groupOf j e)) s

/-- A record that the holder discards on arrival: a spare's records up to its fill step (R264). -/
def State.discardsRecord (s : State) (j : JobId) (step : Nat) : Bool :=
  (s.weld j).state != .paired && decide (step ≤ s.vault.spareFill)

/-- RECORD_OPEN (R216, R217). While the partner part is large enough but not free, the message waits for credit. -/
def execRecordOpen (hdr : BitVec 256) (rec : BitVec 512) (entries : List (BitVec 1024)) (tagOk : Bool) (s : State) : Out :=
  .next <|
    let j := wJob hdr
    let units := recordUnits rec entries
    let wellFormed := tagOk && !s.headMalformed j hdr rec entries
    if wellFormed && units ≤ s.partnerUnits && s.partnerFree < units && s.weldPeer j == some (wSrc hdr) then s.waitSpace
    else s.weldIn hdr 0x10 (64 + 128 * entries.length) tagOk true fun j s =>
      let step := wStep hdr
      if s.discardsRecord j step then s
      else if !tagOk then s.loseRecord j step 2
      else if s.headMalformed j hdr rec entries then (s.bump Od.weldMalformedCount).loseRecord j step 6
      else if s.partnerUnits < units then (s.oversize 2 units).loseRecord j step 1
      else
        let r : InRecord := { step := step, head := rec, entries := entries, data := [], digests := [], parts := 0,
                              lastPart := false, complete := false, applied := [], written := [] }
        let s := s.setWeld j fun w => { w with inRecords := w.inRecords.filter (fun x => x.step != step) ++ [r] }
        (s.takeSpace { partner := units }).learnGroups j entries

/-- Change a record held. -/
def State.setIn (s : State) (j : JobId) (step : Nat) (f : InRecord → InRecord) : State :=
  s.setWeld j fun w => { w with inRecords := mapIf w.inRecords (fun r => r.step == step) f }

/-- The record of a step held or arriving. -/
def State.in? (s : State) (j : JobId) (step : Nat) : Option InRecord :=
  (s.weld j).inRecords.find? (fun r => r.step == step)

/-- RECORD_DATA (R217). A factor packet that fails R156 loses the record. -/
def execRecordData (hdr : BitVec 256) (payload : Bytes) (tagOk : Bool) (s : State) : Out :=
  .next <| s.weldIn hdr 0x11 payload.length tagOk true fun j s =>
    let step := wStep hdr
    let entry := wAux hdr 191 176
    let index := wAux hdr 175 144
    if s.discardsRecord j step then s
    else if !tagOk then s.loseRecord j step 2
    else match s.in? j step with
      | none => s
      | some r =>
        if r.complete then s
        else match r.entries[entry]? with
          | none => s.loseRecord j step 6
          | some e =>
            if bitsOf e 159 152 == 0x10 && (readPacket payload).isNone then
              (s.bump Od.factorPacketBadCount).loseRecord j step 5
            else if r.data.any (fun d => d.1 == entry && d.2.1 == index) then s.loseRecord j step 6
            else s.setIn j step (fun r => { r with data := r.data ++ [(entry, index, payload)] })

/-- Every count of a record's header agrees with what has arrived (R217). -/
def InRecord.countsAgree (r : InRecord) : Bool :=
  r.data.length == bitsOf r.head 255 224 && r.digests.length == bitsOf r.head 223 192 &&
  (r.entries.zipIdx).all (fun x =>
    sumOf ((r.data.filter (fun d => d.1 == x.2)).map (fun d => d.2.2.length)) == bitsOf x.1 351 288)

/-- RECORD_TRAILER (R217): with its last part the record is complete and acknowledged, or malformed. -/
def execRecordTrailer (hdr : BitVec 256) (digests : List (BitVec 320)) (tagOk : Bool) (s : State) : Out :=
  .next <| s.weldIn hdr 0x12 (40 * digests.length) tagOk true fun j s =>
    let step := wStep hdr
    let last := bitOf hdr 159
    if s.discardsRecord j step then s
    else if !tagOk then s.loseRecord j step 2
    else match s.in? j step with
      | none => s
      | some r =>
        if r.complete then s
        else if r.parts != wAux hdr 191 160 || r.lastPart then s.loseRecord j step 6
        else
          let r' := { r with digests := r.digests ++ digests, parts := r.parts + 1, lastPart := last }
          let s := s.setIn j step (fun _ => r')
          if !last then s
          else if !r'.countsAgree then s.loseRecord j step 6
          else (s.setIn j step (fun r => { r with complete := true })).weldSend j 0x13 step 0 []

/-! Losing the partner (R231) -/

/-- The partner is lost, with the EVENT_FRAME of the ABORTs that this causes: at the boundary that ends its silence the
frame that the boundary opens (Table 11-5), else the present one. -/
def State.losePartner (s : State) (j : JobId) (frame : Nat) : State :=
  let w := s.weld j
  let v := (s.job j).v
  let s := s.bump Od.weldPartnerLostCount
  let low := ((w.outRecords.filter (fun r => !r.acked)).map (·.step)).foldl min ((s.job j).c + 1)
  let sends := s.sched.tasks.filter (fun t => t.type == 0x13 && t.job == j && t.phase != .waiting)
  let others := s.sched.tasks.filter (fun t => t.type == 0x43 && t.job == j && t.phase != .waiting)
  let s := s.setWeld j fun w =>
    { w with state := .lost, mode := .none, outStale := some (min low (w.outStale.getD low)),
             inRecords := w.inRecords.filter (fun r => r.complete && decide (r.step ≤ v)), copies := [], unacked := [],
             copyAsk := [], copyReads := [], resyncs := [],
             outRecords := w.outRecords.map (fun r =>
               { r with acked := true, ended := true, staged := if r.toVault then r.staged else [] }),
             outSpans := w.outSpans.map (fun x => { x with copyPending := false }) }
  let s := sends.foldl (fun s t => match s.task? t.id with | some t => s.complete t 0x2003 0 t.step | none => s) s
  let s := others.foldl (fun s t => match s.task? t.id with | some t => s.complete t 0x2000 | none => s) s
  let s := match w.rollback with
    | none => s
    | some r =>
      let s := s.setWeld j fun w => { w with rollback := none }
      let n := r.missing + r.waiting.length
      match s.task? r.task with
      | some t => if n == 0 then s.complete t 0 0 0 0 else s.complete t 0x2009 0 n n
      | none => s
  (s.abortLost w.partner frame).event Od.weldPartnerLostCount j.val w.partner

/-- PARTNER_LOST (R231): by silence, or by the link layer's report. -/
def execPartnerLost (job : JobId) (s : State) : Out :=
  .next <|
    let w := s.weld job
    let silent := match w.lastRx with | some f => s.lapsed f (s.cfg Od.lostFrames) | none => false
    if w.state != .paired then s
    else if silent then s.losePartner job (s.frame + 1)
    else if s.unreachable w.partner then s.losePartner job s.frame
    else s

end Sys2Proof.Machine
end

