-- ==== Sys2Proof/Machine/Mirror.lean ====
section
/-!
DEFINITION. The mirror: MIRROR_APPLY and the digest comparison, copies, COPY mode, resynchronisation and rolling back
(R221 to R232), and the state of a spare (R264).
-/
namespace Sys2Proof.Machine

/-! Spans -/

/-- An inbound span. -/
def State.inSpan? (s : State) (j : JobId) (master index : Nat) : Option InSpan :=
  (s.weld j).inSpans.find? (fun x => x.master == master && x.index == index)

/-- Every Leaf of an own span: Holding and Leaf. -/
def State.ownLeaves (s : State) (j : JobId) (g : SpanGroup) (index : Nat) : List (Nat × Nat) :=
  (g.hids.filter (fun h => h != 0xFFFF)).flatMap fun h =>
    match s.holdingIn j h with
    | some x => (spanLeaves g index h x.width x.leaves).map (fun l => (h, l))
    | none => []

/-- A span reference (8 bytes). -/
def spanRef (x : Nat × Nat) : Bytes := beBytes 2 x.1 ++ beBytes 2 0 ++ beBytes 4 x.2

/-- MASTER HOLDING_ID and index of a received span reference. -/
def refOf (r : BitVec 64) : Nat × Nat := (bitsOf r 63 48, bitsOf r 31 0)

/-- Own group of a MASTER. -/
def State.outGroup? (s : State) (j : JobId) (master : Nat) : Option SpanGroup :=
  (s.weld j).outGroups.find? (fun g => g.master == master)

/-! The spare (R264, Table 10-10) -/

/-- Every span of the bound Holdings is VALID. -/
def State.mirrorValid (s : State) (j : JobId) : Bool := (s.weld j).inSpans.all (fun x => !x.stale)

/-- The spare's state follows its spans and its clean records. -/
def State.settleSpare (s : State) : State :=
  let j := jobOf s.vault.spareJob
  match s.vault.spare with
  | .shadowing =>
    if s.mirrorValid j && s.vault.unverified == [] && s.vault.spareSteps ≤ s.vault.spareClean then s.setVault fun v => { v with spare := .ready } else s
  | .ready =>
    if s.mirrorValid j then s else s.setVault fun v => { v with spare := .shadowing, spareClean := 0 }
  | _ => s

/-! MIRROR_APPLY (R226) -/

/-- The binding of a role of a MIRROR_APPLY against its entry: the Holding at fault. -/
def State.applyUnbound (s : State) (t : Task) (e : BitVec 1024) : Option Nat :=
  ([0, 1, 2, 3, 6, 7].zip (unpackFields [16, 16, 16, 16, 16, 16] (bitsOf e 255 160))).findSome? fun x =>
    let lid := t.roleHid x.1
    if lid == 0xFFFF then (if x.2 == 0xFFFF then none else some lid)
    else match s.holdingIn t.job lid with
      | none => some lid
      | some h => if h.kind == 1 && x.2 != 0xFFFF && s.boundTo t.job x.2 == some lid then none else some lid

/-- The checks 2 to 7 of R226: status, DETAIL, DETAIL2, RESULT. -/
def State.applyFault (s : State) (t : Task) : Option (Nat × Nat × Nat × Nat) :=
  let roles := [1, 0, 2, 3, 6, 7]
  match (s.weld t.job).inRecords.find? (fun r => r.complete && r.step == t.step) with
  | none => some (0x2005, 0, t.step % 2 ^ 32, 0)
  | some r =>
  match r.entries[t.f 815 800]? with
  | none => some (0x2006, 3, 0, 0)
  | some e =>
  if bitsOf e 127 120 != t.kernel || bitsOf r.head 175 168 == 2 then some (0x2006, 3, 0, 0)
  else
  match s.unknownHolding t roles with
  | some h => some (0x0033, h, 0, 0)
  | none =>
  match s.applyUnbound t e with
  | some h => some (0x2007, h, 0, 0)
  | none =>
  match roles.findSome? (s.roleFault t (fun _ kind => kind == 1)) with
  | some (h, r) => some (0x1000, h, r, 0)
  | none =>
  if t.len != bitsOf e 447 384 then some (0x0018, 0, 0, bitsOf e 447 384)
  else
    let level := s.update.kernels.level t.kernel
    if bitsOf e 151 144 != level then some (0x2008, bitsOf e 151 144, level, 0) else none

/-- MIRROR_APPLY (R226): the checks; spans that are STALE take SKIP_STEP (R221); then the frame planner serves the task. -/
def execMirrorApply (task : Nat) (s : State) : Out :=
  .next <| s.whenReady task 0x16 fun s t =>
    if t.gradSrc != 2 || t.roleHid 4 != 0xFFFF || laneRoles.any (fun r => badHidField (t.roleHid r)) then
      s.malformed t
    else match s.applyFault t with
      | some x =>
        let s := if x.1 == 0x2008 then s.bump Od.levelMismatchCount else s
        s.failCheck t x
      | none =>
        if s.d2dDown then s.fail t 0x0021
        else match s.applyEntry t with
          | none => s
          | some e =>
            let s := s.setWeld t.job fun w =>
              { w with inSpans := mapIf w.inSpans (fun x => x.master == bitsOf e 191 176 && x.stale)
                         (fun x => { x with skip := t.step }) }
            s.start t

/-- Send a COPY_REQUEST for spans. -/
def State.requestCopies (s : State) (j : JobId) (spans : List (Nat × Nat)) : State :=
  if spans == [] || (s.weldPeer j).isNone then s else s.weldSend j 0x21 0 0 (spans.flatMap spanRef)

/-- Stale spans gathered in the frame are asked for (R219, R226). -/
def State.sendAsks (s : State) (j : JobId) : State :=
  (s.requestCopies j (s.weld j).copyAsk).setWeld j fun w => { w with copyAsk := [] }

/-! The digest comparison (R222) -/

/-- Mirror Leaves written in a step with their digests: local Holding, Leaf, digest. -/
def State.mirrorDigests (s : State) (j : JobId) (step : Nat) : List (Nat × Nat × Nat) :=
  (s.update.digests.filter (fun d => d.reader == 0 && d.job == j.val && d.step == step)).filterMap fun d =>
    match s.holdingIn j d.holding with
    | some h => if h.kind == 1 && d.bytes.length == h.leafBytes d.leaf then some (d.holding, d.leaf, d.digest) else none
    | none => none

/-- Spans whose Leaf as written differs from the trailer's digest. -/
def State.mismatches (s : State) (j : JobId) (r : InRecord) (written : List (Nat × Nat × Nat)) : List (Nat × Nat) :=
  (written.flatMap fun x =>
    match (s.weld j).binds.find? (fun b => b.1 == x.1), s.holdingIn j x.1 with
    | some b, some h =>
      match r.digests.find? (fun d => bitsOf d 15 0 == b.2 && bitsOf d 63 32 == x.2.1) with
      | some d =>
        if bitsOf d 319 64 == x.2.2 then []
        else (s.weld j).inGroups.flatMap (fun g =>
          if g.hids.contains b.2 then (leafSpans g b.2 x.2.1 h.width).map (fun i => (g.master, i)) else [])
      | none => []
    | _, _ => []).eraseDups

/-- Every span is VALID with COPY_STEP at or below APPLIED: the mirror is whole (R222). -/
def State.mirrorWhole (s : State) (j : JobId) : Bool :=
  (s.weld j).inSpans.all (fun x => !x.stale && x.copy ≤ (s.weld j).applied)

/-- The record of a step has been applied throughout: compare, confirm, ask again for what differs, free the record. -/
def State.compareRecord (s : State) (j : JobId) (r : InRecord) : State :=
  let bad := s.mismatches j r (r.written ++ s.mirrorDigests j r.step)
  let checked := (r.written ++ s.mirrorDigests j r.step).map (fun x => (x.1, x.2.1))
  let s := if bad == [] then s.setVault fun v => { v with unverified := v.unverified.filter (fun x => !checked.contains x) }
    else s
  let s := s.bumpBy Od.digestMismatchCount bad.length
  let s := bad.foldl (fun (s : State) x => s.markStale j x.1 [x.2] r.step) s
  let s := bad.foldl (fun (s : State) x => s.event Od.digestMismatchCount x.1 x.2) s
  let mine (d : LeafDigest) : Bool :=
    d.job == j.val && d.step == r.step && ((s.holdingIn j d.holding).map (·.kind)) == some 1
  let s := s.setUpdate fun u => { u with digests := u.digests.filter (fun d => !mine d) }
  let s := s.setWeld j fun w =>
    { w with applied := r.step, inRecords := w.inRecords.filter (fun x => x.step != r.step) }
  let key := fun (x : Residency) => x.job == j.val && x.holding.isNone && x.step / 65536 == r.step
  let s := s.setWoad fun w => { w with cache := w.cache.filter (fun x => !key x) }
  let s := s.total Od.recordsApplied 1
  let step := if s.mirrorWhole j then r.step else (s.weld j).mirrorStep
  let s := if (s.weld j).state == .paired then
      (s.setWeld j fun w => { w with mirrorStep := step }).weldSend j 0x20 r.step step
        (beBytes 4 bad.length ++ beBytes 4 0 ++ bad.flatMap spanRef)
    else s
  let s := s.requestCopies j bad
  (s.setVault fun v => { v with spareClean := if bad == [] then v.spareClean + 1 else 0 }).settleSpare

/-- MIRROR_DIGEST_COMPARE (R222): once every entry of the record has been applied, records in step order. -/
def execMirrorDigestCompare (job : JobId) (step : BitVec 64) (s : State) : Out :=
  .next <|
    let k := step.toNat
    match s.in? job k with
    | none => s
    | some r =>
      let done := r.complete && decide (k ≤ (s.job job).v) && (List.range r.entries.length).all (fun e => r.applied.contains e)
      let earlier := (s.weld job).inRecords.any (fun x => x.complete && decide (x.step < k))
      let writing := (s.weld job).copies.any (fun c => c.writing ||
        ((s.weld job).mode == .copy && c.stamp == k && s.copyFull job c))
      if done && !earlier && !writing then s.compareRecord job r else s

/-- MIRROR_CONFIRM (R222): M follows, never above V (R18); the whole mirror clears OUT_STALE_FROM and ends R212's interval. -/
def execMirrorConfirm (hdr : BitVec 256) (spans : List (BitVec 64)) (tagOk : Bool) (s : State) : Out :=
  .next <| s.weldIn hdr 0x20 (8 + 8 * spans.length) tagOk false fun j s =>
    let m := wAux hdr 191 128
    let whole := m == wStep hdr
    let s := (s.setWeld j fun w => { w with peerStep := m }).setJob j fun x => { x with m := min m x.v }
    if whole then s.setWeld j fun w => { w with outStale := none, confirmed := true } else s

/-! Copies (R227 to R229) -/

/-- The own group that an UPDATE names, with spans of 2^20 / w elements for the narrowest Holding. -/
def State.ownGroup (s : State) (t : Task) : SpanGroup :=
  let widths := t.stateHids.filterMap (fun h => (s.holdingIn t.job h).map (·.width))
  { master := t.roleHid 1, hids := t.stateHids, count := t.len, span := 1048576 / max 1 (widths.foldl min 4) }

/-- An own group is named. -/
def State.learnOut (s : State) (j : JobId) (g : SpanGroup) : State :=
  if (s.weld j).outGroups.contains g then s
  else s.setWeld j fun w =>
    let fresh : List OutSpan := (List.range g.spans).map (fun i =>
      { master := g.master, index := i, copyPending := w.allPending, lastWrite := 0 })
    { w with outGroups := g :: w.outGroups.filter (fun x => x.master != g.master),
             outSpans := w.outSpans.filter (fun x => x.master != g.master) ++ fresh }

/-- The own groups before an UPDATE names them (log entry 44). -/
def State.defaultOwn (s : State) (j : JobId) : List SpanGroup :=
  defaultGroups ((s.carrier.holdings.filter (fun h => h.job == j && h.kind == 0 && h.role != 5)).map
    (fun h => (h.id, h.role, h.count, h.width)))

/-- An UPDATE of step N has committed elements: the spans it wrote take LAST_WRITE_STEP, and in COPY mode become
COPY_PENDING (R227, R229). -/
def State.noteSpanWrite (s : State) (t : Task) (first last : Nat) : State :=
  let g := s.ownGroup t
  let s := s.learnOut t.job g
  let copy := (s.weld t.job).state == .paired && (s.weld t.job).mode == .copy
  let hit (x : OutSpan) : Bool :=
    x.master == g.master && decide (first / max 1 g.span ≤ x.index) && decide (x.index * g.span < last)
  s.setWeld t.job fun w =>
    { w with outSpans := mapIf w.outSpans hit
               (fun x => { x with lastWrite := t.step, copyPending := x.copyPending || copy }) }

/-- COPY_REQUEST (R227). -/
def execCopyRequest (hdr : BitVec 256) (spans : List (BitVec 64)) (tagOk : Bool) (s : State) : Out :=
  .next <| s.weldIn hdr 0x21 (8 * spans.length) tagOk false fun j s =>
    if bitOf hdr 191 then
      let s := (s.defaultOwn j).foldl (fun s g =>
        if (s.outGroup? j g.master).isSome then s else s.learnOut j g) s
      s.setWeld j fun w =>
        { w with allPending := true, outSpans := w.outSpans.map (fun x => { x with copyPending := true }) }
    else
      let l := spans.map refOf
      s.setWeld j fun w =>
        { w with outSpans := mapIf w.outSpans (fun x => l.contains (x.master, x.index))
                   (fun x => { x with copyPending := true }) }

/-- Send the Leaves of a span copy, stamped, when the own part has room (R227). -/
def State.sendCopy (s : State) (j : JobId) (x : OutSpan) (stamp : Nat) (leaves : List (Nat × Nat × Bytes)) : State :=
  if s.ownFree < sumOf (leaves.map (fun l => unitsOf l.2.2.length)) then s.waitSpace
  else
    let s := leaves.foldl (fun (s : State) l => s.weldSend j 0x22 stamp (l.1 * 2 ^ 48 + l.2.1 * 2 ^ 16) l.2.2) s
    (s.total Od.leavesCopied leaves.length).setWeld j fun w =>
      { w with outSpans := mapIf w.outSpans (fun y => y.master == x.master && y.index == x.index)
                 (fun y => { y with copyPending := false }) }

/-- New bytes of a Leaf that a step has written, complete. -/
def State.newLeaf (s : State) (j : JobId) (step hid leaf : Nat) : Option Bytes :=
  match s.update.digests.find? (fun d => d.job == j.val && d.step == step && d.holding == hid && d.leaf == leaf),
      s.holdingIn j hid with
  | some d, some h => if d.bytes.length == h.leafBytes leaf then some (d.bytes.map (·.2)) else none
  | _, _ => none

/-- Copies of pending spans from the write stream of a step (R227: write tap). -/
def State.tapCopies (s : State) (j : JobId) (step : Nat) : State :=
  if (s.weld j).state != .paired then s
  else ((s.weld j).outSpans.filter (fun x => x.copyPending && x.lastWrite == step)).foldl (fun s x =>
    match s.outGroup? j x.master with
    | none => s
    | some g =>
      let got := (s.ownLeaves j g x.index).map (fun l => (s.newLeaf j step l.1 l.2).map (fun b => (l.1, l.2, b)))
      if got.any (·.isNone) then s else s.sendCopy j x step (got.filterMap id)) s

/-- A task that writes own state in a step of its own is admitted for one of these Holdings. -/
def State.ownWriter (s : State) (j : JobId) (hids : List Nat) : Bool :=
  s.sched.tasks.any (fun t => t.job == j && (t.type == 0x11 || t.type == 0x12) && t.writes.any hids.contains)

/-- Start direct reads of pending spans that no admitted own-step task writes (R227), one span of the job at a time. -/
def State.startCopyReads (s : State) (j : JobId) : State :=
  let w := s.weld j
  if w.state != .paired || !w.copyReads.isEmpty || s.d2dDown then s
  else match w.outSpans.find? (fun x => x.copyPending &&
      (match s.outGroup? j x.master with | some g => !s.ownWriter j g.hids | none => false)) with
    | none => s
    | some x =>
      match s.outGroup? j x.master with
      | none => s
      | some g =>
        let bytes := (s.ownLeaves j g x.index).map (fun l => ((s.holdingIn j l.1).map (fun h => h.leafBytes l.2)).getD 0)
        let n := sumOf bytes
        match s.takeUnits (.copyRead j.val) 6 { read := n, galRead := n, galWrite := n, cipher := n } with
        | none => s
        | some s =>
        (s.ownLeaves j g x.index).foldl (fun s l =>
          match s.holdingIn j l.1 with
          | none => s
          | some h =>
            let id := s.sched.nextId
            let r : CopyRead := { id := id, master := x.master, index := x.index, stamp := x.lastWrite, holding := l.1,
                                  leaf := l.2 }
            let s := s.setSched fun c => { c with nextId := id + 1 }
            let s := s.setWeld j fun w => { w with copyReads := w.copyReads ++ [r] }
            s.startRead (.serveRead id) id h (l.2 * 1048576) (h.leafBytes l.2)) s

/-- Direct reads that are complete go out as COPY_LEAF messages; a span written or poisoned meanwhile stays pending. -/
def State.finishCopyReads (s : State) (j : JobId) : State :=
  let rs := (s.weld j).copyReads
  let bufs := rs.map (fun r => s.taskBuf r.id)
  if rs == [] || bufs.any (fun b => match b with | some b => b.waiting != 0 | none => true) then s
  else
    let poisoned := bufs.any (fun b => match b with | some b => b.poison != [] | none => false)
    let leaves := (rs.zip bufs).filterMap (fun x => x.2.map (fun b => (x.1.holding, x.1.leaf, s.bufBytes b)))
    let s := rs.foldl (fun s r => s.freeBufs r.id) s
    let s := s.setWeld j fun w => { w with copyReads := [] }
    match rs.head?.bind (fun r => (s.weld j).outSpans.find? (fun x =>
        x.master == r.master && x.index == r.index && x.copyPending && x.lastWrite == r.stamp)) with
    | some x => if poisoned then s else s.sendCopy j x x.lastWrite leaves
    | none => s

/-- Copies that can never be installed are counted, dropped and asked for again (R228). -/
def State.discardCopies (s : State) (j : JobId) (bad : HeldCopy → Bool) : State :=
  let gone := (s.weld j).copies.filter bad
  if gone == [] then s
  else
    let s := s.bumpBy Od.copyDiscardCount gone.length
    (s.setWeld j fun w => { w with copies := w.copies.filter (fun c => !bad c) }).askCopies j
      (gone.map (fun c => (c.master, c.index)))

/-- A span copy is written out: the span is VALID with its stamp (R228), tasks that wait for it go on (R232), and in COPY
mode its Leaves count as written by the record (R229). -/
def State.installed (s : State) (j : JobId) (c : HeldCopy) : State :=
  let s := s.setWeld j fun w =>
    { w with copies := w.copies.filter (fun x => !(x.master == c.master && x.index == c.index && x.stamp == c.stamp)),
             inSpans := mapIf w.inSpans (fun x => x.master == c.master && x.index == c.index)
               (fun x => { x with stale := false, copy := c.stamp }),
             resyncs := w.resyncs.map (fun r => (r.1, r.2.filter (fun x => x != (c.master, c.index)))) }
  let digests := c.leaves.filterMap (fun l => (s.boundTo j l.1).map (fun h => (h, l.2.1, Config.sha3 l.2.2 % 2 ^ 256)))
  let s := if (s.weld j).mode == .copy then
      s.setIn j c.stamp (fun r => { r with written := (r.written ++ digests).eraseDups })
    else s
  let done := (s.weld j).resyncs.filter (fun r => r.2 == [])
  let s := s.setWeld j fun w => { w with resyncs := w.resyncs.filter (fun r => r.2 != []) }
  let s := done.foldl (fun s r => match s.task? r.1 with | some t => s.complete t 0 | none => s) s
  s.settleSpare

/-- Start the writes of a span copy. A blocked extent leaves it held. -/
def State.startInstall (s : State) (j : JobId) (c : HeldCopy) : State :=
  let targets := c.leaves.filterMap (fun l =>
    ((s.boundTo j l.1).bind (s.holdingIn j)).map (fun h => (h, l.2.1 * 1048576, l.2.2)))
  let blocked := targets.findSome? (fun x => (s.blockedExtent x.1 x.2.1 x.2.2.length).map (fun _ => x))
  match blocked with
  | some x => (s.openRange x.1 x.2.1 x.2.2.length).1
  | none =>
    let n := sumOf (targets.map (fun x => x.2.2.length))
    match s.takeUnits (.install j.val) 5 { write := n, galRead := n } with
    | none => s
    | some s =>
    let s := targets.foldl (fun (s : State) x => s.writeRange (.copyWrite j.val c.master c.index) x.1 x.2.1 x.2.2) s
    s.setWeld j fun w =>
      { w with copies := mapIf w.copies (fun x => x.master == c.master && x.index == c.index && x.stamp == c.stamp)
                 (fun x => { x with writing := true }) }

/-- Work off the copies held: those whose last write is accepted are installed, those that may be installed are written,
those of a span that is VALID are dropped without counting (R228). -/
def State.pumpCopies (s : State) (j : JobId) : State :=
  let out (s : State) (c : HeldCopy) : Bool := s.reqOut (fun o => o == .copyWrite j.val c.master c.index)
  let s := ((s.weld j).copies.filter (fun c => c.writing)).foldl (fun s c => if out s c then s else s.installed j c) s
  let s := s.discardCopies j (fun c => !c.writing &&
    (match s.inSpan? j c.master c.index with | some x => decide (c.stamp < x.skip) | none => false))
  let idle (c : HeldCopy) : Bool := !c.writing && (s.weld j).mode != .copy &&
    (match s.inSpan? j c.master c.index with | some x => !x.stale | none => false)
  let s := s.setWeld j fun w => { w with copies := w.copies.filter (fun c => !idle c) }
  ((s.weld j).copies.filter (fun c => !c.writing)).foldl (fun s c =>
    match s.inSpan? j c.master c.index with
    | some x =>
      if x.stale && decide (c.stamp ≤ (s.job j).v) && decide (x.skip ≤ c.stamp) && s.copyFull j c &&
          !out s c && !s.d2dDown then s.startInstall j c
      else s
    | none => s) s

/-- COPY_LEAF (R228). -/
def execCopyLeaf (hdr : BitVec 256) (payload : Bytes) (tagOk : Bool) (s : State) : Out :=
  .next <|
    let j0 := wJob hdr
    if s.weldPeer j0 == some (wSrc hdr) && s.partnerFree < unitsOf payload.length then s.waitSpace
    else s.weldIn hdr 0x22 payload.length tagOk false fun j s =>
      let hid := wAux hdr 191 176
      let leaf := wAux hdr 175 144
      let stamp := wStep hdr
      let width := ((((s.boundTo j hid).bind (s.holdingIn j)).map (·.width)).getD 4)
      let spans := (s.weld j).inGroups.flatMap (fun g =>
        if g.hids.contains hid then (leafSpans g hid leaf width).map (fun i => (g.master, i)) else [])
      let before := s
      let wanted := spans.filter (fun x => match s.inSpan? j x.1 x.2 with
        | some y => y.stale || (s.weld j).mode == .copy
        | none => false)
      let s := wanted.foldl (fun (s : State) x => s.setWeld j fun w =>
        let here (c : HeldCopy) : Bool := c.master == x.1 && c.index == x.2 && c.stamp == stamp && !c.writing
        if w.copies.any here then
          { w with copies := mapIf w.copies here (fun c => { c with leaves :=
              (c.leaves.filter (fun l => !(l.1 == hid && l.2.1 == leaf))) ++ [(hid, leaf, payload)] }) }
        else { w with copies := w.copies ++
          [{ master := x.1, index := x.2, stamp := stamp, leaves := [(hid, leaf, payload)] }] }) s
      (s.tookSince before).pumpCopies j

/-- COPY_MODE_APPLY (R229): the verdict of the step is good, and the engine applies the record itself. -/
def execCopyModeApply (job : JobId) (step : BitVec 64) (s : State) : Out :=
  .next <|
    let k := step.toNat
    match s.in? job k with
    | none => s
    | some r =>
      if !r.complete || r.applied != [] || (s.job job).v < k || bitsOf r.head 175 168 != 2 || r.entries == [] then s
      else
        let s := (s.entrySpans job r.entries).foldl (fun (s : State) x => s.markStale job x.1 [x.2] k) s
        let s := s.setIn job k (fun r => { r with applied := List.range r.entries.length })
        let s := s.pumpCopies job
        let left := (s.entrySpans job r.entries).filter (fun x =>
          !(s.weld job).copies.any (fun c => c.master == x.1 && c.index == x.2 && c.stamp == k && s.copyFull job c) &&
          !(s.weld job).inSpans.any (fun y => y.master == x.1 && y.index == x.2 && !y.stale))
        s.askCopies job left

/-! Resynchronisation and rolling back (R230, R232) -/

/-- WELD_RESYNC (R232). -/
def execWeldResync (task : Nat) (s : State) : Out :=
  .next <| s.whenReady task 0x43 fun s t =>
    let all := t.f 256 256 == 1
    let lid := t.f 283 272
    let w := s.weld t.job
    if w.state != .paired then s.complete t 0x2000
    else if !all && (s.holdingIn t.job lid).isNone then s.complete t 0x0033 lid
    else match w.binds.find? (fun b => b.1 == lid), all with
      | none, false => s.complete t 0x2007 lid
      | b, _ =>
        let hid := (b.map (·.2)).getD 0xFFFF
        let inRange (i : Nat) : Bool := t.f 319 288 ≤ i && i < t.f 319 288 + t.f 351 320
        let spans := w.inGroups.flatMap (fun g =>
          ((List.range g.spans).filter (fun i => all || (g.hids.contains hid && inRange i))).map (fun i => (g.master, i)))
        match s.keyStatus 2 with
        | some (st, d) => s.complete t st d
        | none =>
        if spans != [] && s.d2dDown then s.complete t 0x0021 else
        let s := spans.foldl (fun (s : State) x => s.markStale t.job x.1 [x.2] w.applied) s
        let s := if all then s.weldSend t.job 0x21 0 (2 ^ 63) [] else s.requestCopies t.job spans
        if spans == [] then s.complete t 0
        else (s.start t).setWeld t.job fun w => { w with resyncs := w.resyncs ++ [(t.id, spans)] }

/-- A WELD_ROLLBACK that no span holds up any more completes (R230). -/
def State.settleRollback (s : State) (j : JobId) : State :=
  match (s.weld j).rollback with
  | none => s
  | some r =>
    if r.waiting != [] then s
    else
      let s := s.setWeld j fun w => { w with rollback := none }
      match s.task? r.task with
      | some t => if r.missing == 0 then s.complete t 0 0 0 r.missing else s.complete t 0x2009 0 r.missing r.missing
      | none => s

/-- WELD_ROLLBACK (R230). -/
def execWeldRollback (task : Nat) (s : State) : Out :=
  .next <| s.whenReady task 0x44 fun s t =>
    let w := s.weld t.job
    let v := (s.job t.job).v
    if w.state != .paired then s.complete t 0x2000
    else if t.step != v || !(s.job t.job).badVerdict then s.complete t 0x0010 0 0 (s.job t.job).c
    else
      let spans := (w.outSpans.filter (fun x => decide (v < x.lastWrite))).map (fun x => (x.master, x.index))
      match s.keyStatus 2 with
      | some (st, d) => s.complete t st d
      | none =>
      if spans != [] && s.d2dDown then s.complete t 0x0021 else
      let s := if spans == [] then s else s.weldSend t.job 0x23 v v (spans.flatMap spanRef)
      let r : RollbackRun := { task := t.id, target := v, waiting := spans, missing := 0, total := spans.length }
      ((s.start t).setWeld t.job fun w => { w with rollback := some r }).settleRollback t.job

/-- ROLLBACK_REQUEST (R230): the spans asked for are served as restore Leaves, once APPLIED equals the target. -/
def execRollbackRequest (hdr : BitVec 256) (spans : List (BitVec 64)) (tagOk : Bool) (s : State) : Out :=
  .next <| s.weldIn hdr 0x23 (8 * spans.length) tagOk false fun j s =>
    let leaves := (spans.map refOf).flatMap (fun x =>
      match s.inGroup? j x.1 with
      | some g => (s.inLeaves j g x.2).map (fun l => (l.2.2, l.2.1))
      | none => [])
    let r : ServeReq := { id := s.vault.nextObj, job := j.val, toEngine := wSrc hdr, fill := wAux hdr 191 128,
                          urgent := true, curGen := 0, prevGen := 0, leaves := leaves.eraseDups, sent := 0, missing := 0,
                          rollback := true }
    s.setVault fun v => { v with serves := v.serves ++ [r], nextObj := v.nextObj + 1 }

/-! Verdicts (R219, R224, R228) -/

/-- The verdict of a step is known at the holder: lost records of steps up to V ask for their spans; after a bad verdict,
records and copies above V are discarded. -/
def State.weldVerdict (s : State) (j : JobId) (good : Bool) : State :=
  let v := (s.job j).v
  if good then s.askLost j
  else
    let s := s.setWeld j fun w =>
      { w with lostSteps := w.lostSteps.filter (fun l => decide (l.1 ≤ v)),
               inRecords := w.inRecords.filter (fun r => decide (r.step ≤ v)),
               closedSteps := w.closedSteps.filter (fun k => decide (k ≤ v)) }
    s.discardCopies j (fun c => !c.writing && decide (v < c.stamp))

end Sys2Proof.Machine
end

