-- ==== Sys2Proof/Machine/Vault.lean ====
section
/-!
DEFINITION. Accessions and the Vault: the messages to Vault servers, the capture of Bands, stored objects, the durability of
Ledger records, the Catalogue and the sealing of an Accession (R235 to R250).
-/
namespace Sys2Proof.Machine

/-! Names and headers (Tables 10-3, 10-4, 10-5) -/

/-- An object name. -/
def objName (lineage number shard kind index : Nat) : BitVec 256 :=
  BitVec.ofNat 256 (packFields [(32, index), (8, 0), (8, kind), (16, shard), (64, number), (128, lineage)])

def nameIndex (n : BitVec 256) : Nat := bitsOf n 31 0
def nameKind (n : BitVec 256) : Nat := bitsOf n 47 40
def nameShard (n : BitVec 256) : Nat := bitsOf n 63 48
def nameNumber (n : BitVec 256) : Nat := bitsOf n 127 64
def nameLineage (n : BitVec 256) : Nat := bitsOf n 255 128

/-- Two names are the same but for the reserved field, which the engine ignores (R7, Table 10-3). -/
def sameName (a b : BitVec 256) : Bool := bitsOf a 255 40 == bitsOf b 255 40 && nameIndex a == nameIndex b

/-- A stored header. -/
def storedHdr (name : BitVec 256) (iv n : Nat) : BitVec 512 :=
  BitVec.ofNat 512 (packFields [(104, 0), (8, 1), (16, 0x5641), (32, n), (96, iv), (256, name.toNat)])

/-- A stored header that names an object and carries n bytes. -/
def storedOk (h : BitVec 512) (name : BitVec 256) (n : Nat) : Bool :=
  bitsOf h 511 256 == name.toNat && bitsOf h 159 128 == n && bitsOf h 127 112 == 0x5641 && bitsOf h 111 104 == 1

/-- The header of a Vault message. -/
def vaultHdr (req aux src dst type len : Nat) : Nat :=
  packFields [(21, len), (3, 0), (8, type), (32, 0), (32, dst), (32, src), (64, aux), (64, req)]

/-- The newest job record, written or waiting to be written (R400, R456). -/
def State.record (s : State) (j : JobId) : JobRecord :=
  ((s.curator.recQueue.filter (fun p => p.1 == j)).getLast?.map (·.2)).getD s.battery.records[j]

/-- The pool key of a stored object (R241): ACCESSION, LEDGER or GENERATION. -/
def State.objKey (s : State) (j : JobId) (kind number shard : Nat) : Option Nat × State :=
  let l := s.lineageCtx j
  if kind == 1 || kind == 2 then s.poolKey 13 2 labelAccession (l ++ beBytes 8 number ++ beBytes 2 shard)
  else if kind == 3 then s.poolKey 14 2 labelLedger (l ++ beBytes 2 shard)
  else s.poolKey 15 2 labelGeneration l

/-- Encrypt a stored object (R241): its header with the IV, the ciphertext and the tag, over the header and, of a LEAF, its
Catalogue entry as additional data; none without the key. -/
def State.storedObject (s : State) (j : JobId) (number shard kind index : Nat) (entry plain : Bytes) :
    Option (BitVec 256 × Bytes) × State :=
  match s.objKey j kind number shard with
  | (none, s) => (none, s)
  | (some i, s) =>
    let name := objName (s.job j).lineage number shard kind index
    let h := beBytes 64 (storedHdr name (s.nextIv i) plain.length).toNat
    (some (name, h ++ gcmSeal (s.slot i).key (s.nextIv i) (h ++ entry) plain), s.takeUse i)

/-- The text of a stored object that the engine still holds, decrypted (R258, R95); none without the key. -/
def State.openObject (s : State) (j : JobId) (object : Bytes) : Option Bytes × State :=
  let h := BitVec.ofNat 512 (beNat (object.take 64))
  let name := BitVec.ofNat 256 (bitsOf h 511 256)
  match s.objKey j (nameKind name) (nameNumber name) (nameShard name) with
  | (some i, s) => (some (gcmText (s.slot i).key (bitsOf h 255 160) ((object.drop 64).take (bitsOf h 159 128))), s)
  | (none, s) => (none, s)

/-! Requests (R242, R243) -/

/-- Send a request: the whole message is authenticated by the tag under the session key of the target (R341, R242). -/
def State.vaultTx (s : State) (r : VaultReq) : State :=
  let dst := s.cfg (Od.vaultTarget r.target)
  let hdr := vaultHdr r.id 0 s.engineId dst r.type r.payload.length
  match s.seal 7 1 labelVaultSession (beBytes 4 s.engineId ++ beBytes 4 dst) (beBytes 32 hdr ++ r.payload) [] with
  | (some tag, s) => s.offer dst 4 4 hdr (48 + r.payload.length) (r.payload ++ tag)
  | (none, s) => s

/-- Issue a request to a target under a new REQ_ID. -/
def State.vaultSend (s : State) (type : Nat) (name : BitVec 256) (payload : Bytes) (owner : VaultOwner)
    (target retries : Nat) (tried : List Nat) : State :=
  let r : VaultReq := { id := s.vault.nextReq, type := type, name := name, target := target, retries := retries,
                        frame := s.frame, owner := owner, payload := payload, tried := tried }
  (s.setVault fun v => { v with reqs := v.reqs ++ [r], nextReq := (v.nextReq + 1) % 2 ^ 64 }).vaultTx r

/-- The lowest-numbered usable target that has not been tried. -/
def State.vaultNext (s : State) (tried : List Nat) : Option Nat :=
  (List.range 4).find? (fun k => s.cfg (Od.vaultTarget k) != 0 && !tried.contains k)

/-- The owner of a request whose every target has been tried is told when the command's work is settled. -/
def State.vaultFail (s : State) (owner : VaultOwner) (name : BitVec 256) : State :=
  (s.setVault fun v => { v with failed := v.failed ++ [(owner, name)] }).event Od.vaultFailoverCount (nameKind name)
    (nameIndex name)

/-- Ask a Vault: first the target named, if any is, else the lowest-numbered usable one. -/
def State.vaultAsk (s : State) (type : Nat) (name : BitVec 256) (payload : Bytes) (owner : VaultOwner)
    (first : Option Nat := none) : State :=
  let pick := match first with
    | some k => if s.cfg (Od.vaultTarget k) != 0 then some k else s.vaultNext []
    | none => s.vaultNext []
  match pick with
  | some k => s.vaultSend type name payload owner k 0 []
  | none => s.vaultFail owner name

/-- A request that carries nothing but its object name. -/
def State.vaultAskName (s : State) (type : Nat) (name : BitVec 256) (owner : VaultOwner) (first : Option Nat := none) :
    State :=
  s.vaultAsk type name (beBytes 32 name.toNat) owner first

/-- Forget an outstanding request. -/
def State.dropVaultReq (s : State) (id : Nat) : State :=
  s.setVault fun v => { v with reqs := v.reqs.filter (fun r => r.id != id) }

/-- Move a request on to the next usable target. -/
def State.vaultMoveOn (s : State) (r : VaultReq) : State :=
  let s := s.dropVaultReq r.id
  let tried := r.target :: r.tried
  match s.vaultNext tried with
  | some k => (s.bump Od.vaultFailoverCount).vaultSend r.type r.name r.payload r.owner k 0 tried
  | none => s.vaultFail r.owner r.name

/-- No reply, or BUSY: resent to the same target up to VAULT_RETRY_LIMIT times. -/
def State.vaultRetry (s : State) (r : VaultReq) : State :=
  let s := s.bump Od.vaultRetryCount
  if r.retries < s.cfg Od.vaultRetryLimit then
    (s.dropVaultReq r.id).vaultSend r.type r.name r.payload r.owner r.target (r.retries + 1) r.tried
  else s.vaultMoveOn r

/-- A malformed Vault message. -/
def State.vaultMalformed (s : State) : State := s.countEvent Od.vaultMalformedCount

/-- A reply: its checks, then `f` with the request that it answers, which is outstanding no more. -/
def State.vaultIn (s : State) (h : BitVec 256) (type asked size : Nat) (name : BitVec 256) (tagOk : Bool)
    (f : VaultReq → State → State) : State :=
  if s.alarmed then s
  else match s.vault.reqs.find? (fun r => r.id == bitsOf h 255 192) with
  | none => s.vaultMalformed
  | some r =>
    if bitsOf h 31 24 != type || r.type != asked || bitsOf h 20 0 != size || !sameName r.name name ||
        bitsOf h 95 64 != s.engineId || bitsOf h 127 96 != s.cfg (Od.vaultTarget r.target) then s.vaultMalformed
    else if !tagOk then s.tagFail.vaultMalformed
    else f r (s.dropVaultReq r.id)

/-! Accessions (R235, R236) -/

/-- An Accession of a job. -/
def State.acc? (s : State) (j : JobId) (id : Nat) : Option Accession :=
  s.vault.accs.find? (fun a => a.job == j.val && a.id == id)

/-- An Accession that is OPEN or SEALING. -/
def Accession.live (a : Accession) : Bool := a.state == .open_ || a.state == .sealing

/-- Change an Accession. -/
def State.setAcc (s : State) (job id : Nat) (f : Accession → Accession) : State :=
  s.setVault fun v => { v with accs := mapIf v.accs (fun a => a.job == job && a.id == id) f }

/-- ACC_OPEN (R235, R268). -/
def execAccOpen (task : Nat) (s : State) : Out :=
  .next <| s.whenReady task 0x30 fun s t =>
    let id := t.f 319 256
    let mine := s.vault.accs.filter (fun a => a.job == t.job.val && a.live)
    if 4 ≤ mine.length then s.complete t 0x3002
    else if id == 0 || s.vault.accs.any (fun a => a.id == id && a.live) || (s.record t.job).aLastId == id then
      s.complete t 0x3000
    else
      let a : Accession := { job := t.job.val, id := id, shard := t.f 335 320, state := .open_, sa := 0, leaves := [],
                             gens := [], firstStep := none, order := [], sealRun := none }
      let s := s.setVault fun v =>
        { v with accs := v.accs.filter (fun x => !(x.job == t.job.val && x.id == id)) ++ [a] }
      s.complete t 0

/-! Leaves of a Band -/

/-- Elements of a Leaf of a width. -/
def leafElems (width : Nat) : Nat := 1048576 / max 1 width

/-- The elements that a Leaf of a Holding covers within its group: all for statistics. -/
def leafRange (h : Holding) (leaf : Nat) : Nat × Nat :=
  if h.role == 6 || h.role == 7 then (0, 2 ^ 64)
  else (leaf * leafElems h.width, min h.count ((leaf + 1) * leafElems h.width))

/-- Two ranges share an element. -/
def overlaps (a b : Nat × Nat) : Bool := max a.1 b.1 < min a.2 b.2

/-- Insert by rising key. -/
def insertBy {α : Type} (key : α → Nat) (x : α) : List α → List α
  | [] => [x]
  | y :: ys => if key x ≤ key y then x :: y :: ys else y :: insertBy key x ys

/-- Sort by rising key; equal keys keep their order. -/
def sortBy {α : Type} (key : α → Nat) (l : List α) : List α := l.foldr (insertBy key) []

/-- Every Leaf that the Catalogue of a job lists, in its order (R248): TENSOR_ID, ROLE, ELEM_BASE. A Holding that no task
has named yet comes last (log entry 45). -/
def State.catalogueOrder (s : State) (j : JobId) : List (Nat × Nat) :=
  let hs := s.carrier.holdings.filter (fun h => h.job == j && h.kind == 0 && h.role != 0 && h.role != 4)
  let all := hs.flatMap (fun h =>
    let (tensor, base) := (assoc s.vault.tensors h.id).getD (2 ^ 32, 0)
    let base := if h.role == 1 || h.role == 2 || h.role == 3 then base else 0
    (List.range h.leaves).map (fun l => ((tensor * 16 + h.role) * 2 ^ 64 + base + l * leafElems h.width, h.id, l)))
  (sortBy (fun x => x.1) all).map (fun x => (x.2.1, x.2.2))

/-- TENSOR_ID and ELEM_BASE of the Holdings that a task names are known. -/
def State.noteTensors (s : State) (t : Task) : State :=
  let hids := if t.type == 0x11 then t.stateHids else if t.type == 0x12 then [t.wEf] else []
  let (tensor, base) := if t.type == 0x11 then (t.f 447 416, t.f 511 448) else (t.wTensor, 0)
  (hids.filter (fun h => h != 0xFFFF)).foldl (fun s h => s.setVault fun v => { v with tensors := assocSet v.tensors h (tensor, base) }) s

/-- Objects leave EGRESS, with their requests. -/
def State.dropEgress (s : State) (ids : List Nat) : State :=
  s.setVault fun v =>
    { v with egress := v.egress.filter (fun e => !ids.contains e.id),
             reqs := v.reqs.filter (fun r => match r.owner with | .object e => !ids.contains e | _ => true) }

/-- Change the Leaves of an Accession that satisfy a test. -/
def State.setLeaves (s : State) (job id : Nat) (p : BandLeaf → Bool) (f : BandLeaf → BandLeaf) : State :=
  s.setAcc job id (fun a => { a with leaves := mapIf a.leaves p f })

/-- Leaves of an Accession are dropped and listed MISSING (R248). -/
def State.loseLeaves (s : State) (job id : Nat) (p : BandLeaf → Bool) : State :=
  let hit (x : BandLeaf) : Bool := p x && x.place != .missing
  let gone := (s.vault.accs.filter (fun a => a.job == job && a.id == id)).flatMap (fun a => a.leaves.filter hit)
  let s := (s.setLeaves job id hit (fun x => { x with place := .missing })).dropEgress (gone.map (·.obj))
  s.setMadder fun m =>
    { m with enc := m.enc.filter (fun e => match e.owner with
        | .band t l => !gone.any (fun x => x.task == t && x.leaf == l && x.place == .encoding)
        | .serve _ => true) }

/-- Where the Leaf of an EGRESS object or of a capture stands: its Accession and the Leaf. -/
def State.findLeaf (s : State) (p : BandLeaf → Bool) : Option (Accession × BandLeaf) :=
  (s.vault.accs.filter (·.live)).findSome? (fun a => (a.leaves.find? p).map (fun l => (a, l)))

/-- A CAPTURE_BAND completes once each of its Leaves is in EGRESS or missing; RESULT is the capture step. -/
def State.settleCapture (s : State) (task : Nat) : State :=
  match s.task? task with
  | none => s
  | some t =>
    let leaves := (s.vault.accs.flatMap (·.leaves)).filter (fun l => l.task == task)
    if t.type != 0x15 || s.vault.taps.any (fun x => x.task == task) || leaves.length < t.len ||
        leaves.any (fun l => l.place == .encoding) then s
    else
      let step := leaves.foldl (fun m l => max m l.capture) 0
      match t.failWith with
      | some (st, d, d2) => s.complete t st d d2 step
      | none => s.complete t 0 0 0 step

/-! CAPTURE_BAND (R237) -/

/-- The checks of R237: status, DETAIL. -/
def State.captureFault (s : State) (t : Task) : Option (Nat × Nat) :=
  let hid := t.f 331 320
  match s.acc? t.job (t.f 319 256) with
  | none => some (0x3001, 0)
  | some a =>
    if a.state != .open_ then some (0x3001, 0)
    else match s.holdingIn t.job hid with
      | none => some (0x0033, hid)
      | some h =>
        if h.kind != 0 || h.role == 0 || h.role == 4 || t.len == 0 || h.leaves < t.f 367 336 + t.len then
          some (0x3000, hid)
        else none

/-- An earlier CAPTURE_BAND names the Holding in the same step (Table 01-6). -/
def State.duplicateCapture (s : State) (t : Task) : Bool :=
  let hid := t.f 331 320
  s.sched.tasks.any (fun u => u.type == 0x15 && u.job == t.job && u.id < t.id && u.f 331 320 == hid &&
    (u.step == t.step || s.vault.taps.any (fun x => x.task == u.id && x.step == t.step))) ||
  s.vault.accs.any (fun a => a.job == t.job.val && a.leaves.any (fun l =>
    l.holding == hid && l.task < t.id && l.capture + 1 == t.step))

/-- CAPTURE_BAND (R237): the checks; then the capture is armed. -/
def execCaptureBand (task : Nat) (s : State) : Out :=
  .next <| s.whenReady task 0x15 fun s t =>
    match s.captureFault t with
    | some (st, d) => s.complete t st d
    | none =>
      match s.keyStatus 2 with
      | some (st, d) => s.complete t st d
      | none =>
        if s.duplicateCapture t then s.complete t 0x0040
        else
          let x : CaptureTap := { task := t.id, acc := t.f 319 256, holding := t.f 331 320, first := t.f 367 336,
                                  count := t.len, step := t.step, rider := none, cells := [], poisonedLeaves := [] }
          (s.start t).setVault fun v => { v with taps := v.taps ++ [x] }

/-! The order of capture steps (R238) -/

/-- A task reads the Holding of a capture as R237 names it. -/
def State.tapReads (s : State) (t : Task) (x : CaptureTap) : Bool :=
  match s.holdingIn t.job x.holding with
  | none => false
  | some h =>
    if h.role == 5 then t.type == 0x12 && t.wPhase == 0 && t.wEf == x.holding
    else t.type == 0x11 && t.roleHid h.role == x.holding && (h.role ≤ 3 || t.factored)

/-- The elements of a capture. -/
def CaptureTap.range (x : CaptureTap) (h : Holding) : Nat × Nat :=
  ((leafRange h x.first).1, (leafRange h (x.first + x.count - 1)).2)

/-- The capture steps that an Accession holds of a Holding over a range; missing Leaves set none. -/
def Accession.capsOver (a : Accession) (h : Holding) (r : Nat × Nat) : List Nat :=
  (a.leaves.filter (fun l => l.holding == h.id && l.place != .missing && overlaps (leafRange h l.leaf) r)).map (·.capture)

/-- Every Leaf of a Holding over a range is in the Accession or rides now. -/
def Accession.covers (a : Accession) (riding : List CaptureTap) (h : Holding) (r : Nat × Nat) : Bool :=
  (List.range h.leaves).all (fun k => !overlaps (leafRange h k) r ||
    a.leaves.any (fun l => l.holding == h.id && l.leaf == k) ||
    riding.any (fun x => x.acc == a.id && x.holding == h.id && x.first ≤ k && k < x.first + x.count))

/-- How a capture stands on an UPDATE beside the other captures that ride it (Table 10-2): 0 rides, 1 deferred, 2 refused. -/
def State.tapOrder (s : State) (t : Task) (riding : List CaptureTap) (x : CaptureTap) : Nat :=
  match s.acc? t.job x.acc, s.holdingIn t.job x.holding with
  | some a, some h =>
    if t.type == 0x12 then 0
    else
      let cap := t.step - 1
      let r := x.range h
      let of_ (role : Nat) : Option Holding := if t.named role then s.holdingIn t.job (t.roleHid role) else none
      let caps (role : Nat) : List Nat := ((of_ role).map (fun h => a.capsOver h r)).getD []
      let whole (role : Nat) : Bool := ((of_ role).map (fun h => a.covers riding h r)).getD true
      let moments := [2, 3, 6, 7]
      let others := moments.filter (fun k => k != h.role)
      if t.kernel ≤ 1 then
        if h.role == 1 then (if moments.all whole then 0 else 1)
        else if (caps 1).any (fun c => c < cap) then 2 else 0
      else if t.kernel == 2 then
        let peer := if h.role == 1 then 2 else 1
        if (caps peer).any (fun c => c != cap) then 2 else if whole peer then 0 else 1
      else if h.role == 1 then (if moments.all whole then 0 else 1)
      else if others.any (fun k => (caps k).any (fun c => c != cap)) || (caps 1).any (fun c => c < cap) then 2
      else if others.all whole then 0 else 1
  | _, _ => 1

/-- The captures that can ride together: those that wait for one that does not ride leave. -/
def State.riders (s : State) (t : Task) : Nat → List CaptureTap → List CaptureTap
  | 0, l => l
  | k + 1, l => s.riders t k (l.filter (fun x => s.tapOrder t l x == 0))

/-- Units and headroom that a capture reserves (R189). -/
def State.tapUnits (s : State) (j : JobId) (x : CaptureTap) : Nat × Nat :=
  match s.holdingIn j x.holding with
  | some h => (sumOf ((List.range x.count).map (fun k => unitsOf (h.leafBytes (x.first + k)))), x.count)
  | none => (0, 0)

/-- The captures whose reservation fits, in the order of their tasks. -/
def fitTaps (need : CaptureTap → Nat × Nat) : Nat → Nat → List CaptureTap → List CaptureTap
  | _, _, [] => []
  | free, head, x :: xs =>
    let n := need x
    if n.1 ≤ free && n.2 ≤ head then x :: fitTaps need (free - n.1) (head - n.2) xs else fitTaps need free head xs

/-- Change a capture. -/
def State.setTap (s : State) (task : Nat) (f : CaptureTap → CaptureTap) : State :=
  s.setVault fun v => { v with taps := mapIf v.taps (fun x => x.task == task) f }

/-- The step of the ACC_SEAL admitted for an Accession. -/
def State.sealStep (s : State) (j : JobId) (acc : Nat) : Option Nat :=
  (s.sched.tasks.find? (fun t => t.type == 0x31 && t.job == j && t.f 319 256 == acc)).map (·.step)

/-- A capture is deferred to the next step (Table 01-6), or is too late for its Accession (R239). -/
def State.deferTap (s : State) (x : CaptureTap) (step : Nat) : State :=
  let s := (s.setVault fun v => { v with deferred := v.deferred + 1 }).setTap x.task (fun x =>
    { x with step := step + 1, rider := none, cells := [], poisonedLeaves := [] })
  match s.task? x.task with
  | none => s
  | some t =>
    match s.sealStep t.job x.acc with
    | some sa => if sa ≤ step then s.complete t 0x3004 x.holding else s
    | none => s

/-- Reserve the space of a capture and let it ride. -/
def State.rideTap (s : State) (t : Task) (x : CaptureTap) : State :=
  match s.holdingIn t.job x.holding with
  | none => s
  | some h =>
    let base := s.vault.nextObj
    let objs : List EgressObj := (List.range x.count).map (fun k =>
      { id := base + k, job := t.job.val, name := 0, bytes := [], units := unitsOf (h.leafBytes (x.first + k)), head := 1,
        req := none })
    let s := s.setVault fun v => { v with egress := v.egress ++ objs, nextObj := base + x.count }
    let s := s.setTap x.task (fun x => { x with step := t.step, rider := some t.id, base := base })
    s.setAcc t.job.val x.acc (fun a =>
      { a with firstStep := a.firstStep.or (some t.step),
               order := a.order ++ (s.catalogueOrder t.job).filter (fun k => !a.order.contains k) })

/-- A task that reads state gets its first slice: the captures of its step that it can carry ride it (R237, R238, R189). -/
def State.armTaps (s : State) (t : Task) : State :=
  let mine := s.vault.taps.filter (fun x => x.rider.isNone && x.step ≤ t.step && s.tapReads t x &&
    (s.task? x.task).map (·.job) == some t.job)
  let refused := mine.filter (fun x => s.tapOrder t mine x == 2)
  let cands := mine.filter (fun x => s.tapOrder t mine x != 2)
  let willing := s.riders t cands.length cands
  let fit := fitTaps (s.tapUnits t.job) s.egressFree s.egressHeadFree willing
  let ride := s.riders t fit.length fit
  let s := if fit.length < willing.length then s.waitSpace else s
  let s := refused.foldl (fun (s : State) x => match s.task? x.task with
    | some u => s.complete u 0x3003 x.holding (((s.holdingIn t.job x.holding).map (·.role)).getD 0)
    | none => s) s
  let s := (cands.filter (fun x => !ride.any (fun y => y.task == x.task))).foldl (fun s x => s.deferTap x t.step) s
  ride.foldl (fun s x => s.rideTap t x) s

/-- A tap takes an element that its rider has read (R13, R239): the first value read counts. -/
def State.tapRead (s : State) (task hid elem : Nat) (bytes : Bytes) : State :=
  let off := elem * bytes.length
  let leaf := off / 1048576
  s.setVault fun v =>
    { v with taps := mapIf v.taps (fun x => x.rider == some task && x.holding == hid && x.first ≤ leaf &&
               leaf < x.first + x.count && !x.cells.any (fun c => c.1 == leaf && c.2.1 == off % 1048576))
               (fun x => { x with cells := x.cells ++ bytes.mapIdx (fun k b => (leaf, off % 1048576 + k, b)) }) }

/-- A poisoned element is read: its Band Leaf is not captured (R66). -/
def State.tapPoison (s : State) (task hid leaf : Nat) : State :=
  s.setVault fun v =>
    { v with taps := mapIf v.taps (fun x => x.rider == some task && x.holding == hid)
               (fun x => { x with poisonedLeaves := addOnce x.poisonedLeaves leaf }) }

/-- A Leaf of a riding capture is complete: it enters the Band and the encoder, or is missing (R239, R66). -/
def State.captureLeaf (s : State) (t : Task) (x : CaptureTap) (h : Holding) (leaf : Nat) (raw : Bytes) (bad : Bool) : State :=
  match s.acc? t.job x.acc with
  | none => s
  | some a =>
    let serial := a.order.findIdx (fun k => k == (h.id, leaf))
    let base := if 1 ≤ h.role && h.role ≤ 3 then t.f 511 448 else 0
    let tensor := if t.type == 0x11 then t.f 447 416 else t.wTensor
    let obj := x.base + (leaf - x.first)
    let l : BandLeaf := { holding := h.id, leaf := leaf, capture := t.step - 1, elemBase := base + leaf * leafElems h.width,
                          tensor := tensor, elements := h.leafBytes leaf / max 1 h.width, role := h.role,
                          format := h.format, gen := 0, coded := 0, digest := Config.sha3 raw % 2 ^ 256, serial := serial,
                          place := if bad then .missing else .encoding, task := x.task, obj := obj }
    let s := s.setAcc t.job.val x.acc (fun a => { a with leaves := a.leaves ++ [l] })
    let s := s.setTap x.task (fun x => { x with cells := x.cells.filter (fun c => c.1 != leaf) })
    if bad then s.dropEgress [obj]
    else
      let name := objName (s.job t.job).lineage a.id a.shard 1 serial
      let e : EncLeaf := { id := s.vault.nextObj, owner := .band x.task leaf, format := h.format, raw := raw, gen := none,
                           done := 0, coded := [] }
      let s := s.setVault fun v =>
        { v with nextObj := v.nextObj + 1, egress := mapIf v.egress (fun o => o.id == obj) (fun o => { o with name := name }) }
      s.setMadder fun m => { m with enc := m.enc ++ [e] }

/-- Leaf k of a capture has already entered its Band. -/
def State.captured (s : State) (x : CaptureTap) (k : Nat) : Bool :=
  s.vault.accs.any (fun a => a.id == x.acc && a.leaves.any (fun l => l.task == x.task && l.leaf == k))

/-- At a commit of a task, the whole Leaves of the captures that ride it enter their Bands; a capture with no Leaf left
takes no more. -/
def State.tapCommit (s : State) (t : Task) : State :=
  (s.vault.taps.filter (fun x => x.rider == some t.id)).foldl (fun s x =>
    match s.holdingIn t.job x.holding with
    | none => s
    | some h =>
      let leaves := (List.range x.count).map (fun k => x.first + k)
      let s := leaves.foldl (fun (s : State) k =>
        let cells := x.cells.filter (fun c => c.1 == k)
        if s.captured x k then s
        else if x.poisonedLeaves.contains k then s.captureLeaf t x h k [] true
        else if cells.length == h.leafBytes k then
          s.captureLeaf t x h k ((sortBy (fun c => c.2.1) cells).map (·.2.2)) false
        else s) s
      if leaves.all (s.captured x) then
        (s.setVault fun v => { v with taps := v.taps.filter (fun y => y.task != x.task) }).settleCapture x.task
      else s) s

/-- At the boundary: a capture whose rider has ended without it waits for the next step, one that no step can carry any
more is late (R239), and one whose Accession is no longer OPEN ends. -/
def State.captureBoundary (s : State) : State :=
  s.vault.taps.foldl (fun s x =>
    match s.task? x.task with
    | none => s.dropTaps x.task
    | some t =>
      match s.acc? t.job x.acc with
      | none => s.complete t 0x3001
      | some a =>
        if a.state != .open_ then s.complete t 0x3001
        else match x.rider with
          | some r =>
            if (s.task? r).isSome then s
            else
              let left := ((List.range x.count).filter (fun k => !s.captured x (x.first + k))).map (fun k => x.base + k)
              (s.dropEgress left).deferTap x x.step
          | none =>
            match s.sealStep t.job x.acc with
            | some sa => if sa < x.step || sa ≤ (s.job t.job).v then s.complete t 0x3004 x.holding else s
            | none => s) s

/-- What the PUT of an object of EGRESS takes of a frame. -/
def drainUnits (e : EgressObj) : Units := { galRead := e.bytes.length, cipher := e.bytes.length }

/-- Send the PUTs of EGRESS, oldest first, as far as rank 7 has units for them (R15). -/
def State.drain (s : State) : State :=
  (s.vault.egress.filter (fun e => e.bytes != [] && !e.asked)).foldl (fun (s : State) e =>
    match s.takeUnits .drain 7 (drainUnits e) with
    | none => s
    | some s =>
      let s := s.setVault fun v =>
        { v with egress := mapIf v.egress (fun o => o.id == e.id) (fun o => { o with asked := true }) }
      s.vaultAsk 0x60 e.name e.bytes (.object e.id)) s

/-- The Catalogue entry of a Leaf held (Table 10-8). VAULT_INDEX is 0 until a target has acknowledged it, so also in the
additional data of its encryption (log entry 154). -/
def BandLeaf.entry (l : BandLeaf) : Nat :=
  let vault := match l.place with | .acked v => v | _ => 0
  packFields [(28, 0), (1, 0), (2, vault), (4, l.format), (4, l.role), (21, l.coded), (15, l.gen), (20, l.elements - 1),
    (32, l.tensor), (64, l.elemBase), (64, l.capture), (256, l.digest)]

/-- Encoding of a Band Leaf has ended (R239): it is encrypted into EGRESS and put to the Vault. A Leaf under a thirty-second
generation, or without its key, is missing (R248). -/
def State.bandCoded (s : State) (e : EncLeaf) (task leaf : Nat) : State :=
  match s.findLeaf (fun l => l.task == task && l.leaf == leaf && l.place == .encoding) with
  | none => s
  | some (a, l) =>
    let j := jobOf a.job
    let gen := e.gen.getD 0
    let fresh := gen != 0 && !a.gens.any (fun g => g.1 == gen)
    let lost (s : State) : State := (s.loseLeaves a.job a.id (fun x => x.obj == l.obj)).settleCapture task
    if fresh && 31 ≤ a.gens.length then lost s
    else
      let l := { l with place := .egress, gen := gen, coded := e.coded.length }
      match s.storedObject j a.id a.shard 1 l.serial (beBytes 64 l.entry) e.coded with
      | (none, s) => lost s
      | (some (name, bytes), s) =>
        let image := ((s.genOf gen).map (·.image)).getD []
        let s := s.setAcc a.job a.id (fun a => { a with gens := if fresh then a.gens ++ [(gen, image)] else a.gens })
        let s := s.setLeaves a.job a.id (fun x => x.obj == l.obj) (fun _ => l)
        let s := s.setVault fun v =>
          { v with egress := mapIf v.egress (fun o => o.id == l.obj) (fun o => { o with name := name, bytes := bytes }) }
        ((s.total Od.bandLeavesCaptured 1).drain).settleCapture task

/-- A Band Leaf is lost in the encoder (R181): it is missing, and its task ends with MADDER_LEAF_LOST. -/
def State.bandLost (s : State) (task leaf block : Nat) : State :=
  match s.findLeaf (fun l => l.task == task && l.leaf == leaf && l.place == .encoding) with
  | none => s
  | some (a, l) =>
    ((s.loseLeaves a.job a.id (fun x => x.obj == l.obj)).setTask task (fun t =>
      { t with failWith := t.failWith.or (some (0x1024, block, 0)) })).settleCapture task

/-- A bad verdict of step k discards the Bands of OPEN Accessions captured at k or above (R240). -/
def State.discardBands (s : State) (j : JobId) (k : Nat) : State :=
  (s.vault.accs.filter (fun a => a.job == j.val && a.state == .open_)).foldl (fun s a =>
    let gone := a.leaves.filter (fun l => decide (k ≤ l.capture))
    let n := ((gone.map (·.task)).eraseDups).length
    if gone == [] then s
    else
      let sent := gone.filter (fun l => match l.place with
        | .acked _ => true
        | .egress => s.vault.reqs.any (fun r => r.owner == .object l.obj)
        | _ => false)
      let s := s.bumpBy Od.bandDiscardCount n
      let s := s.loseLeaves a.job a.id (fun l => decide (k ≤ l.capture))
      let s := s.setAcc a.job a.id (fun a => { a with leaves := a.leaves.filter (fun l => decide (l.capture < k)) })
      let s := sent.foldl (fun (s : State) l =>
        s.vaultAskName 0x66 (objName (s.job j).lineage a.id a.shard 1 l.serial) (.delete none)) s
      s.event Od.bandDiscardCount a.id n) s

/-! Ledger durability (R244 to R247) -/

/-- D of a job takes a value, in its record too (R400). -/
def State.setDurable (s : State) (j : JobId) (d : Nat) : State :=
  (s.setJob j (fun x => { x with d := d })).writeRecord j (fun r => { r with d := d })

/-- D, A_LAST and the record at JOB_OPEN (R246, R400). -/
def State.openHead (s : State) (j : JobId) (lineage step : Nat) : State :=
  let r := s.record j
  let same := r.used && r.lineage == lineage
  let keep := same && decide (r.aLast ≤ step)
  let aLast := if keep then r.aLast else 0
  let d := if s.cfgStep j Od.ledgerPolicy == 0 then aLast else if same then min r.d step else step
  let s := s.setJob j (fun x => { x with d := d, aLast := aLast })
  s.writeRecord j (fun r =>
    { r with lineage := lineage, used := true, v := step, d := d, aLast := aLast, aLastId := if keep then r.aLastId else 0,
             shard := if same then r.shard else 0, vaultIdx := if same then r.vaultIdx else 0 })

/-- PARTNER_ONLY in force at a STEP_MARK: D is A_LAST (R246). -/
def State.policyD (s : State) (j : JobId) : State :=
  if s.cfgStep j Od.ledgerPolicy == 0 && (s.job j).d != (s.job j).aLast then s.setDurable j (s.job j).aLast else s

/-- D follows the records that are durable above it, under DURABLE (R246). -/
def State.advanceD (s : State) (j : JobId) : Nat → State
  | 0 => s
  | k + 1 =>
    let d := (s.job j).d
    if s.cfgStep j Od.ledgerPolicy == 1 && s.vault.durable.contains (j.val, d + 1) then
      State.advanceD ((s.setDurable j (d + 1)).setVault fun v => { v with durable := v.durable.filter (fun x => x != (j.val, d + 1)) })
        j k
    else s

/-- Records of steps that the policy sends to the Vault are marked so (R244). -/
def State.markVault (s : State) (j : JobId) : State :=
  s.setWeld j fun w =>
    { w with outRecords := w.outRecords.map (fun r => { r with toVault := r.toVault || s.boundForVault j r.step }) }

/-- A record bound for the Vault is lost (R247). -/
def State.loseVaultRecord (s : State) (j : JobId) (k : Nat) : State :=
  let lineage := (s.job j).lineage
  let ids := (s.vault.egress.filter (fun e => e.job == j.val && nameKind e.name == 3 && nameNumber e.name == k &&
    nameLineage e.name == lineage)).map (·.id)
  let s := s.dropEgress ids
  let s := s.setVault fun v => { v with recordsOut := v.recordsOut.filter (fun x => !(x.1 == j.val && x.2.1 == k)) }
  let s := s.setOut j k (fun r => { r with toVault := false, staged := if r.ended then [] else r.staged })
  let accs := s.vault.accs.filter (fun a => a.job == j.val && a.live &&
    (match a.firstStep with | some f => decide (f ≤ k) | none => false) &&
    (match s.sealStep j a.id with | some sa => decide (k ≤ sa) | none => true))
  let hit (l : BandLeaf) : Bool := decide (l.capture < k) && l.place != .missing
  let s := s.bumpBy Od.leafMissingCount (sumOf (accs.map (fun a => (a.leaves.filter hit).length)))
  let s := accs.foldl (fun (s : State) a => s.loseLeaves a.job a.id hit) s
  s.event Od.leafMissingCount j.val k

/-- The digests of a step that nothing needs any more. -/
def State.dropStepDigests (s : State) (j : JobId) (step : Nat) : State :=
  s.setUpdate fun u =>
    { u with digests := u.digests.filter (fun d => !(d.job == j.val && d.step == step &&
        ((s.holdingIn j d.holding).map (·.kind)) != some 1)) }

/-- The payloads of a record's stored objects, by INDEX (R245): its opening in the REPLAY form, its data by entry and index,
its trailer parts. -/
def State.recordPayloads (s : State) (j : JobId) (r : OutRecord) : List Bytes :=
  let data := (sortBy (fun m => m.entry * 2 ^ 32 + m.index) r.staged).map (·.payload)
  let l := s.trailerEntries j r.step
  [s.openPayload j r false] ++ data ++ trailerParts l.length l

/-- Move one record to EGRESS after its good verdict, when there is room (R245, R190). One that the region can never hold is
refused, and so lost to the Vault (R191, R247). -/
def State.moveRecord (s : State) (j : JobId) (r : OutRecord) : State :=
  let due := r.toVault && !r.moved && decide (r.step ≤ (s.job j).v) &&
    !r.tasks.any (fun t => s.sched.tasks.any (fun u => u.id == t.id))
  if !due then s
  else
    let s := s.stageQhat j r
    let r := (s.out? j r.step).getD r
    if r.staged.length != sumOf (r.tasks.map (fun t => (s.gradData t).2)) then s.loseVaultRecord j r.step
    else
      let ps := s.recordPayloads j r
      let units := sumOf (ps.map (fun p => unitsOf p.length))
      if s.cfg Od.egressLeaves * 254 < units then (s.oversize 4 units).loseVaultRecord j r.step
      else if s.egressFree < units then s.waitSpace
      else if !s.keyThere 2 then s.loseVaultRecord j r.step
      else
        let s := s.setVault fun v => { v with recordsOut := v.recordsOut ++ [(j.val, r.step, ps.length)] }
        let s := ps.zipIdx.foldl (fun (s : State) p =>
          match s.storedObject j r.step (s.record j).shard 3 p.2 [] p.1 with
          | (none, s) => s
          | (some (name, bytes), s) =>
            let id := s.vault.nextObj
            let o : EgressObj := { id := id, job := j.val, name := name, bytes := bytes, units := unitsOf p.1.length, head := 0,
                                   req := none }
            s.setVault fun v => { v with egress := v.egress ++ [o], nextObj := id + 1 }) s
        let s := s.drain
        ((s.setOut j r.step (fun r => { r with moved := true, staged := r.staged.filter (fun m => !m.covered) })).dropStepDigests
          j r.step)

/-- At the boundary: records of good steps move to EGRESS, and records that nothing needs any more are freed. -/
def State.moveRecords (s : State) (j : JobId) : State :=
  let s := s.markVault j
  let s := (s.weld j).outRecords.foldl (fun s r => s.moveRecord j r) s
  let v := (s.job j).v
  let paired := (s.weld j).state == .paired
  let done (r : OutRecord) : Bool := decide (r.step ≤ v) && (r.ended || !paired) && (!r.toVault || r.moved)
  let gone := (s.weld j).outRecords.filter done
  let s := s.setWeld j fun w => { w with outRecords := w.outRecords.filter (fun r => !done r) }
  gone.foldl (fun s r => s.dropStepDigests j r.step) s

/-! The Catalogue (R248, R249) -/

/-- The window start W: the lowest capture step of any Band plus 1. -/
def Accession.window (a : Accession) : Nat :=
  match (a.leaves.filter (fun l => l.place != .missing)).map (·.capture) with
  | [] => a.sa
  | c :: cs => cs.foldl min c + 1

/-- The serials of an Accession: Holding and Leaf of each. -/
def State.serials (s : State) (a : Accession) : List (Nat × Nat) :=
  a.order ++ (s.catalogueOrder (jobOf a.job)).filter (fun k => !a.order.contains k)

/-- The Leaf that a Band holds of a serial, when it is not missing. -/
def Accession.held (a : Accession) (k : Nat × Nat) : Option BandLeaf :=
  a.leaves.find? (fun l => l.holding == k.1 && l.leaf == k.2 && l.place != .missing)

/-- A Catalogue Leaf entry (Table 10-8). -/
def State.catalogueEntry (s : State) (a : Accession) (k : Nat × Nat) : Nat :=
  match a.held k with
  | some l => l.entry
  | none =>
    let h := s.holdingIn (jobOf a.job) k.1
    packFields [(28, 0), (1, 1), (2, 0), (4, (h.map (·.format)).getD 0), (4, (h.map (·.role)).getD 0)]

/-- Entries listed MISSING. -/
def State.missingCount (s : State) (a : Accession) : Nat :=
  ((s.serials a).filter (fun k => (a.held k).isNone)).length

/-- Parts of a Catalogue of n entries. -/
def cataloguePartCount (n : Nat) : Nat := 1 + ceilDiv (n - 16382) 16384

/-- The Catalogue header (Table 10-7). -/
def State.catalogueHead (s : State) (a : Accession) : Nat :=
  let n := (s.serials a).length
  let gens := (List.range 31).map (fun k => (16, ((a.gens.map (·.1)).getD (30 - k) 0)))
  packFields ([(8, 0), (8, 1)] ++ gens ++ [(16, 0x4341), (64, (s.job (jobOf a.job)).d),
    (8, s.cfgStep (jobOf a.job) Od.ledgerPolicy), (8, a.gens.length), (16, cataloguePartCount n), (16, a.shard),
    (32, s.missingCount a), (32, n), (64, a.window), (64, a.sa), (64, a.id), (128, (s.job (jobOf a.job)).lineage)])

/-- The entries of a part. -/
def partEntries (l : List (Nat × Nat)) (part : Nat) : List (Nat × Nat) :=
  if part == 0 then l.take 16382 else (l.drop (16382 + (part - 1) * 16384)).take 16384

/-- The plaintext of a part of the Catalogue (R249). -/
def State.cataloguePart (s : State) (a : Accession) (part : Nat) : Bytes :=
  let body := (partEntries (s.serials a) part).flatMap (fun k => beBytes 64 (s.catalogueEntry a k))
  if part == 0 then beBytes 128 (s.catalogueHead a) ++ body else body

/-! ACC_SEAL (R250) -/

/-- Step 1 of R250 is over: every Band Leaf and every window record has been acknowledged or lost. -/
def State.bandsSettled (s : State) (a : Accession) : Bool :=
  let window (k : Nat) : Bool := decide (a.window ≤ k) && decide (k ≤ a.sa)
  a.leaves.all (fun l => match l.place with | .acked _ => true | .missing => true | _ => false) &&
  !s.vault.recordsOut.any (fun x => x.1 == a.job && window x.2.1) &&
  !(s.weld (jobOf a.job)).outRecords.any (fun r => r.toVault && !r.moved && window r.step)

/-- A request of an ACC_SEAL is outstanding. -/
def State.sealAsking (s : State) (task : Nat) : Bool :=
  s.vault.reqs.any (fun r => match r.owner with
    | .catalogue t _ => t == task
    | .commit t => t == task
    | .genPut t _ => t == task
    | _ => false)

/-- A part of the Catalogue or an image is put, or the sealing ends for want of the key. -/
def State.sealPut (s : State) (a : Accession) (task number shard kind index : Nat) (plain : Bytes) (owner : VaultOwner) :
    State :=
  match s.storedObject (jobOf a.job) number shard kind index [] plain with
  | (some (name, bytes), s) => s.vaultAsk 0x60 name bytes owner
  | (none, s) =>
    match s.task? task, s.keyStatus 2 with
    | some t, some (st, d) => s.complete t st d
    | _, _ => s

/-- One move of the sealing order of R250, when what it waits for is there. -/
def State.sealMove (s : State) (a : Accession) : State :=
  match a.sealRun with
  | none => s
  | some (task, stage) =>
    if !s.vault.failed.isEmpty then s
    else if stage == 0 then
      if s.bandsSettled a then
        let s := s.setAcc a.job a.id (fun a => { a with sealRun := some (task, 1) })
        (a.gens.filter (fun g => !s.vault.genAcked.contains ((s.job (jobOf a.job)).lineage, g.1))).foldl
          (fun s g => s.sealPut a task g.1 0 4 0 g.2 (.genPut task g.1)) s
      else s
    else if s.sealAsking task then s
    else if stage == 1 then
      let s := s.setAcc a.job a.id (fun a => { a with sealRun := some (task, 2) })
      (List.range (cataloguePartCount (s.serials a).length)).foldl
        (fun s p => s.sealPut a task a.id a.shard 2 p (s.cataloguePart a p) (.catalogue task p)) s
    else if stage == 2 then
      let s := s.setAcc a.job a.id (fun a => { a with sealRun := some (task, 3) })
      s.vaultAskName 0x68 (objName (s.job (jobOf a.job)).lineage a.id a.shard 2 0xFFFFFFFF) (.commit task)
    else s

/-- Move every sealing on. -/
def State.sealMoves (s : State) : Nat → State
  | 0 => s
  | k + 1 =>
    State.sealMoves ((s.vault.accs.filter (fun a => a.state == .sealing)).foldl (fun s a =>
      match s.acc? (jobOf a.job) a.id with
      | some a => s.sealMove a
      | none => s) s) k

/-- COMMIT has been acknowledged by a target (R250): COMPLETE or PARTIAL, the Catalogue head, D, the completion. -/
def State.sealDone (s : State) (a : Accession) (task target : Nat) : State :=
  let j := jobOf a.job
  let missing := s.missingCount a
  let whole := missing == 0
  let s := s.setAcc a.job a.id (fun a =>
    { a with state := if whole then .complete else .partial_, leaves := [], sealRun := none })
  let s := if whole && (s.job j).aLast < a.sa then
      (s.setJob j (fun x => { x with aLast := a.sa })).writeRecord j (fun r =>
        { r with lineage := (s.job j).lineage, aLast := a.sa, aLastId := a.id, shard := a.shard, vaultIdx := target })
    else s
  let s := if whole && (s.job j).d < a.sa then s.setDurable j a.sa else s
  let s := s.advanceD j s.vault.durable.length
  match s.task? task with
  | some t => if whole then s.complete t 0 else s.complete t 0x3005 0 missing
  | none => s

/-- An object of EGRESS is acknowledged by a target (R243, R246, R248). -/
def State.objectAcked (s : State) (id target : Nat) : State :=
  match s.vault.egress.find? (fun e => e.id == id) with
  | none => s
  | some e =>
    let s := s.dropEgress [id]
    if nameKind e.name == 1 then
      match s.findLeaf (fun l => l.obj == id) with
      | some (a, _) => s.setLeaves a.job a.id (fun l => l.obj == id) (fun l => { l with place := .acked target })
      | none => s
    else
      let k := nameNumber e.name
      let mine (x : Nat × Nat × Nat) : Bool := x.1 == e.job && x.2.1 == k
      let s := s.setVault fun v =>
        { v with recordsOut := mapIf v.recordsOut mine (fun x => (x.1, x.2.1, x.2.2 - 1)) }
      if s.vault.recordsOut.any (fun x => mine x && x.2.2 == 0) then
        let j := jobOf e.job
        let s := s.setVault fun v => { v with recordsOut := v.recordsOut.filter (fun x => !mine x) }
        let s := s.total Od.recordsDurable 1
        if nameLineage e.name == (s.job j).lineage && (s.job j).d < k then
          (s.setVault fun v => { v with durable := addOnce v.durable (j.val, k) }).advanceD j (s.vault.durable.length + 1)
        else s
      else s

/-- An object of EGRESS can reach no Vault (R243): a Leaf is missing, a record is lost. -/
def State.objectLost (s : State) (id : Nat) : State :=
  match s.vault.egress.find? (fun e => e.id == id) with
  | none => s
  | some e =>
    if nameKind e.name == 1 then
      match s.findLeaf (fun l => l.obj == id) with
      | some (a, _) => s.loseLeaves a.job a.id (fun l => l.obj == id)
      | none => s.dropEgress [id]
    else s.loseVaultRecord (jobOf e.job) (nameNumber e.name)

end Sys2Proof.Machine
end

