-- ==== Sys2Proof/Machine/Restore.lean ====
section
/-!
DEFINITION. Restore from a mirror: the restore messages, RESTORE_MIRROR, what a server answers, Leaves in quarantine and the
spans that a fill makes VALID; the spare (R253 to R256, R264, R265).
-/
namespace Sys2Proof.Machine

/-! Restore messages (R253, Table 10-9) -/

/-- Send a restore message on VC3, under the job's restore key; its SEQ is 0. -/
def State.restoreSend (s : State) (j : JobId) (dst type step aux : Nat) (payload : Bytes) : State :=
  let hdr := weldHdr step aux s.engineId dst 0 type j.val payload.length
  match s.seal 11 2 labelRestore (s.lineageCtx j) (beBytes 32 hdr) payload with
  | (some sealed, s) => s.offer dst 3 3 hdr (32 + sealed.length) sealed
  | (none, s) => s

/-- A restore message received: its checks, then `f`. -/
def State.restoreIn (s : State) (h : BitVec 256) (type size limit : Nat) (tagOk : Bool) (f : JobId → State → State) : State :=
  let j := wJob h
  if s.alarmed then s
  else if wType h != type || wLen h != size || limit < size || !(s.job j).open_ then s.weldMalformed j
  else if !tagOk then s.tagFail.weldMalformed j
  else f j s

/-- A request for Leaves: primary HOLDING_ID, first Leaf, count. -/
def restoreRequest (x : Nat × Nat × Nat) : Bytes :=
  beBytes 2 x.1 ++ beBytes 2 0 ++ beBytes 4 x.2.1 ++ beBytes 4 x.2.2 ++ beBytes 4 0

/-- Ask a server for Leaves of a primary, at a fill step. -/
def State.askRestore (s : State) (j : JobId) (server fill : Nat) (urgent : Bool) (l : List (Nat × Nat × Nat)) : State :=
  let gen (g : Option Generation) : Nat := (g.map (·.id)).getD 0
  let aux := (if urgent then 2 ^ 63 else 0) + gen s.madder.current * 2 ^ 32 + gen s.madder.previous * 2 ^ 16
  s.restoreSend j server 0x50 fill aux (l.flatMap restoreRequest)

/-! Spans that a restore fills (R256) -/

/-- The inbound span table of a job that pairs with no one follows its bindings (log entry 44). -/
def State.spareSpans (s : State) (j : JobId) : State :=
  if (s.weld j).state == .paired || (s.weld j).inGroups != [] then s
  else
    let gs := s.boundGroups j
    s.setWeld j fun w => { w with inGroups := gs, inSpans := staleSpans gs }

/-- Every span whose Leaves have all been restored at a step is VALID with that COPY_STEP, unless a later step has made it
STALE. -/
def State.settleFilled (s : State) (j : JobId) (step : Nat) : State :=
  let s := s.spareSpans j
  let got (hid leaf : Nat) : Bool := s.vault.filled.contains (j.val, hid, leaf, step)
  let full (x : InSpan) : Bool := x.stale && x.skip ≤ step &&
    (match s.inGroup? j x.master with
     | some g => (s.inLeaves j g x.index).all (fun l => got l.1 l.2.1)
     | none => false)
  (s.setWeld j fun w =>
    { w with inSpans := mapIf w.inSpans full (fun x => { x with stale := false, copy := step }) }).settleSpare

/-- Mirror Leaves of a Holding have been restored at a step; `checked` are those whose digests have been compared. A spare's
APPLIED follows its fill. -/
def State.noteFill (s : State) (j : JobId) (h : Holding) (step : Nat) (leaves checked : List Nat) : State :=
  if h.kind != 1 then s
  else
    let s := s.setVault fun v =>
      { v with filled := v.filled.filter (fun x => !(x.1 == j.val && x.2.1 == h.id && leaves.contains x.2.2.1)) ++
                 leaves.map (fun l => (j.val, h.id, l, step)),
               unverified := v.unverified.filter (fun x => !(x.1 == h.id && leaves.contains x.2)) ++
                 ((leaves.filter (fun l => !checked.contains l)).map (fun l => (h.id, l))) }
    let s := if s.vault.spare != .idle && (s.weld j).state != .paired then
        s.setWeld j fun w => { w with applied := max w.applied step }
      else s
    s.settleFilled j step

/-! Restores in progress -/

/-- A restore in progress. -/
def State.restore? (s : State) (task : Nat) : Option RestoreRun := s.vault.restores.find? (fun r => r.task == task)

/-- Change a restore. -/
def State.setRestore (s : State) (task : Nat) (f : RestoreRun → RestoreRun) : State :=
  s.setVault fun v => { v with restores := mapIf v.restores (fun r => r.task == task) f }

/-- Change one wanted Leaf, by its place. -/
def State.setWant (s : State) (task i : Nat) (f : WantedLeaf → WantedLeaf) : State :=
  s.setRestore task (fun r => { r with wants := r.wants.mapIdx (fun k w => if k == i then f w else w) })

/-- A restore ends: it, its Leaves in quarantine and its requests go. -/
def State.dropRestore (s : State) (task : Nat) : State :=
  let s := s.setVault fun v =>
    { v with restores := v.restores.filter (fun r => r.task != task),
             quarantine := v.quarantine.filter (fun q => match q.owner with
               | .mirror t _ => t != task
               | .vault t _ => t != task
               | .rollback _ _ _ => true),
             reqs := v.reqs.filter (fun r => match r.owner with
               | .restoreLeaf t _ => t != task
               | .restoreRecord t _ _ _ => t != task
               | .genGet t _ => t != task
               | .fetchCat t _ => t != task
               | _ => true) }
  s.dropReqs (fun o => match o with | .restoreWrite t _ => t == task | .taskRead t => t == task | _ => false)

/-- Name of a Leaf in the owner of its writes. -/
def leafKey (hid leaf : Nat) : Nat := hid * 2 ^ 32 + leaf

/-- A task is marked URGENT (rank 3 of Table 01-4). -/
def State.urgentTask (s : State) (task : Nat) : Bool := ((s.task? task).map (fun t => bitOf t.record 8)).getD false

/-- The rank of a restore (Table 01-4): 3 when it is marked URGENT or rolls back a step (R230), else 6. -/
def State.restoreRank (s : State) (task : Nat) : Nat :=
  if s.urgentTask task || ((s.task? task).map (·.type)) == some 0x44 then 3 else 6

/-- Write a Leaf or part of one; not done when an extent blocks it, which then counts as a translation fault. -/
def State.restoreWrite (s : State) (task key : Nat) (h : Holding) (off : Nat) (bs : Bytes) : State × Bool :=
  match s.openRange h off bs.length with
  | (s, true) => (s.writeRange (.restoreWrite task key) h off bs, true)
  | (s, false) => (s, false)

/-! RESTORE_MIRROR (R256) -/

/-- DETAIL2 of what Madder reported of the first missing Leaf, when that is the reason reported (07 R183). -/
def RestoreRun.missingDetail (r : RestoreRun) : Nat :=
  ((r.wants.findSome? (fun w => w.outcome.filter (fun o => w.status == 3 && o.1 == r.firstMissing))).map (·.2.2)).getD 0

/-- A RESTORE_MIRROR completes once every Leaf is written or missing. -/
def State.settleMirror (s : State) (task : Nat) : State :=
  match s.restore? task, s.task? task with
  | some r, some t =>
    if !r.mirror || r.wants.any (fun w => w.status != 2 && w.status != 3) then s
    else
      let written := r.wants.filter (fun w => w.status == 2)
      let missing := r.wants.length - written.length
      let s := s.dropRestore task
      let s := match s.holdingIn t.job (t.f 315 304) with
        | some h =>
          let leaves := written.map (fun (w : WantedLeaf) => w.leaf)
          s.noteFill t.job h r.fill leaves leaves
        | none => s
      let result := written.length + missing * 2 ^ 32
      if missing == 0 then s.complete t 0 0 0 result
      else if r.serverLost then s.complete t 0x3009 r.firstMissing r.server result
      else s.complete t 0x300A r.firstMissing r.missingDetail result
  | _, _ => s

/-- RESTORE_MIRROR (R253, R256). -/
def execRestoreMirror (task : Nat) (s : State) : Out :=
  .next <| s.whenReady task 0x21 fun s t =>
    let server := t.f 287 256
    let primary := t.f 303 288
    let first := t.f 351 320
    if badHidField primary then s.malformed t
    else match s.holdingIn t.job (t.f 315 304) with
      | none => s.complete t 0x0033 (t.f 315 304)
      | some h =>
        if h.leaves < first + t.len then s.lengthMismatch t 0 (h.leaves - first)
        else match s.keyStatus 2 with
          | some (st, d) => s.complete t st d
          | none =>
            if s.d2dDown then s.complete t 0x0021
            else
              let wants : List WantedLeaf := (List.range t.len).map (fun k =>
                { holding := h.id, leaf := first + k, status := 0, again := false })
              let r : RestoreRun := { task := t.id, mirror := true, server := server, fill := t.step, wants := wants,
                                      lastRx := s.frame, asks := 1 }
              let s := (s.start t).setVault fun v =>
                { v with restores := v.restores ++ [r], spareFill := if h.kind == 1 then max v.spareFill t.step else v.spareFill }
              (s.askRestore t.job server t.step (bitOf t.record 8) [(primary, first, t.len)]).settleMirror t.id

/-- A Leaf asked for from a mirror is missing, for a reason of Table 10-9, or 0: what Madder has reported of it, if anything
(log entry 153). -/
def State.mirrorMissing (s : State) (task i reason : Nat) : State :=
  (s.setWant task i (fun w => { w with status := 3 })).setRestore task (fun r =>
    let own := (((r.wants[i]?).bind (·.outcome)).map (·.1)).getD 0
    { r with firstMissing := if r.firstMissing != 0 then r.firstMissing else if reason != 0 then reason else own })

/-- Ask once more for a Leaf of a RESTORE_MIRROR; a second failure makes it missing (R255). -/
def State.mirrorAgain (s : State) (task i : Nat) : State :=
  match s.restore? task, s.task? task with
  | some r, some t =>
    match r.wants[i]? with
    | none => s
    | some w =>
      if w.again then s.mirrorMissing task i 0
      else
        let s := s.setWant task i (fun w => { w with status := 0, again := true })
        let s := s.setRestore task (fun r => { r with asks := r.asks + 1 })
        s.askRestore t.job r.server r.fill (bitOf t.record 8) [(t.f 303 288, w.leaf, 1)]
  | _, _ => s

/-! Leaves that roll an own span back (R230) -/

/-- The spans of a roll-back that hold an own Leaf. -/
def State.rollbackSpans (s : State) (j : JobId) (hid leaf : Nat) : List (Nat × Nat) :=
  match (s.weld j).rollback with
  | none => []
  | some r => r.waiting.filter (fun x => match s.outGroup? j x.1 with
      | some g => (s.ownLeaves j g x.2).contains (hid, leaf)
      | none => false)

/-- A Leaf of a roll-back is missing: its spans are. -/
def State.rollbackMissing (s : State) (j : JobId) (hid leaf : Nat) : State :=
  let gone := s.rollbackSpans j hid leaf
  (s.setWeld j fun w => { w with rollback := w.rollback.map (fun r =>
    { r with waiting := r.waiting.filter (fun x => !gone.contains x), missing := r.missing + gone.length }) }).settleRollback j

/-- Ask once more for a Leaf of a roll-back. -/
def State.rollbackAgain (s : State) (j : JobId) (hid leaf : Nat) : State :=
  match (s.weld j).rollback with
  | none => s
  | some r =>
    if r.again.contains (hid, leaf) then s.rollbackMissing j hid leaf
    else
      let spans := s.rollbackSpans j hid leaf
      let s := s.setWeld j fun w => { w with rollback := w.rollback.map (fun r => { r with again := (hid, leaf) :: r.again }) }
      s.weldSend j 0x23 r.target r.target (spans.flatMap spanRef)

/-- An own Leaf has been written back: a span whose Leaves have all been takes LAST_WRITE_STEP V (R230). -/
def State.rollbackWritten (s : State) (j : JobId) (hid leaf : Nat) : State :=
  match (s.weld j).rollback with
  | none => s
  | some r =>
    let got := addOnce r.got (hid, leaf)
    let back := r.waiting.filter (fun x => match s.outGroup? j x.1 with
      | some g => (s.ownLeaves j g x.2).all got.contains
      | none => false)
    let r := { r with got := got, waiting := r.waiting.filter (fun x => !back.contains x) }
    (s.setWeld j fun w =>
      { w with rollback := some r,
               outSpans := mapIf w.outSpans (fun x => back.contains (x.master, x.index))
                 (fun x => { x with lastWrite := r.target }) }).settleRollback j

/-! Leaves received (R255) -/

/-- A Leaf fails on its way into a Holding: its tag, its digest, its place in QUARANTINE, or a decoder's rejection that no
generation would mend (R255). -/
def State.leafFailed (s : State) (o : QOwner) : State :=
  let s := s.bump Od.restoreLeafDropCount
  match o with
  | .mirror task i => (s.mirrorAgain task i).settleMirror task
  | .rollback j hid leaf => s.rollbackAgain (jobOf j) hid leaf
  | .vault _ _ => s

/-- Whom an arriving RESTORE_LEAF or RESTORE_MISSING concerns. -/
def State.leafOwner (s : State) (j : JobId) (src step hid leaf : Nat) : Option QOwner :=
  let back := match (s.weld j).rollback with
    | some r => (s.weld j).partner == src && step == r.target && !r.got.contains (hid, leaf) &&
        s.rollbackSpans j hid leaf != []
    | none => false
  if back then some (.rollback j.val hid leaf)
  else s.vault.restores.findSome? (fun r =>
    match s.task? r.task with
    | some t =>
      if r.mirror && r.server == src && r.fill == step && t.job == j && t.f 303 288 == hid then
        match r.wants.findIdx? (fun w => w.leaf == leaf && w.status == 0) with
        | some i => some (.mirror r.task i)
        | none => none
      else none
    | none => none)

/-- A restore message has come from a server. -/
def State.heardServer (s : State) (src : Nat) : State :=
  s.setVault fun v =>
    { v with restores := mapIf v.restores (fun r => r.mirror && r.server == src) (fun r => { r with lastRx := s.frame }) }

/-- Format and elements of the Leaf that an owner will write. -/
def State.leafShape (s : State) (o : QOwner) : Nat × Nat × Nat × Nat :=
  let shape (hid leaf : Nat) : Nat × Nat × Nat × Nat :=
    match s.holding? hid with
    | some h => (h.format, h.leafBytes leaf / max 1 h.width, hid, leaf)
    | none => (0, 0, hid, leaf)
  match o with
  | .rollback _ hid leaf => shape hid leaf
  | .mirror task i =>
    match (s.restore? task).bind (fun r => r.wants[i]?) with
    | some w => shape w.holding w.leaf
    | none => (0, 0, 0, 0)
  | .vault task i =>
    match (s.restore? task).bind (fun r => r.wants[i]?) with
    | some w => (w.format, w.elements, w.holding, w.leaf)
    | none => (0, 0, 0, 0)

/-- A Leaf whose tag has verified waits in QUARANTINE for the decoder. -/
def State.quarantineLeaf (s : State) (o : QOwner) (coded : Bytes) (digest : Nat) : State :=
  let (fmt, count, hid, leaf) := s.leafShape o
  let q : QLeaf := { id := s.vault.nextObj, owner := o, format := fmt, count := count, coded := coded, digest := digest,
                     holding := hid, leaf := leaf }
  let s := s.setVault fun v => { v with quarantine := v.quarantine ++ [q], nextObj := v.nextObj + 1 }
  let s := s.takeSpace { quarantine := unitsOf (coded.length + 16) }
  match o with
  | .mirror task i => s.setWant task i (fun w => { w with status := 1 })
  | .vault task i => s.setWant task i (fun w => { w with status := 1 })
  | .rollback _ _ _ => s

/-- A RESTORE_LEAF has come for an owner (R253). -/
def State.countArrived (s : State) (o : QOwner) : State :=
  match o with
  | .mirror task _ => s.setRestore task (fun r => { r with arrived := r.arrived + 1 })
  | .rollback j _ _ => s.setWeld (jobOf j) fun w =>
    { w with rollback := w.rollback.map (fun r => { r with arrived := r.arrived + 1 }) }
  | .vault _ _ => s

/-- RESTORE_LEAF (R255). While QUARANTINE has no room the message waits for credit (R190). -/
def execRestoreLeaf (hdr : BitVec 256) (digest : BitVec 256) (coded : Bytes) (tagOk : Bool) (s : State) : Out :=
  .next <|
    let hid := wAux hdr 191 176
    let leaf := wAux hdr 175 144
    let owner := s.leafOwner (wJob hdr) (wSrc hdr) (wStep hdr) hid leaf
    let size := 32 + coded.length
    if owner.isSome && s.quarantineFree < unitsOf (coded.length + 16) then s.waitSpace
    else if !tagOk then
      let s := s.restoreIn hdr 0x51 size 1050656 false (fun _ s => s)
      match owner with
      | some o => (s.countArrived o).leafFailed o
      | none => s
    else s.restoreIn hdr 0x51 size 1050656 true fun _ s =>
      let s := s.heardServer (wSrc hdr)
      match owner with
      | some o => (s.countArrived o).quarantineLeaf o coded digest.toNat
      | none => s

/-- RESTORE_MISSING (R253, R256, R230). -/
def execRestoreMissing (hdr : BitVec 256) (tagOk : Bool) (s : State) : Out :=
  .next <|
    let reason := wAux hdr 143 136
    if reason == 0 || 5 < reason then s.weldMalformed (wJob hdr)
    else s.restoreIn hdr 0x52 0 1050656 tagOk fun j s =>
      let s := s.heardServer (wSrc hdr)
      match s.leafOwner j (wSrc hdr) (wStep hdr) (wAux hdr 191 176) (wAux hdr 175 144) with
      | some (.mirror task i) => (s.mirrorMissing task i reason).settleMirror task
      | some (.rollback _ hid leaf) => s.rollbackMissing j hid leaf
      | _ => s

/-- RESTORE_DONE (R253): at the end of the last request, when fewer Leaves have come than were counted as sent, those that
have not arrived are asked for once more. -/
def execRestoreDone (hdr : BitVec 256) (sent missing : BitVec 32) (tagOk : Bool) (s : State) : Out :=
  .next <| s.restoreIn hdr 0x53 8 1050656 tagOk fun j s =>
    let src := wSrc hdr
    let s := s.heardServer src
    let _missing := missing
    match s.vault.restores.find? (fun r => r.mirror && r.server == src && r.fill == wStep hdr && 0 < r.asks &&
        (s.task? r.task).map (·.job) == some j) with
    | some r =>
      let told := r.told + sent.toNat
      let s := s.setRestore r.task (fun r => { r with asks := r.asks - 1, told := told })
      if r.asks != 1 || told ≤ r.arrived then s
      else
        let s := s.setRestore r.task (fun r => { r with told := r.arrived })
        let late := (r.wants.zipIdx.filter (fun w => w.1.status == 0)).map (·.2)
        (late.foldl (fun s i => s.mirrorAgain r.task i) s).settleMirror r.task
    | none =>
      match (s.weld j).rollback with
      | none => s
      | some r =>
        let held (x : Nat × Nat) : Bool := s.vault.quarantine.any (fun q => q.owner == .rollback j.val x.1 x.2) ||
          s.reqOut (fun o => o == .restoreWrite r.task (leafKey x.1 x.2))
        let want := (r.waiting.flatMap (fun x => match s.outGroup? j x.1 with
          | some g => s.ownLeaves j g x.2
          | none => [])).filter (fun l => !r.got.contains l && !held l)
        let told := r.told + sent.toNat
        if (s.weld j).partner != src then s
        else if told ≤ r.arrived then
          s.setWeld j fun w => { w with rollback := w.rollback.map (fun r => { r with told := told }) }
        else
          let s := s.setWeld j fun w => { w with rollback := w.rollback.map (fun r => { r with told := r.arrived }) }
          want.foldl (fun s l => s.rollbackAgain j l.1 l.2) s

/-- RESTORE_REPLY_TIMEOUT (R255): the server is lost, and so is every Leaf that it has not delivered. -/
def execRestoreReplyTimeout (task : Nat) (s : State) : Out :=
  .next <|
    match s.restore? task with
    | none => s
    | some r =>
      if !r.mirror || !s.lapsed r.lastRx (s.cfg Od.restoreReplyFrames) || !r.wants.any (fun w => w.status == 0) then s
      else
        let s := s.setRestore task (fun r =>
          { r with serverLost := true, wants := mapIf r.wants (fun w => w.status == 0) (fun w => { w with status := 3 }) })
        s.settleMirror task

/-! Serving (R254) -/

/-- RESTORE_REQ (R254): the request waits for RESTORE_SERVE to answer it Leaf by Leaf. -/
def execRestoreReq (hdr : BitVec 256) (requests : List (BitVec 128)) (tagOk : Bool) (s : State) : Out :=
  .next <| s.restoreIn hdr 0x50 (16 * requests.length) 1050656 tagOk fun j s =>
    let leaves := requests.flatMap (fun r =>
      (List.range (bitsOf r 63 32)).map (fun k => (bitsOf r 127 112, bitsOf r 95 64 + k)))
    let r : ServeReq := { id := s.vault.nextObj, job := j.val, toEngine := wSrc hdr, fill := wStep hdr,
                          urgent := bitOf hdr 191, curGen := wAux hdr 175 160, prevGen := wAux hdr 159 144, leaves := leaves,
                          sent := 0, missing := 0, rollback := false }
    s.setVault fun v => { v with serves := v.serves ++ [r], nextObj := v.nextObj + 1 }

/-- Change a request served. -/
def State.setServe (s : State) (id : Nat) (f : ServeReq → ServeReq) : State :=
  s.setVault fun v => { v with serves := mapIf v.serves (fun r => r.id == id) f }

/-- The Leaf at the head of a request has been answered; RESTORE_DONE follows the last. -/
def State.serveNext (s : State) (id : Nat) (missing : Bool) : State :=
  let s := s.setServe id (fun r =>
    { r with leaves := r.leaves.drop 1, coding := false, buf := none, sent := if missing then r.sent else r.sent + 1,
             missing := if missing then r.missing + 1 else r.missing })
  match s.vault.serves.find? (fun r => r.id == id) with
  | some r =>
    if r.leaves == [] then
      let s := s.setVault fun v => { v with serves := v.serves.filter (fun x => x.id != id) }
      s.restoreSend (jobOf r.job) r.toEngine 0x53 r.fill 0 (beBytes 4 r.sent ++ beBytes 4 r.missing)
    else s
  | none => s

/-- Answer RESTORE_MISSING for the Leaf at the head of a request. -/
def State.serveMissing (s : State) (r : ServeReq) (reason : Nat) : State :=
  match r.leaves with
  | [] => s
  | (hid, leaf) :: _ =>
    (s.restoreSend (jobOf r.job) r.toEngine 0x52 r.fill (hid * 2 ^ 48 + leaf * 2 ^ 16 + reason * 2 ^ 8) []).serveNext r.id true

/-- Why a Leaf cannot be served now: a reason of Table 10-9, 0 when it can. A span with a COPY_STEP above the fill step holds
a later step. -/
def State.serveReason (s : State) (j : JobId) (fill hid leaf : Nat) : Nat :=
  match (s.boundTo j hid).bind (s.holdingIn j) with
  | none => 4
  | some h =>
    if h.leaves ≤ leaf then 4
    else if fill < (s.weld j).applied then 3
    else
      let spans := (s.weld j).inGroups.flatMap (fun g =>
        if g.hids.contains hid then (leafSpans g hid leaf h.width).filterMap (s.inSpan? j g.master) else [])
      if spans == [] || spans.any (·.stale) then 1 else if spans.any (fun x => fill < x.copy) then 3 else 0

/-- The rank of a request served (R230, R254). -/
def ServeReq.rank (r : ServeReq) : Nat := if r.urgent || r.rollback then 3 else 6

/-- What a Leaf of a Holding takes of a frame when it is served (R179, R254). -/
def serveUnits (h : Holding) (leaf : Nat) : Units :=
  let n := h.leafBytes leaf
  { read := n, galRead := n, galWrite := n, enc := n / max 1 h.width, cipher := n }

/-- A Ledger entry that has been applied names a mirror Holding. -/
def State.entryNames (s : State) (j : JobId) (e : BitVec 1024) (hid : Nat) : Bool :=
  (unpackFields [16, 16, 16, 16, 16, 16] (bitsOf e 255 160)).any (fun p => s.boundTo j p == some hid)

/-- The step that the MIRROR_APPLYs have brought a Leaf to (Table 01-6, R22): none while a slice that covers it is to
commit, or while its elements stand at different steps. An ADAFACTOR holds its Leaves from its first pass to its end. -/
def State.leafStep (s : State) (j : JobId) (h : Holding) (leaf : Nat) : Option Nat :=
  let r := leafRange h leaf
  let ts := s.sched.tasks.filter (fun t => t.type == 0x16 && t.job == j && t.phase != .waiting && t.writes.contains h.id)
  let held (t : Task) : Bool :=
    (t.slice.map (fun x => overlaps (x.start, x.start + x.size) r)).getD false || (t.kernel == 3 && (t.result == 1)) ||
    (r.1 < t.done && t.done < r.2)
  if ts.any held then none
  else
    let done := (ts.filter (fun t => r.2 ≤ t.done)).map (·.step)
    let recs := ((s.weld j).inRecords.filter (fun x => x.applied.any (fun k =>
      ((x.entries[k]?).map (fun e => s.entryNames j e h.id)).getD false))).map (·.step)
    some ((done ++ recs).foldl max (s.weld j).applied)

/-- RESTORE_SERVE (R254): the next Leaf of a request is read from the mirror Holding and goes to the encoder, or is
answered RESTORE_MISSING. It waits while APPLIED is below the fill step, and for a MIRROR_APPLY on the Leaf (Table 01-6). -/
def execRestoreServe (request : Nat) (s : State) : Out :=
  .next <|
    match s.vault.serves.find? (fun r => r.id == request) with
    | none => s
    | some r =>
      let j := jobOf r.job
      match r.leaves with
      | [] => s.serveNext r.id true
      | (hid, k) :: _ =>
        if r.coding then s
        else
          let local_ := (s.boundTo j hid).bind (s.holdingIn j)
          if local_.isSome && (s.weld j).applied < r.fill then s
          else
            let reason := s.serveReason j r.fill hid k
            if reason != 0 then s.serveMissing r reason
            else match local_ with
              | none => s
              | some h =>
                match s.leafStep j h k, r.buf.bind (fun b => s.taskBuf b) with
                | none, _ => s
                | some stamp, none =>
                  match (if s.d2dDown then none else s.takeUnits (.serve r.id) r.rank (serveUnits h k)) with
                  | none => s
                  | some s =>
                    let id := s.sched.nextId
                    let s := s.setSched fun c => { c with nextId := id + 1 }
                    (s.setServe r.id (fun r => { r with buf := some id, stamp := stamp })).startRead (.serveRead id) id h
                      (k * 1048576) (h.leafBytes k)
                | some stamp, some b =>
                  if b.waiting != 0 then s
                  else
                    let raw := s.bufBytes b
                    let s := s.freeBufs b.task
                    if stamp != r.stamp then s.setServe r.id (fun r => { r with buf := none })
                    else if b.poison != [] then s.serveMissing r 2
                    else
                      let cur := (s.madder.current.map (·.id)).getD 0
                      let known := cur != 0 && (cur == r.curGen || cur == r.prevGen)
                      let e : EncLeaf := { id := s.vault.nextObj, owner := .serve r.id, format := h.format, raw := raw,
                                           gen := if known then none else some 0, done := 0, coded := [] }
                      let s := s.setVault fun v => { v with nextObj := v.nextObj + 1 }
                      (s.setMadder fun m => { m with enc := m.enc ++ [e] }).setServe r.id (fun r => { r with coding := true })

/-- The Leaf served has been coded: RESTORE_LEAF. -/
def State.serveCoded (s : State) (e : EncLeaf) (id : Nat) : State :=
  match s.vault.serves.find? (fun r => r.id == id) with
  | none => s
  | some r =>
    match r.leaves with
    | [] => s
    | (hid, leaf) :: _ =>
      let body := beBytes 32 (Config.sha3 e.raw % 2 ^ 256) ++ e.coded
      let s := s.restoreSend (jobOf r.job) r.toEngine 0x51 r.stamp (hid * 2 ^ 48 + leaf * 2 ^ 16) body
      (s.total Od.restoreServedLeaves 1).serveNext id false

/-- The Leaf served is lost in the encoder (R181): reason LOST. -/
def State.serveLost (s : State) (id : Nat) : State :=
  match s.vault.serves.find? (fun r => r.id == id) with
  | some r => s.serveMissing r 5
  | none => s

/-! The spare (R264, R265) -/

/-- SPARE_SHADOW (R264, R460): under a restricted combination no source can be named. -/
def execSpareShadow (task : Nat) (s : State) : Out :=
  .next <| s.whenReady task 0x22 fun s t =>
    let source := t.f 287 256
    if source != 0 && s.ownClass == 1 then s.complete t 0x2002 1
    else
      let s := s.setVault fun v =>
        { v with spare := .shadowing, spareJob := t.job.val, spareSource := source, spareClean := 0,
                 spareSteps := if source == 0 then 0 else t.f 303 288 }
      let s := (s.spareSpans t.job).setWeld t.job fun w => { w with rxSeq := 1 }
      s.settleSpare.complete t 0

/-- Spans of a job's inbound mirror that are STALE. -/
def State.staleCount (s : State) (j : JobId) : Nat := ((s.weld j).inSpans.filter (·.stale)).length

/-- A descriptor with KIND OWN_STATE. -/
def ownDesc (d : BitVec 512) : BitVec 512 := BitVec.ofNat 512 (d.toNat - bitsOf d 19 16 * 2 ^ 16)

/-- SPARE_PROMOTE (R265). -/
def execSparePromote (task : Nat) (s : State) : Out :=
  .next <| s.whenReady task 0x23 fun s t =>
    let j := t.job
    if s.vault.spare != .ready || s.vault.spareJob != j.val then
      s.complete t 0x300D s.vault.spare.code (s.staleCount j)
    else
      let bound := (s.weld j).binds.map (·.1)
      let step := (s.weld j).applied
      let s := s.setCarrier fun c =>
        { c with holdings := mapIf c.holdings (fun h => h.job == j && bound.contains h.id)
                   (fun h => { h with desc := ownDesc h.desc }) }
      let s := s.setWeld j fun w => { w with binds := [], inSpans := [], inGroups := [] }
      let s := (s.setJob j fun x => { x with c := step, v := step }).writeRecord j fun r => { r with v := step }
      (s.setVault fun v => { v with spare := .promoted, filled := v.filled.filter (fun x => x.1 != j.val) }).complete t 0 0 0 step

/-- SHADOW_SOURCE (R264). -/
def execShadowSource (task : Nat) (s : State) : Out :=
  .next <| s.whenReady task 0x24 fun s t =>
    (s.setWeld t.job fun w => { w with shadowTo := t.f 287 256, shadowSeq := 1 }).complete t 0

/-- JOB_CLOSE takes a spare back to IDLE (Table 10-10) and ends what the job had on its way. -/
def State.closeSpare (s : State) (j : JobId) : State :=
  let s := s.setVault fun v =>
    { v with serves := v.serves.filter (fun r => r.job != j.val), filled := v.filled.filter (fun x => x.1 != j.val) }
  let s := s.setMadder fun m =>
    { m with enc := m.enc.filter (fun e => match e.owner with
        | .serve id => s.vault.serves.any (fun r => r.id == id)
        | .band _ _ => true) }
  if s.vault.spareJob == j.val then
    s.setVault fun v =>
      { v with spare := .idle, spareJob := 0, spareSource := 0, spareSteps := 0, spareClean := 0, spareFill := 0,
               unverified := [] }
  else s

end Sys2Proof.Machine
end

