-- ==== Sys2Proof/Machine/Rollfwd.lean ====
section
/-!
DEFINITION. Restore from an Accession with roll-forward: the Catalogues read, the Leaves chosen, the records fetched, and the
replay of the steps since (R257 to R263).
-/
namespace Sys2Proof.Machine

/-! Record entries as updates (Table 09-6) -/

/-- The replay fields of a record entry. -/
def entryArgs (e : BitVec 1024) (lineage step : Nat) : KernelArgs :=
  { kernel := bitsOf e 127 120, sr := bitOf e 128, scaleExp := bitsOf e 143 136, tensor := bitsOf e 383 352,
    elemBase := bitsOf e 511 448, len := bitsOf e 447 384, lr := bitsOf e 543 512, beta1 := bitsOf e 575 544,
    beta2 := bitsOf e 607 576, eps := bitsOf e 639 608, wd := bitsOf e 671 640, gradMul := bitsOf e 703 672,
    bc1 := bitsOf e 735 704, bc2 := bitsOf e 767 736, clip := bitsOf e 799 768, level := bitsOf e 151 144,
    lineage := lineage, step := step }

/-- The FP32 value x of an entry's element i from the payloads of its RECORD_DATA messages (R110, R142): gradient Leaves in
order, or factor packets. -/
def entryGradient (e : BitVec 1024) (data : List Bytes) (i : Nat) : Option Nat :=
  let fmt := bitsOf e 159 152
  if fmt == 0x10 then
    let ps := data.filterMap readPacket
    let ncols := max 1 ((ps.head?.map (·.ncols)).getD 1)
    let n := bitsOf e 511 448 + i
    match packetRow ps 0 (n / ncols), packetRow ps 1 (n % ncols) with
    | some p, some q => some (woadValue p q)
    | _, _ => none
  else
    let w := max 1 (formatWidth fmt)
    let bs := (data.flatMap id).drop (i * w)
    if bs.length < w then none else some (fwiden fmt (leNat (bs.take w)))

/-! ADAFACTOR over a whole range (R114) -/

/-- What ADAFACTOR leaves of a range: MASTER and MOMENT1 in FP32, MOMENT2 as stored, the statistics. -/
structure AdaResult where
  p : List Nat
  m : List Nat
  v : List Nat
  r : List Nat
  c : List Nat
  deriving DecidableEq, Repr

/-- The three passes over a range in index order: gradients and state in FP32, MOMENT2 as stored in a format. -/
def adaRange (a : KernelArgs) (ncols : Nat) (factored named : Bool) (fv : Nat) (xs : List ElemIn) (vb r c : List Nat) :
    AdaResult :=
  let nc := max 1 ncols
  let nr := xs.length / nc
  let qs := xs.map (fun x => adaSquare a x.g)
  let rowsum (i : Nat) : Nat := blocksum nc 0 ((qs.drop (i * nc)).take nc)
  let colsum (j : Nat) : Nat := (List.range nr).foldl (fun t i => fadd t (qs.getD (i * nc + j) 0)) 0
  let r' := if factored then (List.range nr).map (fun i => adaStat a (r.getD i 0) (rowsum i) nc) else r
  let c' := if factored then (List.range nc).map (fun j => adaStat a (c.getD j 0) (colsum j) nr) else c
  let rtot := blocksum r'.length 0 r'
  let v' := if factored then vb
    else (vb.zip qs).mapIdx (fun i x => a.moment fv (adaMoment a (fwiden fv x.1) x.2) (a.words i).2.2.1)
  let vh (i : Nat) : Nat :=
    if factored then adaFactored (r'.getD (i / nc) 0) (c'.getD (i % nc) 0) rtot else fwiden fv (v'.getD i 0)
  let us := xs.mapIdx (fun i x => adaU x.g (vh i))
  let cl := adaClip a (blocksum us.length 0 (us.map (fun u => fmul u u)))
  let outs := xs.mapIdx (fun i x => adaPass3 a named cl (vh i) x)
  { p := outs.map (·.p), m := outs.map (·.m), v := v', r := r', c := c' }

/-! The Catalogues read (R257) -/

/-- A field of a number. -/
def natField (v hi lo : Nat) : Nat := v / 2 ^ lo % 2 ^ (hi + 1 - lo)

/-- A Catalogue as read: its header and its entries. -/
structure CatalogueText where
  head    : Nat
  entries : List Nat
  deriving DecidableEq, Repr

/-- A Catalogue's header passes R252: MAGIC, VERSION. -/
def catalogueMagic (h : Nat) : Bool := natField h 527 512 == 0x4341 && natField h 15 8 == 1

/-- Numbers of k little-endian bytes each. -/
def leWords (k : Nat) : Nat → Bytes → List Nat
  | 0, _ => []
  | n + 1, bs => leNat (bs.take k) :: leWords k n (bs.drop k)

/-- The Catalogues of a Holding, one after another until a header of zeros or the end (log entry 60); none when one of them
is bad. -/
def readCatalogues : Nat → Bytes → Option (List CatalogueText)
  | 0, _ => some []
  | k + 1, bs =>
    let h := leNat (bs.take 128)
    if bs.length < 128 || h == 0 then some []
    else
      let n := natField h 703 672
      if !catalogueMagic h || bs.length < 128 + 64 * n then none
      else (readCatalogues k (bs.drop (128 + 64 * n))).map (fun l =>
        { head := h, entries := leWords 64 n (bs.drop 128) } :: l)

def CatalogueText.sa (c : CatalogueText) : Nat := natField c.head 831 768
def CatalogueText.acc (c : CatalogueText) : Nat := natField c.head 895 832
def CatalogueText.shard (c : CatalogueText) : Nat := natField c.head 639 624

/-- An entry as a Leaf to be wanted. -/
def CatalogueText.want (c : CatalogueText) (serial e : Nat) (target : Nat) : WantedLeaf :=
  { holding := target, leaf := serial, status := 5, again := false, serial := serial, shard := c.shard, acc := c.acc,
    vault := natField e 30 29, capture := natField e 255 192, role := natField e 38 35, elemBase := natField e 191 128,
    elements := natField e 95 76 + 1, format := natField e 34 31, digest := natField e 511 256, gen := natField e 75 60 }

/-! Targets -/

/-- The target of a role. -/
def Task.target (t : Task) (role : Nat) : Nat :=
  match role with
  | 0 => t.f 383 368 | 1 => t.f 399 384 | 2 => t.f 415 400 | 3 => t.f 431 416
  | 6 => t.f 447 432 | 7 => t.f 463 448 | 5 => t.f 479 464 | _ => 0xFFFF

/-- The roles that a restore names. -/
def Task.targetRoles (t : Task) : List Nat := [1, 2, 3, 6, 7, 5, 0].filter (fun r => t.target r != 0xFFFF)

/-- The target Holding of a role. -/
def State.targetHolding (s : State) (t : Task) (role : Nat) : Option Holding :=
  if t.target role == 0xFFFF then none else s.holdingIn t.job (t.target role)

/-- First and end element of the range. -/
def Task.rangeLo (t : Task) : Nat := t.f 319 256
def Task.rangeHi (t : Task) : Nat := t.f 319 256 + t.len

/-- A role whose elements are those of the tensor; the others are indexed within their Holding. -/
def roleGlobal (role : Nat) : Bool := role ≤ 3

/-- The element that stands first in a target: of the range when the target holds the range alone, else the ELEM_BASE that
the last task named for it (log entry 61). -/
def State.targetBase (s : State) (t : Task) (role : Nat) (h : Holding) : Nat :=
  if !roleGlobal role then 0
  else if h.count == t.len then t.rangeLo
  else ((assoc s.vault.tensors h.id).map (·.2)).getD 0

/-- The elements of a role that are restored. -/
def State.roleElems (s : State) (t : Task) (role : Nat) : List Nat :=
  if roleGlobal role then (List.range t.len).map (fun i => t.rangeLo + i)
  else ((s.targetHolding t role).map (fun h => List.range h.count)).getD []

/-! Choosing Leaves (R257) -/

/-- An entry concerns the restore: present, of the tensor, of a role restored, over an element restored. -/
def State.entryWanted (s : State) (t : Task) (loadEf : Bool) (e : Nat) : Bool :=
  let role := natField e 38 35
  let base := natField e 191 128
  let range := (base, base + natField e 95 76 + 1)
  natField e 28 28 == 0 && natField e 127 96 == t.f 351 320 && t.targetRoles.contains role && role != 0 && role != 4 &&
  (role != 5 || loadEf) &&
  (!roleGlobal role || overlaps range (t.rangeLo, t.rangeHi)) &&
  (roleGlobal role || ((s.targetHolding t role).map (fun h => overlaps range (0, h.count))).getD false)

/-- EF is loaded as captured when the target has the shape of the Band and the range is all of it (R260). -/
def State.loadsEf (s : State) (t : Task) (cats : List CatalogueText) : Bool :=
  match s.targetHolding t 5 with
  | none => false
  | some h => cats.any (fun c =>
      let mine := c.entries.filter (fun e => natField e 38 35 == 5 && natField e 127 96 == t.f 351 320)
      sumOf (mine.map (fun e => natField e 95 76 + 1)) == h.count && h.count == t.len)

/-- Every wanted entry with the S_A of its Catalogue, best first: highest S_A, then as listed. -/
def State.candidates (s : State) (t : Task) (cats : List CatalogueText) : List (Nat × WantedLeaf) :=
  let ef := s.loadsEf t cats
  let all := cats.flatMap (fun c => (c.entries.zipIdx.filter (fun e => s.entryWanted t ef e.1)).map (fun e =>
    (c.sa, c.want e.2 e.1 (t.target (natField e.1 38 35)))))
  sortBy (fun x => 2 ^ 64 - x.1) all

/-- A wanted Leaf covers an element of a role. -/
def WantedLeaf.covers (w : WantedLeaf) (role n : Nat) : Bool := w.role == role && w.elemBase ≤ n && n < w.elemBase + w.elements

/-- The chosen Leaves: those that are the best for some element. -/
def State.chosen (s : State) (t : Task) (cands : List WantedLeaf) : List WantedLeaf :=
  (cands.zipIdx.filter (fun w => (s.roleElems t w.1.role).any (fun n =>
    w.1.covers w.1.role n && !(cands.take w.2).any (fun v => v.covers w.1.role n)))).map (·.1)

/-- The Leaf chosen for an element of a role. -/
def RestoreRun.best (r : RestoreRun) (role n : Nat) : Option (Nat × WantedLeaf) :=
  (r.wants.zipIdx.find? (fun w => w.1.covers role n)).map (fun w => (w.2, w.1))

/-- The checks 1 of R257, and the lengths of the targets (R93). -/
def State.vaultFault (s : State) (t : Task) : Option (Nat × Nat × Nat) :=
  let hids := t.targetRoles.map t.target ++ [t.f 363 352]
  match hids.find? (fun h => (s.holdingIn t.job h).isNone) with
  | some h => some (0x0033, h, 0)
  | none =>
    (t.targetRoles.filter roleGlobal).findSome? (fun role =>
      match s.targetHolding t role with
      | some h =>
        let base := s.targetBase t role h
        if t.rangeLo < base || base + h.count < t.rangeHi then some (0x0018, 0, h.count) else none
      | none => none)

/-- Checks 2 and 4 of R257 against the Catalogues: status, DETAIL, RESULT. -/
def State.catalogueFault (s : State) (t : Task) (cats : List CatalogueText) : Option (Nat × Nat × Nat) :=
  let mine (c : CatalogueText) : List Nat := c.entries.filter (fun e => natField e 127 96 == t.f 351 320 && natField e 28 28 == 0)
  let wrong := t.targetRoles.find? (fun role =>
    match s.targetHolding t role with
    | some h => h.role == 4 || h.kind == 2 || (role != 0 && cats.any (fun c => (mine c).any (fun e =>
        natField e 38 35 == role && natField e 34 31 != h.format)))
    | none => false)
  match wrong with
  | some role => some (0x3000, t.target role, 0)
  | none =>
    if t.target 0 != 0xFFFF && t.target 1 == 0xFFFF then some (0x3000, t.target 0, 0)
    else if cats.any (fun c => decide (t.step < c.sa) && (mine c).any (fun e =>
        !roleGlobal (natField e 38 35) ||
        overlaps (natField e 191 128, natField e 191 128 + natField e 95 76 + 1) (t.rangeLo, t.rangeHi))) then
      some (0x0010, 0, (s.job t.job).c)
    else none

/-! Fetching (R258, R255) -/

/-- Ask for a chosen Leaf: from EGRESS while the Vault has not acknowledged it (R95), else from the Vault. -/
def State.askLeaf (s : State) (t : Task) (i : Nat) (w : WantedLeaf) : State :=
  let name := objName (s.job t.job).lineage w.acc w.shard 1 w.serial
  let s := s.setWant t.id i (fun w => { w with status := 0 })
  match s.vault.egress.find? (fun e => e.name == name && e.bytes != []) with
  | some e =>
    if s.quarantineFree < unitsOf (e.bytes.length - 64) then (s.setWant t.id i (fun w => { w with status := 5 })).waitSpace
    else match (s.bump Od.outboundHitCount).openObject t.job e.bytes with
      | (some text, s) => s.quarantineLeaf (.vault t.id i) text w.digest
      | (none, s) => s
  | none => s.vaultAskName 0x63 name (.restoreLeaf t.id i) (some w.vault)

/-- Leaves of one generation besides CURRENT are in flight at a time (R255): the next batch. -/
def State.askBatch (s : State) (t : Task) (r : RestoreRun) : State :=
  let cur := (s.madder.current.map (·.id)).getD 0
  let free (w : WantedLeaf) : Bool := w.gen == 0 || w.gen == cur
  let left := r.wants.zipIdx.filter (fun w => w.1.status == 5)
  let gen := ((left.filter (fun w => !free w.1)).head?.map (fun w => w.1.gen)).getD 0
  (left.filter (fun w => free w.1 || w.1.gen == gen)).foldl (fun s w => s.askLeaf t w.2 w.1) s

/-- Ask for a record object. -/
def State.askObject (s : State) (t : Task) (shard step index : Nat) : State :=
  let o : RestoreObj := { shard := shard, step := step, index := index, bytes := none }
  let s := s.setRestore t.id (fun r => { r with records := r.records ++ [o] })
  s.vaultAskName 0x63 (objName (s.job t.job).lineage step shard 3 index) (.restoreRecord t.id shard step index)

/-- A record is lost to a restore: its objects are fetched no more (R258). -/
def State.loseRestoreRecord (s : State) (task shard step : Nat) : State :=
  let s := s.setRestore task (fun r =>
    { r with lost := addOnce r.lost (shard, step),
             records := r.records.filter (fun o => !(o.shard == shard && o.step == step)) })
  s.setVault fun v =>
    { v with reqs := v.reqs.filter (fun q => match q.owner with
        | .restoreRecord t sh st _ => !(t == task && sh == shard && st == step)
        | _ => true) }

/-- The opening of a record: header and entries, none when it is malformed. -/
def recordOpening (bs : Bytes) (step : Nat) : Option (BitVec 512 × List (BitVec 1024)) :=
  let h := BitVec.ofNat 512 (beNat (bs.take 64))
  let n := bitsOf h 191 176
  if bs.length != 64 + 128 * n || bitsOf h 31 16 != 0x4C47 || bitsOf h 15 8 != 1 || bitsOf h 511 448 != step then none
  else some (h, (List.range n).map (fun k => BitVec.ofNat 1024 (beNat ((bs.drop (64 + 128 * k)).take 128))))

/-- An entry concerns the range of a restore. -/
def Task.replays (t : Task) (e : BitVec 1024) : Bool :=
  bitsOf e 383 352 == t.f 351 320 &&
  overlaps (bitsOf e 511 448, bitsOf e 511 448 + bitsOf e 447 384) (t.rangeLo, t.rangeHi)

/-- RECORD_DATA messages of an entry of gradient Leaves. -/
def gradMessages (e : BitVec 1024) : Nat := ceilDiv (bitsOf e 351 288) 1048576

/-- First data object and count of entry k of a record of gradient Leaves. -/
def entryObjects (es : List (BitVec 1024)) (k : Nat) : Nat × Nat :=
  (1 + sumOf ((es.take k).map gradMessages), ((es[k]?).map gradMessages).getD 0)

/-- A record holds factor packets. -/
def hasFactors (es : List (BitVec 1024)) : Bool := es.any (fun e => bitsOf e 159 152 == 0x10)

/-- The objects of a record that concern a range, besides its opening (R258): the data of its entries, all of it where an
entry holds factor packets, and for the verified step its trailer. -/
def Task.objectsOf (t : Task) (h : BitVec 512) (es : List (BitVec 1024)) (step : Nat) : List Nat :=
  let total := bitsOf h 255 224
  let data := if !es.any t.replays then []
    else if hasFactors es then (List.range total).map (· + 1)
    else (es.zipIdx.filter (fun e => t.replays e.1)).flatMap (fun e =>
      let (first, n) := entryObjects es e.2
      (List.range n).map (fun k => first + k))
  let parts := max 1 (ceilDiv (bitsOf h 223 192) 26214)
  let trailer := if step == t.step && bitOf t.record 480 && es.any t.replays then
      (List.range parts).map (fun k => 1 + total + k)
    else []
  data ++ trailer

/-- Objects taken in order until their bytes make up a length. -/
def takeBytes : Nat → List Bytes → List Bytes × List Bytes
  | _, [] => ([], [])
  | n, b :: bs => if n == 0 then ([], b :: bs) else
      let (x, rest) := takeBytes (n - b.length) bs
      (b :: x, rest)

/-- The data of the entries of a record in order, each taking its GRAD_BYTES. -/
def cutData : List (BitVec 1024) → List Bytes → List (List Bytes)
  | [], _ => []
  | e :: es, bs =>
    let (x, rest) := takeBytes (bitsOf e 351 288) bs
    x :: cutData es rest

/-- A record as fetched: its opening, and the data of each entry. -/
def RestoreRun.record (r : RestoreRun) (shard step : Nat) :
    Option (BitVec 512 × List (BitVec 1024 × List Bytes) × List Bytes) :=
  let mine := sortBy (fun (o : RestoreObj) => o.index) (r.records.filter (fun o => o.shard == shard && o.step == step))
  match mine with
  | [] => none
  | o :: rest =>
    match o.bytes.bind (fun b => recordOpening b step) with
    | none => none
    | some (h, es) =>
      let total := bitsOf h 255 224
      let data := (rest.filter (fun o => o.index ≤ total)).map (fun o => (o.index, o.bytes.getD []))
      let trailer := (rest.filter (fun o => total < o.index)).map (fun o => o.bytes.getD [])
      let cut := if hasFactors es then cutData es (data.map (·.2))
        else es.zipIdx.map (fun e =>
          let (first, n) := entryObjects es e.2
          (data.filter (fun d => first ≤ d.1 && d.1 < first + n)).map (·.2))
      some (h, es.zip cut, trailer)

/-- The shards and steps whose records a restore replays, in order of step, then of shard. -/
def RestoreRun.span (r : RestoreRun) (t : Task) : List (Nat × Nat) :=
  let shards := (r.wants.map (·.shard)).eraseDups
  (List.range (t.step + 1 - r.w)).flatMap (fun i => shards.map (fun h => (h, r.w + i)))

/-- Data objects of the factor entries of a mixed record that are no factor packets (R156): which entry an object belongs to
shows when the whole record is there. -/
def RestoreRun.badPackets (r : RestoreRun) (x : Nat × Nat) : Nat :=
  match r.record x.1 x.2 with
  | some (_, es, _) =>
    if es.all (fun e => bitsOf e.1 159 152 == 0x10) then 0
    else sumOf ((es.filter (fun e => bitsOf e.1 159 152 == 0x10)).map (fun e =>
      (e.2.filter (fun b => (readPacket b).isNone)).length))
  | none => 0

/-! Missing elements (R257, R258) -/

/-- Capture step of an element of a role, when its chosen Leaf has been read. -/
def RestoreRun.cap (r : RestoreRun) (role n : Nat) : Option Nat :=
  match r.best role n with
  | some (_, w) => if w.status == 2 then some w.capture else none
  | none => none

/-- State roles that a restore names, EF and WEIGHT apart. -/
def Task.stateRoles (t : Task) : List Nat := t.targetRoles.filter (fun r => r != 0 && r != 5)

/-- An element has no present Leaf for one of its roles. -/
def RestoreRun.leafMissing (r : RestoreRun) (t : Task) (n : Nat) : Bool :=
  (t.stateRoles.filter roleGlobal).any (fun role => (r.cap role n).isNone)

/-- The roll-forward of an element needs a lost record. -/
def RestoreRun.recordMissing (r : RestoreRun) (t : Task) (n : Nat) : Bool :=
  (t.stateRoles.filter roleGlobal).any (fun role => match r.cap role n with
    | some c => r.lost.any (fun x => decide (c < x.2) && decide (x.2 ≤ t.step))
    | none => false)

/-- The statistics of the range miss a Leaf or a record. -/
def RestoreRun.statsMissing (r : RestoreRun) (s : State) (t : Task) : Bool :=
  (t.stateRoles.filter (fun x => !roleGlobal x)).any (fun role => (s.roleElems t role).any (fun n =>
    match r.cap role n with
    | some c => r.lost.any (fun x => decide (c < x.2) && decide (x.2 ≤ t.step))
    | none => true))

/-- The key of an element of a role among the values of a roll-forward. -/
def valueKey (role n : Nat) : Nat := role * 2 ^ 64 + n

/-- Values of a roll-forward. -/
def valueAt (l : List (Nat × Nat)) (role n : Nat) : Nat := (assoc l (valueKey role n)).getD 0

/-! Writing the targets -/

/-- Runs of elements that follow one another. -/
def runsOf : List (Nat × Nat) → List (Nat × List Nat)
  | [] => []
  | x :: xs =>
    match runsOf xs with
    | [] => [(x.1, [x.2])]
    | (p, l) :: rest => if p == x.1 + 1 then (x.1, x.2 :: l) :: rest else (x.1, [x.2]) :: (p, l) :: rest

/-- Write elements of a target: places in the Holding and bits. The writes go out under the grants of the restore. -/
def State.writeTarget (s : State) (task : Nat) (h : Holding) (l : List (Nat × Nat)) : State :=
  (runsOf l).foldl (fun (s : State) x =>
    s.holdRange (.restoreWrite task (leafKey h.id 0)) h (x.1 * h.width) (elemBytes h.width x.2)) s

/-- Write elements of a target at once, under the units that a slice has taken. -/
def State.writeSlice (s : State) (task : Nat) (h : Holding) (l : List (Nat × Nat)) : State :=
  (runsOf l).foldl (fun (s : State) x =>
    s.writeRange (.restoreWrite task (leafKey h.id 0)) h (x.1 * h.width) (elemBytes h.width x.2)) s

/-- The first target with an extent that blocks writing. -/
def State.targetBlocked (s : State) (t : Task) : Option Holding :=
  (t.targetRoles.filterMap (s.targetHolding t)).find? (fun h => (s.blockedExtent h 0 h.bytes).isSome)

/-! The course of a restore -/

/-- A chosen Leaf has been decoded and verified: its elements of the range are kept for roll-forward (R258). -/
def State.takeLeaf (s : State) (task i : Nat) (raw : Bytes) : State :=
  match s.restore? task, s.task? task with
  | some r, some t =>
    match r.wants[i]? with
    | none => s
    | some w =>
      let elems := elemsOf (formatWidth w.format) w.elements raw
      let mine := (elems.zipIdx.map (fun x => (w.elemBase + x.2, x.1))).filter (fun x =>
        (r.best w.role x.1).map (·.1) == some i && (!roleGlobal w.role || (t.rangeLo ≤ x.1 && x.1 < t.rangeHi)))
      (s.setWant task i (fun w => { w with status := 2 })).setRestore task (fun r =>
        { r with values := r.values ++ mine.map (fun x => (w.role, x.1, x.2)) })
  | _, _ => s

/-- Every record object that is to be fetched has come, or its record is lost. -/
def RestoreRun.recordsIn (r : RestoreRun) : Bool := r.records.all (fun o => o.bytes.isSome)

/-- The entries that a restore replays. -/
def RestoreRun.replayed (r : RestoreRun) (t : Task) : List (BitVec 1024) :=
  (r.span t).flatMap (fun x => match r.record x.1 x.2 with
    | some (_, es, _) => (es.map (·.1)).filter t.replays
    | none => [])

/-- What stops a restore once its records are read (R259, R262): status, DETAIL, DETAIL2. -/
def State.replayFault (s : State) (t : Task) (r : RestoreRun) : Option (Nat × Nat × Nat) :=
  let es := r.replayed t
  match es.find? (fun e => bitsOf e 127 120 == 3 && !(bitsOf e 511 448 == t.rangeLo && bitsOf e 447 384 == t.len)) with
  | some _ => some (0x300B, 0, t.f 351 320)
  | none =>
    match es.find? (fun e => bitsOf e 151 144 != s.update.kernels.level (bitsOf e 127 120)) with
    | some e => some (0x300C, bitsOf e 151 144, s.update.kernels.level (bitsOf e 127 120))
    | none => none

/-- Write the chosen Leaves to their targets as captured; EF is +0.0 where it is not loaded (R258, R260). -/
def State.writeCaptured (s : State) (t : Task) (r : RestoreRun) : State :=
  t.targetRoles.foldl (fun s role =>
    match s.targetHolding t role with
    | none => s
    | some h =>
      let base := s.targetBase t role h
      let got := sortBy (fun x => x.1) ((r.values.filter (fun v => v.1 == role)).map (fun v => (v.2.1 - base, v.2.2)))
      if role == 5 then
        let zero := if r.wants.any (fun w => w.role == 5) then got else (List.range h.count).map (fun i => (i, 0))
        (s.writeTarget t.id h zero).setWoad fun w => { w with efStep := assocErase w.efStep h.id }
      else s.writeTarget t.id h got) s

/-- A write of the restore is outstanding. -/
def State.restoreWriting (s : State) (task : Nat) : Bool :=
  s.reqOut (fun o => match o with | .restoreWrite t _ => t == task | _ => false)

/-- Target Leaves of a Holding that hold a missing element. -/
def State.missingLeaves (s : State) (t : Task) (r : RestoreRun) (role : Nat) (h : Holding) : List Nat :=
  let base := s.targetBase t role h
  ((r.missing.filter (fun m => m.1 == role)).map (fun m => (m.2 - base) * h.width / 1048576)).eraseDups

/-- Leaves of a target that the range touches, and whether it covers them whole. -/
def State.targetLeaves (s : State) (t : Task) (role : Nat) (h : Holding) : List (Nat × Bool) :=
  let base := s.targetBase t role h
  let e := leafElems h.width
  let lo := if roleGlobal role then t.rangeLo - base else 0
  let hi := if roleGlobal role then t.rangeHi - base else h.count
  ((List.range h.leaves).filter (fun l => overlaps (l * e, min h.count ((l + 1) * e)) (lo, hi))).map (fun l =>
    (l, lo ≤ l * e && min h.count ((l + 1) * e) ≤ hi))

/-- A RESTORE_VAULT completes (R263): spans of MIRROR targets follow R256. -/
def State.finishVault (s : State) (t : Task) (r : RestoreRun) : State :=
  let holds := t.targetRoles.filterMap (fun role => (s.targetHolding t role).map (fun h => (role, h)))
  let bad (role : Nat) (h : Holding) : List Nat :=
    ((s.missingLeaves t r role h) ++ (r.differ.filter (fun d => d.1 == h.id)).map (·.2)).eraseDups
  let whole (role : Nat) (h : Holding) : List Nat :=
    ((s.targetLeaves t role h).filter (fun l => l.2 && !(bad role h).contains l.1)).map (·.1)
  let missing := sumOf (holds.map (fun x => (bad x.1 x.2).length))
  let written := sumOf (holds.map (fun x => (whole x.1 x.2).length))
  let detail := if r.wants.any (fun w => w.status == 3) || r.missing.any (fun m => (r.best m.1 m.2).isNone && m.1 != 0) then 1
    else if r.lost != [] then 2 else 3
  let s := (s.dropRestore t.id).total Od.restoreLeavesWritten written
  let s := holds.foldl (fun (s : State) x => s.noteFill t.job x.2 t.step (whole x.1 x.2)
    ((r.verified.filter (fun d => d.1 == x.2.id)).map (·.2))) s
  let result := r.verified.length + missing * 2 ^ 32
  if missing == 0 then s.complete t 0 0 0 result else s.complete t 0x300A detail 0 result

/-- One move of a RESTORE_VAULT, when what it waits for is there. -/
def State.vaultMove (s : State) (t : Task) (r : RestoreRun) : State :=
  if r.phase == 1 then
    if r.wants.any (fun w => w.status == 0 || w.status == 1 || w.status == 4) then s
    else if r.wants.any (fun w => w.status == 5) then s.askBatch t r
    else
      let caps := r.wants.map (·.capture)
      let w := match caps with | [] => t.step + 1 | c :: cs => cs.foldl min c + 1
      let r := { r with phase := 2, w := w }
      let s := s.setRestore t.id (fun _ => r)
      (r.span t).foldl (fun s x => s.askObject t x.1 x.2 0) s
  else if r.phase == 2 then
    if !r.recordsIn then s
    else match (r.span t).find? (fun x => r.badPackets x != 0) with
    | some x => (s.bumpBy Od.factorPacketBadCount (r.badPackets x)).loseRestoreRecord t.id x.1 x.2
    | none => match s.replayFault t r with
      | some (st, d, d2) => (s.dropRestore t.id).complete t st d d2
      | none =>
        match s.targetBlocked t with
        | some h => (s.openRange h 0 h.bytes).1
        | none => (s.setRestore t.id (fun r => { r with phase := 3 })).writeCaptured t r
  else if r.phase == 3 then
    if s.restoreWriting t.id then s
    else s.setRestore t.id (fun r =>
      { r with phase := 4, vals := r.values.foldl (fun l v => assocSet l (valueKey v.1 v.2.1) v.2.2) [] })
  else if r.phase == 5 then
    if s.restoreWriting t.id then s else s.finishVault t r
  else s

/-- Move a RESTORE_VAULT on as far as it goes; a generation waiting to be recalled goes to MADDER_GEN_RECALL as soon as no
Leaf references PREVIOUS, and its Leaves are asked for again once it decodes (R255). -/
def State.pumpVault (s : State) (task : Nat) : Nat → State
  | 0 => s
  | k + 1 =>
    match s.restore? task, s.task? task with
    | some r, some t =>
      if r.mirror then s
      else
        let s := match r.recalled with
          | some (_, image) =>
            if s.prevReferenced || s.genPending then s
            else
              let s := s.setRestore task (fun r => { r with recalled := none })
              (s.genWrite .docent Od.madderGenRecall.key image (fun s => s.genRecall image)).2
          | none => s
        let again := r.wants.zipIdx.filter (fun w => w.1.status == 4 && s.liveGens.any (fun g => g.id == w.1.gen) && !s.genPending)
        let s := again.foldl (fun s w => s.askLeaf t w.2 w.1) s
        match s.restore? task with
        | some r => (s.vaultMove t r).pumpVault task k
        | none => s
    | _, _ => s

/-- RESTORE_VAULT (R257): the first check; then the Catalogues are read from CATALOGUE_HID. -/
def execRestoreVault (task : Nat) (s : State) : Out :=
  .next <| s.whenReady task 0x20 fun s t =>
    if [0, 1, 2, 3, 5, 6, 7].any (fun r => badHidField (t.target r)) then s.malformed t
    else match s.vaultFault t with
      | some (st, d, res) => if st == 0x0018 then s.lengthMismatch t d res else s.complete t st d
      | none =>
        match s.keyStatus 2, s.holdingIn t.job (t.f 363 352) with
        | some (st, d), _ => s.complete t st d
        | none, none => s
        | none, some h =>
          if s.d2dDown then s.complete t 0x0021
          else
            let r : RestoreRun := { task := t.id, mirror := false, fill := t.step, lastRx := s.frame }
            let mirror := t.targetRoles.any (fun role => ((s.targetHolding t role).map (·.kind)) == some 1)
            let s := (s.start t).setVault fun v =>
              { v with restores := v.restores ++ [r], spareFill := if mirror then max v.spareFill t.step else v.spareFill }
            s.startRead (.taskRead t.id) t.id h 0 h.bytes

/-- The Catalogues have been read: the other checks of R257, and the choice of Leaves. -/
def State.cataloguesRead (s : State) (t : Task) (bytes : Bytes) : State :=
  let s := s.freeBufs t.id
  match readCatalogues (bytes.length / 128 + 1) bytes with
  | none => match s.catalogueFault t [] with
    | some (st, d, res) => (s.dropRestore t.id).complete t st d 0 res
    | none => (s.dropRestore t.id).complete t 0x3008
  | some cats =>
    match s.catalogueFault t cats with
    | some (st, d, res) => (s.dropRestore t.id).complete t st d 0 res
    | none =>
      let cands := (s.candidates t cats).map (·.2)
      let heads := cats.map (fun c => (c.acc, c.sa, c.shard))
      (s.setRestore t.id (fun r => { r with phase := 1, heads := heads, wants := s.chosen t cands })).pumpVault t.id 8

/-- A record object has come. -/
def State.objectIn (s : State) (task shard step index : Nat) (bytes : Bytes) : State :=
  match s.task? task with
  | none => s
  | some t =>
    let here (o : RestoreObj) : Bool := o.shard == shard && o.step == step && o.index == index
    let s := s.setRestore task (fun r => { r with records := mapIf r.records here (fun o => { o with bytes := some bytes }) })
    match s.restore? task with
    | none => s
    | some r =>
      if index == 0 then
        match recordOpening bytes step with
        | none => s.loseRestoreRecord task shard step
        | some (h, es) => (t.objectsOf h es step).foldl (fun s i => s.askObject t shard step i) s
      else
        match (r.records.find? (fun o => o.shard == shard && o.step == step && o.index == 0)).bind (fun o =>
            o.bytes.bind (fun b => recordOpening b step)) with
        | some (h, es) =>
          if hasFactors es && index ≤ bitsOf h 255 224 && es.all (fun e => bitsOf e 159 152 == 0x10) &&
              (readPacket bytes).isNone then
            (s.bump Od.factorPacketBadCount).loseRestoreRecord task shard step
          else s
        | none => s

/-- A record object fails: asked for once more, then its record is lost (R255, R258). -/
def State.objectFailed (s : State) (task shard step index : Nat) : State :=
  let s := s.bump Od.restoreLeafDropCount
  match s.restore? task, s.task? task with
  | some r, some t =>
    let here (o : RestoreObj) : Bool := o.shard == shard && o.step == step && o.index == index
    if r.records.any (fun o => here o && !o.again) then
      let s := s.setRestore task (fun r => { r with records := mapIf r.records here (fun o => { o with again := true }) })
      s.vaultAskName 0x63 (objName (s.job t.job).lineage step shard 3 index) (.restoreRecord task shard step index)
    else s.loseRestoreRecord task shard step
  | _, _ => s

/-- A Leaf from the Vault fails: asked for once more, then missing (R255). -/
def State.vaultLeafFailed (s : State) (task i : Nat) : State :=
  let s := s.bump Od.restoreLeafDropCount
  match s.restore? task, s.task? task with
  | some r, some t =>
    match r.wants[i]? with
    | none => s
    | some w =>
      if w.again then s.setWant task i (fun w => { w with status := 3 })
      else (s.setWant task i (fun w => { w with again := true })).askLeaf t i w
  | _, _ => s

/-- The decoder finds no generation for a Leaf from the Vault: its GEN_IMAGE is fetched (R255). -/
def State.wantGeneration (s : State) (task i gen : Nat) : State :=
  let s := s.setWant task i (fun w => { w with status := 4, gen := gen })
  match s.restore? task, s.task? task with
  | some r, some t =>
    let asked := s.vault.reqs.any (fun q => q.owner == .genGet task gen) || (r.recalled.map (·.1)) == some gen
    if asked then s
    else s.vaultAskName 0x63 (objName (s.job t.job).lineage gen 0 4 0) (.genGet task gen)
  | _, _ => s

/-! Roll-forward (R259 to R261) -/

/-- Replay one step of a kernel of a single pass on an element: all roles once the master's capture step is passed, the
moments alone before it (R259). `fmt` gives the format of a role restored. -/
def rollElem (a : KernelArgs) (fmt : Nat → Option Nat) (cap : Nat → Nat → Option Nat) (last : Bool) (n g : Nat)
    (vals : List (Nat × Nat)) : List (Nat × Nat) :=
  let below (role : Nat) : Bool := match cap role n with | some c => decide (c < a.step) | none => false
  let wide (role : Nat) : Nat := match fmt role with | some f => fwiden f (valueAt vals role n) | none => 0
  let o := a.run { g := a.gradient g, p := valueAt vals 1 n, m := wide 2, v := wide 3 }
  let w := a.words (n - a.elemBase)
  let full : Bool := below 1
  let put (l : List (Nat × Nat)) (role v : Nat) : List (Nat × Nat) := assocSet l (valueKey role n) v
  let vals := bif full then put vals 1 o.p else vals
  let vals := match fmt 2 with | some f => if below 2 then put vals 2 (a.moment f o.m w.2.1) else vals | none => vals
  let vals := match fmt 3 with | some f => if below 3 then put vals 3 (a.moment f o.v w.2.2.1) else vals | none => vals
  match fmt 0 with
  | some f => bif full && last then put vals 0 (a.weight f o.p w.1).1 else vals
  | none => vals

/-- Replay one step of ADAFACTOR on a range that is its entry's (R262). -/
def rollAda (a : KernelArgs) (fmt : Nat → Option Nat) (cap : Nat → Nat → Option Nat) (last : Bool) (lo len nrows ncols : Nat)
    (grads : List Nat) (vals : List (Nat × Nat)) : List (Nat × Nat) :=
  let factored := (fmt 6).isSome && (fmt 7).isSome
  let named := (fmt 2).isSome
  let fm := (fmt 2).getD 0
  let fv := (fmt 3).getD 0
  let ns := (List.range len).map (fun i => lo + i)
  let mom (n : Nat) : Nat := if named then fwiden fm (valueAt vals 2 n) else 0
  let xs := (ns.zip grads).map (fun x => ({ g := a.gradient x.2, p := valueAt vals 1 x.1, m := mom x.1, v := 0 } : ElemIn))
  let res := adaRange a ncols factored named fv xs (ns.map (valueAt vals 3)) ((List.range nrows).map (valueAt vals 6))
    ((List.range ncols).map (valueAt vals 7))
  let below (role n : Nat) : Bool := match cap role n with | some c => decide (c < a.step) | none => false
  let put (role : Nat) (l : List (Nat × Nat)) (keep : Nat → Bool) (vals : List (Nat × Nat)) : List (Nat × Nat) :=
    (l.filter (fun x => keep x.1)).foldl (fun vals x => assocSet vals (valueKey role x.1) x.2) vals
  let vals := put 1 (ns.zip res.p) (below 1) vals
  let vals := if named then
      put 2 ((ns.zip res.m).map (fun x => (x.1, a.moment fm x.2 (a.words (x.1 - lo)).2.1))) (below 2) vals
    else vals
  let vals := if (fmt 3).isSome then put 3 (ns.zip res.v) (below 3) vals else vals
  let vals := if factored then
      put 7 ((List.range ncols).zip res.c) (below 7) (put 6 ((List.range nrows).zip res.r) (below 6) vals)
    else vals
  match fmt 0 with
  | some f =>
    if last then put 0 ((ns.zip res.p).map (fun x => (x.1, (a.weight f x.2 (a.words (x.1 - lo)).1).1))) (below 1) vals
    else vals
  | none => vals

/-- An entry that is replayed: its step, its replay fields, its data (R259). -/
structure RollItem where
  step  : Nat
  entry : BitVec 1024
  data  : List Bytes

/-- The chosen Leaf of a role holds an element as it stood before a step. -/
def RestoreRun.below (r : RestoreRun) (step role n : Nat) : Bool :=
  match r.cap role n with | some c => decide (c < step) | none => false

/-- The elements of the range that an entry runs on (R259): an ADAFACTOR entry on all of them. -/
def RestoreRun.runsOn (r : RestoreRun) (t : Task) (x : RollItem) : List Nat :=
  let base := bitsOf x.entry 511 448
  let ns := ((List.range (bitsOf x.entry 447 384)).map (base + ·)).filter (fun n => t.rangeLo ≤ n && n < t.rangeHi)
  if bitsOf x.entry 127 120 == 3 then ns else ns.filter (fun n => [1, 2, 3].any (fun role => r.below x.step role n))

/-- What an entry takes of the lanes: each element once, and once in each pass of ADAFACTOR. -/
def RestoreRun.rollLength (r : RestoreRun) (t : Task) (x : RollItem) : Nat :=
  (if bitsOf x.entry 127 120 == 3 then 3 else 1) * (r.runsOn t x).length

/-- The entries that a restore replays, in step order, shard order and entry order (R259). -/
def RestoreRun.items (r : RestoreRun) (t : Task) : List RollItem :=
  (((r.span t).flatMap (fun x => match r.record x.1 x.2 with
    | some (_, es, _) =>
      (es.filter (fun e => t.replays e.1)).map (fun e => ({ step := x.2, entry := e.1, data := e.2 } : RollItem))
    | none => []))).filter (fun x => r.rollLength t x != 0)

/-- The elements that the next n of an entry's run reach; an ADAFACTOR entry takes effect with the end of its last pass. -/
def RestoreRun.reached (r : RestoreRun) (t : Task) (x : RollItem) (n : Nat) : List Nat :=
  if bitsOf x.entry 127 120 == 3 then (if r.done + n < r.rollLength t x then [] else r.runsOn t x)
  else ((r.runsOn t x).drop r.done).take n

/-- The values after the next n of an entry's run (R259). -/
def State.rollOn (s : State) (t : Task) (r : RestoreRun) (x : RollItem) (n : Nat) : List (Nat × Nat) :=
  let a := entryArgs x.entry (s.job t.job).lineage x.step
  let fmt (role : Nat) : Option Nat := (s.targetHolding t role).map (·.format)
  let last := x.step == t.step
  let ns := r.reached t x n
  if a.kernel == 3 then
    if ns == [] then r.vals
    else
      let nc := max 1 (((s.targetHolding t 7).map (·.count)).getD 1)
      let grads := (List.range t.len).map (fun i => (entryGradient x.entry x.data i).getD 0)
      rollAda a fmt r.cap last t.rangeLo t.len (t.len / nc) nc grads r.vals
  else ns.foldl (fun vals n =>
    if r.leafMissing t n || r.recordMissing t n then vals
    else match entryGradient x.entry x.data (n - a.elemBase) with
      | some g => rollElem a fmt r.cap last n g vals
      | none => vals) r.vals

/-- Elements of the roles restored that stay missing: EF is never missing (R260). An ADAFACTOR range is missing whole. -/
def State.missingElems (s : State) (t : Task) (r : RestoreRun) : List (Nat × Nat) :=
  let ns := (List.range t.len).map (fun i => t.rangeLo + i)
  let bad := ns.filter (fun n => r.leafMissing t n || r.recordMissing t n)
  let ada := (r.replayed t).any (fun e => bitsOf e 127 120 == 3)
  let stats := r.statsMissing s t
  let all := (ada && bad != []) || stats
  let bad := if all then ns else bad
  (t.targetRoles.filter roleGlobal).flatMap (fun role => bad.map (fun n => (role, n))) ++
  (if all then (t.stateRoles.filter (fun x => !roleGlobal x)).flatMap (fun role => (s.roleElems t role).map (fun n => (role, n)))
   else [])

/-- The trailer digest of record T for a target Leaf (R261): mapped through the ELEM_BASE of the entry that names the tensor. -/
def State.trailerDigest (s : State) (t : Task) (r : RestoreRun) (role : Nat) (h : Holding) (leaf : Nat) : Option Nat :=
  let e := leafElems h.width
  let first := s.targetBase t role h + leaf * e
  let count := h.leafBytes leaf / max 1 h.width
  let place := match role with | 0 => 0 | 1 => 1 | 2 => 2 | 3 => 3 | 6 => 4 | _ => 5
  ((r.span t).filter (fun x => x.2 == t.step)).findSome? (fun x =>
    match r.record x.1 x.2 with
    | none => none
    | some (_, es, trailer) =>
      let digs := (trailer.flatMap id)
      let all := (List.range (digs.length / 40)).map (fun k => BitVec.ofNat 320 (beNat ((digs.drop (40 * k)).take 40)))
      (es.map (·.1)).findSome? (fun x =>
        let hid := (unpackFields [16, 16, 16, 16, 16, 16] (bitsOf x 255 160)).getD place 0xFFFF
        let base := if roleGlobal role then bitsOf x 511 448 else 0
        let total := if roleGlobal role then bitsOf x 447 384 else h.count
        if bitsOf x 383 352 != t.f 351 320 || first < base || (first - base) % e != 0 then none
        else
          let l := (first - base) / e
          if min (base + total) (base + (l + 1) * e) != first + count then none
          else (all.find? (fun d => bitsOf d 15 0 == hid && bitsOf d 63 32 == l)).map (fun d => bitsOf d 319 64)))

/-- Bytes per element that a slice of an entry's run reads and writes, and those of its gradient in staging (R259): the
moments alone before the master's capture step, WEIGHT at step T. -/
def State.rollWidths (s : State) (t : Task) (r : RestoreRun) (x : RollItem) : Nat × Nat × Nat :=
  let w (role : Nat) : Nat := ((s.targetHolding t role).map (·.width)).getD 0
  let full := (r.runsOn t x).any (r.below x.step 1)
  let n := w 2 + w 3 + (if full then w 1 else 0)
  let fmt := bitsOf x.entry 159 152
  (n, n + (if full && x.step == t.step then w 0 else 0), if fmt ≤ 2 then formatWidth fmt else 0)

/-- What a slice of n takes of the frame: state read and written, no gradient stream (R259). -/
def State.rollUnits (s : State) (t : Task) (r : RestoreRun) (x : RollItem) (n : Nat) : Units :=
  let (rd, wr, g) := s.rollWidths t r x
  { read := n * rd, write := n * wr, galRead := n * (rd + g), galWrite := n * rd, lanes := n }

/-- The slice that R17 gives the run of an entry out of some units. -/
def State.rollSize (s : State) (t : Task) (r : RestoreRun) (x : RollItem) (u : Units) : Nat :=
  let (rd, wr, g) := s.rollWidths t r x
  let cap (left per n : Nat) : Nat := if per == 0 then n else min n (left / per)
  cap u.galRead (rd + g) (cap u.galWrite rd (cap u.write wr (cap u.read rd (min u.lanes (r.rollLength t x - r.done)))))

/-- Elements of a role that a slice writes. -/
def State.rollWrites (s : State) (t : Task) (r : RestoreRun) (x : RollItem) (n role : Nat) : List Nat :=
  let ns := r.reached t x n
  let gone := s.missingElems t r
  let mine := if roleGlobal role then ns else if ns == [] then [] else s.roleElems t role
  mine.filter (fun k => r.below x.step (if role == 0 then 1 else role) k && (role != 0 || x.step == t.step) &&
    !gone.contains (role, k))

/-- One slice of a roll-forward: the next n of an entry's run, checked by the shadow lanes (R129) and written out. -/
def State.rollSlice (s : State) (t : Task) (r : RestoreRun) (x : RollItem) (n : Nat) : State :=
  let vals := s.rollOn t r x n
  let ends := r.rollLength t x ≤ r.done + n
  let s := s.bumpBy Od.shadowCheckCount (s.shadowCoverage * ceilDiv n 128)
  let s := t.stateRoles.foldl (fun (s : State) role => match s.targetHolding t role with
    | some h => s.writeSlice t.id h ((s.rollWrites t r x n role).map (fun k => (k - s.targetBase t role h, valueAt vals role k)))
    | none => s) s
  let s := match s.targetHolding t 0 with
    | some h => s.writeSlice t.id h ((s.rollWrites t r x n 0).map (fun k => (k - s.targetBase t 0 h, valueAt vals 0 k)))
    | none => s
  s.setRestore t.id (fun r =>
    { r with vals := vals, rolledAt := some s.frame, item := if ends then r.item + 1 else r.item,
             done := if ends then 0 else r.done + n })

/-- The end of a roll-forward (R261): with VERIFY the target Leaves are compared with the trailer of record T. -/
def State.rollEnd (s : State) (t : Task) (r : RestoreRun) : State :=
  let missing := s.missingElems t r
  let roles := (t.targetRoles.filter (fun x => x != 5)).filterMap (fun role =>
    (s.targetHolding t role).map (fun h => (role, h)))
  let elems (role : Nat) (h : Holding) : List (Nat × Nat) :=
    ((s.roleElems t role).filter (fun n => !missing.contains (role, n))).map (fun n =>
      (n - s.targetBase t role h, valueAt r.vals role n))
  let checks := roles.flatMap (fun x => if !bitOf t.record 480 then []
    else ((s.targetLeaves t x.1 x.2).filter (·.2)).filterMap (fun l =>
      let bits := (elems x.1 x.2).filter (fun y => y.1 * x.2.width / 1048576 == l.1)
      match s.trailerDigest t r x.1 x.2 l.1 with
      | some d => if bits.length * x.2.width == x.2.leafBytes l.1 then
          some (x.2.id, l.1, Config.sha3 (elemBytes x.2.width (bits.map (·.2))) % 2 ^ 256 == d) else none
      | none => none))
  let leaves (good : Bool) : List (Nat × Nat) := (checks.filter (fun c => c.2.2 == good)).map (fun c => (c.1, c.2.1))
  let s := s.bumpBy Od.rollfwdDigestMismatchCount (leaves false).length
  let s := s.total Od.rollfwdSteps (t.step + 1 - r.w)
  (s.setRestore t.id (fun r =>
    { r with phase := 5, verified := leaves true, differ := leaves false, missing := missing })).pumpVault t.id 4

/-- ROLL_FORWARD (R259 to R263): of a restore whose chosen Leaves are all written. One slice of a frame is replayed, as the
units of the restore's rank allow; after the last, the roll-forward ends. -/
def execRollForward (task : Nat) (s : State) : Out :=
  .next <|
    match s.restore? task, s.task? task with
    | some r, some t =>
      if r.mirror || r.phase != 4 || s.restoreWriting task then s
      else match s.targetBlocked t with
        | some h => (s.openRange h 0 h.bytes).1
        | none =>
          match (r.items t)[r.item]? with
          | none => s.rollEnd t r
          | some x =>
            let n := s.rollSize t r x (s.unitsFor (.restore task) (s.restoreRank task))
            if r.rolledAt == some s.frame || n == 0 then s
            else match s.takeUnits (.restore task) (s.restoreRank task) (s.rollUnits t r x n) with
              | some s => s.rollSlice t r x n
              | none => s
    | _, _ => s

end Sys2Proof.Machine
end

