-- ==== Sys2Proof/Machine/VaultMsg.lean ====
section
/-!
DEFINITION. The Vault's replies and the tasks that follow them: sealing, deaccession, the fetching of Catalogues, and what
becomes of a request whose every target has been tried (R243, R250 to R252, R258, R393).
-/
namespace Sys2Proof.Machine

/-! CATALOGUE_FETCH (R252) -/

/-- Change a CATALOGUE_FETCH in progress. -/
def State.setFetch (s : State) (task : Nat) (f : FetchRun → FetchRun) : State :=
  s.setVault fun v => { v with fetches := mapIf v.fetches (fun r => r.task == task) f }

/-- Vault requests that belong to a task. -/
def VaultOwner.ofTask (o : VaultOwner) (task : Nat) : Bool :=
  match o with
  | .catalogue t _ => t == task
  | .commit t => t == task
  | .delete t => t == some task
  | .fetchCat t _ => t == task
  | .restoreLeaf t _ => t == task
  | .restoreRecord t _ _ _ => t == task
  | .genPut t _ => t == task
  | .genGet t _ => t == task
  | .object _ => false
  | .stageC _ => false

/-- A task ends: its requests to the Vault and what it has gathered go. -/
def State.dropVaultWork (s : State) (task : Nat) : State :=
  s.setVault fun v =>
    { v with reqs := v.reqs.filter (fun r => !r.owner.ofTask task),
             failed := v.failed.filter (fun x => !x.1.ofTask task),
             fetches := v.fetches.filter (fun r => r.task != task),
             deacc := v.deacc.filter (fun r => r.task != task) }

/-- Ask for a part of a Catalogue. -/
def State.askPart (s : State) (t : Task) (acc part : Nat) (first : Option Nat) : State :=
  s.vaultAskName 0x63 (objName (s.job t.job).lineage acc (t.f 335 320) 2 part) (.fetchCat t.id part) first

/-- CATALOGUE_FETCH (R252): the parts are read one after another. -/
def execCatalogueFetch (task : Nat) (s : State) : Out :=
  .next <| s.whenReady task 0x33 fun s t =>
    let hid := t.f 347 336
    match s.holdingIn t.job hid, s.keyStatus 2 with
    | none, _ => s.complete t 0x0033 hid
    | some _, some (st, d) => s.complete t st d
    | some h, none =>
      if h.kind != 3 then s.complete t 0x3000 hid
      else if s.d2dDown then s.complete t 0x0021
      else
        let run : FetchRun := { task := t.id, acc := t.f 319 256, part := 0, parts := 1, bytes := [], writing := false }
        let s := (s.start t).setVault fun v => { v with fetches := v.fetches ++ [run] }
        s.askPart t run.acc 0 none

/-- A Catalogue is bad (R252). -/
def State.fetchBad (s : State) (task part : Nat) : State :=
  match s.task? task with
  | some t => (s.dropVaultWork task).complete t 0x3008 part
  | none => s.dropVaultWork task

/-- Numbers of k bytes each, most significant first, turned into little-endian bytes (R5). -/
def turnWords (k : Nat) : Nat → Bytes → Bytes
  | 0, _ => []
  | n + 1, bs => (bs.take k).reverse ++ turnWords k n (bs.drop k)

/-- A CATALOGUE_FETCH whose writes are all accepted completes; RESULT holds the bytes (R93, R252). -/
def State.fetchDone (s : State) (t : Task) : State :=
  match s.vault.fetches.find? (fun r => r.task == t.id) with
  | some r =>
    if !r.writing || s.reqOut (fun o => o == .taskWrite t.id) then s
    else if r.long then (s.dropVaultWork t.id).lengthMismatch t 2 r.bytes.length
    else (s.dropVaultWork t.id).complete t 0 0 0 r.bytes.length
  | none => s

/-- The whole Catalogue has been read: it is written to the Holding, as much of it as the Holding from BYTE_OFFSET onward and
DECLARED_LEN have room for (R93, R252, log entry 152). -/
def State.fetchWrite (s : State) (t : Task) (r : FetchRun) : State :=
  match s.holdingIn t.job (t.f 347 336) with
  | none => (s.dropVaultWork t.id).complete t 0x0033 (t.f 347 336)
  | some h =>
    let off := t.f 383 352
    let room := min t.len (h.bytes - off)
    let bs := r.bytes.take room
    let (s, go) := s.openRange h off bs.length
    if !go then s
    else
      let long := decide (room < r.bytes.length)
      let s := s.setFetch t.id (fun r => { r with writing := true, bytes := bs, long := long })
      (s.writeRange (.taskWrite t.id) h off bs).fetchDone t

/-- Catalogues that are complete and wait for an extent are written once it is valid again. -/
def State.pumpFetches (s : State) : State :=
  s.vault.fetches.foldl (fun s r =>
    match s.task? r.task with
    | some t => if r.parts ≤ r.part && !r.writing then s.fetchWrite t r else s
    | none => s) s

/-- A part of a Catalogue has come. -/
def State.partIn (s : State) (task part target : Nat) (plain : Bytes) : State :=
  match s.task? task, s.vault.fetches.find? (fun r => r.task == task) with
  | some t, some r =>
    let h := if part == 0 then beNat (plain.take 128) else leNat (r.bytes.take 128)
    let body := if part == 0 then plain.drop 128 else plain
    let n := body.length / 64
    let room := if part == 0 then 16382 else 16384
    let asked := t.f 319 256
    if (part == 0 && (plain.length < 128 || !catalogueMagic h || natField h 623 608 == 0 ||
          (asked != 0 && natField h 895 832 != asked))) || body.length % 64 != 0 || room < n then s.fetchBad task part
    else
      let text := if part == 0 then (plain.take 128).reverse else []
      let r := { r with acc := natField h 895 832, part := part + 1, parts := natField h 623 608,
                        bytes := r.bytes ++ text ++ turnWords 64 n body }
      let s := s.setFetch task (fun _ => r)
      if r.part < r.parts then s.askPart t r.acc r.part (some target)
      else if r.bytes.length != 128 + 64 * natField h 703 672 then s.fetchBad task part
      else s.fetchWrite t r
  | _, _ => s

/-! DEACCESSION (R251) -/

/-- The next DELETE of a DEACCESSION, or its end: the Leaves, the Catalogue, then the records of each step below
RECORDS_BELOW. -/
def State.deaccNext (s : State) (task : Nat) : State :=
  match s.task? task, s.vault.deacc.find? (fun r => r.task == task) with
  | some t, some r =>
    let l := (s.job t.job).lineage
    let ask (n : BitVec 256) : State := s.vaultAskName 0x66 n (.delete (some task))
    if r.next == 0 then ask (objName l r.acc r.shard 1 0xFFFFFFFF)
    else if r.next == 1 then ask (objName l r.acc r.shard 2 0xFFFFFFFF)
    else if r.next - 2 < r.below then ask (objName l (r.next - 2) r.shard 3 0xFFFFFFFF)
    else
      let s := s.dropVaultWork task
      if r.failed then s.complete t 0x3006
      else
        let s := s.setAcc r.job r.acc (fun a => { a with state := .deaccessioned })
        (s.bump Od.deaccessionCount).complete t 0
  | _, _ => s

/-- One request of a DEACCESSION has ended. -/
def State.deaccStep (s : State) (task : Nat) (failed : Bool) : State :=
  let move (r : DeaccRun) : DeaccRun := { r with next := r.next + 1, failed := r.failed || failed }
  (s.setVault fun v => { v with deacc := mapIf v.deacc (fun r => r.task == task) move }).deaccNext task

/-- DEACCESSION (R251). -/
def execDeaccession (task : Nat) (s : State) : Out :=
  .next <| s.whenReady task 0x32 fun s t =>
    let id := t.f 319 256
    let below := t.f 399 336
    let force := bitOf t.record 400
    let live := ((s.acc? t.job id).map (·.live)) == some true
    let last := id != 0 && (s.record t.job).aLastId == id
    if live || (!force && (last || (s.job t.job).aLast < below)) then s.complete t 0x3007
    else match s.keyStatus 1 with
      | some (st, d) => s.complete t st d
      | none =>
        let run : DeaccRun := { task := t.id, job := t.job.val, acc := id, shard := t.f 335 320, below := below, next := 0,
                                failed := false }
        ((s.start t).setVault fun v => { v with deacc := v.deacc ++ [run] }).deaccNext t.id

/-! Requests that no target answers (R243, R393) -/

/-- The Catalogue check of a job at Stage C has ended (R393). -/
def State.catalogueChecked (s : State) (j : JobId) (ok : Bool) : State :=
  let s := s.setCurator fun c =>
    { c with checking := c.checking.filter (fun x => x != j.val),
             checked := if ok then c.checked ||| 2 ^ j.val else c.checked &&& (15 - 2 ^ j.val) }
  if ok then s else s.countEvent Od.catalogueCheckFailCount j.val

/-- The rule of R243 for a request whose every target has been tried, by what it was for. -/
def State.ownerFailed (s : State) (o : VaultOwner) : State :=
  let sealFails (task : Nat) : State :=
    match s.task? task with
    | some t => (s.dropVaultWork task).complete t 0x3006
    | none => s
  match o with
  | .object e => s.objectLost e
  | .catalogue t _ => sealFails t
  | .commit t => sealFails t
  | .genPut t _ => sealFails t
  | .delete (some t) => s.deaccStep t true
  | .delete none => s
  | .fetchCat t part => s.fetchBad t part
  | .restoreLeaf t i => (s.setWant t i (fun w => { w with status := 3 })).pumpVault t 8
  | .restoreRecord t shard step _ => (s.loseRestoreRecord t shard step).pumpVault t 8
  | .genGet t g =>
    let s := s.setRestore t fun r =>
      { r with wants := mapIf r.wants (fun w => w.status == 4 && w.gen == g) (fun w => { w with status := 3 }) }
    s.pumpVault t 8
  | .stageC j => s.catalogueChecked (jobOf j) false

/-- Tell the owners of requests that have failed, one by one. -/
def State.tellFailed (s : State) : Nat → State
  | 0 => s
  | k + 1 =>
    match s.vault.failed with
    | [] => s
    | (o, _) :: rest => ((s.setVault fun v => { v with failed := rest }).ownerFailed o).tellFailed k

/-- The Vault work of a command is settled: failed requests, then the sealings. -/
def State.settleVault (s : State) : State :=
  (((s.tellFailed 256).sealMoves 4).tellFailed 256).sealMoves 4

/-! ACC_SEAL (R250) -/

/-- ACC_SEAL (R236, R250): the Accession becomes SEALING. -/
def execAccSeal (task : Nat) (s : State) : Out :=
  .next <| s.whenReady task 0x31 fun s t =>
    let id := t.f 319 256
    match (s.acc? t.job id).filter (fun a => a.state == .open_), s.keyStatus 2 with
    | none, _ => s.complete t 0x3001
    | some _, some (st, d) => s.complete t st d
    | some _, none =>
      let s := (s.start t).setAcc t.job.val id (fun a =>
        { a with state := .sealing, sa := t.step, sealRun := some (t.id, 0) })
      s.settleVault

/-! Replies -/

/-- PUT_ACK (R243, R246, R250). -/
def execPutAck (hdr : BitVec 256) (name : BitVec 256) (tagOk : Bool) (s : State) : Out :=
  .next <| s.vaultIn hdr 0x61 0x60 32 name tagOk fun r s =>
    let s := match r.owner with
      | .object e => s.objectAcked e r.target
      | .genPut _ g => s.setVault fun v => { v with genAcked := addOnce v.genAcked (nameLineage r.name, g) }
      | _ => s
    s.settleVault

/-- PUT_NAK (R243): BUSY is sent again, FULL and REJECTED move on at once. -/
def execPutNak (hdr : BitVec 256) (name : BitVec 256) (tagOk : Bool) (s : State) : Out :=
  .next <|
    let reason := bitsOf hdr 191 184
    if reason == 0 || 3 < reason then s.vaultMalformed
    else s.vaultIn hdr 0x62 0x60 32 name tagOk fun r s =>
      (if reason == 2 then s.vaultRetry r else s.vaultMoveOn r).settleVault

/-- A GET has been answered with an object whose tag and stored header are good. -/
def State.objectGot (s : State) (r : VaultReq) (plain : Bytes) : State :=
  match r.owner with
  | .restoreLeaf task i =>
    match (s.restore? task).bind (fun x => x.wants[i]?) with
    | some w => s.quarantineLeaf (.vault task i) plain w.digest
    | none => s
  | .restoreRecord task shard step index => ((s.objectIn task shard step index plain).tookSince s).pumpVault task 8
  | .genGet task gen => (s.setRestore task (fun x => { x with recalled := some (gen, plain) })).pumpVault task 8
  | .fetchCat task part => s.partIn task part r.target plain
  | .stageC j =>
    let rec_ := s.record (jobOf j)
    let h := beNat (plain.take 128)
    s.catalogueChecked (jobOf j) (128 ≤ plain.length && catalogueMagic h && natField h 895 832 == rec_.aLastId &&
      natField h 831 768 == rec_.aLast && natField h 639 624 == rec_.shard)
  | _ => s

/-- A GET has been answered with an object that fails its tag or its stored header (R252, R255, R393). -/
def State.objectBad (s : State) (r : VaultReq) : State :=
  match r.owner with
  | .restoreLeaf task i => (s.vaultLeafFailed task i).pumpVault task 8
  | .restoreRecord task shard step index => (s.objectFailed task shard step index).pumpVault task 8
  | .fetchCat task part => s.fetchBad task part
  | o => s.ownerFailed o

/-- The name that a reply to a GET must carry: a GET of the newest Catalogue, NUMBER 0, takes the NUMBER of the answer. -/
def replyName (asked got : BitVec 256) : BitVec 256 :=
  if nameKind asked == 2 && nameNumber asked == 0 then
    if objName (nameLineage got) 0 (nameShard got) (nameKind got) (nameIndex got) == asked then asked
    else got
  else got

/-- An arriving object has room: a Leaf in QUARANTINE, a record object in the own part (R190, R258). -/
def State.objectRoom (s : State) (r : VaultReq) (n : Nat) : Bool :=
  match r.owner with
  | .restoreLeaf _ _ => decide (unitsOf (n + 16) ≤ s.quarantineFree)
  | .restoreRecord _ _ _ _ => decide (unitsOf n ≤ s.ownFree)
  | _ => true

/-- GET_DATA (R258, R252, R255, R393). Without room the message waits for credit. -/
def execGetData (hdr : BitVec 256) (stored : BitVec 512) (plain : Bytes) (tagOk objectTagOk : Bool) (s : State) : Out :=
  .next <|
    let got := BitVec.ofNat 256 (bitsOf stored 511 256)
    match s.vault.reqs.find? (fun r => r.id == bitsOf hdr 255 192) with
    | none => s.vaultMalformed
    | some q =>
      if !s.objectRoom q plain.length then s.waitSpace
      else s.vaultIn hdr 0x64 0x63 (64 + plain.length + 16) (replyName q.name got) tagOk fun r s =>
        if objectTagOk && storedOk stored got plain.length then (s.objectGot r plain).settleVault
        else ((if objectTagOk then s else s.tagFail).objectBad r).settleVault

/-- GET_NAK (R243, R258): ABSENT ends the read. -/
def execGetNak (hdr : BitVec 256) (name : BitVec 256) (tagOk : Bool) (s : State) : Out :=
  .next <|
    let reason := bitsOf hdr 191 184
    if reason == 0 || 3 < reason then s.vaultMalformed
    else s.vaultIn hdr 0x65 0x63 32 name tagOk fun r s =>
      (if reason == 1 then s.ownerFailed r.owner else if reason == 2 then s.vaultRetry r else s.vaultMoveOn r).settleVault

/-- DELETE_ACK (R251). -/
def execDeleteAck (hdr : BitVec 256) (name : BitVec 256) (tagOk : Bool) (s : State) : Out :=
  .next <| s.vaultIn hdr 0x67 0x66 32 name tagOk fun r s =>
    match r.owner with
    | .delete (some t) => (s.deaccStep t false).settleVault
    | _ => s

/-- COMMIT_ACK (R250). -/
def execCommitAck (hdr : BitVec 256) (name : BitVec 256) (tagOk : Bool) (s : State) : Out :=
  .next <| s.vaultIn hdr 0x69 0x68 32 name tagOk fun r s =>
    match r.owner with
    | .commit task =>
      match s.vault.accs.find? (fun a => a.sealRun == some (task, 3)) with
      | some a => (s.sealDone a task r.target).settleVault
      | none => s
    | _ => s

/-- VAULT_REPLY_TIMEOUT (R243, R480). -/
def execVaultReplyTimeout (reqId : BitVec 64) (s : State) : Out :=
  .next <|
    match s.vault.reqs.find? (fun r => r.id == reqId.toNat) with
    | some r => if s.lapsed r.frame (s.cfg Od.vaultReplyFrames) then (s.vaultRetry r).settleVault else s
    | none => s

end Sys2Proof.Machine
end

