-- ==== Sys2Proof/Machine/Drop.lean ====
section
/-!
DEFINITION. What is lost when memory is: poisoned reads (03 R66), the drop rules of the Gallery's regions (08 R193 to R202),
the scrubber (R195), and the remap engines (R196 to R199).
-/
namespace Sys2Proof.Machine

/-! The end of a lane task -/

/-- The key under which a task's run-in keeps what it has written (R127). -/
def runKey (task : Nat) : Nat := task + 2 ^ 64

/-- What a lane task holds goes with it: buffers, requests, sums, the phase of a compression. -/
def State.clearLane (s : State) (t : Task) : State :=
  let s := ((s.endIo t.id).dropLaneWork t.id).dropLaneWork (runKey t.id)
  let s := s.dropReqs fun o => match o with
    | .sliceWrite k => k == runKey t.id
    | _ => false
  let s := s.setDirty fun l => l.filter (fun d => d.key != t.id && d.key != runKey t.id)
  s.setWoad fun w => { w with runs := w.runs.filter (fun r => r.task != t.id), pieces := w.pieces.filter (fun p => p.1 != t.id) }

/-- The residency of a task that ends (R151): Q of a phase that fails goes; Q̂ stays from PHASE 1 to the end of the UPDATE
that names it. -/
def State.endResidency (s : State) (t : Task) (ok : Bool) : State :=
  match s.cacheKey t with
  | none => s
  | some key =>
    if t.type == 0x12 && ok then
      if t.wPhase == 1 then s.setResidency key (fun r => { r with complete := true, snapshot := none })
      else s.setResidency key (fun r => { r with snapshot := none })
    else s.closeResidency key

/-- A lane task (UPDATE, WOAD_COMPRESS, MIRROR_APPLY) ends. -/
def State.endLane (s : State) (t : Task) (status detail detail2 result : Nat) : State :=
  let s := (s.endResidency t (status == 0)).clearLane t
  let s := if t.type == 0x12 then s.endPhase t (status == 0) else s
  s.complete t status detail detail2 result

/-! Poisoned reads (03 R66) -/

/-- The elements that a Leaf of a Holding holds: first and end. -/
def leafElemRange (h : Holding) (leaf : Nat) : Nat × Nat :=
  (leaf * leafElems h.width, min ((leaf + 1) * leafElems h.width) h.count)

/-- Elements of a Leaf that a task has read are poisoned (R66): they are not issued, the fingerprint of the step is bad, and
the task ends with MEM_POISON naming the first such Leaf. -/
def State.poisonLeaf (s : State) (t : Task) (hid leaf : Nat) (ranges : List (Nat × Nat)) : State :=
  let s := s.bump Od.memPoisonCount
  let s := s.setUpdate fun u =>
    { u with streams := mapIf u.streams (fun b => b.task == t.id && b.holding == hid && b.leaf == leaf)
               (fun b => { b with poison := b.poison ++ ranges }) }
  let s := s.setTask t.id (fun t => { t with failWith := some (t.failWith.getD (0x0023, hid, leaf)) })
  let s := if t.type == 0x11 || t.type == 0x12 then
      s.addFault t.job.val t.step (fun x => { x with poison := x.poison + 1 })
    else s
  if t.type != 0x16 then s
  else match s.holding? hid, (s.weld t.job).binds.find? (fun b => b.1 == hid) with
    | some h, some b =>
      let spans := (s.weld t.job).inGroups.flatMap (fun g =>
        if g.hids.contains b.2 then (leafSpans g b.2 leaf h.width).map (fun i => (g.master, i)) else [])
      (spans.foldl (fun (s : State) (x : Nat × Nat) => s.markStale t.job x.1 [x.2] t.step) s).askCopies t.job spans
    | _, _ => s

/-- An MRD_CPL returns POISON for a Leaf of a lane task. -/
def State.poisonRead (s : State) (t : Task) (hid leaf : Nat) : State :=
  match s.holding? hid with
  | some h => s.poisonLeaf t hid leaf [leafElemRange h leaf]
  | none => s

/-! The drop rules of Table 08-4 (R202) -/

/-- First element that no frame of the task has issued: those of slices rolled back count, and those of a run-in (R202). -/
def Task.issued (t : Task) : Nat :=
  max t.high (match t.slice with
    | some x => if t.runIn == 0 then t.done + x.issued else t.done + x.size + t.runIn
    | none => t.done + t.runIn)

/-- A Holding whose elements are not those of the task: factors and statistics. They count as issued once any element of the
task has been (log entry 62). -/
def Task.apart (t : Task) (hid : Nat) : Bool :=
  if t.type == 0x12 then hid == t.wFactor
  else (t.gradSrc == 1 && hid == t.roleHid 4) || hid == t.roleHid 6 || hid == t.roleHid 7

/-- The granule of a stream buffer holds an uncorrectable word. `row` is the Gallery address of the word, when its row moves. -/
def State.dropStream (s : State) (t : Task) (hid addr : Nat) (row : Option (BitVec 35)) : State :=
  let inBlock (a : Nat) : Bool := a / 256 == addr / 256
  match s.holding? hid, s.update.streams.find? (fun b =>
      b.task == t.id && b.holding == hid && b.cells.any (fun c => inBlock c.1)) with
  | some h, some b =>
    let (lo, hi) := leafElemRange h b.leaf
    let es := (List.range (hi - lo)).filter (fun k => ((h.addrOf (lo + k)).1.map inBlock).getD false)
    let es := es.map (· + lo)
    let issued (e : Nat) : Bool := if t.apart hid then decide (0 < t.issued) else decide (e < t.issued)
    if es.any issued || 1 < t.pass then
      let left := es.filter (fun e => !issued e)
      s.poisonLeaf t hid b.leaf (left.map (fun e => (e, e + 1)))
    else
      let s := s.setUpdate fun u =>
        { u with streams := mapIf u.streams (fun x => x.task == t.id && x.holding == hid && x.leaf == b.leaf)
                   (fun x => { x with cells := x.cells.filter (fun c => !inBlock c.1), waiting := x.waiting + 1 }) }
      let block := addr / 256 * 256
      let s := if row.isSome then s.faultFor t.id .row else s.faultSlice t.id false
      match row with
      | some a => s.setRemap (galChannel a) (galRow a) (fun j =>
          { j with refetch := j.refetch ++
              [{ task := t.id, holding := hid, leaf := b.leaf, addr := block, granule := a.toNat / 256 }] })
      | none =>
        let e := es.head?.map (fun e => (hid, (h.addrOf e).2))
        s.mrd (.sliceRead t.id hid b.leaf) block 4 e (s.holdingSecure h)
  | _, _ => s

/-- The granules that a row's remap has held up are fetched again; the fresh words replace the poison (R194). -/
def State.refetch (s : State) (l : List Refetch) : State :=
  l.foldl (fun (s : State) x =>
    match s.holding? x.holding with
    | some h =>
      if (s.task? x.task).isSome then
        (s.mrd (.sliceRead x.task x.holding x.leaf) x.addr 4 none (s.holdingSecure h)).setGallery fun g =>
          { g with poisoned := g.poisoned.filter (fun a => a / 256 != x.granule) }
      else s
    | none => s) s

/-- Own staging whose source has been written since, or is gone: the record is lost (R202, R220). -/
def State.loseOwn (s : State) (j : JobId) (step : Nat) : State :=
  match s.out? j step with
  | none => s
  | some r =>
    let s := (s.bump Od.ueDropCount).bump Od.recordLostCount
    let task := s.ledgerTask j step
    let s := s.setOut j step (fun r =>
      { r with acked := true, ended := true, staged := if r.toVault then r.staged else [] })
    let s := s.setWeld j fun w => { w with outStale := some (w.outStale.getD step) }
    let s := if r.toVault && !r.moved then s.loseVaultRecord j step else s
    match task with
    | some t => s.complete t 0x2004 4 step
    | none => s

/-- The granule of own staging is read again from the Holding that it was staged from. -/
def State.stageAgain (s : State) (j : JobId) (step hid addr : Nat) : State :=
  match s.holding? hid with
  | some h => (s.event Od.galleryUeCount j.val step).mrd (.stageRead j.val step) (addr / 256 * 256) 4 none (s.holdingSecure h)
  | none => s.loseOwn j step

/-- The drop rule of the object that an uncorrectable word lies in (Table 08-4). -/
def State.dropVictim (s : State) (v : UeVictim) (row : Option (BitVec 35)) : State :=
  match v with
  | .unused | .system => s
  | .stream task hid addr =>
    match s.task? task with
    | some t => s.dropStream t hid.toNat addr.toNat row
    | none => s
  | .stats task both =>
    match s.task? task with
    | some t =>
      if both then
        (s.addFault t.job.val t.step (fun x => { x with poison := x.poison + 1 })).endLane t 0x0023 0xFFFF 0 t.done
      else s.faultSlice task false
    | none => s
  | .ledgerOwn j step source =>
    if (s.out? j step.toNat).isNone then s
    else match source with
      | some (hid, addr) => s.stageAgain j step.toNat hid.toNat addr.toNat
      | none => s.loseOwn j step.toNat
  | .ledgerPartner j step =>
    if (s.weld j).inRecords.any (fun r => r.step == step.toNat) then (s.bump Od.ueDropCount).loseRecord j step.toNat 4 else s
  | .quarantine leaf =>
    match s.vault.quarantine.find? (fun q => q.id == leaf) with
    | none => s
    | some q =>
      let s := (s.bump Od.ueDropCount).setVault fun v => { v with quarantine := v.quarantine.filter (fun x => x.id != leaf) }
      match q.owner with
      | .vault task i => (s.vaultLeafFailed task i).pumpVault task 8
      | o => s.leafFailed o
  | .egress obj =>
    if s.vault.egress.any (fun e => e.id == obj) then (s.bump Od.ueDropCount).objectLost obj else s

/-- A word that is uncorrectable on re-read (R193): a storage error, whose row moves. -/
def State.storageError (s : State) (addr : BitVec 35) (v : UeVictim) : State :=
  let s := (s.bump Od.galleryUeCount).scored (partId 8 (galChannel addr)) 16
  ((s.queueRemap (galChannel addr) (galRow addr) [addr.toNat]).dropVictim v (some addr)).settleVault

/-- A poisoned word is read (R194): counted once, and dropped under its region's rule. -/
def State.poisonedWord (s : State) (addr : BitVec 35) (v : UeVictim) : State :=
  let s := if s.gallery.poisoned.contains addr.toNat then
      (s.bump Od.poisonReadCount).setGallery fun g => { g with poisoned := g.poisoned.erase addr.toNat }
    else s
  (s.dropVictim v none).settleVault

/-- A consumer's check of a word, and the re-read of one that it cannot correct (R192 to R194). A correction in flight counts
for the datapath, and one on the re-read for the array (log entry 161). -/
def State.badWord (s : State) (addr : BitVec 35) (reads : WordReads) (v : UeVictim) : State :=
  if s.gallery.poisoned.contains addr.toNat then s.poisonedWord addr v
  else match checkWord reads.first with
    | .clean => s
    | .corrected => s.total Od.datapathCeCount 1
    | .poisoned => s.poisonedWord addr v
    | .bad =>
      match checkWord reads.again with
      | .clean => s.bump Od.datapathUeCount
      | .corrected => (s.bump Od.datapathUeCount).total Od.galleryCeCount 1
      | .poisoned => s.poisonedWord addr v
      | .bad => s.storageError addr v

/-- GALLERY_UE (R193). -/
def execGalleryUe (addr : BitVec 35) (reads : WordReads) (victim : UeVictim) (s : State) : Out :=
  .next <| if !s.mainUp then s else s.badWord addr reads victim

/-- Data rows of the Gallery: 128 channels of 32,768. -/
def galleryRows : Nat := 4194304

/-- A word of the visited row with a single-bit error: corrected, written back and counted (R195). -/
def State.scrubWord (s : State) (channel row : Nat) (word : BitVec 11) (read : BitVec 39) : State :=
  if !s.gallery.poisoned.contains (wordAddr channel row word.toNat).toNat && checkWord read == .corrected then
    (s.total Od.galleryCeCount 1).trackRow channel row 1
  else s

/-- The words of the visited row that do not read clean: those corrected, and those handed on as a consumer's (R195). -/
def State.scrubWords (s : State) (channel row : Nat) (corrected : List (BitVec 11 × BitVec 39)) (bad : List ScrubFault) : State :=
  bad.foldl (fun s x => s.badWord (wordAddr channel row x.word.toNat) x.reads x.victim)
    (corrected.foldl (fun s x => s.scrubWord channel row x.1 x.2) s)

/-- SCRUB_ROW (R195): the next row, when SCRUB_FRAMES_PER_ROW frames have passed since the last. -/
def execScrubRow (corrected : List (BitVec 11 × BitVec 39)) (bad : List ScrubFault) (s : State) : Out :=
  .next <|
    if !s.mainUp || !s.opticsOn || s.frame < s.gallery.scrubFrame then s
    else
      let channel := s.gallery.scrubAt / 32768
      let row := s.gallery.scrubAt % 32768
      let next := (s.gallery.scrubAt + 1) % galleryRows
      let s := s.scrubWords channel row corrected bad
      let s := s.setGallery fun g => { g with scrubAt := next, scrubFrame := s.frame + s.cfg Od.scrubFramesPerRow }
      if next == 0 then s.bump Od.scrubPassCount else s

/-- A Gallery address moved to another slot. -/
def toSlot (slot a : Nat) : Nat := a % 2 ^ 20 + slot * 2 ^ 20

/-- A row whose bank has no secondary spare left: its slot is retired (R199), and its contents, words that cannot be corrected
poisoned, move to a free slot when there is one. -/
def State.retireSlot (s : State) (j : RemapJob) (region : Nat) (objects : List UeVictim) (slot : Nat) : State :=
  let spareSlot := decide (0 < s.unassigned)
  let room := decide (s.regionUsed.getD region 0 + 256 ≤ s.regionUnits region)
  let s := s.bump Od.slotRetireCount
  let s := if spareSlot || room then
      s.setGallery fun g => { g with poisoned := (g.poisoned ++ j.bad.map (toSlot slot)).eraseDups }
    else objects.foldl (fun (s : State) v => s.dropVictim v none) s
  let s := if spareSlot then s else s.shrinkRegion region
  let s := s.setGallery fun g => { g with slotsRetired := addOnce g.slotsRetired j.row }
  let s := s.recordRemap 3 j.channel j.row 0
  let s := (s.scored (partId 8 j.channel) 64).event Od.slotRetireCount j.row j.channel
  ((s.dropRemap j.channel j.row).refetch
    (j.refetch.map (fun x => { x with granule := toSlot slot (x.granule * 256) / 256 }))).settleVault

/-- ROW_REMAP (R197 to R199): one frame of the remap engine of a die, on the row that has waited longest. -/
def execRowRemap (die : BitVec 2) (readback : Bool) (region : BitVec 3) (contents : SlotContents)
    (s : State) : Out :=
  .next <|
    match s.gallery.remaps.find? (fun j => j.channel / 32 == die.toNat) with
    | none => s
    | some j =>
      if !s.mainUp || !s.opticsOn || s.frame ≤ j.since || j.stage == 2 then s
      else if j.stage == 1 then (s.writeRemap j).refetch j.refetch
      else
        let (p, q) := spareOf s.gallery.spareNext j.channel
        if p < 656 && !j.again then s.copyRow j false p readback
        else if q < 64 then s.copyRow j true q readback
        else s.retireSlot j region.toNat contents.objects contents.slot.toNat

end Sys2Proof.Machine
end

