-- ==== Sys2Proof/Machine/Collective.lean ====
section
/-!
DEFINITION. Verdicts and collectives (chapter 11): posting, the ring with its switches, decisions, aborts and commits, the
messages received, groups, and the fingerprint.
-/
namespace Sys2Proof.Machine

/-! Elements and arithmetic (R280, R282, R283) -/

/-- Bytes of an element of a DTYPE. -/
def dtypeWidth (dt : Nat) : Nat := if dt == 0 then 4 else if dt ≤ 2 then 2 else 8

/-- Bytes of an element as it travels: MINMAX travels as a pair. -/
def elemSize (op dt : Nat) : Nat := dtypeWidth dt * (if op == 3 then 2 else 1)

/-- Elements of a piece of 4,096 bytes. -/
def perPiece (op dt : Nat) : Nat := 4096 / elemSize op dt

/-- Pieces of a value of n elements. -/
def pieceCount (op dt n : Nat) : Nat := max 1 (ceilDiv n (perPiece op dt))

/-- A value cut into pieces: index and elements. -/
def cutPieces (op dt : Nat) (es : List (Nat × Nat)) : List (Nat × List (Nat × Nat)) :=
  (List.range (pieceCount op dt es.length)).map fun i => (i, (es.drop (i * perPiece op dt)).take (perPiece op dt))

/-- Elements as the bytes of a message (R5), and back. -/
def pieceBytes (op dt : Nat) (es : List (Nat × Nat)) : Bytes :=
  es.flatMap fun e => beBytes (dtypeWidth dt) e.1 ++ (if op == 3 then beBytes (dtypeWidth dt) e.2 else [])

def pieceElems (op dt : Nat) (bs : Bytes) : List (Nat × Nat) :=
  let w := dtypeWidth dt
  (List.range (bs.length / elemSize op dt)).map fun i =>
    let p := bs.drop (i * elemSize op dt)
    let a := beNat (p.take w)
    (a, if op == 3 then beNat ((p.drop w).take w) else a)

/-- Canonical NaN of a format. -/
def canonNan (fmt : Nat) : Nat := if fmt == 0 then f32Nan else narrowNan fmt

/-- One IEEE addition in a format, rounded to nearest with ties to even (R283). -/
def formatAdd (fmt a b : Nat) : Nat :=
  let f := fpFormat fmt
  match f.decode a, f.decode b with
  | .nan, _ => canonNan fmt
  | _, .nan => canonNan fmt
  | .inf x, .inf y => if x == y then f.infinity x else canonNan fmt
  | .inf x, .fin _ _ => f.infinity x
  | .fin _ _, .inf y => f.infinity y
  | .fin x m, .fin y n =>
    let v := signedMag x m + signedMag y n
    if v == 0 then f.sign (x && y) else f.encode (decide (v < 0)) v.natAbs 1

/-- a is below b in a DTYPE. -/
def dtypeBelow (dt a b : Nat) : Bool :=
  if dt ≤ 2 then fbelow (fwiden dt a) (fwiden dt b)
  else if dt == 3 then decide (a < b) else decide (signed 64 a < signed 64 b)

/-- MIN (or MAX) of two values of a DTYPE (R109, R283). -/
def dtypeExtreme (dt : Nat) (largest : Bool) (a b : Nat) : Nat :=
  if dt ≤ 2 && (fisNan (fwiden dt a) || fisNan (fwiden dt b)) then canonNan dt
  else if dtypeBelow dt a b != largest then a else b

/-- SUM of two values of a DTYPE. -/
def dtypeSum (dt a b : Nat) : Nat := if dt ≤ 2 then formatAdd dt a b else (a + b) % 2 ^ 64

/-- One operation of a reduction, the incoming value on the left. -/
def combine (op dt : Nat) (a b : Nat × Nat) : Nat × Nat :=
  match op with
  | 0 => (dtypeSum dt a.1 b.1, dtypeSum dt a.1 b.1)
  | 1 => (dtypeExtreme dt false a.1 b.1, dtypeExtreme dt false a.1 b.1)
  | 2 => (dtypeExtreme dt true a.1 b.1, dtypeExtreme dt true a.1 b.1)
  | _ => (dtypeExtreme dt false a.1 b.1, dtypeExtreme dt true a.2 b.2)

/-- Infinity of a floating-point DTYPE. -/
def dtypeInf (dt : Nat) (neg : Bool) : Nat := (fpFormat dt).infinity neg

/-- The identity of an operation (R282). -/
def identity (op dt : Nat) : Nat × Nat :=
  let largest := if dt ≤ 2 then dtypeInf dt false else if dt == 3 then 2 ^ 64 - 1 else 2 ^ 63 - 1
  let smallest := if dt ≤ 2 then dtypeInf dt true else if dt == 3 then 0 else 2 ^ 63
  match op with
  | 0 => if dt ≤ 2 then ((fpFormat dt).sign true, (fpFormat dt).sign true) else (0, 0)
  | 1 => (largest, largest)
  | 2 => (smallest, smallest)
  | _ => (largest, smallest)

/-! The fingerprint (R270, R271) -/

/-- Whether this engine may contribute to the verdict of a step (R21): the partner has acknowledged its record, or there is
no partner. -/
def State.mayContribute (s : State) (j : JobId) (step : Nat) : Bool :=
  (s.weld j).state != .paired || ((s.out? j step).map (·.acked)).getD true

/-- The sixteen lanes (Table 11-1). -/
def State.fingerprint (s : State) (t : Task) (seqCancelled : Bool) : List Nat :=
  let j := t.job
  let l := (s.job j).lineage
  let f := (s.colls.faults.find? (fun x => x.job == j.val && x.step == t.step)).getD ⟨j.val, t.step, 0, 0, 0, 0, 0⟩
  let fold := (s.stepDigests j t.step).foldl (fun (x : Nat) d => x ^^^ (d.digest % 2 ^ 64)) 0
  let sat (n : Nat) : Nat := min n (2 ^ 64 - 1)
  [t.step, (l % 2 ^ 64) ^^^ (l / 2 ^ 64 % 2 ^ 64), (assoc s.colls.priorV t.id).getD (s.job j).v, sat f.nonfinite, sat f.poison,
    sat f.length, if seqCancelled then max 1 (sat f.cancelled) else sat f.cancelled, sat f.failed, t.f 272 272, fold, s.kver, 0,
    t.f 383 320, t.f 447 384, t.f 511 448, t.f 575 512]

/-- Lanes that must be equal, and lanes that must be 0. -/
def eqLanes : List Nat := [0, 1, 2, 11, 12, 13]
def maxLanes : List Nat := [3, 4, 5, 6, 7, 8, 14, 15]

/-- The lowest failing lane of a reduced fingerprint; none for GOOD (R271). -/
def failingLane (es : List (Nat × Nat)) : Option Nat :=
  (List.range 16).find? fun k =>
    let e := es.getD k (0, 0)
    (eqLanes.contains k && e.1 != e.2) || (maxLanes.contains k && e.2 != 0)

/-! The ring (R275, R276), its switches (R290), the count exchange (R282) -/

/-- Operation and DTYPE of a phase: the count exchange is a MINMAX of U64. -/
def Coll.phaseOp (c : Coll) (phase : Nat) : Nat × Nat := if phase == 0 then (3, 3) else (c.op, c.dtype)

/-- The piece of a phase. -/
def Coll.part? (c : Coll) (phase index : Nat) : Option CollPart :=
  c.parts.find? (fun p => p.phase == phase && p.index == index)

/-- Change a piece. -/
def State.setPart (s : State) (c : Coll) (phase index : Nat) (f : CollPart → CollPart) : State :=
  s.setColl c.group c.seq fun c =>
    { c with parts := mapIf c.parts (fun p => p.phase == phase && p.index == index) f }

/-- Send one partial to a position. -/
def State.sendPart (s : State) (c : Coll) (g : Group) (dst : Nat) (type : Nat) (p : CollPart) (es : List (Nat × Nat)) : State :=
  let (op, dt) := c.phaseOp p.phase
  s.collSend c g dst { type := type, src := s.engineId, event := s.frame, phase := p.phase, axis := p.axis, piece := p.index,
                       count := c.countNow, payload := pieceBytes op dt es }

/-- The engine can be reached on no port. -/
def State.cutOff (s : State) (dst : Nat) : Bool := (s.binding? dst 1).isNone && (s.choosePort dst 1).isNone

/-- The next member of a ring, when it can be reached: the piece goes on; otherwise the collective is aborted (R286). -/
def State.passPart (s : State) (c : Coll) (g : Group) (next : Nat) (p : CollPart) (es : List (Nat × Nat)) : State :=
  let dst := g.member next
  let s := s.setPart c p.phase p.index (fun p => { p with ended := true, elems := es, switch := none })
  if s.cutOff dst then s.abortColl c 3
  else s.sendPart c g dst 1 p es

/-- A line is reduced in a switch (R290). -/
def State.viaSwitch (s : State) (c : Coll) (p : CollPart) : Bool :=
  p.phase == 1 && c.op == 3 && !p.ring && s.cfg (Od.switchReduceId p.axis) != 0

/-- Move a piece as far as what has arrived allows. While a line's answer from its switch is awaited, its last position takes
the complete result of the ring if that reaches it first (R290). -/
def State.movePart (s : State) (group seq phase index : Nat) : Nat → State
  | 0 => s
  | k + 1 =>
    match s.coll? group seq, s.group? group with
    | some c, some g =>
      match c.part? phase index with
      | none => s
      | some p =>
        if p.ended then s
        else match (g.own' c.root)[p.axis]? with
          | none => s.setPart c phase index (fun p => { p with ended := true })
          | some (a, v) =>
            let ch := g.chain c.root a v
            let i := ch.idxOf g.own
            let last := ch.getLast? == some g.own
            let up (s : State) (es : List (Nat × Nat)) : State :=
              State.movePart (s.setPart c phase index (fun p =>
                { p with axis := p.axis + 1, elems := es, switch := none, ring := false })) group seq phase index k
            if ch.length ≤ 1 then up s p.elems
            else if s.viaSwitch c p then
              let s := if p.switch.isSome then s
                else
                  let s := s.setPart c phase index (fun p => { p with switch := some s.frame })
                  s.sendPart c g (s.cfg (Od.switchReduceId p.axis)) 5 p p.elems
              match c.held.find? (fun h => last && h.1 == phase && h.2.1 == a && h.2.2.1 == index) with
              | none => s
              | some h =>
                up (s.setColl group seq (fun c => { c with held := c.held.erase h }))
                  (List.zipWith (combine 3 c.dtype) h.2.2.2 p.elems)
            else if i == 0 then s.passPart c g ((nextIn ch g.own).getD g.own) p p.elems
            else match c.held.find? (fun h => h.1 == phase && h.2.1 == a && h.2.2.1 == index) with
              | none => s
              | some h =>
                let (op, dt) := c.phaseOp phase
                let es := List.zipWith (combine op dt) h.2.2.2 p.elems
                let s := s.setColl group seq (fun c => { c with held := c.held.erase h })
                if last then up s es else s.passPart c g ((nextIn ch g.own).getD g.own) p es
    | _, _ => s

/-- Move every piece of a phase. -/
def State.moveParts (s : State) (group seq phase : Nat) : State :=
  match s.coll? group seq with
  | none => s
  | some c => (c.parts.filter (fun p => p.phase == phase)).foldl (fun s p => s.movePart group seq phase p.index 6) s

/-- Every piece of a phase has passed every axis at this member, which is the root's. -/
def Coll.whole (c : Coll) (g : Group) (phase : Nat) : Bool :=
  let ps := c.parts.filter (fun p => p.phase == phase)
  !ps.isEmpty && ps.all (fun p => p.ended && g.axes ≤ p.axis)

/-- The value of a phase at the root. -/
def Coll.value (c : Coll) (phase : Nat) : List (Nat × Nat) :=
  ((sortBy (fun (p : CollPart) => p.index) (c.parts.filter (fun p => p.phase == phase))).map (·.elems)).flatten

/-- The agreed count is known here: it goes on, and the reduction begins. -/
def State.agree (s : State) (c : Coll) (g : Group) (lo hi : Nat) : State :=
  let s := s.setColl c.group c.seq fun c => { c with agreed := some hi }
  s.collFlood { c with agreed := some hi } g
    { type := 1, src := s.engineId, event := s.frame, count := hi, payload := pieceBytes 3 3 [(lo, hi)] }

/-- The reduction begins once the count is agreed and the own contribution is there. -/
def State.beginReduce (s : State) (group seq : Nat) : State :=
  match s.coll? group seq with
  | none => s
  | some c =>
    match c.own with
    | none => s
    | some own =>
      if c.kind == 2 || (c.exchange && c.agreed.isNone) || c.parts.any (fun p => p.phase == 1) then s
      else
        let n := c.countNow
        let es := own.take n ++ List.replicate (n - own.length) (identity c.op c.dtype)
        let ps : List CollPart := (cutPieces c.op c.dtype es).map (fun p => { phase := 1, index := p.1, elems := p.2 })
        s.setColl group seq fun c => { c with parts := c.parts ++ ps }

/-- The output of a broadcast at the root: its contribution, padded to the agreed count (R282). -/
def Coll.broadcastValue (c : Coll) : List (Nat × Nat) :=
  let own := c.own.getD []
  own.take c.countNow ++ List.replicate (c.countNow - own.length) (identity c.op c.dtype)

/-- Send the pieces of the output down the tree (R277). -/
def State.sendOut (s : State) (c : Coll) (g : Group) (ps : List (Nat × List (Nat × Nat))) : State :=
  (g.treeNext c.root).foldl (fun s v => ps.foldl (fun s p =>
    s.collSend c g (g.member v) { type := 1, src := s.engineId, event := s.frame, phase := 2, piece := p.1, count := c.countNow,
                                  payload := pieceBytes c.op c.dtype p.2 }) s) s

/-- The root decides once it holds the complete result, no later than its effective deadline (R287). -/
def State.decide_ (s : State) (group seq : Nat) : State :=
  match s.coll? group seq, s.group? group with
  | some c, some g =>
    let ready := if c.kind == 2 then c.own.isSome && (!c.exchange || c.agreed.isSome) else c.whole g 1
    if !g.isRoot c.root || c.result.isSome || c.committed || !ready || c.deadline < s.frame then s
    else
      let es := if c.kind == 2 then c.broadcastValue else c.value 1
      let reason := if c.kind == 0 then ((failingLane es).map (· + 1)).getD 0 else 0
      let payload := if c.kind == 0 then pieceBytes 3 3 es else []
      let r : HeldResult := { frame := s.frame, reason := reason, payload := payload }
      let ps := cutPieces c.op c.dtype es
      let s := s.setColl group seq fun c => { c with result := some r, out := ps }
      let s := s.collFlood c g { type := 8, src := s.engineId, reason := reason, event := s.frame, count := c.countNow,
                                 payload := payload }
      if 2 ≤ c.kind then s.sendOut c g ps else s
  | _, _ => s

/-- An earlier collective of the group has no outcome committed yet: this one waits its turn (R274). -/
def State.collWaits (s : State) (group seq : Nat) : Bool :=
  s.colls.open_.any (fun c => c.group == group && c.seq < seq && !c.committed)

/-- What follows whenever something has come for a collective whose turn it is. -/
def State.settleColl (s : State) (group seq : Nat) : State :=
  if s.collWaits group seq then s
  else
  let s := s.moveParts group seq 0
  let s := match s.coll? group seq, s.group? group with
    | some c, some g =>
      if c.exchange && c.agreed.isNone && c.whole g 0 then
        let e := (c.value 0).getD 0 (0, 0)
        s.agree c g e.1 e.2
      else s
    | _, _ => s
  ((s.beginReduce group seq).moveParts group seq 1).decide_ group seq

/-- The collectives of a group are served in COLL_SEQ order: the first without an outcome goes on (R274). -/
def State.serveGroup (s : State) (group : Nat) : State :=
  match s.colls.open_.find? (fun c => c.group == group && !c.committed) with
  | some c => s.settleColl group c.seq
  | none => s

/-! Output and completion (R282, R287) -/

/-- The collective of a task. -/
def State.collOf (s : State) (task : Nat) : Option Coll := s.colls.open_.find? (fun c => c.task == task)

/-- The SCRATCH Holding of a field. -/
def State.scratch (s : State) (t : Task) (hid : Nat) : Option Holding :=
  match s.holdingIn t.job hid with
  | some h => if h.kind == 3 then some h else none
  | none => none

/-- Forget a collective, and what waits for it. -/
def State.dropColl (s : State) (c : Coll) : State :=
  ((s.setColls fun x => { x with open_ := x.open_.filter (fun o => !(o.group == c.group && o.seq == c.seq)),
                                 graces := x.graces.filter (fun o => !(o.1 == c.group && o.2.1 == c.seq)),
                                 priorV := x.priorV.filter (fun p => p.1 != c.task) }).endIo c.task).serveGroup c.group

/-- Complete the task of a collective. -/
def State.endColl (s : State) (c : Coll) (status detail detail2 result : Nat) : State :=
  let s := s.dropColl c
  match s.task? c.task with
  | some t => s.complete t status detail detail2 result
  | none => s

/-- A collective whose output is written, or that has none, completes (R282, R287). -/
def State.collDone (s : State) (c : Coll) : State :=
  match s.task? c.task with
  | none => s.dropColl c
  | some t =>
    if t.len < c.countNow && c.exchange && !c.out.isEmpty then (s.dropColl c).lengthMismatch t 2 t.len
    else s.endColl c 0 0 0 (min t.len c.countNow)

/-- The bytes that a member writes: at most DECLARED_LEN elements; for MINMAX the mins and then the maxes (R282, R294). -/
def Coll.outBytes (c : Coll) (len : Nat) : Bytes :=
  let es := (((sortBy (fun (p : Nat × List (Nat × Nat)) => p.1) c.out).map (·.2)).flatten).take len
  let w := dtypeWidth c.dtype
  es.flatMap (fun e => leBytes w e.1) ++ (if c.op == 3 then es.flatMap (fun e => leBytes w e.2) else [])

/-- Every piece of the output is here. -/
def Coll.outWhole (c : Coll) : Bool :=
  (List.range (pieceCount c.op c.dtype c.countNow)).all (fun i => c.out.any (fun p => p.1 == i))

/-- A committed collective writes its output once all of it is here; a blocked extent holds the write up. -/
def State.finishColl (s : State) (group seq : Nat) : State :=
  match s.coll? group seq, s.group? group with
  | some c, some g =>
    if !c.committed || c.writing then s
    else
      let takes := 2 ≤ c.kind || (c.kind == 1 && g.isRoot c.root)
      if takes && !c.outWhole then s
      else match s.task? c.task with
        | none => s.dropColl c
        | some t =>
          match if takes then s.scratch t (t.f 351 336) else none with
          | none => s.collDone c
          | some h =>
            let bs := c.outBytes t.len
            if bs.isEmpty then s.collDone c
            else
              let (s, go) := s.openRange h (t.f 415 384) bs.length
              if !go then s
              else
                (s.setColl group seq fun c => { c with writing := true }).writeRange (.taskWrite t.id) h (t.f 415 384) bs
  | _, _ => s

/-- The writes of a collective's output are all accepted. -/
def State.collWritten (s : State) (task : Nat) : State :=
  match s.collOf task with
  | none => s
  | some c =>
    let out := s.reqOut fun o => match o with
      | .taskWrite k => k == task
      | _ => false
    if c.writing && !out then s.collDone c else s

/-- Outputs held up by an extent are written once it is valid again. -/
def State.pumpColls (s : State) : State := s.colls.open_.foldl (fun s c => s.finishColl c.group c.seq) s

/-! Messages received (R280, R281) -/

def cField (h : BitVec 512) (hi lo : Nat) : Nat := bitsOf h hi lo
def cType (h : BitVec 512) : Nat := bitsOf h 127 120
def cGroup (h : BitVec 512) : Nat := bitsOf h 175 160
def cSeq (h : BitVec 512) : Nat := bitsOf h 319 288
def cSrc (h : BitVec 512) : Nat := bitsOf h 383 352
def cEpoch (h : BitVec 512) : Nat := bitsOf h 191 176

/-- Reserved encodings of a header (Tables 11-2 to 11-4), a GRACE above 50, and a length that is not the payload's. -/
def collBad (h : BitVec 512) (payload : Bytes) : Bool :=
  let ty := cType h
  let reason := bitsOf h 135 128
  ty == 0 || 8 < ty || 3 < bitsOf h 119 116 || 3 < bitsOf h 115 112 || 4 < bitsOf h 111 108 || 1 < bitsOf h 107 106 ||
    bitsOf h 105 104 == 3 || 50 < bitsOf h 143 136 || (ty == 3 && bitsOf h 143 136 == 0) ||
    4096 < bitsOf h 63 32 || bitsOf h 63 32 != payload.length ||
    (ty == 2 && (reason == 0 || 6 < reason)) || (ty == 8 && 16 < reason) ||
    ((ty == 2 || ty == 3 || ty == 7) && !payload.isEmpty) ||
    (ty == 8 && payload.length != (if bitsOf h 119 116 == 0 then 256 else 0))

/-- A malformed message (R280). -/
def State.collMalformed (s : State) (h : BitVec 512) : State := s.countEvent Od.collMalformedCount (cGroup h) (cSrc h)

/-- A message agrees with the posted collective (R281). -/
def Coll.agrees (c : Coll) (g : Group) (h : BitVec 512) : Bool :=
  bitsOf h 447 384 == g.fold && cEpoch h == g.epoch && bitsOf h 119 116 == c.kind && bitsOf h 115 112 == c.op &&
    bitsOf h 111 108 == c.dtype && bitsOf h 107 106 == (if c.exchange then 1 else 0) &&
    (List.range g.axes).all (fun a => bitsOf h (77 + 6 * a) (72 + 6 * a) == c.root.getD a 0) &&
    bitsOf h 511 448 == c.step && (c.exchange || bitsOf h 223 192 == c.count)

/-- The sender holds a position in the group, or is the switch of an axis for the messages of a switch. -/
def State.collSource (s : State) (g : Group) (h : BitVec 512) : Bool :=
  cSrc h != 0 && (if cType h == 6 || cType h == 7 then (List.range 4).any (fun a => s.cfg (Od.switchReduceId a) == cSrc h)
    else g.members.contains (cSrc h))

/-- A failed residue check (R284): the piece is computed again on another core; a second failure repairs the first core. -/
def State.residue (s : State) (obs : ResidueObs) : State :=
  match obs with
  | .clean => s
  | .once core =>
    (s.bump Od.residueErrCount).event Od.residueErrCount 0xFFFF core.toNat
  | .twice core =>
    let s := (s.bumpBy Od.residueErrCount 2).event Od.residueErrCount core.toNat
    if h : core.toNat < 20 then s.coreFault ⟨core.toNat, h⟩ else s

/-- DATA of the collective (R280): a count, the agreed count, a partial, or output. -/
def State.takeData (s : State) (c : Coll) (g : Group) (h : BitVec 512) (payload : Bytes) (obs : ResidueObs) : State :=
  let phase := bitsOf h 105 104
  let index := bitsOf h 159 144
  let (op, dt) := c.phaseOp phase
  let es := pieceElems op dt payload
  if phase == 0 && ((c.part? 0 0).map (·.ended)).getD false then
    if c.agreed.isSome || g.isRoot c.root then s
    else s.agree c g (es.getD 0 (0, 0)).1 (es.getD 0 (0, 0)).2
  else if phase == 2 then
    if c.out.any (fun p => p.1 == index) then s
    else
      let s := s.setColl c.group c.seq fun c => { c with out := c.out ++ [(index, es)] }
      s.sendOut c g [(index, es)]
  else
    let s := s.residue obs
    s.setColl c.group c.seq fun c =>
      { c with held := c.held ++ [(phase, bitsOf h 103 102, index, es)] }

/-- ABORT (R286): held, and forwarded unless an earlier one is held. -/
def State.takeAbort (s : State) (c : Coll) (g : Group) (h : BitVec 512) : State :=
  let a : HeldAbort := { frame := s.extend (bitsOf h 255 224), source := cSrc h, reason := bitsOf h 135 128 }
  let earlier := c.aborts.any (fun x => x.frame < a.frame || (x.frame == a.frame && x.source ≤ a.source))
  let s := s.setColl c.group c.seq fun c => { c with aborts := if c.aborts.contains a then c.aborts else c.aborts ++ [a] }
  if earlier then s
  else s.collFlood c g { type := 2, src := a.source, reason := a.reason, event := a.frame, count := c.countNow }

/-- GRACE (R288). -/
def State.takeGrace (s : State) (c : Coll) (g : Group) (h : BitVec 512) : State :=
  let n := bitsOf h 143 136
  let f := s.extend (bitsOf h 255 224)
  if c.base < f + 3 then s.bump Od.graceIgnoredCount
  else
    let s := s.bump Od.thermalGraceRecvCount
    if n ≤ c.grace then s
    else
      (s.setColl c.group c.seq fun c => { c with grace := n }).collFlood c g
        { type := 3, src := cSrc h, grace := n, event := f, count := c.countNow }

/-- RESULT (R287). -/
def State.takeResult (s : State) (c : Coll) (g : Group) (h : BitVec 512) (payload : Bytes) : State :=
  if c.result.isSome then s
  else
    let r : HeldResult := { frame := s.extend (bitsOf h 255 224), reason := bitsOf h 135 128, payload := payload }
    (s.setColl c.group c.seq fun c => { c with result := some r }).collFlood c g
      { type := 8, src := cSrc h, reason := r.reason, event := r.frame, count := c.countNow, payload := payload }

/-- SW_RESULT (R290): the line's root, or its stand-in, takes it as its axis result; any other contributor is done, unless it
has fallen back on the ring, which it then runs. -/
def State.takeSwitch (s : State) (c : Coll) (g : Group) (h : BitVec 512) (payload : Bytes) : State :=
  let index := bitsOf h 159 144
  let axis := bitsOf h 103 102
  match c.part? 1 index, (g.own' c.root)[axis]? with
  | some p, some (a, v) =>
    if p.ended || p.axis != axis || c.op != 3 then s
    else
      let es := pieceElems c.op c.dtype payload
      let s := s.setColl c.group c.seq fun c =>
        { c with held := c.held.filter (fun x => !(x.1 == 1 && x.2.1 == axis && x.2.2.1 == index)) }
      if (g.chain c.root a v).getLast? == some g.own then
        s.setPart c 1 index (fun p => { p with axis := axis + 1, elems := es, switch := none, ring := false })
      else if p.ring then s
      else s.setPart c 1 index (fun p => { p with ended := true, switch := none })
  | _, _ => s

/-- A line falls back on its ring (R290). -/
def State.fallBack (s : State) (c : Coll) (p : CollPart) : State :=
  (s.setPart c p.phase p.index (fun p => { p with switch := none, ring := true })).bump Od.switchFallbackCount

/-- SW_REFUSE (R290). -/
def State.takeRefuse (s : State) (c : Coll) (h : BitVec 512) : State :=
  match c.part? 1 (bitsOf h 159 144) with
  | some p => if p.switch.isSome && p.axis == bitsOf h 103 102 then s.fallBack c p else s
  | none => s

/-- A message for a posted collective (R281, R285). -/
def State.collTake (s : State) (c : Coll) (g : Group) (h : BitVec 512) (payload : Bytes) (obs : ResidueObs) : State :=
  if !c.agrees g h then (s.bump Od.headerMismatchCount).abortColl c 2
  else
    let d := s.extend (bitsOf h 287 256)
    let s := s.setColl c.group c.seq fun c => { c with base := min c.base d }
    let c := (s.coll? c.group c.seq).getD c
    let s := match cType h with
      | 1 => s.takeData c g h payload obs
      | 2 => s.takeAbort c g h
      | 3 => s.takeGrace c g h
      | 6 => s.takeSwitch c g h payload
      | 7 => s.takeRefuse c h
      | 8 => s.takeResult c g h payload
      | _ => s
    (s.settleColl c.group c.seq).finishColl c.group c.seq

/-- Hold a message for a collective not yet posted; without room it waits for credit (R281). -/
def State.collHold (s : State) (h : BitVec 512) (payload : Bytes) : State :=
  let used := sumOf (s.colls.early.map (fun m => 64 + m.payload.length))
  if s.cfg Od.collRxBufferBytes < used + 64 + payload.length then s.setColls fun c => { c with rxWait := true }
  else s.setColls fun c => { c with early := c.early ++ [{ hdr := h, payload := payload }] }

/-- A collective message whose tag has verified (R280, R281). SW_CONTRIB is for a switch and never for a member. -/
def State.collMsg (s : State) (h : BitVec 512) (payload : Bytes) (obs : ResidueObs) : State :=
  if collBad h payload || cType h == 4 || cType h == 5 then s.collMalformed h
  else match s.group? (cGroup h) with
    | none => s.collHold h payload
    | some g =>
      if cEpoch h < g.epoch then s.bump Od.collStaleCount
      else if g.epoch < cEpoch h then s.collHold h payload
      else if !s.collSource g h then s.collMalformed h
      else match s.coll? g.id (cSeq h) with
        | some c => s.collTake c g h payload obs
        | none => if cSeq h ≤ g.lastSeq then s.bump Od.collStaleCount else s.collHold h payload

/-- A received message of a row: its tag, its type, then its meaning. -/
def State.collRow (s : State) (type : Nat) (h : BitVec 512) (payload : Bytes) (tagOk : Bool) (obs : ResidueObs) : State :=
  if s.alarmed then s
  else if !tagOk then s.tagFail.collMalformed h
  else if cType h != type then s.collMalformed h
  else s.collMsg h payload obs

/-- COLL_DATA (R280). -/
def execCollData (hdr : BitVec 512) (payload : Bytes) (tagOk : Bool) (obs : ResidueObs) (s : State) : Out :=
  .next (s.collRow 1 hdr payload tagOk obs)

/-- COLL_ABORT (R286). -/
def execCollAbort (hdr : BitVec 512) (tagOk : Bool) (s : State) : Out := .next (s.collRow 2 hdr [] tagOk .clean)

/-- COLL_GRACE (R288). -/
def execCollGrace (hdr : BitVec 512) (tagOk : Bool) (s : State) : Out := .next (s.collRow 3 hdr [] tagOk .clean)

/-- COLL_RESULT (R287). -/
def execCollResult (hdr : BitVec 512) (payload : Bytes) (tagOk : Bool) (s : State) : Out :=
  .next (s.collRow 8 hdr payload tagOk .clean)

/-- SW_RESULT (R290). -/
def execSwResult (hdr : BitVec 512) (payload : Bytes) (tagOk : Bool) (s : State) : Out :=
  .next (s.collRow 6 hdr payload tagOk .clean)

/-- SW_REFUSE (R290). -/
def execSwRefuse (hdr : BitVec 512) (tagOk : Bool) (s : State) : Out := .next (s.collRow 7 hdr [] tagOk .clean)

/-- FUSED (R291): the parts are handled as if each had arrived alone. -/
def execFused (hdr : BitVec 512) (parts : List FusedPart) (exact : Bool) (tagOk : Bool) (s : State) : Out :=
  .next <|
    if s.alarmed then s
    else if !tagOk then s.tagFail.collMalformed hdr
    else if cType hdr != 4 || !exact || 16 < parts.length || parts.any (fun p => cGroup p.hdr != cGroup hdr) then
      s.collMalformed hdr
    else parts.foldl (fun (s : State) p => s.collMsg p.hdr p.payload .clean) s

/-- SWITCH_WAIT (R290): no answer within SWITCH_WAIT_FRAMES whole frames. -/
def execSwitchWait (group : BitVec 16) (seq : BitVec 32) (s : State) : Out :=
  .next <| match s.coll? group.toNat seq.toNat with
    | none => s
    | some c =>
      let late := c.parts.filter (fun p => match p.switch with
        | some f => s.lapsed f (s.cfg Od.switchWaitFrames)
        | none => false)
      if late.isEmpty then s
      else (late.foldl (fun (s : State) p => s.fallBack c p) s).settleColl c.group c.seq

/-! Unreachable members (R286, R318) -/

/-- The next present member of the ring to which this engine has still to pass something of a collective (R275, R276). -/
def State.ringNext (s : State) (c : Coll) : Option Nat :=
  match s.group? c.group with
  | none => none
  | some g =>
    if c.kind != 2 && (c.parts.all (fun p => p.phase != 1) || c.parts.any (fun p => p.phase == 1 && !p.ended)) then
      match (g.own' c.root).getLast? with
      | some (a, v) =>
        let ch := g.chain c.root a v
        if ch.getLast? == some g.own then none else (nextIn ch g.own).map g.member
      | none => none
    else none

/-- DEST_UNREACH (R318): the named engines are unreachable on this port; their bindings move, a message mid-send
finishes. A collective whose next ring member can then be reached on no port is aborted with MEMBER_LOST (R286). -/
def execDestUnreach (port : Port) (engines : List (BitVec 32)) (s : State) : Out :=
  .next <|
    if (s.port port).state != .up then s
    else
      let ids := engines.map (·.toNat)
      let s := s.setPort port (fun x => { x with
        unreach := ids.eraseDups.map (fun e => (e, s.frame)) ++ x.unreach.filter (fun u => !ids.contains u.1) })
      let s := s.reroute port (fun d => ids.contains d) true
      s.abortColls (fun c => ((s.ringNext c).map (fun d => ids.contains d && s.cutOff d)).getD false) 3 s.frame

/-! Posting (R274) -/

/-- Post a collective: it takes the next COLL_SEQ, its base deadline, and the messages held for it. -/
def State.postColl (s : State) (t : Task) (g : Group) (c : Coll) : State :=
  let seq := g.lastSeq + 1
  let sent := ((s.colls.graces.filter (fun x => x.1 == g.id && x.2.1 == seq)).map (·.2.2)).foldl max 0
  let ps : List CollPart := if c.exchange then [{ phase := 0, index := 0, elems := [(c.count, c.count)] }] else []
  let c := { c with task := t.id, job := t.job.val, group := g.id, seq := seq, parts := ps, grace := sent,
                    base := s.frame + s.cfg Od.collTimeoutFrames }
  let s := s.setGroup g.id fun g => { g with lastSeq := seq }
  let mine (m : EarlyMsg) : Bool := cGroup m.hdr == g.id && cEpoch m.hdr == g.epoch && cSeq m.hdr == seq
  let early := s.colls.early.filter mine
  let s := s.setColls fun x => { x with open_ := x.open_ ++ [c], early := x.early.filter (fun m => !mine m) }
  early.foldl (fun s m => s.collMsg m.hdr m.payload .clean) (s.settleColl g.id seq)

/-- Give a collective its own contribution. -/
def State.contribute (s : State) (task : Nat) (es : List (Nat × Nat)) : State :=
  match s.collOf task with
  | none => s
  | some c =>
    if c.own.isSome then s
    else (s.setColl c.group c.seq fun c => { c with own := some es }).settleColl c.group c.seq

/-- A collective that is not yet known, for its fixed fields. -/
def Coll.blank (kind op dt step count : Nat) (exchange : Bool) (root : List Nat) : Coll :=
  { task := 0, job := 0, group := 0, seq := 0, kind := kind, op := op, dtype := dt, exchange := exchange, root := root,
    step := step, count := count, base := 0 }

/-- VERDICT (R270, R274, R293): it is posted; its fingerprint follows by FINGERPRINT_CONTRIBUTE. -/
def execVerdict (task : Nat) (s : State) : Out :=
  .next <| s.whenReady task 0x14 fun s t =>
    let id := t.f 271 256
    match s.groupIn t.job id with
    | none => s.complete t 0x4004 id
    | some g =>
      if g.absent != 0 then s.complete t 0x4006 id g.absent
      else match s.keyStatus 2 with
        | some (st, d) => s.complete t st d
        | none =>
          if g.reforming then s
          else (s.start t).postColl t g (Coll.blank 0 3 3 t.step 16 false g.root)

/-- Tasks of its step that a VERDICT waits for (Table 04-10). -/
def State.verdictWaits (s : State) (t : Task) : Bool :=
  s.sched.tasks.any fun u =>
    decide (u.id < t.id) && (u.type == 0x11 || u.type == 0x12 || u.type == 0x13) && u.job == t.job && u.step == t.step

/-- FINGERPRINT_CONTRIBUTE (R270, R21, Table 04-10). -/
def execFingerprintContribute (task : Nat) (s : State) : Out :=
  .next <| match s.task? task with
    | none => s
    | some t =>
      if t.type != 0x14 || t.phase == .waiting || s.verdictWaits t || !s.mayContribute t.job t.step then s
      else s.contribute task ((s.fingerprint t false).map (fun v => (v, v)))

/-! REDUCE, BROADCAST, ALLREDUCE (R294) -/

/-- A REDUCE, BROADCAST or ALLREDUCE record with an illegal encoding. -/
def Task.collMalformed (t : Task) : Bool :=
  3 < t.f 275 272 || 4 < t.f 279 276 || 1 < t.f 281 280 || badHidField (t.f 335 320) || badHidField (t.f 351 336)

/-- Root coordinates of a record. -/
def Task.collRoot (t : Task) (lo : Nat) : List Nat := (List.range 4).map (fun a => t.f (lo + 5 + 6 * a) (lo + 6 * a))

/-- Bytes that a Holding offers from an offset. -/
def Holding.room (h : Holding) (off : Nat) : Nat := h.bytes - off

/-- The first of the task's Holdings that is unknown or too small: status, DETAIL, RESULT. -/
def State.collHoldings (s : State) (t : Task) (reads writes : Bool) : Option (Nat × Nat × Nat) :=
  let w := dtypeWidth (t.f 279 276)
  let src := t.f 335 320
  let dst := t.f 351 336
  let outW := w * (if t.f 275 272 == 3 then 2 else 1)
  let bad (hid off need : Nat) : Option (Nat × Nat × Nat) :=
    match s.scratch t hid with
    | none => some (0x0033, hid, 0)
    | some h => if h.room off < need then some (0x0018, 0, h.room off) else none
  match if reads then bad src (t.f 383 352) (t.len * w) else none with
  | some x => some x
  | none => if writes && dst != 0xFFFF then bad dst (t.f 415 384) (t.len * outW) else none

/-- The source of a collective has been read: its elements are the contribution. -/
def State.collSourceRead (s : State) (t : Task) : State :=
  match s.taskBuf t.id with
  | none => s
  | some b =>
    if b.waiting != 0 then s
    else
      let es := (leWords (dtypeWidth (t.f 279 276)) t.len (s.bufBytes b)).map (fun v => (v, v))
      (s.freeBufs t.id).contribute t.id es

/-- A REDUCE, BROADCAST or ALLREDUCE that is ready (R274, R294): checked, posted, and its source read. -/
def State.startColl (s : State) (t : Task) (kind : Nat) : State :=
  let id := t.f 271 256
  let op := t.f 275 272
  let dt := t.f 279 276
  if t.collMalformed then s.malformed t
  else match s.groupIn t.job id with
    | none => s.complete t 0x4004 id
    | some g =>
      let root := t.collRoot 288
      let legal := (List.range g.axes).all (fun a => root.getD a 0 < g.size a) && g.member (g.position root) != 0
      if !legal then s.malformed t
      else if 1048576 < t.len * elemSize op dt then s.complete t 0x4008
      else
        let isRoot := g.isRoot root
        let reads := kind != 2 || isRoot
        let writes := kind != 1 || isRoot
        match s.collHoldings t reads writes with
        | some (0x0018, d, r) => s.lengthMismatch t d r
        | some (st, d, r) => s.complete t st d 0 r
        | none =>
          match s.keyStatus 2 with
          | some (st, d) => s.complete t st d
          | none =>
            if s.d2dDown && (reads || (writes && t.f 351 336 != 0xFFFF)) then s.fail t 0x0021
            else if g.reforming then s
            else
              let s := (s.start t).postColl t g (Coll.blank kind op dt 0 t.len (t.f 281 280 == 1) root)
              if !reads then s
              else match s.scratch t (t.f 335 320) with
                | some h =>
                  if t.len == 0 then s.contribute t.id []
                  else (s.startRead (.taskRead t.id) t.id h (t.f 383 352) (t.len * dtypeWidth dt)).collSourceRead t
                | none => s

/-- REDUCE (R275, R294). -/
def execReduce (task : Nat) (s : State) : Out := .next <| s.whenReady task 0x53 fun s t => s.startColl t 1

/-- BROADCAST (R277, R294). -/
def execBroadcast (task : Nat) (s : State) : Out := .next <| s.whenReady task 0x54 fun s t => s.startColl t 2

/-- ALLREDUCE (R277, R294). -/
def execAllreduce (task : Nat) (s : State) : Out := .next <| s.whenReady task 0x55 fun s t => s.startColl t 3

/-- A Holding of the task of a collective fails: MEM_POISON, MEM_DENIED and XLAT_TIMEOUT abort it for every member while it
has no outcome (R286); else its task completes with the status (R53, R57, R65, R67). -/
def State.collFault (s : State) (t : Task) (status detail detail2 : Nat) : State :=
  match s.collOf t.id with
  | some c =>
    if !c.committed && 0x0022 ≤ status && status ≤ 0x0024 then s.abortColl c 6 else s.endColl c status detail detail2 0
  | none => s

/-- A collective of REDUCE, BROADCAST or ALLREDUCE has a Holding still to read or to write. -/
def State.collIo (s : State) (t : Task) : Bool :=
  (s.collOf t.id).any fun c =>
    let isRoot := ((s.group? c.group).map (fun g => g.isRoot c.root)).getD false
    ((c.kind != 2 || isRoot) && c.own.isNone) || ((c.kind != 1 || isRoot) && t.f 351 336 != 0xFFFF)

/-! The verdict (R272) -/

/-- V becomes N: the good verdict applies. -/
def State.applyGood (s : State) (j : JobId) (n : Nat) : State :=
  let s := s.setJob j fun x => { x with v := n, m := min (s.weld j).peerStep n }
  let s := s.writeRecord j fun r => { r with v := n }
  let s := s.setColls fun c =>
    { c with held := c.held.filter (fun h => !(h.job == j && h.step == n)),
             faults := c.faults.filter (fun f => !(f.job == j.val && f.step ≤ n)) }
  let s := (s.weldVerdict j true).observeSync
  (s.moveRecords j).settleVault

/-- A bad verdict of N is outstanding: held good verdicts of later steps go, and what steps after V have left is discarded
(R87, R224, R240, R245). -/
def State.applyBad (s : State) (j : JobId) (n reason : Nat) : State :=
  let v := (s.job j).v
  let s := s.setJob j fun x => { x with badVerdict := true, badSteps := addOnce x.badSteps n }
  let s := s.setColls fun c => { c with held := c.held.filter (fun h => !(h.job == j && n < h.step)) }
  let s := (s.discardBands j n).weldVerdict j false
  let late := ((s.weld j).outRecords.filter (fun r => v < r.step)).map (·.step)
  let s := s.setWeld j fun w => { w with outRecords := w.outRecords.filter (fun r => r.step ≤ v) }
  let s := late.foldl (fun (s : State) k => s.dropStepDigests j k) s
  (s.event Od.verdictBadCount n reason).settleVault

/-- A verdict is committed: a good one applies, or is held while V is below N − 1. -/
def State.commitVerdict (s : State) (j : JobId) (n : Nat) (good : Bool) (reason : Nat) : State :=
  if !good then s.applyBad j n reason
  else
    let s := s.bump Od.verdictGoodCount
    if n == (s.job j).v + 1 then s.applyGood j n
    else if (s.job j).v + 1 < n then s.setColls fun c => { c with held := c.held ++ [{ job := j, step := n }] }
    else s

/-- HELD_VERDICT_APPLY (R272): V has reached the step before a held verdict. -/
def execHeldVerdictApply (job : JobId) (s : State) : Out :=
  .next <|
    let n := (s.job job).v + 1
    if s.colls.held.any (fun h => h.job == job && h.step == n) then s.applyGood job n else s

/-! The end of a collective (R287) -/

/-- The earliest ABORT that a member holds (R287). -/
def Coll.firstAbort (c : Coll) : Option HeldAbort :=
  c.aborts.foldl (fun b a => match b with
    | none => some a
    | some x => if a.frame < x.frame || (a.frame == x.frame && a.source < x.source) then some a else b) none

/-- The outcome that a member may commit at the boundary that opens frame `f`: the RESULT, or an ABORT (R287). -/
def Coll.outcome (c : Coll) (f : Nat) : Option (HeldResult ⊕ HeldAbort) :=
  match c.result, c.firstAbort with
  | some r, some a =>
    if a.frame < r.frame then (if a.frame + 2 ≤ f then some (.inr a) else none)
    else if r.frame + 1 ≤ f then some (.inl r) else none
  | some r, none => if r.frame + 1 ≤ f then some (.inl r) else none
  | none, some a => if a.frame + 2 ≤ f then some (.inr a) else none
  | none, none => none

/-- An ABORT is committed. -/
def State.commitAbort (s : State) (c : Coll) (a : HeldAbort) : State :=
  let s := if c.kind == 0 && !c.abandoned then s.commitVerdict (jobOf c.job) c.step false 0xFFFF else s
  match a.reason with
  | 1 => s.endColl c 0x4001 0 c.grace 0
  | 2 => s.endColl c 0x4003 0 a.source 0
  | r => s.endColl c 0x4002 r a.source 0

/-- A RESULT is committed. RESULT of a VERDICT holds 256 bytes in a field of 64 bits: a free value (log entry 63). -/
def State.commitResult (s : State) (c : Coll) (r : HeldResult) : State :=
  if c.kind == 0 then
    let s := if c.abandoned then s else s.commitVerdict (jobOf c.job) c.step (r.reason == 0) (r.reason - 1)
    let s := if r.reason == 0 || c.abandoned then s else s.bump Od.verdictBadCount
    let (v, s) := s.free
    if r.reason == 0 then s.endColl c 0 0 0 (v % 2 ^ 64) else s.endColl c 0x4000 (r.reason - 1) 0 (v % 2 ^ 64)
  else
    ((s.setColl c.group c.seq fun c => { c with committed := true }).serveGroup c.group).finishColl c.group c.seq

/-! Groups (R273, R292, R294) -/

/-- Reforms and leaves of a group whose collectives have all committed go on. -/
def State.groupFree (s : State) (id : Nat) : Bool := !s.colls.open_.any (fun c => c.group == id && !c.committed)

/-- Axis sizes of a GROUP_JOIN record: 1 beyond its axes. -/
def Task.groupSizes (t : Task) : List Nat :=
  (List.range 4).map (fun a => if a < t.f 291 288 then t.f (297 + 6 * a) (292 + 6 * a) + 1 else 1)

/-- Root of a GROUP_JOIN record. -/
def Task.groupRoot (t : Task) : List Nat :=
  (List.range 4).map (fun a => if a < t.f 291 288 then t.f (321 + 6 * a) (316 + 6 * a) else 0)

/-- Positions of a GROUP_JOIN record. -/
def Task.groupSize (t : Task) : Nat := t.groupSizes.foldl (· * ·) 1

/-- The definition of a group from a record and its member table; none when it breaks a rule of R273. -/
def State.groupFrom (s : State) (t : Task) (table : Bytes) : Option Group :=
  let members := leWords 4 t.groupSize table
  let g : Group := { id := t.f 271 256, epoch := t.f 287 272, job := t.job.val, axes := t.f 291 288, sizes := t.groupSizes,
                     root := t.groupRoot, members := members, own := members.idxOf s.engineId,
                     fold := groupFold (t.f 291 288) (t.f 287 272) t.groupSizes t.groupRoot members, lastSeq := 0,
                     reforming := false }
  let once := (members.filter (· == s.engineId)).length == 1
  if s.engineId == 0 || !once || g.member (g.position g.root) == 0 then none else some g

/-- What is wrong with a group's definition before its table is read. -/
def State.groupBad (s : State) (t : Task) : Bool :=
  16384 < t.groupSize || (List.range 4).any (fun a => t.groupSizes.getD a 1 ≤ t.groupRoot.getD a 0) ||
    (match s.scratch t (t.f 351 340) with
     | some h => h.room (t.f 383 352) < 4 * t.groupSize
     | none => true)

/-- Read the member table of a GROUP_JOIN or GROUP_REFORM. -/
def State.readTable (s : State) (t : Task) : State :=
  if s.d2dDown then s.fail t 0x0021
  else match s.scratch t (t.f 351 340) with
    | some h => (s.start t).startRead (.memberTable t.id) t.id h (t.f 383 352) (4 * t.groupSize)
    | none => s.complete t 0x4005 (t.f 271 256)

/-- GROUP_JOIN (R273): a group already joined, or another definition of it, is a bad one (log entry 64). -/
def execGroupJoin (task : Nat) (s : State) : Out :=
  .next <| s.whenReady task 0x50 fun s t =>
    if t.f 291 288 == 0 || 4 < t.f 291 288 then s.malformed t
    else if (s.holdingIn t.job (t.f 351 340)).isNone then s.complete t 0x0033 (t.f 351 340)
    else if s.groupBad t || (s.group? (t.f 271 256)).isSome then s.complete t 0x4005 (t.f 271 256)
    else if 8 ≤ s.colls.groups.length then s.complete t 0x4007
    else s.readTable t

/-- GROUP_REFORM (R292). -/
def execGroupReform (task : Nat) (s : State) : Out :=
  .next <| s.whenReady task 0x51 fun s t =>
    let id := t.f 271 256
    if t.f 291 288 == 0 || 4 < t.f 291 288 then s.malformed t
    else if (s.holdingIn t.job (t.f 351 340)).isNone then s.complete t 0x0033 (t.f 351 340)
    else match s.groupIn t.job id with
      | none => s.complete t 0x4004 id
      | some g =>
        if s.groupBad t || t.f 287 272 ≤ g.epoch then s.complete t 0x4005 id
        else
          let s := s.setGroup id fun g => { g with reforming := true }
          let s := if t.f 384 384 == 1 then s.abortColls (fun c => c.group == id) 5 s.frame else s
          s.readTable t

/-- GROUP_LEAVE (R294): open collectives are aborted with REFORM; the group goes once they have committed. -/
def execGroupLeave (task : Nat) (s : State) : Out :=
  .next <| s.whenReady task 0x52 fun s t =>
    let id := t.f 271 256
    match s.groupIn t.job id with
    | none => s.complete t 0x4004 id
    | some _ =>
      let s := (s.setGroup id fun g => { g with reforming := true }).abortColls (fun c => c.group == id) 5 s.frame
      if s.groupFree id then
        let s := s.setColls fun c => { c with groups := c.groups.filter (fun g => g.id != id) }
        (s.odSet Od.groupCount s.colls.groups.length).complete t 0
      else s.start t

/-- Take a group in, and look at the messages held for its epoch: those of a source that holds no position are malformed. -/
def State.takeGroup (s : State) (g : Group) : State :=
  let s := s.setColls fun c => { c with groups := c.groups.filter (fun x => x.id != g.id) ++ [g] }
  let s := s.odSet Od.groupCount s.colls.groups.length
  let due (m : EarlyMsg) : Bool := cGroup m.hdr == g.id && cEpoch m.hdr ≤ g.epoch
  let l := s.colls.early.filter due
  let s := s.setColls fun c => { c with early := c.early.filter (fun m => !due m) }
  l.foldl (fun s m => s.collMsg m.hdr m.payload .clean) s

/-- One move of a running GROUP_JOIN, GROUP_REFORM or GROUP_LEAVE. -/
def State.moveGroup (s : State) (t : Task) : State :=
  let id := t.f 271 256
  if t.type == 0x52 then
    if s.groupFree id then
      let s := s.setColls fun c => { c with groups := c.groups.filter (fun g => g.id != id) }
      (s.odSet Od.groupCount s.colls.groups.length).complete t 0
    else s
  else match s.taskBuf t.id with
    | none => s
    | some b =>
      if b.waiting != 0 || (t.type == 0x51 && !s.groupFree id) then s
      else
        let table := s.bufBytes b
        let s := s.endIo t.id
        match s.groupFrom t table with
        | some g =>
          if t.type == 0x50 && (s.group? id).isSome then s.complete t 0x4005 id
          else if 8 ≤ (s.colls.groups.filter (fun x => x.id != g.id)).length then s.complete t 0x4007
          else (s.takeGroup g).complete t 0
        | none => (s.setGroup id fun g => { g with reforming := false }).complete t 0x4005 id

/-- Running tasks of groups go on. -/
def State.pumpGroups (s : State) : State :=
  (s.sched.tasks.filter (fun t => t.phase == .running && 0x50 ≤ t.type && t.type ≤ 0x52)).foldl (fun s t => s.moveGroup t) s

/-- GROUP_INFO (R296): 64 bytes for the group selected, nothing when it is not joined. -/
def State.groupInfo (s : State) (id : Nat) : Bytes :=
  match s.group? id with
  | none => []
  | some g =>
    leBytes 2 g.id ++ leBytes 2 g.epoch ++ leBytes 1 g.axes ++ leBytes 1 (if g.reforming then 1 else 0) ++ leBytes 2 0 ++
      g.sizes.flatMap (leBytes 1) ++ g.root.flatMap (leBytes 1) ++
      (List.range 4).flatMap (fun a => leBytes 1 (if a < g.axes then g.coord g.own a else 0)) ++ leBytes 4 g.lastSeq ++
      leBytes 8 g.fold ++ leBytes 4 (s.colls.open_.filter (fun c => c.group == g.id)).length ++ leBytes 28 0

/-! Deadline and commit -/

/-- COLL_DEADLINE (R286, R287, Table 11-5): the effective deadline has passed at the boundary that opens the next frame. -/
def execCollDeadline (group : BitVec 16) (seq : BitVec 32) (s : State) : Out :=
  .next <| match s.coll? group.toNat seq.toNat with
    | none => s
    | some c =>
      if s.frame + 1 ≤ c.deadline || c.writing then s
      else if c.committed then
        if c.outWhole then s
        else
          let missing := ((List.range (pieceCount c.op c.dtype c.countNow)).find? (fun i => !c.out.any (fun p => p.1 == i))).getD 0
          (s.bump Od.collAbortCount).endColl c 0x4009 missing 0 0
      else s.abortCollAt c 1 (s.frame + 1)

/-- COLL_COMMIT (R287): at the boundary that the commit rule allows. -/
def execCollCommit (group : BitVec 16) (seq : BitVec 32) (s : State) : Out :=
  .next <| match s.coll? group.toNat seq.toNat with
    | none => s
    | some c =>
      if c.committed then s
      else match c.outcome (s.frame + 1) with
        | none => s
        | some (.inl r) => (s.commitResult c r).pumpGroups
        | some (.inr a) => (s.commitAbort c a).pumpGroups

end Sys2Proof.Machine
end

