-- ==== Sys2Proof/Machine/Coder.lean ====
section
/-!
DEFINITION. The Madder encoder and decoder at work (07 R169 to R174, R180, R181), and what becomes of a Leaf that has been
coded or decoded.
-/
namespace Sys2Proof.Machine

/-- Change a Leaf in the encoder. -/
def State.setEnc (s : State) (id : Nat) (f : EncLeaf → EncLeaf) : State :=
  s.setMadder fun m => { m with enc := mapIf m.enc (fun e => e.id == id) f }

/-- A Leaf leaves the encoder. -/
def State.dropEnc (s : State) (id : Nat) : State :=
  s.setMadder fun m => { m with enc := m.enc.filter (fun e => e.id != id) }

/-- The generation of the first block (R171): CURRENT, or 0 when none is or MADDER_ENABLE is 0. -/
def State.takeGen (s : State) (e : EncLeaf) : Nat :=
  match e.gen with
  | some g => g
  | none => if s.cfg Od.madderEnable == 0 then 0 else (s.madder.current.map (·.id)).getD 0

/-- The tables that a Leaf is coded with: those of the generation with which its first block has entered (R171). -/
def State.takeTables (s : State) (e : EncLeaf) : List CodeTable :=
  if e.gen.isSome then e.tables else (s.madder.current.map (·.tables)).getD []

/-- The symbols of a block taken in are counted (R170). -/
def State.countBlock (s : State) (e : EncLeaf) (raw : Bytes) : State :=
  let w := formatWidth e.format
  s.setMadder fun m =>
    { m with histo := (elemsOf w (raw.length / w) raw).foldl (fun h v => countSymbol h e.format (symbolOf e.format v)) m.histo }

/-- A block has been emitted; the last one ends the Leaf. -/
def State.emitBlock (s : State) (e : EncLeaf) (raw : Bytes) : State :=
  let w := formatWidth e.format
  let gen := s.takeGen e
  let tables := s.takeTables e
  let (coded, escaped) := encodeBlockBytes (gen != 0) tables gen e.format raw
  let count := raw.length / w
  let s := (s.countBlock e raw).total Od.blocksCoded 1
  let s := if escaped then s.total Od.blocksEscaped 1 else s
  let s := (s.total Od.rawBytesIn raw.length).total Od.codedBytesOut coded.length
  let e := { e with gen := some gen, tables := tables, done := e.done + count, coded := e.coded ++ coded }
  if e.raw.length ≤ e.done * w then
    let s := s.dropEnc e.id
    match e.owner with
    | .band task leaf => (s.bandCoded e task leaf).settleVault
    | .serve id => (s.serveCoded e id).settleVault
  else s.setEnc e.id (fun _ => e)

/-- An uncorrectable word in the block store (R181): the Leaf is lost; the block has been taken in, and its symbols count. -/
def State.loseEnc (s : State) (e : EncLeaf) (raw : Bytes) : State :=
  let block := e.done / 4096
  let s := ((s.countBlock e raw).bump Od.blockStoreUeCount).dropEnc e.id
  match e.owner with
  | .band task leaf => (s.bandLost task leaf block).settleVault
  | .serve id => (s.serveLost id).settleVault

/-- The verify lane, while a spare encoder lane is healthy (R180). -/
def State.verifyLane (s : State) : Option Nat := roleSpare s.encSpares s.madder.verifyAt

/-- A verify mismatch (R181): the lanes that fail the vectors of the next boundary are retired and reported there; neither
failing, the mismatch is transient. -/
def State.verifyMismatch (s : State) (emitter verifier : Nat) (emitterFails verifierFails : Bool) : State :=
  let s := s.bump Od.verifyMismatchCount
  let bad (b : Bool) (lane : Nat) : List (Bool × Nat × Nat) := if b then [(false, lane, s.frame)] else []
  s.setMadder fun m =>
    { m with suspect := m.suspect ++ bad emitterFails emitter ++ bad verifierFails verifier,
             transients := if emitterFails || verifierFails then m.transients else m.transients ++ [emitter] }

/-- The verify lane takes the next block of a lane: the lane whose turn it is (R180), or under a pin that matches the pinned
lane alone (Table 17-6). -/
def State.verifyTurn (s : State) (lane phys : Nat) : Bool :=
  match s.service.pins.find? (fun p => p.part / 4096 == 4 && s.pinMatches p.part) with
  | some p => p.part == partId 4 phys
  | none => lane == s.madder.verifyNext

/-- The turn passes to the next lane, but under a pin that holds the verify lane (R180, Table 17-6). -/
def State.passTurn (s : State) (lane : Nat) : State :=
  if lane == s.madder.verifyNext then
    s.setMadder fun m => { m with verifyNext := (m.verifyNext + 1) % max 1 m.encMap.length }
  else s

/-- ENCODE_BLOCK (R169, R171, R180, R181): the next 4,096 elements of a Leaf on a logical lane. On a verify mismatch the
block is encoded again on another lane, to the same bytes. -/
def execEncodeBlock (leaf : Nat) (lane : BitVec 6) (obs : EncObs) (s : State) : Out :=
  .next <|
    match s.madder.enc.find? (fun e => e.id == leaf), s.madder.encMap[lane.toNat]? with
    | some e, some phys =>
      if !s.mainUp then s
      else
        let w := formatWidth e.format
        let raw := (e.raw.drop (e.done * w)).take (4096 * w)
        match obs with
        | .storeUe => s.loseEnc e raw
        | .clean =>
          let s := if s.verifyTurn lane.toNat phys && s.verifyLane.isSome then s.passTurn lane.toNat else s
          s.emitBlock e raw
        | .verifyMismatch a b =>
          match s.verifyLane with
          | some v =>
            if s.verifyTurn lane.toNat phys then ((s.passTurn lane.toNat).verifyMismatch phys v a b).emitBlock e raw
            else s.emitBlock e raw
          | none => s.emitBlock e raw
    | _, _ => s

/-! Decoding (R172 to R174) -/

/-- A Leaf leaves QUARANTINE. -/
def State.dropQ (s : State) (id : Nat) : State :=
  s.setVault fun v => { v with quarantine := v.quarantine.filter (fun q => q.id != id) }

/-- A decoded Leaf that fails: dropped, and asked for once more (10 R255). -/
def State.failQ (s : State) (q : QLeaf) : State :=
  let s := s.dropQ q.id
  match q.owner with
  | .vault task i => (s.vaultLeafFailed task i).pumpVault task 8
  | o => s.leafFailed o

/-- Madder reports an outcome of Table 07-9 to the task that owns a Leaf (R183). -/
def State.reportQ (s : State) (q : QLeaf) (code detail detail2 : Nat) : State :=
  let x := some (code, detail, detail2)
  match q.owner with
  | .vault task i => s.setWant task i (fun w => { w with outcome := x })
  | .mirror task i => s.setWant task i (fun w => { w with outcome := x })
  | .rollback j _ _ => s.setWeld (jobOf j) fun w => { w with rollback := w.rollback.map (fun r => { r with outcome := x }) }

/-- A Leaf that the decoder rejects and that is not asked for again: it is missing (R172, 10 R255). -/
def State.rejectQ (s : State) (q : QLeaf) : State :=
  let s := (s.dropQ q.id).bump Od.restoreLeafDropCount
  match q.owner with
  | .vault task i => (s.setWant task i (fun w => { w with status := 3 })).pumpVault task 8
  | .mirror task i => (s.mirrorMissing task i 0).settleMirror task
  | .rollback j hid leaf => s.rollbackMissing (jobOf j) hid leaf

/-- A Leaf that names no generation that decodes (10 R255): from a Vault its image is fetched, from another engine it is
missing. -/
def State.absentQ (s : State) (q : QLeaf) (gen : Nat) : State :=
  match q.owner with
  | .vault task i => ((s.dropQ q.id).wantGeneration task i gen).pumpVault task 8
  | _ => s.rejectQ q

/-- The decoder drops a Leaf: what it counts, what it reports, and what follows (R172 to R174, log entry 153). -/
def State.badLeaf (s : State) (q : QLeaf) (code detail detail2 : Nat) : State :=
  let s := s.reportQ q code detail detail2
  if code == 0x1020 then (s.bump Od.malformedLeafCount).rejectQ q
  else if code == 0x1021 then (s.bump Od.genAbsentCount).absentQ q detail2
  else (s.bump Od.decodeErrCount).failQ q

/-- The task in whose name a Leaf in quarantine is written. -/
def State.writerOf (s : State) (q : QLeaf) : Nat :=
  match q.owner with
  | .mirror task _ => task
  | .vault task _ => task
  | .rollback j _ _ => (((s.weld (jobOf j)).rollback).map (·.task)).getD 0

/-- A Leaf whose digest compares equal: kept for the roll-forward of a Vault restore, else written to its Holding. -/
def State.placeQ (s : State) (q : QLeaf) (raw : Bytes) : State :=
  match q.owner with
  | .vault task i => ((s.dropQ q.id).takeLeaf task i raw).pumpVault task 8
  | _ =>
    match s.holding? q.holding with
    | none => s.failQ q
    | some h =>
      match s.restoreWrite (s.writerOf q) (leafKey q.holding q.leaf) h (q.leaf * leafElems h.width * h.width) raw with
      | (s, true) => s.dropQ q.id
      | (s, false) => s

/-- An extent of a range is pending (R65). -/
def State.rangePending (s : State) (h : Holding) (off n : Nat) : Bool :=
  (h.extentsOf off n).any (fun e => s.extentPending h.id e)

/-- The Leaf could be written now: its Holding's extents are valid. -/
def State.writableQ (s : State) (q : QLeaf) : Bool :=
  match q.owner with
  | .vault _ _ => true
  | _ =>
    match s.holding? q.holding with
    | some h => !(s.rangePending h (q.leaf * leafElems h.width * h.width) (h.leafBytes q.leaf))
    | none => true

/-- What a Leaf in quarantine takes of a frame when it is decoded and, but for a roll-forward's, written (R179, R258). -/
def State.decodeUnits (q : QLeaf) : Units :=
  let write := match q.owner with | .vault _ _ => 0 | _ => q.count * formatWidth q.format
  { write := write, galRead := q.coded.length, galWrite := q.coded.length, dec := q.count }

/-- DECODE_LEAF (R172 to R174): a code error or RAW_CHECK mismatch that the lane alone has caused is put right by the second
decode, and the lane is tested at the next boundary. -/
def execDecodeLeaf (leaf : Nat) (lane : BitVec 6) (laneError : Bool) (s : State) : Out :=
  .next <|
    match s.vault.quarantine.find? (fun q => q.id == leaf), s.madder.decMap[lane.toNat]? with
    | some q, some phys =>
      if !s.mainUp || !s.writableQ q then s
      else match s.takeUnits (.restore (s.writerOf q)) (s.restoreRank (s.writerOf q)) (State.decodeUnits q) with
      | none => s
      | some s => match decodeLeafBytes s.liveGens q.format q.count q.coded with
        | .raw raw =>
          let s := if laneError then
              ((s.bump Od.decodeErrCount).bump Od.decodeRetryOkCount).setMadder fun m =>
                { m with suspect := m.suspect ++ [(true, phys, s.frame)] }
            else s
          if Config.sha3 raw % 2 ^ 256 == q.digest then s.placeQ q raw else s.failQ q
        | .bad code detail detail2 => s.badLeaf q code detail detail2
    | _, _ => s

/-- The writes of a restored Leaf are all accepted (MWR_CPL). -/
def State.restoreWritten (s : State) (task key : Nat) : State :=
  if s.reqOut (fun o => o == .restoreWrite task key) then s
  else match s.restore? task with
    | some r =>
      if r.mirror then
        match r.wants.findIdx? (fun w => leafKey w.holding w.leaf == key && w.status == 1) with
        | some i => (s.setWant task i (fun w => { w with status := 2 })).settleMirror task
        | none => s
      else s.pumpVault task 8
    | none =>
      match (List.finRange 4).find? (fun j => ((s.weld j).rollback.map (·.task)) == some task) with
      | some j => s.rollbackWritten j (key / 2 ^ 32) (key % 2 ^ 32)
      | none => s

end Sys2Proof.Machine
end

