-- ==== Sys2Proof/Machine/Issue.lean ====
section
/-!
DEFINITION. Feeding the lanes and the array: the fetch engine (R124, R125, R147), the issue of elements with their taps
(R13, R106 to R120, R126, R138 to R142), the run-in (R127), and what a slice leaves when it commits or rolls back (R26 to
R30).
-/
namespace Sys2Proof.Machine

/-! Operands of a lane task -/

/-- A lane task: UPDATE, WOAD_COMPRESS, MIRROR_APPLY. -/
def Task.lane (t : Task) : Bool := t.type == 0x11 || t.type == 0x12 || t.type == 0x16

/-- Units of the present pass: elements, or the one unit of the work at the end of ADAFACTOR's pass 1 (R114). -/
def Task.units (t : Task) : Nat := if t.pass == 11 then 1 else t.len

/-- A role that a task names, as Holding and role. -/
def Task.operand (t : Task) (role : Nat) : List (Nat × Nat) := if t.named role then [(t.roleHid role, role)] else []

/-- Operands that a lane task streams in its present pass, as Holding and role (R107, R114, R138). -/
def Task.streamed (t : Task) : List (Nat × Nat) :=
  if t.type == 0x12 then [(t.wGrad, 4), (t.wEf, 5)]
  else
    let grad := if t.type == 0x11 && t.gradSrc == 0 then t.operand 4 else []
    if t.kernel != 3 then grad ++ t.operand 1 ++ t.operand 2 ++ t.operand 3
    else if t.pass == 11 then []
    else grad ++ (if t.pass == 3 then t.operand 1 ++ t.operand 2 else []) ++ (if t.factored then [] else t.operand 3)

/-- Roles that a lane task writes element by element in its present pass. -/
def Task.written (t : Task) : List Nat :=
  if t.type == 0x12 then []
  else if t.kernel != 3 then [1, 0, 2, 3].filter t.named
  else if t.pass == 3 then [1, 0, 2].filter t.named
  else if t.pass == 1 && !t.factored then [3]
  else []

/-- Width of a Holding's elements. -/
def State.hidWidth (s : State) (hid : Nat) : Nat := max 1 (((s.holding? hid).map (·.width)).getD 1)

/-- Elements of a fetch group: a Leaf of the widest streamed operand (R124). -/
def State.groupSize (s : State) (t : Task) : Nat := 1048576 / (t.streamed.foldl (fun n x => max n (s.hidWidth x.1)) 1)

/-- The stream buffer of a Leaf. -/
def State.leafBuf (s : State) (task hid leaf : Nat) : Option StreamBuf :=
  s.update.streams.find? (fun b => b.task == task && b.holding == hid && b.leaf == leaf)

/-- The Leaf that holds an element. -/
def leafOf (h : Holding) (e : Nat) : Nat := e * h.width / 1048576

/-- Carrier addresses of the bytes of an element. -/
def Holding.elemAddrs (h : Holding) (e : Nat) : List Nat :=
  match (h.addrOf e).1 with
  | some a => (List.range h.width).map (fun k => a + k)
  | none => []

/-- The bytes of an element in the stream buffers, when all are present (R126). -/
def State.elemBytes (s : State) (task : Nat) (h : Holding) (e : Nat) : Option Bytes :=
  match s.leafBuf task h.id (leafOf h e) with
  | none => none
  | some b =>
    let l := (h.elemAddrs e).filterMap (assoc b.cells)
    if l.length == h.width && h.width != 0 then some l else none

/-- An element of an operand is poisoned (R66). -/
def State.elemPoison (s : State) (task : Nat) (h : Holding) (e : Nat) : Bool :=
  ((s.leafBuf task h.id (leafOf h e)).map (fun b => b.poison.any (fun p => p.1 ≤ e && e < p.2))).getD false

/-- The value of an element in FP32. -/
def State.elemValue (s : State) (task : Nat) (h : Holding) (e : Nat) : Nat :=
  fwiden h.format (leNat ((s.elemBytes task h e).getD []))

/-- The next element that a task issues. -/
def Task.next (t : Task) : Nat := t.issued + t.runIn

/-! Factor rows (R141, R147) -/

/-- Columns of P_prev that a PHASE 0 takes from its factor Holding (R141). -/
def State.keptColumns (s : State) (t : Task) : Nat :=
  match s.woad.runs.find? (fun r => r.task == t.id) with
  | some r => r.kept
  | none =>
    if t.wInit then 0 else ((s.factorSet? t.job t.wFactor).map (fun f => min f.rank t.wRank)).getD 0

/-- Factor Holding, columns and ncols of the P rows that a task streams. -/
def State.rowShape (s : State) (t : Task) : Option (Holding × Nat × Nat) :=
  if t.type == 0x12 && t.wPhase == 0 then
    (s.holdingIn t.job t.wFactor).map (fun h => (h, s.keptColumns t, max 1 (s.woadCols t)))
  else if t.type == 0x11 && t.gradSrc == 1 then
    match s.holdingIn t.job (t.roleHid 4), s.factorSet? t.job (t.roleHid 4) with
    | some h, some f => some (h, f.rank, max 1 f.ncols)
    | _, _ => none
  else none

/-- The matrix row of an element (R142). -/
def Task.matrixRow (t : Task) (ncols e : Nat) : Nat := ((if t.type == 0x11 then t.f 511 448 else 0) + e) / ncols

/-- Elements of the factor Holding that row i of k columns takes. -/
def rowElems (h : Holding) (k i : Nat) : List Nat := (List.range k).map (fun c => i * descSize h.desc 0 + c)

/-- Rows of P that elements a to b of a task need. -/
def State.rowsFor (s : State) (t : Task) (a b : Nat) : List Nat :=
  match s.rowShape t with
  | none => []
  | some (_, _, nc) =>
    if b ≤ a then [] else
      let lo := t.matrixRow nc a
      (List.range (t.matrixRow nc (b - 1) + 1 - lo)).map (fun k => lo + k)

/-- Piece of a row of P, for an UPDATE (R147). -/
def State.pieceOf (s : State) (t : Task) (row : Nat) : Nat :=
  row / 2 ^ ((s.factorSet? t.job (t.roleHid 4)).map (·.pieceLog2)).getD 0

/-- The fetch engine observes the piece words of rows: a word seen full stays seen for the task (R147). -/
def State.seePieces (s : State) (t : Task) (rows : List Nat) : State :=
  if t.type != 0x11 then s
  else match s.factorSet? t.job (t.roleHid 4) with
    | none => s
    | some f =>
      let ps := (rows.map (s.pieceOf t)).eraseDups.filter (fun p =>
        (s.syncWord (f.pieceSync + p)).full && !s.woad.pieces.contains (t.id, p))
      s.setWoad fun w => { w with pieces := w.pieces ++ ps.map (fun p => (t.id, p)) }

/-- A row may be fetched. -/
def State.rowOpen (s : State) (t : Task) (row : Nat) : Bool :=
  t.type != 0x11 || s.woad.pieces.contains (t.id, s.pieceOf t row)

/-! Fetching (R94, R124, R125) -/

/-- A block of 256 bytes to be read for a Leaf: Holding, Leaf, number of the block, extent. -/
structure FetchBlock where
  holding : Holding
  leaf    : Nat
  block   : Nat
  extent  : Nat
  deriving DecidableEq, Repr

/-- The blocks of elements of a Holding that the task's buffers have not and has not asked for. -/
def State.blocksFor (s : State) (t : Task) (h : Holding) (es : List Nat) : List FetchBlock :=
  let need := es.filter (fun e => !s.elemPoison t.id h e)
  let all : List FetchBlock := need.flatMap (fun e => (h.elemAddrs e).map (fun a =>
    { holding := h, leaf := leafOf h e, block := a / 256, extent := (h.addrOf e).2 }))
  all.eraseDups.filter (fun x =>
    !(((s.leafBuf t.id h.id x.leaf).map (fun b => b.cells.any (fun c => c.1 / 256 == x.block))).getD false) &&
    !s.carrier.reqs.any (fun r => r.owner == .sliceRead t.id h.id x.leaf && r.addr / 256 == x.block))

/-- Blocks of the operands that a task streams, of elements a to b. -/
def State.streamBlocks (s : State) (t : Task) (a b : Nat) : List FetchBlock :=
  let es := (List.range (b - a)).map (fun k => a + k)
  (t.streamed.filterMap (fun x => s.holdingIn t.job x.1)).flatMap (fun h => s.blocksFor t h es)

/-- Blocks of the P rows of elements a to b that may be fetched. -/
def State.rowBlocks (s : State) (t : Task) (a b : Nat) : List FetchBlock :=
  match s.rowShape t with
  | some (h, k, _) => s.blocksFor t h (((s.rowsFor t a b).filter (s.rowOpen t)).flatMap (rowElems h k))
  | none => []

/-- Blocks of a group's operands, and of the P rows that may be fetched. -/
def State.groupBlocks (s : State) (t : Task) (a b : Nat) : List FetchBlock := s.streamBlocks t a b ++ s.rowBlocks t a b

/-- Leaves that the elements a to b open: Holding and Leaf. -/
def State.groupLeaves (s : State) (t : Task) (a b : Nat) : List (Nat × Nat) :=
  let es := (List.range (b - a)).map (fun k => a + k)
  let ops := t.streamed.filterMap (fun x => s.holdingIn t.job x.1)
  let rows := match s.rowShape t with
    | some (h, k, _) => ((s.rowsFor t a b).flatMap (rowElems h k)).map (fun e => (h.id, leafOf h e))
    | none => []
  ((ops.flatMap (fun h => es.map (fun e => (h.id, leafOf h e))) ++ rows).eraseDups).filter (fun x =>
    (s.leafBuf t.id x.1 x.2).isNone)

/-- The end of a group. -/
def State.groupEnd (s : State) (t : Task) (a : Nat) : Nat :=
  let g := max 1 (s.groupSize t)
  min t.len ((a / g + 1) * g)

/-- First element of the next group to start: from the next element to be issued, the first group of which the widest
operand has no buffer. -/
def State.nextGroup (s : State) (t : Task) : Nat → Nat → Option Nat
  | 0, _ => none
  | k + 1, a =>
    if t.len ≤ a || t.pass == 11 then none
    else if s.groupLeaves t a (s.groupEnd t a) != [] && t.streamed.all (fun x =>
        (s.hidWidth x.1 * s.groupSize t != 1048576) || ((s.holding? x.1).map (fun h => (s.leafBuf t.id x.1 (leafOf h a)).isNone)).getD true)
      then some a
    else s.nextGroup t k (s.groupEnd t a)

/-- The group that a task's fetch would start now. -/
def State.groupToStart (s : State) (t : Task) : Option Nat :=
  if t.streamed == [] then none else s.nextGroup t (t.len / max 1 (s.groupSize t) + 2) t.next

/-- The four granules of a block. -/
def blockGranules (b : Nat) : List Nat := (List.range 4).map (fun k => b * 256 + 64 * k)

/-- A block must wait for an outstanding write. -/
def State.blockWaits (s : State) (x : FetchBlock) : Bool := s.readWaits (blockGranules x.block)

/-- The blocks meet an extent that is pending or not valid. -/
def State.blocksBlocked (s : State) (t : Task) (a b : Nat) : Option (Nat × Nat) :=
  let ops := t.streamed.filterMap (fun x => s.holdingIn t.job x.1)
  let es := (List.range (b - a)).map (fun k => a + k)
  let rows := match s.rowShape t with
    | some (h, k, _) => ((s.rowsFor t a b).flatMap (rowElems h k)).map (fun e => (h, e))
    | none => []
  let all := ops.flatMap (fun h => es.map (fun e => (h, e))) ++ rows
  (all.map (fun x => (x.1.id, (x.1.addrOf x.2).2, x.1))).findSome? (fun x =>
    if s.extentPending x.1 x.2.1 || !bitOf (x.2.2.entry x.2.1) 0 then some (x.1, x.2.1) else none)

/-- Put bytes into a buffer. -/
def State.fillBuf (s : State) (task hid leaf : Nat) (cells : List (Nat × Byte)) : State :=
  s.setUpdate fun u =>
    { u with streams := mapIf u.streams (fun b => b.task == task && b.holding == hid && b.leaf == leaf)
               (fun b => { b with cells := b.cells ++ cells, waiting := b.waiting - 1 }) }

/-- Issue the read of a block: one MRD of 256 bytes, or its granules one by one where the outbound buffer holds some
(R94, R124). -/
def State.fetchBlock (s : State) (t : Task) (x : FetchBlock) : State :=
  let owner : ReqOwner := .sliceRead t.id x.holding.id x.leaf
  let ext := some (x.holding.id, x.extent)
  let sec := s.holdingSecure x.holding
  let hits := (blockGranules x.block).filter (fun g => (s.granuleState g).isSome)
  let count (s : State) (n : Nat) : State := s.setUpdate fun u =>
    { u with streams := mapIf u.streams (fun b => b.task == t.id && b.holding == x.holding.id && b.leaf == x.leaf)
               (fun b => { b with waiting := b.waiting + n }) }
  if hits == [] then (count s 1).mrd owner (x.block * 256) 4 ext sec
  else (blockGranules x.block).foldl (fun (s : State) g =>
    match s.granuleState g with
    | some (some l) => (State.fillBuf (count s 1) t.id x.holding.id x.leaf l).bump Od.outboundHitCount
    | _ => (count s 1).mrd owner g 1 ext sec) s

/-- Charge blocks that no slice of the frame counts to what the frame leaves of the D2D read share and of the Gallery write
budget (R125, R148): those that fit move in this frame. -/
def State.payBlocks (s : State) (l : List FetchBlock) : State × List FetchBlock :=
  let n := min l.length (min (s.carrier.left.read / 256) (s.carrier.left.galWrite / 256))
  (s.setCarrier fun c => { c with left := c.left.less { read := 256 * n, galWrite := 256 * n } }, l.take n)

/-- End of what the frame has granted a task. -/
def Task.grantEnd (t : Task) : Nat :=
  match t.slice with
  | some x => t.done + x.size
  | none => t.done

/-- Bytes per element that a task streams in. -/
def State.streamIn (s : State) (t : Task) : Nat := sumOf (t.streamed.map (fun x => s.hidWidth x.1))

/-- A task's fetch may be served: it runs, has not been told to stop, and its Holdings are there. -/
def Task.fetches (t : Task) : Bool := t.lane && t.phase == .running && (t.failWith.map (·.1)) != some 0x0024

/-- The next group of a task could start, but for credit and share. -/
def State.fetchable (s : State) (t : Task) : Bool :=
  t.fetches && match s.groupToStart t with
    | none => false
    | some a =>
      let b := s.groupEnd t a
      (s.blocksBlocked t a b).isNone && !(s.groupBlocks t a b).any s.blockWaits

/-- The lane tasks in the order in which R15 grants them: rank 4, then rank 5, in submission order (Table 01-4). -/
def State.laneOrder (s : State) : List Task :=
  let l := s.sched.tasks.filter (fun t => t.lane)
  l.filter (fun t => t.type != 0x16) ++ l.filter (fun t => t.type == 0x16)

/-- A fetch ahead is in its turn: no task before it could be fetched ahead (R125). -/
def State.aheadTurn (s : State) (t : Task) : Bool :=
  ((s.laneOrder.takeWhile (fun u => u.id != t.id)).filter s.fetchable).isEmpty

/-- Fetch blocks of elements a to b: what the task's slice counts at once, the rest as far as the frame's unused part goes
(R125). -/
def State.fetchRange (s : State) (t : Task) (a b : Nat) (ok : FetchBlock → Bool) : State :=
  let free := s.streamBlocks t a (min b (max a t.grantEnd))
  let (s, paid) := s.payBlocks ((s.groupBlocks t a b).filter (fun x => ok x && !free.contains x))
  ((free.filter ok) ++ paid).foldl (fun s x => s.fetchBlock t x) s

/-- Open the buffers of a group and fetch its operands. -/
def State.openGroup (s : State) (t : Task) (a b : Nat) : State :=
  let leaves := s.groupLeaves t a b
  let s := s.setUpdate fun u =>
    { u with streams := u.streams ++ leaves.map (fun x => { task := t.id, holding := x.1, leaf := x.2, waiting := 0, cells := [] }) }
  s.fetchRange t a b (fun _ => true)

/-- Start a fetch group (R124): a blocked extent is a translation fault, credits must be free for every Leaf it opens, and
a group ahead of the frame's grant needs its turn and an unused part of the frame (R125). -/
def State.startGroup (s : State) (t : Task) (a : Nat) : State :=
  let b := s.groupEnd t a
  let inSlice := decide (a < t.grantEnd)
  match s.blocksBlocked t a b with
  | some (hid, e) =>
    if s.extentPending hid e then s
    else
      let s := s.xlatFault hid e
      if inSlice then s.faultSlice t.id true else s
  | none =>
    if (s.groupBlocks t a b).any s.blockWaits then s
    else if !inSlice && (!s.aheadTurn t || s.carrier.left.read < 256 || s.carrier.left.galWrite < 256) then s
    else if s.cfg Od.streamCredits < s.streamUsed + (s.groupLeaves t a b).length then
      (s.total Od.creditStallCycles 1).waitSpace
    else s.openGroup t a b

/-- A block of a group already started that is still to be asked for: P rows whose pieces have come since, and what the
frame's unused part did not reach. -/
def State.lateBlock (s : State) (t : Task) (x : FetchBlock) : Bool :=
  (s.leafBuf t.id x.holding.id x.leaf).isSome && !s.extentPending x.holding.id x.extent && !s.blockWaits x

/-- FETCH_GROUP_START (R124, R125, R147). -/
def execFetchGroupStart (task : Nat) (s : State) : Out :=
  .next <| match s.task? task with
    | none => s
    | some t =>
      if !t.fetches || !s.carrier.mainband then s
      else
        let a := (s.groupToStart t).getD t.len
        let b := if t.len ≤ a then t.len else s.groupEnd t a
        let s := s.seePieces t (s.rowsFor t t.next b)
        if (s.groupBlocks t t.next a).any (s.lateBlock t) then s.fetchRange t t.next a (s.lateBlock t)
        else match s.groupToStart t with
          | some a => s.startGroup t a
          | none => s

/-! Reads beside the stream: factor rows for the cache, R and C of ADAFACTOR (R114, R148, R151) -/

/-- Ask for elements of a Holding in buffers that take no credit. -/
def State.startSide (s : State) (t : Task) (h : Holding) (es : List Nat) : State :=
  let leaves := ((es.map (leafOf h)).eraseDups).filter (fun l => (s.leafBuf t.id h.id l).isNone)
  let s := s.setUpdate fun u =>
    { u with streams := u.streams ++ leaves.map (fun l =>
        { task := t.id, holding := h.id, leaf := l, waiting := 0, cells := [], side := true }) }
  let blocks := s.blocksFor t h es
  match blocks.find? (fun x => s.extentPending h.id x.extent), es.find? (fun e => (h.addrOf e).1.isNone) with
  | some _, _ => s
  | none, some e => if s.extentPending h.id (h.addrOf e).2 then s else s.xlatFault h.id (h.addrOf e).2
  | none, none =>
    if blocks.any s.blockWaits || !s.carrier.mainband then s
    else
      let (s, blocks) := s.payBlocks blocks
      blocks.foldl (fun s x => s.fetchBlock t x) s

/-- The elements are all present. -/
def State.sideReady (s : State) (t : Task) (h : Holding) (es : List Nat) : Bool :=
  es.all (fun e => (s.elemBytes t.id h e).isSome)

/-- An element asked for is poisoned. -/
def State.sidePoison (s : State) (t : Task) (h : Holding) (es : List Nat) : Bool := es.any (s.elemPoison t.id h)

/-- Elements of the factor Holding that hold Q or Q̂, row by row. -/
def factorRows (h : Holding) (nrows ncols r : Nat) : List Nat :=
  (List.range ncols).flatMap (fun j => rowElems h r (nrows + j))

/-! Writing results -/

/-- The slice, or the run-in, of a key writes elements of a Holding, each with its bytes. -/
def State.writeElems (s : State) (key : Nat) (h : Holding) (es : List (Nat × Bytes)) : State :=
  let cells := es.flatMap (fun x => (h.elemAddrs x.1).zip x.2)
  (groupCells (sortBy (·.1) cells)).foldl (fun (s : State) g =>
    let e := (es.map (fun x => (h.addrOf x.1).2)).find? (fun e => bitsOf (h.entry e) 63 21 == g.1 / 2 ^ 21)
    (s.mwr (.sliceWrite key) g.1 1 g.2 (e.map (fun e => (h.id, e))) (s.holdingSecure h)).setDirty
      (fun l => dirtyWrite l key g.1 (g.1 + 64))) s

/-- A granule that elements of a Holding would be written to has a write outstanding (R55). -/
def State.writeBusy (s : State) (h : Holding) (es : List Nat) : Bool :=
  (((es.flatMap h.elemAddrs).map (fun a => a / 64 * 64)).eraseDups).any s.granuleBusy

/-- Elements of a Holding would be written to an extent that is pending or not valid. -/
def State.writeBlocked (s : State) (h : Holding) (es : List Nat) : Option Nat :=
  (es.map (fun e => (h.addrOf e).2)).find? (fun x => s.extentPending h.id x || !bitOf (h.entry x) 0)

/-- The write stream's digest of a Leaf takes the bytes of an element (R13), in the slice or in the run-in. -/
def State.digestElem (s : State) (t : Task) (h : Holding) (e : Nat) (bs : Bytes) (ahead : Bool) : State :=
  let leaf := leafOf h e
  let off := e * h.width % 1048576
  let hit (d : LeafDigest) : Bool :=
    d.reader == 0 && d.job == t.job.val && d.step == t.step && d.holding == h.id && d.leaf == leaf
  let cells := bs.mapIdx (fun k b => (off + k, b))
  s.setUpdate fun u =>
    let l := if u.digests.any hit then u.digests
      else u.digests ++ [{ job := t.job.val, step := t.step, holding := h.id, leaf := leaf, bytes := [] }]
    { u with digests := mapIf l hit (fun d =>
        if ahead then { d with runBytes := d.runBytes ++ cells } else { d with partialBytes := d.partialBytes ++ cells }) }

/-- The digest of a Leaf that holds a poisoned element is marked (R66). -/
def State.digestPoison (s : State) (t : Task) (h : Holding) (e : Nat) : State :=
  let leaf := leafOf h e
  let hit (d : LeafDigest) : Bool :=
    d.reader == 0 && d.job == t.job.val && d.step == t.step && d.holding == h.id && d.leaf == leaf
  s.setUpdate fun u =>
    let l := if u.digests.any hit then u.digests
      else u.digests ++ [{ job := t.job.val, step := t.step, holding := h.id, leaf := leaf, bytes := [] }]
    { u with digests := mapIf l hit (fun d => { d with poisoned := true }) }

/-- A tap keeps bytes of an operand for the Ledger: they stay when the slice rolls back (R30). -/
def State.tapBytes (s : State) (t : Task) (h : Holding) (e : Nat) (bs : Bytes) : State :=
  let leaf := leafOf h e
  let off := e * h.width % 1048576
  let hit (d : LeafDigest) : Bool := d.reader == t.id + 1 && d.holding == h.id && d.leaf == leaf
  let cells := bs.mapIdx (fun k b => (off + k, b))
  s.setUpdate fun u =>
    let l := if u.digests.any hit then u.digests
      else u.digests ++ [{ reader := t.id + 1, job := t.job.val, step := t.step, holding := h.id, leaf := leaf, bytes := [] }]
    { u with digests := mapIf l hit (fun d =>
        if d.bytes.any (fun c => c.1 == off) then d else { d with bytes := d.bytes ++ cells }) }

/-! One element -/

/-- The span of a MIRROR_APPLY's element may be written (R221). -/
def State.spanOpen (s : State) (t : Task) (e : BitVec 1024) (elem : Nat) : Bool :=
  let master := bitsOf e 191 176
  match (s.weld t.job).inGroups.find? (fun g => g.master == master) with
  | none => true
  | some g =>
    match (s.weld t.job).inSpans.find? (fun x => x.master == master && x.index == elem / max 1 g.span) with
    | none => true
    | some x => !x.stale && decide (x.copy < t.step)

/-- An element is written: of an UPDATE always, of a MIRROR_APPLY as its span stands. -/
def State.writesElem (s : State) (t : Task) (elem : Nat) : Bool :=
  t.type != 0x16 || ((s.applyEntry t).map (fun e => s.spanOpen t e elem)).getD false

/-- R and C of a MIRROR_APPLY are written: some span is, and no copy has brought the step's own (log entry 67). -/
def State.writesStats (s : State) (t : Task) : Bool :=
  if t.type != 0x16 then true
  else match s.applyEntry t with
    | none => false
    | some e =>
      let l := (s.weld t.job).inSpans.filter (fun x => x.master == bitsOf e 191 176)
      (l == [] || l.any (fun x => !x.stale)) && !l.any (fun x => t.step ≤ x.copy)

/-- The replay fields of a lane task (R106, R226). -/
def State.laneArgs (s : State) (t : Task) : KernelArgs :=
  let lineage := (s.job t.job).lineage
  if t.type == 0x16 then ((s.applyEntry t).map (fun e => entryArgs e lineage t.step)).getD (t.updateArgs lineage 0)
  else t.updateArgs lineage (s.update.kernels.level t.kernel)

/-- RECORD_DATA of the entry of a MIRROR_APPLY, in order. -/
def State.applyData (s : State) (t : Task) : List Bytes :=
  match (s.weld t.job).inRecords.find? (fun r => r.complete && r.step == t.step) with
  | none => []
  | some r =>
    (sortBy (fun d => d.2.1) (r.data.filter (fun d => d.1 == t.f 815 800))).map (·.2.2)

/-- Row i of P in the stream buffers. -/
def State.streamRow (s : State) (t : Task) (i : Nat) : List Nat :=
  match s.rowShape t with
  | some (h, k, _) => (rowElems h k i).map (s.elemValue t.id h)
  | none => []

/-- The residency that a task works with. -/
def State.taskResidency (s : State) (t : Task) : Option Residency :=
  (s.cacheKey t).bind (fun k => s.residency? k.1 k.2.1 k.2.2)

/-- The gradient x of an element (R110). -/
def State.laneGradient (s : State) (t : Task) (e : Nat) : Nat :=
  if t.type == 0x16 then ((s.applyEntry t).bind (fun x => entryGradient x (s.applyData t) e)).getD 0
  else if t.gradSrc == 1 then
    match s.rowShape t, s.taskResidency t with
    | some (_, k, nc), some r => woadValue (s.streamRow t (t.matrixRow nc e)) (rowOf r.q k ((t.f 511 448 + e) % nc))
    | _, _ => 0
  else ((s.holdingIn t.job (t.roleHid 4)).map (fun h => s.elemValue t.id h e)).getD 0

/-- The value of a role of an element in FP32, zero where the role is not streamed. -/
def State.roleValue (s : State) (t : Task) (role e : Nat) : Nat :=
  match s.roleHolding t role with
  | some h => s.elemValue t.id h e
  | none => 0

/-- The FORMAT of a role. -/
def State.roleFmt (s : State) (t : Task) (role : Nat) : Nat := ((s.roleHolding t role).map (·.format)).getD 0

/-- What one element leaves: bits by role, saturation of the weight, and the statistics. -/
structure ElemResult where
  bits  : List (Nat × Nat)
  sat   : Bool
  sums  : AdaSums
  deriving DecidableEq, Repr

/-- An element through the kernel of its task in the present pass (R110 to R118). -/
def State.runElem (s : State) (t : Task) (a : KernelArgs) (st : AdaStats) (sums : AdaSums) (e : Nat) : ElemResult :=
  let (w0, w1, w2, _) := a.words e
  let g := a.gradient (s.laneGradient t e)
  let x : ElemIn := { g := g, p := s.roleValue t 1 e, m := s.roleValue t 2 e, v := s.roleValue t 3 e }
  let out (o : ElemOut) (second : Bool) : ElemResult :=
    let (wb, sat) := a.weight (s.roleFmt t 0) o.p w0
    let all := [(1, o.p), (0, wb), (2, a.moment (s.roleFmt t 2) o.m w1)] ++
      (if second then [(3, a.moment (s.roleFmt t 3) o.v w2)] else [])
    { bits := all.filter (fun p => t.named p.1), sat := sat && t.named 0, sums := sums }
  if a.kernel != 3 then out (a.run x) true
  else
    let nc := max 1 sums.colsum.length
    let vh := if t.factored then adaFactored (sums.rowsum.getD (e / nc) 0) (sums.colsum.getD (e % nc) 0) st.rtot else x.v
    if t.pass == 1 then
      let q := adaSquare a g
      if t.factored then { bits := [], sat := false, sums := sums.takeSquare nc e q }
      else { bits := [(3, a.moment (s.roleFmt t 3) (adaMoment a x.v q) w2)], sat := false, sums := sums }
    else if t.pass == 2 then { bits := [], sat := false, sums := sums.takeU t.len e (adaU g vh) }
    else out (adaPass3 a (t.named 2) st.clip vh x) false

/-! A group of elements (R126) -/

/-- An element is not issued: an operand that covers it is poisoned (R66). -/
def State.skipsElem (s : State) (t : Task) (e : Nat) : Bool :=
  t.streamed.any (fun x => ((s.holdingIn t.job x.1).map (fun h => s.elemPoison t.id h e)).getD false) ||
  (match s.rowShape t with
   | some (h, k, nc) => (rowElems h k (t.matrixRow nc e)).any (s.elemPoison t.id h)
   | none => false) ||
  (t.factored && t.pass != 1 && (match s.update.stats.find? (fun x => x.task == t.id) with
   | some x => x.badRows.contains (e / max 1 x.now.colsum.length) || x.badCols.contains (e % max 1 x.now.colsum.length)
   | none => false))

/-- Every operand of an element is present. -/
def State.hasElem (s : State) (t : Task) (e : Nat) : Bool :=
  s.skipsElem t e ||
  (t.streamed.all (fun x => ((s.holdingIn t.job x.1).map (fun h => (s.elemBytes t.id h e).isSome)).getD false) &&
   (match s.rowShape t with
    | some (h, k, nc) => (rowElems h k (t.matrixRow nc e)).all (fun x => (s.elemBytes t.id h x).isSome)
    | none => true) &&
   ((s.cacheKey t).isNone || (t.type == 0x12 && t.wPhase == 1) || (s.taskResidency t).isSome))

/-- The taps take an element from the read stream (R13, R66, R237, R239): captures, and the gradient or the P row for the
Ledger. ADAFACTOR's operands are tapped in the first pass that reads them. -/
def State.tapElem (s : State) (t : Task) (e : Nat) : State :=
  let skip := s.skipsElem t e
  let first (role : Nat) : Bool := t.type != 0x11 || t.kernel != 3 || t.pass == 1 || role == 1 || role == 2
  let ops := (t.streamed.filter (fun x => first x.2)).filterMap (fun x => (s.holdingIn t.job x.1).map (fun h => (h, x.2)))
  let s := if t.type == 0x16 then s else ops.foldl (fun (s : State) x =>
    if skip then s.tapPoison t.id x.1.id (leafOf x.1 e)
    else s.tapRead t.id x.1.id e ((s.elemBytes t.id x.1 e).getD [])) s
  if t.type != 0x11 || !s.stages t || !first 4 then s
  else if t.gradSrc == 0 then
    match s.holdingIn t.job (t.roleHid 4) with
    | some h => s.tapBytes t h e (if s.elemPoison t.id h e then leBytes h.width 0 else (s.elemBytes t.id h e).getD (leBytes h.width 0))
    | none => s
  else match s.rowShape t with
    | some (h, k, nc) => (rowElems h k (t.matrixRow nc e)).foldl (fun (s : State) x =>
        s.tapBytes t h x ((s.elemBytes t.id h x).getD (leBytes h.width 0))) s
    | none => s

/-- Statistics of a task, empty where it has none. -/
def State.adaStats (s : State) (t : Task) : AdaStats :=
  let zero : AdaSums := { rowsum := [], colsum := [], block := [], total := 0 }
  (s.update.stats.find? (fun x => x.task == t.id)).getD { task := t.id, now := zero, saved := zero }

/-- Change the statistics of a task. -/
def State.setStats (s : State) (task : Nat) (f : AdaStats → AdaStats) : State :=
  s.setUpdate fun u => { u with stats := mapIf u.stats (fun x => x.task == task) f }

/-- Lane results of elements [a, b), gathered: bytes by role and element, the sums, and the counts of R117, R120, R132. -/
structure LaneAcc where
  writes    : List (Nat × Nat × Bytes)
  sums      : AdaSums
  written   : Nat
  nonfinite : Nat
  saturated : Nat
  amax      : Nat
  deriving DecidableEq, Repr

/-- One element joins the results. -/
def State.accElem (s : State) (t : Task) (k : KernelArgs) (st : AdaStats) (acc : LaneAcc) (e : Nat) : LaneAcc :=
  if s.skipsElem t e then acc
  else
    let r := s.runElem t k st acc.sums e
    let acc := { acc with sums := r.sums }
    if !s.writesElem t e then acc
    else
      let ws := r.bits.map (fun x => (x.1, e, leBytes (formatWidth (s.roleFmt t x.1)) x.2))
      let p := assoc r.bits 1
      { acc with writes := acc.writes ++ ws, written := acc.written + (if p.isSome then 1 else 0),
                 nonfinite := acc.nonfinite + (if (p.map fnonfinite).getD false then 1 else 0),
                 saturated := acc.saturated + (if r.sat then 1 else 0),
                 amax := match p with | some v => if fisNan v then acc.amax else max acc.amax (fabs v) | none => acc.amax }

/-- The lanes issue elements [a, b) of an UPDATE or a MIRROR_APPLY, for the slice or for the run-in (R126, R127). -/
def State.issueLanes (s : State) (t : Task) (a b : Nat) (ahead : Bool) : State :=
  let es := (List.range (b - a)).map (fun k => a + k)
  let st := s.adaStats t
  let acc := es.foldl (s.accElem t (s.laneArgs t) st)
    { writes := [], sums := st.now, written := 0, nonfinite := 0, saturated := 0, amax := 0 }
  let key := if ahead then runKey t.id else t.id
  let s := es.foldl (fun s e => s.tapElem t e) s
  let s := t.written.foldl (fun (s : State) role =>
    match s.roleHolding t role with
    | none => s
    | some h =>
      let s := s.writeElems key h ((acc.writes.filter (fun w => w.1 == role)).map (·.2))
      let s := ((acc.writes.filter (fun w => w.1 == role)).foldl (fun (s : State) w => s.digestElem t h w.2.1 w.2.2 ahead) s)
      (es.filter (s.skipsElem t)).foldl (fun (s : State) e => s.digestPoison t h e) s) s
  let s := s.addTally key acc.written acc.nonfinite acc.saturated acc.amax
  let s := s.setStats t.id (fun x =>
    { x with now := acc.sums, run := if ahead then some (x.run.getD x.now) else x.run })
  s.bumpBy Od.shadowCheckCount (s.shadowCoverage * (ceilDiv b 128 - a / 128))

/-- Elements of a role that a group writes have an extent that blocks the writes, or a granule with a write outstanding. -/
def State.groupWrites (s : State) (t : Task) (a b : Nat) : List (Holding × List Nat) :=
  let es := ((List.range (b - a)).map (fun k => a + k)).filter (fun e => !s.skipsElem t e && s.writesElem t e)
  t.written.filterMap (fun r => (s.roleHolding t r).map (fun h => (h, es)))

/-- Every operand of a group is present (R126). -/
def State.groupPresent (s : State) (t : Task) (a b : Nat) : Bool := (List.range (b - a)).all (fun k => s.hasElem t (a + k))

/-- A granule that a group would write has a write outstanding (R55). -/
def State.groupBusy (s : State) (t : Task) (a b : Nat) : Bool := (s.groupWrites t a b).any (fun x => s.writeBusy x.1 x.2)

/-- The group can be issued now: operands present, no granule of its writes busy. -/
def State.groupReady (s : State) (t : Task) (a b : Nat) : Bool := s.groupPresent t a b && !s.groupBusy t a b

/-- The writes of a group meet an extent that is pending or not valid (R65): Holding, extent. -/
def State.groupBlocked (s : State) (t : Task) (a b : Nat) : Option (Nat × Nat) :=
  (s.groupWrites t a b).findSome? (fun x => (s.writeBlocked x.1 x.2).map (fun e => (x.1.id, e)))

/-- The slice has issued more of its units. -/
def State.issuedMore (s : State) (task n : Nat) : State :=
  s.setTask task (fun t => { t with slice := t.slice.map (fun x => { x with issued := x.issued + n }) })

/-- A cycle lost for want of an operand (R126). -/
def State.starved (s : State) : State := s.total Od.starvedCycles 1

/-- A blocked extent under a slice: a translation fault, and the slice rolls back (R65). -/
def State.sliceXlat (s : State) (t : Task) (x : Nat × Nat) : State :=
  let s := if s.extentPending x.1 x.2 then s else s.xlatFault x.1 x.2
  s.faultSlice t.id true

/-- A group of an UPDATE or MIRROR_APPLY: to the next multiple of 128 elements or the end of the slice. -/
def State.issueGroup (s : State) (t : Task) (x : Slice) : State :=
  let a := t.done + x.issued
  let b := min (t.done + x.size) ((a / 128 + 1) * 128)
  match s.groupBlocked t a b with
  | some e => s.sliceXlat t e
  | none =>
    if !s.groupPresent t a b then s.starved
    else if s.groupBusy t a b then s
    else (s.issueLanes t a b false).issuedMore t.id (b - a)

/-! The end of ADAFACTOR's pass 1 (R114) -/

/-- The elements of a statistics Holding, in index order; and those that no poisoned Leaf covers. -/
def allElems (h : Holding) : List Nat := List.range h.count
def State.goodElems (s : State) (id : Nat) (h : Holding) : List Nat := (allElems h).filter (fun i => !s.elemPoison id h i)
def State.badElems (s : State) (id : Nat) (h : Holding) : List Nat := (allElems h).filter (fun i => s.elemPoison id h i)

/-- The taps of an UPDATE see R and C as they were read. -/
def State.tapStats (s : State) (t : Task) (h : Holding) : State :=
  if t.type != 0x11 then s
  else (allElems h).foldl (fun (s : State) e =>
    if s.elemPoison t.id h e then s.tapPoison t.id h.id (leafOf h e)
    else s.tapRead t.id h.id e ((s.elemBytes t.id h e).getD [])) s

/-- The new statistics of one Holding are written, but in a task that keeps them; what a poisoned Leaf covers is marked. -/
def State.putStats (s : State) (t : Task) (h : Holding) (vs : List (Nat × Nat)) (bad : List Nat) : State :=
  let s := bad.foldl (fun (s : State) e => s.digestPoison t h e) s
  if !s.writesStats t then s
  else
    let ws := vs.map (fun v => (v.1, leBytes h.width v.2))
    ws.foldl (fun (s : State) w => s.digestElem t h w.1 w.2 false) (s.writeElems t.id h ws)

/-- The statistics of a whole Holding for the passes to come; those not written are open, from the free value of a number on. -/
def wholeStats (n first : Nat) (vs : List (Nat × Nat)) : List Nat :=
  (List.range n).map (fun i => (assoc vs i).getD (Config.freeNat (first + i) % 2 ^ 32))

/-- The passes to come have their statistics; free values are drawn where a poisoned Leaf left one open. -/
def State.setNewStats (s : State) (t : Task) (hr hc : Holding) (r c : List (Nat × Nat)) (badRows badCols : List Nat) :
    State :=
  let now : AdaSums :=
    { rowsum := wholeStats hr.count s.freeCtr r, colsum := wholeStats hc.count (s.freeCtr + hr.count) c, block := [], total := 0 }
  let s := if badRows == [] && badCols == [] then s else s.freeMore (hr.count + hc.count)
  s.setStats t.id (fun x => { x with now := now, badRows := badRows, badCols := badCols })

/-- R and C are updated from the sums, written, tapped as read. What a poisoned Leaf covers is not written, not captured,
and marked poisoned; where the sums read it, its value is open (R66). -/
def State.issueStats (s : State) (t : Task) : State :=
  match s.roleHolding t 6, s.roleHolding t 7 with
  | some hr, some hc =>
    match s.writeBlocked hr (s.goodElems t.id hr), s.writeBlocked hc (s.goodElems t.id hc) with
    | some e, _ => s.sliceXlat t (hr.id, e)
    | none, some e => s.sliceXlat t (hc.id, e)
    | none, none =>
      if !s.sideReady t hr (s.goodElems t.id hr) || !s.sideReady t hc (s.goodElems t.id hc) then s.starved
      else if s.writeBusy hr (s.goodElems t.id hr) || s.writeBusy hc (s.goodElems t.id hc) then s
      else
        let st := s.adaStats t
        let fresh (h : Holding) (sums : List Nat) (n : Nat) : List (Nat × Nat) := (s.goodElems t.id h).map (fun i =>
          let old := s.elemValue t.id h i
          (i, if s.writesStats t then adaStat (s.laneArgs t) old (sums.getD i 0) n else old))
        let r := fresh hr st.now.rowsum hc.count
        let c := fresh hc st.now.colsum hr.count
        let (badRows, badCols) := (s.badElems t.id hr, s.badElems t.id hc)
        let s := (s.tapStats t hr).tapStats t hc
        let s := (s.putStats t hr r badRows).putStats t hc c badCols
        (s.setNewStats t hr hc r c badRows badCols).issuedMore t.id 1
  | _, _ => s.issuedMore t.id 1

/-! Woad's issue (R139, R140) -/

/-- x(e) of an element (R138). -/
def State.woadX (s : State) (t : Task) (e : Nat) : Nat :=
  match s.holdingIn t.job t.wGrad, s.holdingIn t.job t.wEf with
  | some g, some f =>
    let reset := ((s.factorSet? t.job t.wFactor).map (·.efReset)).getD t.wEfReset
    fadd (s.elemValue t.id g e) (if reset then 0 else s.elemValue t.id f e)
  | _, _ => 0

/-- Bytes of factor rows in the factor Holding's format. -/
def factorWrites (h : Holding) (first r : Nat) (q : List Nat) : List (Nat × Bytes) :=
  q.mapIdx (fun n v => ((first + n / max 1 r) * descSize h.desc 0 + n % max 1 r, leBytes h.width (fnarrow h.format false v 0).1))

/-- PHASE 0 takes elements [a, b) into Q; with the last element the rows of Q are written. -/
def State.issueProject (s : State) (t : Task) (x : Slice) : State :=
  let a := t.done + x.issued
  let b := min (t.done + x.size) ((a / 128 + 1) * 128)
  let r := t.wRank
  let nc := max 1 (s.woadCols t)
  let last := b == t.len
  match s.holdingIn t.job t.wFactor, s.cacheKey t with
  | some h, some key =>
    let rows := (factorWrites h (s.woadRows t) r (List.replicate (nc * r) 0)).map (·.1)
    if last && (s.writeBlocked h rows).isSome then s.sliceXlat t (h.id, (s.writeBlocked h rows).getD 0)
    else if !s.groupPresent t a b then s.starved
    else if last && s.writeBusy h rows then s
    else
      let es := (List.range (b - a)).map (fun k => a + k)
      let kept := s.keptColumns t
      let lineage := (s.job t.job).lineage
      let pp (i : Nat) : List Nat :=
        s.streamRow t i ++ (List.range (r - kept)).map (fun k => drawP lineage t.wTensor t.step i (kept + k))
      let q0 := ((s.taskResidency t).map (·.q)).getD []
      let q := (es.filter (fun e => !s.skipsElem t e)).foldl (fun q e =>
        projectElem q r (e % nc) (s.woadX t e) (pp (e / nc))) q0
      let s := es.foldl (fun s e => s.tapElem t e) s
      let s := s.setResidency key (fun y => { y with q := q })
      let s := if last then s.writeElems t.id h (factorWrites h (s.woadRows t) r q) else s
      s.issuedMore t.id (b - a)
  | _, _ => s

/-- Gram–Schmidt: the vector operations granted in the frame; with the last of them Q̂ is written (R140, R149). -/
def State.issueGramSchmidt (s : State) (t : Task) (x : Slice) (run : WoadRun) : State :=
  match s.holdingIn t.job t.wFactor, s.cacheKey t with
  | some h, some key =>
    let r := t.wRank
    let nc := s.woadCols t
    let es := factorRows h (s.woadRows t) nc r
    let last := run.opsDone + x.ops == r * r + r
    let go (s : State) : State := s.setTask t.id (fun t => { t with slice := t.slice.map (fun y => { y with opsRun := true }) })
    if s.sidePoison t h es then go s
    else if !s.sideReady t h es then s.starved
    else if last && s.writeBusy h es then s
    else if !last then go s
    else match s.writeBlocked h es with
      | some e => s.sliceXlat t (h.id, e)
      | none =>
        let (q, bad) := orthonormal (es.map (s.elemValue t.id h)) r nc
        let s := s.setResidency key (fun y => { y with q := q })
        let s := s.setWoad fun w =>
          { w with runs := mapIf w.runs (fun y => y.task == t.id) (fun y => { y with degenerate := bad }) }
        go (s.writeElems t.id h (factorWrites h (s.woadRows t) r q))
  | _, _ => s

/-- PHASE 1 takes a whole row: P and the new EF values (R140). -/
def State.issueRow (s : State) (t : Task) (x : Slice) : State :=
  let nc := max 1 (s.woadCols t)
  let i := (t.done + x.issued) / nc
  let es := (List.range nc).map (fun j => i * nc + j)
  match s.holdingIn t.job t.wFactor, s.holdingIn t.job t.wEf, s.taskResidency t with
  | some h, some ef, some res =>
    let rows := rowElems h t.wRank i
    match s.writeBlocked ef es, s.writeBlocked h rows with
    | some e, _ => s.sliceXlat t (ef.id, e)
    | none, some e => s.sliceXlat t (h.id, e)
    | none, none =>
      if !es.all (s.hasElem t) then s.starved
      else if s.writeBusy ef es || s.writeBusy h rows then s
      else if es.any (s.skipsElem t) then s.issuedMore t.id nc
      else
        let xs := es.map (s.woadX t)
        let p := completeRow xs res.q t.wRank nc
        let efs := xs.mapIdx (fun j v => (i * nc + j, leBytes ef.width (fnarrow ef.format false (efValue v p (rowOf res.q t.wRank j)) 0).1))
        let s := s.writeElems t.id ef efs
        let s := s.writeElems t.id h (factorWrites h i t.wRank p)
        s.issuedMore t.id nc
  | _, _, none => s.starved
  | _, _, _ => s

/-- LANE_GROUP_ISSUE (R126, R139, R140): the next group of a task's slice. -/
def execLaneGroupIssue (task : Nat) (s : State) : Out :=
  .next <| match s.task? task with
    | none => s
    | some t =>
      match t.slice with
      | none => s
      | some x =>
        if x.faulted || !t.lane || !s.carrier.mainband then s
        else if t.type == 0x12 && t.wPhase == 1 && x.ops != 0 && !x.opsRun then
          match s.woad.runs.find? (fun r => r.task == t.id) with
          | some run => s.issueGramSchmidt t x run
          | none => s
        else if x.size ≤ x.issued then s
        else if t.type == 0x12 then (if t.wPhase == 0 then s.issueProject t x else s.issueRow t x)
        else if t.pass == 11 then s.issueStats t
        else s.issueGroup t x

/-! The run-in (R127) -/

/-- A task has had a slice. -/
def Task.begun (t : Task) : Bool := t.result == 1

/-- The first slice of a task, or its first run-in: captures ride it, a phase takes its record (R127, R144, R237). -/
def State.beginLane (s : State) (t : Task) : State :=
  if t.begun then s
  else
    let s := s.armTaps t
    let s := s.setTask t.id (fun t => { t with result := 1 })
    if t.type != 0x12 then s
    else
      let kept := s.keptColumns t
      let s := s.setWoad fun w => { w with runs := w.runs ++ [{ task := t.id, kept := kept }] }
      s.startPhase t

/-- A task may run in: an UPDATE or a MIRROR_APPLY that the planner would serve at the boundary, whose slice has issued all
its elements. -/
def State.mayRunIn (s : State) (t : Task) : Bool :=
  (t.type == 0x11 || t.type == 0x16) && t.phase == .running && t.pass != 11 && decide (t.next < t.len) &&
  decide (t.notBefore ≤ s.frame + 1) && t.failWith.isNone &&
  !((s.job t.job).badVerdict && (s.job t.job).v < t.step && t.type == 0x11) &&
  (match t.slice with | some x => !x.faulted && x.issued == x.size | none => true) &&
  (t.kernel != 3 || s.update.stats.any (fun x => x.task == t.id)) &&
  (s.groupBlocked t t.next (min t.len ((t.next / 128 + 1) * 128))).isNone

/-- Elements from a that can be issued at once, group by group, up to a count. -/
def State.runInEnd (s : State) (t : Task) : Nat → Nat → Nat → Nat
  | 0, a, _ => a
  | k + 1, a, lim =>
    let b := min (min t.len lim) ((a / 128 + 1) * 128)
    if b ≤ a || !s.groupReady t a b then a else s.runInEnd t k b lim

/-- RUN_IN (R127): from cycle 157,952 the first task in the order of R15 whose next elements are present issues up to
262,144 of them. -/
def execRunIn (s : State) : Out :=
  .next <|
    if s.time.cycle < 157952 || !s.carrier.mainband then s
    else
      let cands := match s.laneOrder.find? (fun t => 0 < t.runIn) with
        | some t => [t]
        | none => s.laneOrder
      match cands.find? (fun t => s.mayRunIn t && decide (t.next < s.runInEnd t 1 t.next t.len)) with
      | none => s
      | some t =>
        let b := s.runInEnd t 2049 t.next (t.next + (262144 - t.runIn))
        ((s.beginLane t).issueLanes t t.next b true).setTask t.id (fun u => { u with runIn := u.runIn + (b - t.next) })

end Sys2Proof.Machine
end

