-- ==== Sys2Proof/Machine/Plan.lean ====
section
/-!
DEFINITION. The frame planner and the end of a frame for slices: commit, truncation and rollback (R26 to R31, R128), the
shares (R68, R70), the order of grants and the size of each slice (R15, R17, R148, R149), the run-in's place in them (R127),
and THERMAL_GRACE (R71).
-/
namespace Sys2Proof.Machine

/-! What a slice leaves -/

/-- The digests that a task's writes belong to. -/
def Task.ownDigest (t : Task) (d : LeafDigest) : Bool :=
  d.reader == 0 && d.job == t.job.val && d.step == t.step && t.writes.contains d.holding

/-- Merge two ascending lists of cells; the second wins where both hold an index. -/
def mergeCells : Nat → List (Nat × Byte) → List (Nat × Byte) → List (Nat × Byte)
  | 0, _, new => new
  | _, [], new => new
  | _, old, [] => old
  | k + 1, a :: old, b :: new =>
    if a.1 < b.1 then a :: mergeCells k old (b :: new)
    else if a.1 == b.1 then b :: mergeCells k old new
    else b :: mergeCells k (a :: old) new

/-- The bytes of a Leaf once the slice commits: a second task of the step that writes the Leaf replaces what the first
wrote. -/
def LeafDigest.taken (d : LeafDigest) : List (Nat × Byte) :=
  mergeCells (d.bytes.length + d.partialBytes.length) d.bytes d.partialBytes

/-- The run-in of a task is dropped (R127): it belonged to a slice that does not start. -/
def State.dropRunIn (s : State) (t : Task) : State :=
  let s := ((s.dropTally (runKey t.id)).dropReqs (fun o => o == .sliceWrite (runKey t.id))).dirtyKept (runKey t.id)
  let s := s.setUpdate fun u => { u with digests := mapIf u.digests t.ownDigest (fun d => { d with runBytes := [] }) }
  let s := s.setStats t.id (fun x => { x with now := x.run.getD x.now, run := none })
  s.setTask t.id (fun t => { t with runIn := 0, high := t.issued })

/-- A slice's results are discarded (R30): digests, tallies, sums and Q return to the slice's start. -/
def State.discardSlice (s : State) (t : Task) (x : Slice) : State :=
  let s := (((s.dropRunIn t).dropTally t.id).dropReqs (fun o => o == .sliceWrite t.id)).dirtyKept t.id
  let s := s.setUpdate fun u => { u with digests := mapIf u.digests t.ownDigest (fun d => { d with partialBytes := [] }) }
  let s := s.setStats t.id (fun y => { y with now := y.saved })
  let s := match s.cacheKey t with
    | some key => s.setResidency key (fun r => match r.snapshot with | some q => { r with q := q } | none => r)
    | none => s
  let s := if x.opsRun then s.setWoad fun w =>
      { w with runs := mapIf w.runs (fun r => r.task == t.id) (fun r => { r with degenerate := 0 }) } else s
  s.setTask t.id (fun t => { t with slice := none, high := t.issued })

/-- The repair that a task's rollback waits for: of the row that held its words, else of the part that the fault named. -/
def State.repairOf (s : State) (t : Task) (cause : Option Repair) : Option Repair :=
  if s.gallery.remaps.any (fun j => j.refetch.any (fun r => r.task == t.id)) then some .row else cause

/-- First boundary at which a slice rolled back may be offered again (R30, Table 02-1), counted in repair frames. -/
def repairFrames (cause : Option Repair) : Nat :=
  match cause with
  | some .row => 3
  | some .lane | some .array => 2
  | none => 1

/-- The repair that a task waits for is not over (R30). -/
def State.waitsRepair (s : State) (t : Task) : Bool :=
  match t.repair with
  | some .lane => !s.update.suspect.isEmpty
  | some .array => s.woad.suspect.isSome
  | some .row => s.gallery.remaps.any (fun j => j.refetch.any (fun r => r.task == t.id))
  | none => false

/-- A slice rolls back (R30, R31). -/
def State.rollbackSlice (s : State) (t : Task) (x : Slice) : State :=
  let s := (s.discardSlice t x).bump Od.sliceRollbackCount
  let row := if x.free then t.inRow else t.inRow + 1
  let cause := s.repairOf t x.cause
  let s := s.setTask t.id (fun t =>
    { t with rollbacks := t.rollbacks + 1, inRow := row, notBefore := s.frame + repairFrames cause, repair := cause })
  if s.cfg Od.sliceRetryLimit ≤ row && !x.free && t.phase != .stopping then
    match s.task? t.id with
    | some t => s.endLane t 0x0020 0 0 t.done
    | none => s
  else s

/-- A fault interrupts a run-in: the slice that it has begun rolls back (R30, R32), and counts in its own row (R31). -/
def State.rollbackRunIn (s : State) (t : Task) (free : Bool) (cause : Option Repair) : State :=
  let s := (s.dropRunIn t).bump Od.sliceRollbackCount
  let more := if free then 0 else 1
  let open_ := t.slice.isSome
  let cause := s.repairOf t cause
  let s := s.setTask t.id (fun t =>
    { t with rollbacks := t.rollbacks + 1, inRow := if open_ then t.inRow else t.inRow + more,
             runRow := if open_ then t.runRow + more else t.runRow, notBefore := s.frame + repairFrames cause,
             repair := cause })
  if !open_ && !free && t.phase != .stopping && decide (s.cfg Od.sliceRetryLimit ≤ t.inRow + 1) then
    match s.task? t.id with
    | some t => s.endLane t 0x0020 0 0 t.done
    | none => s
  else s

/-- SHADOW_MISMATCH (R130): the shadow of a logical lane differs in a task's slice, or in the run-in of its next one. -/
def execShadowMismatch (task : Nat) (logical : BitVec 7) (second : Bool) (s : State) : Out :=
  .next <|
    match s.task? task, s.shadowLane second, s.update.laneMap[logical.toNat]? with
    | some t, some shadow, some active =>
      let ahead := decide (0 < t.runIn)
      if !(t.slicing || ahead) || !(t.type == 0x11 || t.type == 0x16) then s
      else
        let s := s.bump Od.shadowMismatchCount
        let s := s.setUpdate fun u =>
          { u with suspect := u.suspect ++ [{ frame := s.frame, active := active, shadow := shadow, logical := logical.toNat }] }
        if ahead then s.rollbackRunIn t false (some .lane) else s.faultFor task .lane
    | _, _, _ => s

/-- The entry of an UPDATE in the record of its step. -/
def State.entryIndex (s : State) (t : Task) : Option Nat :=
  (s.out? t.job t.step).bind (fun r => r.updates.findIdx? (fun u => u.1 == t.id))

/-- Gradient Leaves that are whole are staged (R213). -/
def State.stageGradient (s : State) (t : Task) : State :=
  if t.type != 0x11 || t.gradSrc != 0 || !s.stages t then s
  else match s.holdingIn t.job (t.roleHid 4), s.entryIndex t with
    | some h, some i =>
      (s.update.digests.filter (fun d => d.reader == t.id + 1 && d.holding == h.id &&
          d.bytes.length == h.leafBytes d.leaf)).foldl (fun (s : State) d =>
        s.stageData t.job t.step i d.leaf (d.bytes.map (·.2))) s
    | _, _ => s

/-- The P packets of an UPDATE that has read every row (R155, R215): they follow the Q̂ packets. -/
def State.stageFactors (s : State) (t : Task) : State :=
  if t.type != 0x11 || t.gradSrc != 1 || !s.stages t then s
  else match s.holdingIn t.job (t.roleHid 4), s.entryIndex t, s.factorSet? t.job (t.roleHid 4) with
    | some h, some i, some f =>
      let (first, n) := t.pRows f.ncols
      let ds := s.update.digests.filter (fun d => d.reader == t.id + 1 && d.holding == h.id)
      let byte (k : Nat) : Byte :=
        ((ds.find? (fun d => d.leaf == k / 1048576)).bind (fun d => assoc d.bytes (k % 1048576))).getD 0
      let rows := ((List.range n).flatMap (fun k => rowElems h f.rank (first + k))).flatMap (fun e =>
        (List.range h.width).map (fun k => byte (e * h.width + k)))
      let ps := (f.packets 0 h.format first rows).map FactorPacket.bytes
      let base := (s.qhatPackets t).length
      (ps.zipIdx).foldl (fun (s : State) p => s.stageData t.job t.step i (base + p.2) p.1) s
    | _, _, _ => s

/-- The next pass of an ADAFACTOR (R114, R115). -/
def State.nextPass (s : State) (t : Task) : State :=
  let s := s.freeBufs t.id
  let go (s : State) (p : Nat) : State :=
    (s.setStats t.id (fun x => { x with now := { x.now with block := [], total := 0 },
                                        saved := { x.now with block := [], total := 0 } })).setTask t.id
      (fun t => { t with pass := p, done := 0 })
  if t.pass == 1 then go s (if t.factored then 11 else 2)
  else if t.pass == 11 then
    go (s.setStats t.id (fun x => { x with rtot := blocksum x.now.rowsum.length 0 x.now.rowsum })) 2
  else go (s.setStats t.id (fun x => { x with clip := adaClip (s.laneArgs t) x.now.total })) 3

/-- The level that an UPDATE has used goes into its step's record (R121). -/
def State.noteLevel (s : State) (t : Task) : State :=
  s.setOut t.job t.step (fun r => { r with levels := assocSet r.levels t.id (s.update.kernels.level t.kernel) })

/-- A lane task has committed its last unit: the next pass, or its completion (R117, R120, R132, Table 06-7). -/
def State.finishLane (s : State) (t : Task) : State :=
  if t.kernel == 3 && t.type != 0x12 && t.pass != 3 then s.nextPass t
  else match t.failWith with
    | some x => s.endLane t x.1 x.2.1 x.2.2 t.done
    | none =>
      if t.type == 0x11 then
        let s := (s.stageFactors t).noteLevel t
        let (d, d2, r) := s.updateResult t
        s.endLane t 0 d d2 r
      else if t.type == 0x12 then
        let bad := ((s.woad.runs.find? (fun r => r.task == t.id)).map (·.degenerate)).getD 0
        if t.wPhase == 0 then s.endLane t 0 t.detail t.wRank (t.done % 2 ^ 48)
        else s.endLane t 0 0 t.wRank (t.done % 2 ^ 48 + min bad 65535 * 2 ^ 48)
      else
        let (d, d2, r) := s.updateResult t
        s.endLane t 0 d d2 (t.done % 2 ^ 48 + r / 2 ^ 48 * 2 ^ 48)

/-- Buffers that no uncommitted element uses any more are freed (R27, R124). -/
def State.freeLeaves (s : State) (t : Task) : State :=
  let row := match s.rowShape t with | some (_, _, nc) => t.matrixRow nc t.done | none => 0
  let used (b : StreamBuf) : Bool :=
    match s.holding? b.holding with
    | none => false
    | some h =>
      if t.streamed.any (fun x => x.1 == b.holding) then decide (t.done < (leafElemRange h b.leaf).2)
      else if b.side then true
      else decide (row * descSize h.desc 0 < (leafElemRange h b.leaf).2)
  s.setUpdate fun u => { u with streams := u.streams.filter (fun b => b.task != t.id || used b) }

/-- Gram–Schmidt of a committed slice (R149). -/
def State.commitOps (s : State) (t : Task) (x : Slice) : State :=
  if !x.opsRun then s
  else
    let total := t.wRank * t.wRank + t.wRank
    let s := s.setWoad fun w =>
      { w with runs := mapIf w.runs (fun r => r.task == t.id) (fun r => { r with opsDone := r.opsDone + x.ops }) }
    match s.woad.runs.find? (fun r => r.task == t.id), s.cacheKey t with
    | some r, some key =>
      if r.opsDone < total then s.setResidency key (fun y => { y with snapshot := none })
      else
        let s := s.setResidency key (fun y => { y with snapshot := none, complete := true })
        let s := s.setUpdate fun u => { u with streams := u.streams.filter (fun b => !(b.task == t.id && b.side)) }
        s.bumpBy Od.woadDegenerateCount r.degenerate
    | _, _ => s

/-- A slice commits (R26), its issued prefix if it was cut short (R29). -/
def State.commitSlice (s : State) (t : Task) (x : Slice) : State :=
  let short := decide (x.issued < x.size) || (x.ops != 0 && !x.opsRun)
  let s := if short then s.bump Od.sliceTruncateCount else s
  let s := if t.type == 0x12 then s.total Od.woadElementsCompressed x.issued
    else if t.pass != 11 && (s.cacheKey t).isSome then s.total Od.woadElementsExpanded x.issued else s
  let s := s.setUpdate fun u =>
    { u with digests := mapIf u.digests t.ownDigest (fun d => { d with bytes := d.taken, partialBytes := [] }) }
  let s := ((s.commitTally t).tapCommit t).setDirty (fun l => dirtyCommit l t.id)
  let s := if t.type == 0x11 && t.written != [] then s.noteSpanWrite t t.done (t.done + x.issued) else s
  let s := (s.stageGradient t).commitOps t x
  let s := match s.cacheKey t with
    | some key =>
      if t.type == 0x12 && t.wPhase == 0 && t.done + x.issued == t.units then
        s.setResidency key (fun r => { r with snapshot := none })
      else s
    | none => s
  let s := if t.type == 0x12 && t.wPhase == 1 && x.issued != 0 then
      s.setWoad fun w => { w with efStep := assocSet w.efStep t.wEf t.step }
    else s
  let s := s.setStats t.id (fun y => { y with saved := y.run.getD y.now })
  let idle := x.issued == 0 && !x.opsRun
  let s := s.setTask t.id (fun t =>
    { t with done := t.done + x.issued, slice := none, inRow := if idle then t.inRow else t.runRow,
             runRow := if idle then t.runRow else 0 })
  match s.task? t.id with
  | none => s
  | some t =>
    if t.inRow != 0 && !idle && t.phase != .stopping && decide (s.cfg Od.sliceRetryLimit ≤ t.inRow) then s.endLane t 0x0020 0 0 t.done
    else
    let s := s.freeLeaves t
    let opsLeft := t.type == 0x12 && t.wPhase == 1 && t.done == 0
    if t.done == t.units && !opsLeft && t.phase != .stopping then s.finishLane t else s

/-- A slice at the tick that closes its frame (R26 to R30, R128). -/
def State.closeSlice (s : State) (t : Task) (x : Slice) : State :=
  if (t.failWith.map (·.1)) == some 0x0024 then s.discardSlice t x
  else if x.faulted then s.rollbackSlice t x
  else if s.reqOut (fun o => o == .sliceWrite t.id) then (s.bump Od.writeLateCount).rollbackSlice t x
  else s.commitSlice t x

/-- A CANCEL whose targets have all ended completes (Table 04-11). -/
def State.settleCancels (s : State) : State :=
  (s.sched.tasks.filter (fun t => t.type == 0x05 && t.phase == .running)).foldl (fun (s : State) t =>
    if s.sched.tasks.any (fun u => u.cancelTag == some t.id) then s else s.complete t 0 0 0 t.result) s

/-- The tag of the CANCEL that ends a task: 0 for QP_DESTROY. -/
def State.cancelDetail (s : State) (t : Task) : Nat := ((t.cancelTag.bind s.task?).map (·.tag)).getD 0

/-- The digests of what a task has written are dropped. -/
def State.dropOwnDigests (s : State) (t : Task) : State :=
  s.setUpdate fun u => { u with digests := u.digests.filter (fun d => !t.ownDigest d) }

/-- Lane tasks that end at the boundary: cancelled or abandoned ones, and those to which carrier memory was denied (R67,
R87, Table 04-11). -/
def State.endStopped (s : State) (t : Task) : State :=
  let cancelled := (s.bump Od.cancelCount).endLane t 0x0005 (s.cancelDetail t) 0 t.done
  match t.failWith with
  | some x =>
    if x.1 == 0x0024 then s.endLane t x.1 x.2.1 x.2.2 t.done
    else if x.1 == 0x0013 then (s.endLane t x.1 0 0 t.done).dropOwnDigests t
    else if t.phase == .stopping then cancelled else s
  | none => if t.phase == .stopping then cancelled else s

/-- Every slice at the closing tick, in admission order. -/
def State.closeSlices (s : State) : State :=
  let ids := (s.sched.tasks.filter (fun t => t.lane)).map (·.id)
  let s := ids.foldl (fun (s : State) i =>
    match s.task? i with
    | some t => match t.slice with | some x => s.closeSlice t x | none => s
    | none => s) s
  let s := ids.foldl (fun (s : State) i => match s.task? i with | some t => s.endStopped t | none => s) s
  s.settleCancels

/-! Shares (R68, R70) -/

/-- Worst class of the stacks that the carrier has and of the engine's own die (R69, R476). -/
def State.worstClass (s : State) : Nat :=
  ((s.carrier.thermStacks.toList.take (s.cfg Od.stackCount)).map (fun x => min 3 x.cls) ++ s.elec.die.toList).foldl max 0

/-- The D2D share of a frame in one direction, at a thermal percentage (R68). -/
def State.share (s : State) (read : Bool) (pct : Nat) : Nat :=
  let link := 400000000 * s.odGet Od.d2dModulesActive / 16
  let granted := link * s.carrier.grantPct / 100
  min (s.cfg (if read then Od.memShareReadBpf else Od.memShareWriteBpf)) granted * pct / 100

/-- thermal_pct of a class (Table 03-11). -/
def State.thermalPct (s : State) (cls : Nat) : Nat :=
  if cls == 2 then s.cfg Od.throttleHotPct else if cls == 3 then s.cfg Od.throttleCritPct else 100

/-! Budgets (R12, R17, R149, R179) -/

/-- Scrub and remap traffic of a frame, in bytes of the Gallery's writes and reads (R195): a row is 8,192 bytes, and each
die's engine copies one row at a time. -/
def State.scrubBytes (s : State) : Nat :=
  let dies := ((s.gallery.remaps.filter (fun j => j.stage == 0)).map (fun j => j.channel / 32)).eraseDups.length
  (if s.gallery.scrubFrame ≤ s.frame && s.mainUp then 8192 else 0) + 8192 * dies

/-- The units of a frame before any rank, at a thermal percentage (R12, R15, R68, R148, R179, R195, R340). A stopped array
grants nothing (R158). -/
def State.frameBudget (s : State) (pct : Nat) : Units :=
  let gathered := sumOf (s.update.digests.map (fun d =>
    if ((s.holding? d.holding).map (·.role)) == some 4 then d.bytes.length else 0))
  { read := s.share true pct, write := s.share false pct, galRead := 320000000 - s.scrubBytes,
    galWrite := 320000000 - s.scrubBytes, enc := 1280000 * s.madder.encMap.length, dec := 1280000 * s.madder.decMap.length,
    cipher := 2560000 * ((s.odGet Od.pairsActive + 1) / 2),
    array := if s.woad.suspect.isSome then 0 else 160000 * s.woad.rowMap.length * s.woad.colMap.length,
    lanes := 160000 * s.update.laneMap.length, own := s.ownFree * 4096 - gathered }

/-- What requests of ranks 1 and 2 have taken of the frame that opens (R15). -/
def State.controlUnits (s : State) : Units :=
  let mine := s.carrier.reqs.filter (fun r => r.frame == s.frame && s.controlReq r.owner)
  let bytes (k : MemKind) : Nat := 64 * sumOf ((mine.filter (fun r => r.kind == k)).map (·.len))
  { read := bytes .read, write := bytes .write }

/-! What work without slices wants of a frame (R15, R99) -/

/-- The writes of a restore that wait for a frame's grant. -/
def State.heldWrites (s : State) (task : Nat) : Nat :=
  sumOf ((s.carrier.writes.filter (fun w => w.restart && (match w.owner with | .restoreWrite t _ => t == task | _ => false))).map
    (·.bytes.length))

/-- A roll-forward wants the rest of the entry that it stands at (R259). -/
def State.rollNeed (s : State) (task : Nat) : Units :=
  match s.restore? task, s.task? task with
  | some r, some t =>
    if r.mirror || r.phase != 4 then {}
    else match (r.items t)[r.item]? with
      | some x => s.rollUnits t r x (r.rollLength t x - r.done)
      | none => {}
  | _, _ => {}

/-- A restore wants its Leaves in QUARANTINE decoded and written, its held writes, and its roll-forward (log entry 69). -/
def State.restoreNeed (s : State) (task : Nat) : Units :=
  let mine := s.vault.quarantine.filter (fun q => s.writerOf q == task)
  ((Units.sum (mine.map State.decodeUnits)).plus { write := s.heldWrites task }).plus (s.rollNeed task)

/-- A request served wants every Leaf it has still to read. -/
def State.serveNeed (s : State) (r : ServeReq) : Units :=
  Units.sum (r.leaves.filterMap (fun l =>
    ((s.boundTo (jobOf r.job) l.1).bind (s.holdingIn (jobOf r.job))).map (fun h => serveUnits h l.2)))

/-- The whole span copies that a job holds. -/
def State.installNeed (s : State) (j : JobId) : Units :=
  let n := sumOf (((s.weld j).copies.filter (fun c => !c.writing && s.copyFull j c)).flatMap (fun c =>
    c.leaves.map (fun l => l.2.2.length)))
  { write := n, galRead := n }

/-- The pending spans that a job reads directly. -/
def State.copyNeed (s : State) (j : JobId) : Units :=
  let n := sumOf ((((s.weld j).outSpans.filter (·.copyPending)).flatMap (fun x => match s.outGroup? j x.master with
    | some g => if s.ownWriter j g.hids then [] else s.ownLeaves j g x.index
    | none => [])).map (fun l => ((s.holdingIn j l.1).map (fun h => h.leafBytes l.2)).getD 0))
  { read := n, galRead := n, galWrite := n, cipher := n }

/-- Objects of EGRESS whose PUT is still to be sent. -/
def State.drainNeed (s : State) : Units :=
  Units.sum ((s.vault.egress.filter (fun e => e.bytes != [] && !e.asked)).map (fun e => drainUnits e))

/-- Restores of a rank, in admission order (R15), and WELD_ROLLBACKs with Leaves on their way. -/
def State.restoreWork (s : State) (rank : Nat) : List (Work × Units) :=
  let tasks := s.vault.restores.map (·.task) ++
    (List.finRange 4).filterMap (fun j => (s.weld j).rollback.map (·.task))
  ((sortBy id tasks).filter (fun t => s.restoreRank t == rank)).map (fun t => (.restore t, s.restoreNeed t))

/-- Requests served at a rank, in the order of arrival. -/
def State.serveWork (s : State) (rank : Nat) : List (Work × Units) :=
  (s.vault.serves.filter (fun r => r.rank == rank)).map (fun r => (.serve r.id, s.serveNeed r))

/-- Grant pieces of work in turn, within a cap for all of them and what is left; answers what is left of both. -/
def grantAll : List (Work × Units) → Units → Units → List Grant × Units × Units
  | [], cap, left => ([], cap, left)
  | (w, need) :: rest, cap, left =>
    let got := (need.most cap).most left
    let (gs, cap, left) := grantAll rest (cap.less got) (left.less got)
    ({ work := w, units := got } :: gs, cap, left)

/-- Grant pieces of work out of the frame's units. -/
def State.grant (s : State) (l : List (Work × Units)) (cap : Units) : State × Units :=
  let (gs, cap, left) := grantAll l cap s.carrier.left
  (s.setCarrier fun c => { c with left := left, grants := c.grants ++ gs }, cap)

/-- A cap of R17: a term whose bytes per element are 0 imposes none. -/
def capBy (left per n : Nat) : Nat := if per == 0 then n else min n (left / per)

/-- Raw widths of the operands under capture that ride a task (R17). -/
def State.captureRaw (s : State) (t : Task) : Nat :=
  sumOf ((((s.vault.taps.filter (fun x => x.rider == some t.id)).map (·.holding)).eraseDups.filter (fun h =>
    t.streamed.any (fun x => x.1 == h))).map s.hidWidth)

/-- Bytes per element that a slice stages in LEDGER as the gradient (R17). -/
def State.gradStage (s : State) (t : Task) : Nat :=
  if t.type == 0x11 && t.gradSrc == 0 && s.stages t && (t.kernel != 3 || t.pass == 1) then s.hidWidth (t.roleHid 4) else 0

/-- Bytes per element that copies take from a slice's write stream (R227): of an UPDATE of a span that is pending, or of any
span in COPY mode (R229). -/
def State.copyStage (s : State) (t : Task) : Nat :=
  let w := s.weld t.job
  if t.type != 0x11 || w.state != .paired then 0
  else if w.mode == .copy || w.outSpans.any (fun x => x.copyPending && x.master == t.roleHid 1) then
    sumOf (t.written.map (fun r => s.hidWidth (t.roleHid r)))
  else 0

/-- ledger_stage_bytes of R17. -/
def State.ledgerStage (s : State) (t : Task) : Nat := s.gradStage t + s.copyStage t

/-- Operands that a slice captures per element (R179). -/
def State.captured? (s : State) (t : Task) : Nat :=
  (((s.vault.taps.filter (fun x => x.rider == some t.id)).map (·.holding)).eraseDups.filter (fun h =>
    t.streamed.any (fun x => x.1 == h))).length

/-- Bytes per element that a slice writes to carrier memory. -/
def State.writeWidth (s : State) (t : Task) : Nat :=
  if t.type == 0x12 then (if t.wPhase == 1 then s.hidWidth t.wEf else 0)
  else sumOf (t.written.map (fun r => s.hidWidth (t.roleHid r)))

/-- Array MACs per element of a task (R148, R149). -/
def State.macs (s : State) (t : Task) : Nat :=
  if t.type == 0x12 then (if t.wPhase == 0 then t.wRank else 2 * t.wRank)
  else match s.taskResidency t with | some r => r.rank | none => 0

/-- The slice that R17 (with R148, R149 and R179) gives a task out of a budget; `snapshot` bytes are taken from the Gallery
first. Copy taps never hold an UPDATE back (R227). -/
def State.sliceSize (s : State) (b : Units) (t : Task) (snapshot : Nat) : Nat :=
  let g := s.streamIn t + s.ledgerStage t + s.captureRaw t
  let n := t.units - t.done
  let n := if t.type == 0x12 then n else min n b.lanes
  let n := capBy (b.galWrite - snapshot) g n
  let n := capBy b.read (s.streamIn t) n
  let n := capBy b.write (s.writeWidth t) n
  let n := capBy b.array (s.macs t) n
  let n := capBy b.enc (s.captured? t) n
  let n := capBy b.own (s.gradStage t) n
  if t.type == 0x12 && t.wPhase == 1 then n / max 1 (s.woadCols t) * max 1 (s.woadCols t) else n

/-- Bytes per element that a MIRROR_APPLY reads as its gradient from LEDGER staging (Table 01-2). -/
def State.stagedGradient (s : State) (t : Task) : Nat :=
  if t.type != 0x16 then 0
  else ((s.applyEntry t).map (fun e => if bitsOf e 159 152 ≤ 2 then formatWidth (bitsOf e 159 152) else 0)).getD 0

/-- What a slice takes of the frame. -/
def State.sliceUnits (s : State) (t : Task) (n snapshot : Nat) : Units :=
  let g := s.streamIn t + s.ledgerStage t + s.captureRaw t
  { read := n * s.streamIn t, write := n * s.writeWidth t, galRead := n * (s.streamIn t + s.ledgerStage t + s.stagedGradient t),
    galWrite := n * g + snapshot, enc := n * s.captured? t, array := n * s.macs t,
    lanes := if t.type == 0x12 then 0 else n, own := n * s.gradStage t }

/-! What must stand before a slice -/

/-- ncols and rank of the factors a task works with, and the number of P rows before Q̂ in its factor Holding. -/
def State.cacheShape (s : State) (t : Task) : Nat × Nat × Nat :=
  if t.type == 0x12 then (s.woadCols t, t.wRank, s.woadRows t)
  else if t.type == 0x11 then
    match s.factorSet? t.job (t.roleHid 4) with
    | some f => (f.ncols, f.rank, f.nrows)
    | none => (0, 0, 0)
  else match ((s.applyData t).filterMap readPacket).head? with
    | some p => (p.ncols, p.rank, p.nrows)
    | none => (0, 0, 0)

/-- The factor Holding a task loads Q or Q̂ from. -/
def State.cacheHolding (s : State) (t : Task) : Option Holding :=
  if t.type == 0x12 then s.holdingIn t.job t.wFactor else if t.type == 0x11 then s.holdingIn t.job (t.roleHid 4) else none

/-- Q̂ is loaded into an open residency from its factor Holding (R148, R152): answers whether it is there. -/
def State.loadQhat (s : State) (t : Task) (key : Nat × Option Nat × Nat) : State × Bool :=
  let (nc, r, nr) := s.cacheShape t
  match s.cacheHolding t with
  | none =>
    let q := packetQ ((s.applyData t).filterMap readPacket) nc r
    (s.setResidency key (fun x => { x with q := q, complete := true }), true)
  | some h =>
    let es := factorRows h nr nc r
    if s.sideReady t h es then
      let q := es.map (s.elemValue t.id h)
      let s := s.setUpdate fun u => { u with streams := u.streams.filter (fun b => !(b.task == t.id && b.side)) }
      (s.setResidency key (fun x => { x with q := q, complete := true }), true)
    else (s.startSide t h es, false)

/-- The residency that a task needs (R151): open, and holding what the task starts from. The last answer is a wait for
blocks. A PHASE 0 opens its own at its first slice, whatever an earlier one of the step has left. -/
def State.prepCache (s : State) (t : Task) : State × Bool × Bool :=
  match s.cacheKey t with
  | none => (s, true, false)
  | some key =>
    let (nc, r, nr) := s.cacheShape t
    let s := if t.type == 0x12 && t.wPhase == 0 && !t.begun then s.closeResidency key else s
    let (s, open_) := if (s.taskResidency t).isSome then (s, true) else s.openResidency key nc r
    if !open_ then (s, false, true)
    else if t.type == 0x12 && t.wPhase == 0 then (s, true, false)
    else if ((s.taskResidency t).map (·.complete)).getD false then (s, true, false)
    else if t.type == 0x12 then
      let ops := ((s.woad.runs.find? (fun x => x.task == t.id)).map (·.opsDone)).getD 0
      if ops == r * r + r then
        let (s, ok) := s.loadQhat t key
        (s, ok, false)
      else match s.holdingIn t.job t.wFactor with
        | some h =>
          let es := factorRows h nr nc r
          if s.sideReady t h es then (s, true, false) else (s.startSide t h es, s.sidePoison t h es, false)
        | none => (s, false, false)
    else
      let (s, ok) := s.loadQhat t key
      (s, ok, false)

/-- The statistics area that an ADAFACTOR needs (R115, R190, R191). -/
def State.prepStats (s : State) (t : Task) : State × Bool :=
  if t.type == 0x12 || t.kernel != 3 || s.update.stats.any (fun x => x.task == t.id) then (s, true)
  else
    let nc := if t.factored then ((s.roleHolding t 7).map (·.count)).getD 1 else 0
    let nr := if t.factored then ((s.roleHolding t 6).map (·.count)).getD 1 else 0
    let need := statsBlocks nr nc
    if s.cfg Od.statsLeaves * 16 < need then
      if t.detail2 == 1 then (s, false)
      else ((s.oversize 1 (need * 16)).setTask t.id (fun t => { t with detail2 := 1 }), false)
    else if s.statsFree < need then (s.waitSpace, false)
    else
      let z : AdaSums := { rowsum := List.replicate nr 0, colsum := List.replicate nc 0, block := [], total := 0 }
      (s.setUpdate fun u => { u with stats := u.stats ++ [{ task := t.id, now := z, saved := z }] }, true)

/-- A slice over elements would touch an extent that is pending (R65). -/
def State.touchesPending (s : State) (t : Task) (n : Nat) : Bool :=
  s.carrier.pendingExt.any (fun p => (t.writes ++ t.reads).contains p.holding &&
    ((s.holding? p.holding).map (fun h =>
      t.type == 0x12 || t.pass == 11 || (List.range n).any (fun k => (h.addrOf (t.done + k)).2 == p.extent))).getD false)

/-- A task may be given a slice in the frame: the repair it waits for is over, and the array stands where it needs it
(R30, R158). -/
def State.plannable (s : State) (t : Task) : Bool :=
  t.lane && t.phase == .running && decide (t.notBefore ≤ s.frame) && (t.failWith.map (·.1)) != some 0x0024 &&
  !s.waitsRepair t && !(s.woad.suspect.isSome && (s.cacheKey t).isSome) &&
  !(taskOwnStep t.type && (s.job t.job).badVerdict && decide ((s.job t.job).v < t.step))

/-- The run-in of a task becomes the head of its slice (R127). -/
def State.adoptRunIn (s : State) (t : Task) : State :=
  let s := s.setCarrier fun c =>
    { c with reqs := mapIf c.reqs (fun r => r.owner == .sliceWrite (runKey t.id)) (fun r => { r with owner := .sliceWrite t.id }),
             dirty := mapIf c.dirty (fun d => d.key == runKey t.id) (fun d => { d with key := t.id }) }
  let s := s.setUpdate fun u =>
    { u with tallies := mapIf u.tallies (fun x => x.task == runKey t.id) (fun x => { x with task := t.id }),
             digests := mapIf u.digests t.ownDigest (fun d => { d with partialBytes := d.partialBytes ++ d.runBytes, runBytes := [] }) }
  let s := s.setStats t.id (fun x => { x with saved := x.run.getD x.now, run := none })
  s.setTask t.id (fun t => { t with runIn := 0 })

/-- Blocks of a slice that a task's buffers want and have not, lost to a fault or not reached by the fetch ahead, are asked
for (R57, R65, R125). -/
def State.refillBufs (s : State) (t : Task) : State :=
  match t.slice with
  | none => s
  | some x =>
    if !s.carrier.mainband then s
    else ((s.groupBlocks t t.done (t.done + x.size)).filter (s.lateBlock t)).foldl (fun s x => s.fetchBlock t x) s

/-! Grants -/

/-- The snapshot of Q that a slice takes, in bytes (R149). -/
def State.snapshotBytes (s : State) (t : Task) : Nat :=
  if t.type != 0x12 then 0
  else
    let run := s.woad.runs.find? (fun r => r.task == t.id)
    let ops := (run.map (·.opsDone)).getD 0
    if t.wPhase == 0 || ops < t.wRank * t.wRank + t.wRank then s.woadCols t * t.wRank * 4 else 0

/-- Vector operations of Gram–Schmidt that a frame grants, and the MACs they hold (R149). -/
def State.opsGrant (s : State) (b : Units) (t : Task) : Nat × Nat :=
  if t.type != 0x12 || t.wPhase != 1 then (0, 0)
  else
    let done := ((s.woad.runs.find? (fun r => r.task == t.id)).map (·.opsDone)).getD 0
    let full := s.woad.rowMap.length * s.woad.colMap.length
    let cost := ceilDiv (s.woadCols t) 128 + 24
    let n := min (t.wRank * t.wRank + t.wRank - done) (b.array / max 1 full / cost)
    (n, n * cost * full)

/-- The room in STATS for the snapshot of a slice, its own earlier copy put aside (R150, R190). -/
def State.snapshotFits (s : State) (t : Task) : Bool :=
  let snap := s.snapshotBytes t
  let old := ((s.taskResidency t).bind (·.snapshot)).map (fun q => ceilDiv (4 * q.length) 65536)
  snap == 0 || ceilDiv snap 65536 ≤ s.statsFree + old.getD 0

/-- Give a task its slice out of what the frame has left (R15, R17, R127, R149); none when it receives none. -/
def State.grantLane (s : State) (t : Task) : Option State :=
  let snap := s.snapshotBytes t
  let b := s.carrier.left
  let (ops, macs) := s.opsGrant b t
  let b := { b with array := b.array - macs }
  let total := t.wRank * t.wRank + t.wRank
  let done := ((s.woad.runs.find? (fun r => r.task == t.id)).map (·.opsDone)).getD 0
  let n := if t.type == 0x12 && t.wPhase == 1 && done + ops < total then 0
    else if t.pass == 11 then 1
    else max t.runIn (s.sliceSize b t snap)
  if (n == 0 && ops == 0) || s.touchesPending t n then none
  else
    let s := match s.cacheKey t with
      | some key => if snap == 0 then s else s.setResidency key (fun r => { r with snapshot := some r.q, snapDone := t.done })
      | none => s
    let x : Slice := { start := t.done, size := n, issued := t.runIn, ops := ops }
    let left := if t.pass == 11 then b else b.less (s.sliceUnits t n snap)
    let s := s.setCarrier fun c => { c with left := left }
    some ((s.adoptRunIn t).setTask t.id (fun t => { t with slice := some x, repair := none }))

/-- The own part of LEDGER holds an UPDATE back (R190). -/
def State.ownShort (s : State) (t : Task) : Bool :=
  s.gradStage t != 0 && decide (s.carrier.left.own / s.gradStage t < t.units - t.done)

/-- The reads of R and C that the end of ADAFACTOR's pass 1 needs (R114): what stands, and whether all is there. -/
def State.prepStatsRead (s : State) (t : Task) : State × Bool :=
  match s.roleHolding t 6, s.roleHolding t 7 with
  | some hr, some hc =>
    let good (h : Holding) : List Nat := (List.range h.count).filter (fun i => !s.elemPoison t.id h i)
    let ok := s.sideReady t hr (good hr) && s.sideReady t hc (good hc)
    ((s.startSide t hr (good hr)).startSide t hc (good hc), ok)
  | _, _ => (s, false)

/-- Plan one lane task; the answer is whether it waits for blocks of the factor cache. What belongs to its first slice (R144,
R151, R237) happens only when it is given one. -/
def State.planLane (s : State) (t : Task) : State × Bool :=
  let b := s.carrier.left
  if !s.plannable t || (b.read == 0 && b.write == 0 && t.runIn == 0) then (s, false)
  else
    let (s1, ok, wait) := s.prepCache t
    if !ok then (s1, wait)
    else
      let kept := if t.type == 0x12 && t.wPhase == 0 then s else s1
      let (s2, ok) := s1.prepStats t
      if !ok then (s2, false)
      else if t.pass == 11 && !(s2.prepStatsRead t).2 then ((s2.prepStatsRead t).1, false)
      else if !s2.snapshotFits t then (kept.waitSpace, false)
      else
        let kept := if t.type == 0x12 && t.wPhase == 0 then kept else s2
        let short (s : State) : State := if s2.ownShort t then s.waitSpace else s
        let s3 := s2.beginLane t
        match (s3.task? t.id).bind s3.grantLane with
        | none => (short kept, false)
        | some s4 =>
          match s4.task? t.id with
          | some t => (short (if t.pass == 11 then s4 else s4.refillBufs t), false)
          | none => (s4, false)

/-- Q̂ that cannot be read ends its task (R66). -/
def State.endUnreadable (s : State) (t : Task) : State :=
  match s.cacheHolding t, t.failWith with
  | some h, some x =>
    let (nc, r, nr) := s.cacheShape t
    if t.type == 0x11 && x.1 == 0x0023 && t.slice.isNone && s.sidePoison t h (factorRows h nr nc r) then
      s.endLane t x.1 x.2.1 x.2.2 t.done
    else s
  | _, _ => s

/-- Grants of ranks 4 and 5 in their order. When the class shuts a rank out, a slice that has run in is still taken up
(R70, R127); a run-in whose task gets no slice is dropped. The answer is whether a task waits for the factor cache. -/
def State.planLanes (s : State) (served : Bool) : State × Bool :=
  let ids := s.laneOrder.map (·.id)
  let s := ids.foldl (fun (s : State) i => match s.task? i with | some t => s.endUnreadable t | none => s) s
  let (s, wait) := ids.foldl (fun (x : State × Bool) i =>
    match x.1.task? i with
    | some t =>
      if served || t.runIn != 0 then
        let (s, w) := x.1.planLane t
        (s, x.2 || w)
      else x
    | none => x) (s, false)
  (ids.foldl (fun (s : State) i =>
    match s.task? i with
    | some t => if t.runIn != 0 then s.dropRunIn t else s
    | none => s) s, wait)

/-! THERMAL_GRACE (R71) -/

/-- ceil(remaining / n) + 2, where n is the slice of the first task that remains: unbounded when that slice is 0, and two
frames when no task remains. -/
def graceFrames (remaining : Nat) (n : Option Nat) : Option Nat :=
  match n with
  | none => some 2
  | some 0 => none
  | some n => some (ceilDiv remaining n + 2)

/-- Elements of the UPDATE tasks of a step that are not committed. -/
def State.remaining (s : State) (j : JobId) (step before : Nat) : Nat :=
  sumOf ((s.sched.tasks.filter (fun t => t.type == 0x11 && t.job == j && t.step == step && t.id < before)).map (fun t =>
    t.len - t.stored))

/-- COLL_SEQ and effective deadline of the collective of a VERDICT: its own once posted, else as messages held for it say. -/
def State.verdictDeadline (s : State) (t : Task) (g : Group) : Option (Nat × Nat) :=
  match s.colls.open_.find? (fun c => c.task == t.id) with
  | some c => some (c.seq, c.deadline)
  | none =>
    let l := s.colls.early.filter (fun m => bitsOf m.hdr 175 160 == g.id && bitsOf m.hdr 191 176 == g.epoch &&
      bitsOf m.hdr 119 116 == 0 && bitsOf m.hdr 511 448 == t.step)
    match l with
    | [] => none
    | m :: ms => some (bitsOf m.hdr 319 288, (ms.map (fun x => s.extend (bitsOf x.hdr 287 256))).foldl min
        (s.extend (bitsOf m.hdr 287 256)))

/-- One VERDICT under R71. -/
def State.graceFor (s : State) (t : Task) (hot cool : Units) (rank4 : Bool) : State :=
  match s.groupIn t.job (t.f 271 256) with
  | none => s
  | some g =>
    match s.verdictDeadline t g with
    | none => s
    | some (seq, deadline) =>
      let given := s.colls.open_.any (fun c => c.task == t.id && c.own.isSome)
      let rem := s.remaining t.job t.step t.id
      let first := s.laneOrder.find? (fun u => u.type == 0x11 && u.job == t.job && u.step == t.step && decide (u.id < t.id))
      let size (b : Units) : Option Nat := first.map (fun u => s.sliceSize b u (s.snapshotBytes u))
      let pt := graceFrames rem (if rank4 then size hot else first.map (fun _ => 0))
      let pu := (graceFrames rem (size cool)).getD (2 ^ 64)
      let l := deadline - s.frame
      let late := match pt with | some p => decide (l < p) | none => true
      let frames := match pt with | some p => min 50 (p - l) | none => 50
      if given || !decide (pu ≤ l) || !late || s.colls.graces.any (fun x => x.1 == g.id && x.2.1 == seq) then s
      else
        let c : Coll :=
          { task := t.id, job := t.job.val, group := g.id, seq := seq, kind := 0, op := 3, dtype := 3, exchange := false,
            root := g.root, step := t.step, count := 16, base := deadline }
        let c := (s.coll? g.id seq).getD c
        let s := (s.bump Od.thermalGraceSentCount).setColls fun x => { x with graces := x.graces ++ [(g.id, seq, frames)] }
        let s := s.setColl g.id seq (fun c => { c with grace := max c.grace frames })
        s.collFlood c g { type := 3, src := s.engineId, grace := frames, event := s.frame, count := c.countNow }

/-- THERMAL_GRACE at a boundary (R71). -/
def State.sendGraces (s : State) (hot cool : Units) (rank4 : Bool) : State :=
  (s.sched.tasks.filter (fun t => t.type == 0x14)).foldl (fun (s : State) t => s.graceFor t hot cool rank4) s

/-! The plan of a frame -/

/-- A change of the worst class (R70): entries into HOT and CRITICAL are counted and reported, naming the stack that holds
the class, or 255. -/
def State.throttleChange (s : State) : State :=
  let w := s.worstClass
  if w == s.carrier.worst then s
  else
    let s := s.setCarrier fun c => { c with worst := w, alThermal := c.alThermal || w == 3 }
    let s := if w == 3 then s.raise .thermalCritical else s
    if w < 2 then s
    else
      let at_ := ((s.carrier.thermStacks.toList.take (s.cfg Od.stackCount)).findIdx? (fun x => x.cls == w)).getD 255
      s.countEvent Od.thermHotCount at_ w

/-- What rank 3 may take of a frame (R99): the urgent share of each direction of the D2D share and of the Gallery. -/
def State.urgentCap (s : State) (total : Units) : Units :=
  let pct (n : Nat) : Nat := n * s.cfg Od.urgentSharePct / 100
  { total with read := pct total.read, write := pct total.write, galRead := pct 320000000, galWrite := pct 320000000 }

/-- What ranks 6 to 8 may take of the D2D share, by the worst class (Table 03-11). -/
def State.bulkShare (s : State) (cls total : Nat) : Nat :=
  if 2 ≤ cls then 0 else if cls == 1 then total * s.cfg Od.throttleWarmBulkPct / 100 else total

/-- Grants of ranks 6 and 7 (R15, R70): restores and serving, then the egress. -/
def State.planBulk (s : State) (cls : Nat) (total : Units) : State :=
  let cap := { s.carrier.left with read := s.bulkShare cls total.read, write := s.bulkShare cls total.write }
  let work := s.restoreWork 6 ++ s.serveWork 6 ++ (List.finRange 4).map (fun j => (.copyRead j.val, s.copyNeed j)) ++
    [(.drain, s.drainNeed)]
  let (s, cap) := s.grant work cap
  s.setCarrier fun c => { c with bulkRead := cap.read, bulkWrite := cap.write }

/-- The frame planner (R15): the shares of the frame, the grants of ranks 3 to 7 in their order, and what they leave to the
fetch ahead and to work of ranks 5 to 8 that becomes ready in the frame. -/
def State.planFrame (s : State) : State :=
  let s := s.throttleChange
  let cls := s.carrier.worst
  let pct := s.thermalPct cls
  let s := (s.odSet Od.effectiveShareReadBpf (s.share true pct)).odSet Od.effectiveShareWriteBpf (s.share false pct)
  let total := s.frameBudget pct
  let s := s.setCarrier fun c => { c with left := total.less s.controlUnits, grants := [] }
  let (s, _) := s.grant (s.restoreWork 3 ++ s.serveWork 3) (s.urgentCap total)
  let taken := (total.less s.carrier.left)
  let served := cls != 3
  let s := if 2 ≤ cls then s.sendGraces s.carrier.left ((s.frameBudget 100).less taken) served else s
  let s := if served then s else s.setCarrier fun c => { c with left := { c.left with read := 0, write := 0 } }
  let (s, wait) := s.planLanes served
  let s := if wait then s.total Od.factorCacheWaitFrames 1 else s
  let (s, _) := s.grant ((List.finRange 4).map (fun j => (.install j.val, s.installNeed j))) s.carrier.left
  s.planBulk cls total

end Sys2Proof.Machine
end

