-- ==== Sys2Proof/Machine/Queues.lean ====
section
/-!
DEFINITION. Queue pairs, admission, the control tasks, jobs and step marks, CANCEL, self-test starts and the power states
(R73 to R105).
-/
namespace Sys2Proof.Machine

/-! The rings (R73 to R78) -/

/-- The host agent of a path. -/
def pathHost (p : CwPath) : Option Host2 := match p with | .hostNs => some .ns | .hostS => some .s | .debug => none

/-- The host agent that an agent is. -/
def hostOf (a : Agent) : Option Host2 :=
  match a with
  | .hostNs => some .ns | .hostS => some .s
  | .docent => none | .curator => none | .field => none | .partner => none | .debug => none | .selftest => none

/-- A failed ring access stops the pair until it is retried (R77). -/
def QueuePair.failed (p : QueuePair) : Bool := !p.badReads.isEmpty || p.badWrite

/-- A pair that admits nothing now (R75). -/
def QueuePair.stopped (p : QueuePair) : Bool := p.failed || p.dying || decide (1024 ≤ p.pendingCt)

/-- Read the next record of a pair: one record at a time, ahead of its admission (log entry 70). -/
def State.fetchNext (s : State) (q : Nat) : State :=
  match s.qp? q, s.sched.bells.find? (fun b => b.1 == q) with
  | some p, some b =>
    let reading := s.reqOut fun o => match o with | .sqRead k _ => k == q | _ => false
    if p.failed || p.dying || !p.fetched.isEmpty || reading || !s.carrier.mainband then s
    else s.mrd (.sqRead q b.2) (p.sqBase + b.2 * 128) 2 none (p.owner == .s)
  | _, _ => s

/-- The failed access of a pair is tried again (R77), and what waited for it goes on. -/
def State.retryPair (s : State) (q : Nat) : State :=
  match s.qp? q with
  | none => s
  | some p =>
    let s := s.setQp q (fun p => { p with badReads := [], badWrite := false })
    let addr := p.cqBase + p.cqTail / 2 * 64
    let s := if p.badWrite then
        s.mwr (.cqWrite q p.cqTail) addr 1 (cellsAt addr (p.granule p.cqTail)) none (p.owner == .s)
      else s.cqPump q
    s.fetchNext q

/-- A ring access fails (R77). -/
def State.ringFailed (s : State) (q slot status : Nat) (read : Bool) : State :=
  let s := s.setQp q fun p =>
    if read then { p with fetchErr := true, badReads := addOnce p.badReads slot }
    else { p with fetchErr := true, badWrite := true }
  (s.raise (.fetchErr q)).countEvent Od.qpFetchErrCount q status

/-- A record has been read (R75). -/
def State.recordRead (s : State) (q slot : Nat) (bytes : Bytes) : State :=
  s.setQp q fun p =>
    { p with fetched := p.fetched ++ [BitVec.ofNat 1024 (leNat bytes)], sqHead := (slot + 1) % 2 ^ p.sqLog2 }

/-- The first entry of a pair has been written: CQ_TAIL advances, INTR is sent when it is wanted, once per pair and frame
(R83), and what waited for it is written. -/
def State.entryWritten (s : State) (q : Nat) : State :=
  match s.qp? q with
  | none => s
  | some p =>
    let wants := (p.entries.head?.map (·.intr)).getD false
    let fires := wants && p.intrFrame != some s.frame
    let s := s.setQp q fun p =>
      { p with pendingCt := p.pendingCt - 1, intrFrame := if fires then some s.frame else p.intrFrame, writing := false,
               entries := p.entries.drop 1, cqTail := (p.cqTail + 1) % 2 ^ p.cqLog2, written := p.written + 1 }
    let s := if fires then s.intr p.vector else s
    (s.sched.qps.map (·.q)).foldl (fun (s : State) k => s.cqPump k) s

/-- A host access of a pair's page: only the owner reaches it (R73, R59). -/
def State.pairAccess (s : State) (path : CwPath) (q : Nat) (f : State → QueuePair → State) : State :=
  if !s.cwOpen path then s
  else match s.qp? q with
    | none => s.denyCw path none
    | some p => if pathHost path == some p.owner then (f s p).send (.cwCpl path none 0 0) else s.denyCw path none

/-- An index outside the ring is written (R76). -/
def State.badIndex (s : State) (q : Nat) : State :=
  ((s.bump Od.doorbellBadCount).setQp q (fun p => { p with bellErr := true })).raise (.doorbellErr q)

/-- The slots that a doorbell makes visible. -/
def newSlots (old new size : Nat) : List Nat := (List.range ((new + size - old) % size)).map (fun k => (old + k) % size)

/-- SQ_TAIL takes a value (R75, R76); a wake event (R101). -/
def State.writeTail (s : State) (p : QueuePair) (value : Nat) : State :=
  let s := s.wakeUp
  let tail := value % 65536
  let size := 2 ^ p.sqLog2
  if p.dying then s
  else if size ≤ tail then s.badIndex p.q
  else
    let s := (s.setQp p.q (fun p => { p with sqTail := tail })).setSched fun c =>
      { c with bells := c.bells ++ (newSlots p.sqTail tail size).map (fun k => (p.q, k)) }
    s.retryPair p.q

/-- CQ_HEAD takes a value (R76). -/
def State.writeHead (s : State) (p : QueuePair) (value : Nat) : State :=
  let head := value % 65536
  if 2 ^ p.cqLog2 ≤ head then s.badIndex p.q
  else (s.setQp p.q (fun p => { p with cqHead := head })).retryPair p.q

/-- SQ_TAIL (R75, R76, R77). -/
def execSqTail (path : CwPath) (q : BitVec 6) (value : BitVec 32) (s : State) : Out :=
  .next (s.pairAccess path q.toNat fun s p => s.writeTail p value.toNat)

/-- CQ_HEAD (R76, R77). -/
def execCqHead (path : CwPath) (q : BitVec 6) (value : BitVec 32) (s : State) : Out :=
  .next (s.pairAccess path q.toNat fun s p => s.writeHead p value.toNat)

/-- The pair that a QP_CREATE value names (Table 04-1). -/
def pairOf (v : Nat) (owner : Host2) : QueuePair :=
  { q := natField v 7 0, owner := owner, sqBase := natField v 127 64, cqBase := natField v 191 128,
    sqLog2 := natField v 15 8, cqLog2 := natField v 23 16, vector := natField v 31 24 }

/-- A size, alignment or number of Table 04-1 is illegal. -/
def QueuePair.illegal (p : QueuePair) : Bool :=
  decide (63 < p.q) || decide (p.sqLog2 < 4) || decide (12 < p.sqLog2) || decide (p.cqLog2 < 4) || decide (12 < p.cqLog2) ||
    p.sqBase % 128 != 0 || p.cqBase % 64 != 0

/-- The owner's answer to QP_CREATE (R73): the pair exists from the next boundary (R414). -/
def State.createPair (s : State) (a : Agent) (value : Bytes) : Nat × State :=
  match hostOf a with
  | none => (abAccess, s)
  | some o =>
    let p := pairOf (leNat value) o
    if 32 < value.length then (abLengthHigh, s)
    else if value.length < 32 then (abLengthLow, s)
    else if p.illegal then (abOutOfRange, s)
    else if (s.qp? p.q).isSome || s.sched.creating.any (fun x => x.q == p.q) then (abBusy, s)
    else (0, s.setSched fun c => { c with creating := c.creating ++ [p] })

/-- QP_CREATE (R73). -/
def execQpCreate (agent : Agent) (value : Bytes) (s : State) : Out :=
  .next (s.odRow agent Od.qpCreate.key value fun s => s.createPair agent value)

/-- At the boundary, created pairs come into being (R414). -/
def State.pairsBoundary (s : State) : State :=
  s.setSched fun c => { c with qps := sortBy (fun (p : QueuePair) => p.q) (c.qps ++ c.creating), creating := [] }

/-! CANCEL (R97, R98, Table 04-11) -/

/-- A task that Table 04-11 makes NOT_CANCELLABLE. -/
def State.notCancellable (s : State) (t : Task) : Bool :=
  t.type == 0x05 || (t.type == 0x14 && s.colls.open_.any (fun c => c.task == t.id && c.own.isSome))

/-- What a running task that is no lane task holds goes with it. -/
def State.dropWork (s : State) (t : Task) : State :=
  let s := s.endIo t.id
  if t.type == 0x03 then s.setCarrier fun c => { c with registering := c.registering.filter (fun r => r.task != t.id) }
  else if t.type == 0x20 || t.type == 0x21 then s.dropRestore t.id
  else if t.type == 0x32 || t.type == 0x33 then s.dropVaultWork t.id
  else if t.type == 0x43 then s.setWeld t.job fun w => { w with resyncs := w.resyncs.filter (fun r => r.1 != t.id) }
  else if t.type == 0x44 then
    (s.setWeld t.job fun w => { w with rollback := none }).setVault fun v =>
      { v with quarantine := v.quarantine.filter (fun q => match q.owner with | .rollback j _ _ => j != t.job.val | _ => true) }
  else if 0x50 ≤ t.type && t.type ≤ 0x52 then s.setGroup (t.f 271 256) fun g => { g with reforming := false }
  else if t.type == 0x63 then s.setSec fun c => { c with rollover := c.rollover.filter (fun r => r.task != t.id) }
  else s

/-- A task that has begun and needs a key (R355). -/
def Task.keyed (t : Task) : Bool :=
  t.phase != .waiting && [0x13, 0x14, 0x15, 0x20, 0x21, 0x31, 0x32, 0x33, 0x40, 0x43, 0x44, 0x53, 0x54, 0x55].contains t.type

/-- While the alarm stands, a task that needs a key completes with KEY_ALARM (R353). -/
def State.alarmTask (s : State) (t : Task) : State :=
  let src := s.battery.alarmSource
  match s.collOf t.id with
  | some c => s.endColl c 0x5005 src 0 0
  | none => if t.type == 0x40 then s.pairFail t.job 0x5005 src 0 else (s.dropWork t).complete t 0x5005 src

/-- Every task that needs a key, while the alarm stands. -/
def State.alarmTasks (s : State) : State :=
  if !s.alarmed then s
  else (s.sched.tasks.filter Task.keyed).foldl (fun (s : State) t => if (s.task? t.id).isSome then s.alarmTask t else s) s

/-- A VERDICT that has not contributed gives a bad fingerprint (Table 04-11). One that has not been posted is posted for it,
when its group can be served (log entry 71). -/
def State.badFingerprint (s : State) (t : Task) : State :=
  let s := match s.collOf t.id, s.groupIn t.job (t.f 271 256) with
    | none, some g =>
      if g.absent == 0 && !g.reforming && (s.keyStatus 2).isNone && (s.job t.job).open_ then
        s.postColl t g (Coll.blank 0 3 3 t.step 16 false g.root)
      else s
    | _, _ => s
  s.contribute t.id ((s.fingerprint t true).map (fun v => (v, v)))

/-- Cancel one task, in its phase before the CANCEL; `by_` is the CANCEL and its tag, none for QP_DESTROY. -/
def State.cancelOne (s : State) (t : Task) (by_ : Option Task) : State :=
  let detail := (by_.map (·.tag)).getD 0
  let s := s.setTask t.id (fun t => { t with cancelTag := by_.map (·.id) })
  let t := { t with cancelTag := by_.map (·.id) }
  let tagged (s : State) : State := s.setTask t.id (fun t => { t with phase := .stopping })
  let gone (s : State) : State := (s.bump Od.cancelCount).complete t 0x0005 detail 0 t.done
  if t.type == 0x14 then gone (s.badFingerprint t)
  else if t.phase == .waiting then gone s
  else if t.lane then
    if t.begun then tagged s else (s.bump Od.cancelCount).endLane t 0x0005 detail 0 t.done
  else if t.type == 0x06 then tagged s
  else if 0x53 ≤ t.type && t.type ≤ 0x55 then
    let s := (tagged s).bump Od.cancelCount
    match s.collOf t.id with
    | some c => s.abortColl c 4
    | none => s
  else if t.type == 0x40 then (s.bump Od.cancelCount).pairFail t.job 0x0005 detail 0
  else gone (s.dropWork t)

/-- Cancel a list of tasks. None of them fails as the dependent of another: each is a target in its own right. -/
def State.cancelAll (s : State) (ts : List Task) (by_ : Option Task) : State :=
  let s := ts.foldl (fun (s : State) t =>
    if t.phase == .waiting then s.setTask t.id (fun t => { t with phase := .stopping }) else s) s
  ts.foldl (fun (s : State) t => if (s.task? t.id).isSome then s.cancelOne t by_ else s) s

/-- The targets of a CANCEL with SCOPE 1 or 2. -/
def State.cancelScope (s : State) (t : Task) : List Task :=
  s.sched.tasks.filter fun u =>
    u.id != t.id && !s.notCancellable u && u.cancelTag.isNone &&
    (if t.f 279 278 == 1 then taskJobBound u.type && u.job == t.job && u.owner == t.owner else u.qp == t.f 277 272)

/-- A CANCEL acts on its targets and completes once they all have. -/
def State.runCancel (s : State) (t : Task) (targets : List Task) : State :=
  let s := (s.setTask t.id (fun t => { t with phase := .running, result := targets.length })).cancelAll targets (some t)
  s.settleCancels

/-- CANCEL (R97). -/
def execCancel (task : Nat) (s : State) : Out :=
  .next <| s.whenReady task 0x05 fun s t =>
    let scope := t.f 279 278
    if scope == 0 then
      match s.tagState t.owner (t.f 271 256) with
      | none => s.complete t 0x0007
      | some .doneOk => s.complete t 0x0006
      | some .doneFail => s.complete t 0x0006
      | some .pending =>
        match s.sched.tasks.find? (fun u => u.owner == t.owner && u.tag == t.f 271 256) with
        | none => s.complete t 0x0006
        | some u => if s.notCancellable u then s.complete t 0x0008 else s.runCancel t [u]
    else if scope == 1 && (s.job t.job).open_ && (s.job t.job).owner != t.owner then s.complete t 0x0009
    else if scope == 2 && ((s.qp? (t.f 277 272)).map (fun p => p.owner != t.owner)).getD false then s.complete t 0x0009
    else s.runCancel t (s.cancelScope t)

/-- The answer of the owner of QP_DESTROY (R78). -/
def State.destroyPair (s : State) (a : Agent) (q : Nat) : Nat × State :=
  match s.qp? q with
  | none => (abAccess, s)
  | some p =>
    if hostOf a != some p.owner then (abAccess, s)
    else if p.dying then (abBusy, s)
    else
      let s := (s.setQp q (fun p => { p with dying := true, fetched := [] })).setSched fun c =>
        { c with bells := c.bells.filter (fun b => b.1 != q) }
      let s := s.dropReqs fun o => match o with
        | .sqRead k _ => k == q
        | _ => false
      (0, s.cancelAll (s.sched.tasks.filter (fun u => u.qp == q && !s.notCancellable u && u.cancelTag.isNone)) none)

/-- QP_DESTROY (R78) of a pair number. -/
def State.destroyWrite (s : State) (a : Agent) (q : Nat) : Nat × State :=
  if 63 < q then (abOutOfRange, s) else s.destroyPair a q

/-- QP_DESTROY (R78). -/
def execQpDestroy (agent : Agent) (q : BitVec 8) (s : State) : Out :=
  .next (s.odRow agent Od.qpDestroy.key (leBytes 1 q.toNat) fun s => s.destroyWrite agent q.toNat)

/-- QP_REMOVE (R78): at the first boundary at which nothing of the pair is pending. -/
def execQpRemove (q : BitVec 6) (s : State) : Out :=
  .next <| match s.qp? q.toNat with
    | none => s
    | some p =>
      if s.time.cycle == 0 && p.dying && p.pendingCt == 0 && p.entries.isEmpty then
        s.setSched fun c => { c with qps := c.qps.filter (fun x => x.q != q.toNat) }
      else s

/-! Admission (R75, R80, R88, R89) -/

/-- A record that never takes its tag completes at once. -/
def State.refuseRecord (s : State) (p : QueuePair) (r : BitVec 1024) (status : Nat) : State :=
  let id := s.sched.nextId
  (s.setSched fun c => { c with nextId := id + 1 }).putEntry p.q
    { bits := entryOf r s.frame status 0 0 0 0, intr := bitOf r 9, task := id, behind := none }

/-- What admission leaves in other units: the job's last control task (R80), the record of the step (R213), V for the
fingerprint (R270), the tensors named (R248). -/
def State.noteAdmission (s : State) (t : Task) : State :=
  let s := if t.type == 0x01 then s.setSched fun c => { c with closing := c.closing.filter (fun j => j != t.job.val) }
    else if t.type == 0x02 then s.setSched fun c => { c with closing := addOnce c.closing t.job.val }
    else s
  let s := if t.type == 0x11 then s.joinRecord t
    else if t.type == 0x13 then s.closeRecord t.job t.step (some t.id)
    else if t.type == 0x14 then
      (s.closeRecord t.job t.step none).setColls fun c => { c with priorV := c.priorV ++ [(t.id, (s.job t.job).v)] }
    else s
  (s.noteTensors t).observeSync

/-- An own-step task below C is stale (R88). -/
def State.staleStep (s : State) (t : Task) : Bool :=
  taskOwnStep t.type && (s.job t.job).open_ && (s.job t.job).owner == t.owner && decide (t.step < (s.job t.job).c)

/-- Admit a record of a pair: the checks of R80 and R89, then it waits in the scheduler. -/
def State.admitRecord (s : State) (p : QueuePair) (r : BitVec 1024) : State :=
  if recordMalformed r then (s.bump Od.malformedTaskCount).refuseRecord p r 0x0001
  else if s.tagState p.owner (bitsOf r 31 16) == some .pending then s.refuseRecord p r 0x0004
  else
    let t : Task := { id := s.sched.nextId, qp := p.q, owner := p.owner, record := r }
    let bad := (t.preds.zipIdx).find? (fun x => x.1 == t.tag || (s.tagState t.owner x.1).isNone)
    let failed := t.preds.find? (fun x => s.tagState t.owner x == some .doneFail)
    let t := { t with met := t.preds.filter (fun x => s.tagState t.owner x == some .doneOk) }
    let s := s.setSched fun c => { c with nextId := c.nextId + 1, tasks := c.tasks ++ [t], active := true }
    let s := s.setTag t.owner t.tag .pending
    match bad, failed with
    | some x, _ => s.complete t 0x0002 x.2
    | none, some x => s.complete t 0x0003 x
    | none, none =>
      if taskJobBound t.type && t.type != 0x01 && s.sched.closing.contains t.job.val then s.complete t 0x000A
      else if s.staleStep t then s.complete t 0x0011 0 0 (s.job t.job).c
      else s.noteAdmission t

/-- TASK_ADMIT (R75, R89): the earliest doorbell's record of a pair that is not stopped, once it has been read. -/
def execTaskAdmit (s : State) : Out :=
  .next <|
    match s.sched.bells.find? (fun b => ((s.qp? b.1).map (fun p => !p.stopped)).getD false) with
    | none => s
    | some b =>
      match s.qp? b.1 with
      | none => s
      | some p =>
        match p.fetched with
        | [] => s
        | r :: rest =>
          let s := s.setSched fun c => { c with bells := c.bells.erase b }
          let s := s.setQp p.q (fun p => { p with fetched := rest, pendingCt := p.pendingCt + 1 })
          (s.admitRecord p r).fetchNext p.q

/-! Control tasks (R82, R85 to R87) -/

/-- NOP (R92). -/
def execNop (task : Nat) (s : State) : Out := .next <| s.whenReady task 0x00 fun s t => s.complete t 0

/-- What a record holds of the work that comes after a JOB_OPEN: its tasks were admitted after it, or wait. -/
def OutRecord.since (r : OutRecord) (opened : Nat) : OutRecord :=
  { r with updates := r.updates.filter (fun u => opened < u.1), task := r.task.filter (opened < ·) }

/-- The Weld state of a job that opens: the pair goes on, its tables start afresh; records bound for the Vault of the same
lineage stay, and so does what work admitted after the JOB_OPEN has put into records (R212, R213, log entry 72). -/
def freshWeld (w : Weld) (same : Bool) (step opened : Nat) (closed : List Nat) : Weld :=
  let later := (w.outRecords.map (fun r => r.since opened)).filter (fun r => r.updates != [] || r.task.isSome)
  let kept := if same then w.outRecords.filter (fun r => r.toVault) else []
  { ({} : Weld) with
    state := w.state, partner := w.partner, mode := w.mode, cls := w.cls, modeReq := w.modeReq, pairTask := w.pairTask,
    firstOffer := w.firstOffer, lastOffer := w.lastOffer, keptOffer := w.keptOffer, txSeq := w.txSeq, rxSeq := w.rxSeq,
    lastRx := w.lastRx, lastTx := w.lastTx, rxThisFrame := w.rxThisFrame,
    outRecords := kept ++ later.filter (fun r => !kept.any (fun x => x.step == r.step)), closedSteps := closed,
    outStale := some (step + 1) }

/-- JOB_OPEN (R85, R212, R246, R415). -/
def execJobOpen (task : Nat) (s : State) : Out :=
  .next <| s.whenReady task 0x01 fun s t =>
    let j := t.job
    if (s.job j).open_ then s.complete t (if (s.job j).owner == t.owner then 0x000B else 0x0009)
    else
      let lineage := t.f 383 256
      let same := (s.job j).lineage == lineage
      let s := s.setJob j fun x =>
        { x with open_ := true, owner := t.owner, lineage := lineage, openStep := t.step, c := t.step, v := t.step, m := 0,
                 badVerdict := false, badSteps := [] }
      let closed := (s.sched.tasks.filter (fun u =>
        u.job == j && decide (t.id < u.id) && (u.type == 0x13 || u.type == 0x14))).map (·.step)
      let s := ((s.setWeld j fun w => freshWeld w same t.step t.id closed.eraseDups).stepEffect j).openHead j lineage t.step
      let s := s.complete t 0
      (s.sched.tasks.filter (fun u => u.job == j && u.phase == .waiting && s.staleStep u)).foldl (fun (s : State) u =>
        match s.task? u.id with
        | some u => s.complete u 0x0011 0 0 t.step
        | none => s) s

/-- Remove a Holding, and what other units keep under its number. -/
def State.releaseHolding (s : State) (hid : Nat) : State :=
  let s := s.setCarrier fun c =>
    { c with holdings := c.holdings.filter (fun h => h.id != hid), pendingExt := c.pendingExt.filter (fun p => p.holding != hid),
             extUpdates := c.extUpdates.filter (fun p => p.1 != hid) }
  let s := (s.dropFactorSets (fun f => f.holding == hid)).setWoad fun w =>
    { w with cache := w.cache.filter (fun r => r.holding != some hid), efStep := assocErase w.efStep hid }
  let s := s.setVault fun v =>
    { v with tensors := v.tensors.filter (fun x => x.1 != hid), unverified := v.unverified.filter (fun x => x.1 != hid) }
  { s with welds := s.welds.map (fun w => { w with binds := w.binds.filter (fun b => b.1 != hid) }) }

/-- RELEASE_HOLDING (R86). -/
def execReleaseHolding (task : Nat) (s : State) : Out :=
  .next <| s.whenReady task 0x04 fun s t =>
    let hid := t.f 267 256
    match s.holdingIn t.job hid with
    | none => s.complete t 0x0033 hid
    | some _ => (s.releaseHolding hid).complete t 0

/-- JOB_CLOSE (R85, R144, R210, R236, R264): every other task of the job has completed. -/
def execJobClose (task : Nat) (s : State) : Out :=
  .next <| s.whenReady task 0x02 fun s t =>
    let j := t.job
    let s := (s.vault.accs.filter (fun a => a.job == j.val && a.live)).foldl (fun (s : State) a => s.abandonAcc j.val a.id) s
    let s := ((s.endPair j true).closeSpare j).dropFactorSets (fun f => f.job == j.val)
    let s := s.setWoad fun w => { w with cache := w.cache.filter (fun r => r.job != j.val) }
    let s := (s.carrier.holdings.filter (fun h => h.job == j)).foldl (fun (s : State) h => s.releaseHolding h.id) s
    let s := s.setUpdate fun u => { u with digests := u.digests.filter (fun d => d.job != j.val) }
    let s := s.setColls fun c =>
      { c with held := c.held.filter (fun h => h.job != j.val), faults := c.faults.filter (fun f => f.job != j.val) }
    let s := (s.setWeld j fun w => { w with shadowTo := 0 }).stepEffect j
    ((s.setJob j fun x => { x with open_ := false }).complete t 0).settleVault

/-- Bytes that the registered Holdings of a KIND and the registrations in progress hold (R64). -/
def State.kindBytes (s : State) (kind : Nat) : Nat :=
  sumOf (((s.carrier.holdings.map (·.desc)) ++ s.carrier.registering.map (·.desc)).map (fun d =>
    if bitsOf d 19 16 == kind then descCount d * formatWidth (bitsOf d 27 24) else 0))

/-- A descriptor that Table 03-10 finds bad. -/
def badDescriptor (d : BitVec 512) : Bool :=
  let n := descDims d
  let sizes := (List.range 4).map (descSize d)
  let span := ((List.range n).map (fun k => (sizes.getD k 0 - 1) * descStride d k)).foldl (· + ·) 0
  let extents := bitsOf d 479 448
  decide (4 < bitsOf d 27 24) || decide (3 < bitsOf d 19 16) || decide (7 < bitsOf d 31 28) ||
    (List.range 4).any (fun k => if k < n then sizes.getD k 0 == 0 else sizes.getD k 0 != 0) ||
    (List.range n).any (fun k => 1 ≤ k && decide (descStride d k < descStride d (k - 1) * sizes.getD (k - 1) 0)) ||
    extents == 0 || decide (245760 < extents) ||
    decide (extents * 2097152 < (span + 1) * formatWidth (bitsOf d 27 24)) || bitsOf d 447 384 % 64 != 0

/-- Why a registration is refused before its extent table is read (Table 03-10); 0 when it is not. -/
def State.refuseHolding (s : State) (d : BitVec 512) : Nat :=
  let hid := bitsOf d 11 0
  let kind := bitsOf d 19 16
  if badDescriptor d then 0x0030
  else if (s.holding? hid).isSome || s.carrier.registering.any (fun r => bitsOf r.desc 11 0 == hid) then 0x0031
  else if kind ≤ 1 && 515396075520 < s.kindBytes kind + descCount d * formatWidth (bitsOf d 27 24) then 0x0032
  else 0

/-- Read the extent table of a registration into a buffer of the task: four granules at a time, or one by one where the
outbound buffer holds some; while an uncommitted slice has written to it, not yet (R94). -/
def State.readExtents (s : State) (t : Task) (d : BitVec 512) : State :=
  let addr := bitsOf d 447 384
  let granules := ceilDiv (bitsOf d 479 448) 8
  let gs := (List.range granules).map (fun k => addr + 64 * k)
  let single := gs.any (fun g => (s.granuleState g).isSome)
  let buf : StreamBuf :=
    { task := t.id, holding := 4096, leaf := 0, waiting := if single then granules else ceilDiv granules 4, cells := [] }
  let wait := s.readWaits gs
  let s := s.setUpdate fun u => { u with streams := u.streams.filter (fun b => b.task != t.id) ++ [buf] }
  if wait then s
  else if single then gs.foldl (fun (s : State) g => s.readGranule (.extentTable t.id) t.id g none (t.owner == .s)) s
  else (List.range (ceilDiv granules 4)).foldl (fun (s : State) k =>
    s.mrd (.extentTable t.id) (addr + k * 256) (min 4 (granules - 4 * k)) none (t.owner == .s)) s

/-- The extent table has been read: the Holding is registered (R61, R64). -/
def State.extentsRead (s : State) (t : Task) : State :=
  match s.carrier.registering.find? (fun r => r.task == t.id), s.taskBuf t.id with
  | some r, some b =>
    if b.waiting != 0 then s
    else
      let addr := bitsOf r.desc 447 384
      let entry (i : Nat) : BitVec 64 :=
        BitVec.ofNat 64 (leNat ((List.range 8).map (fun k => (assoc b.cells (addr + 8 * i + k)).getD 0)))
      let h : Holding := { desc := r.desc, job := r.job, extents := (List.range (bitsOf r.desc 479 448)).map entry }
      let s := (s.endIo t.id).setCarrier fun c =>
        { c with registering := c.registering.filter (fun x => x.task != t.id),
                 holdings := sortBy (fun (x : Holding) => x.id) (c.holdings ++ [h]) }
      s.complete t 0
  | _, _ => s

/-- REGISTER_HOLDING (R64, R86): the checks, then the read of the extent table. -/
def execRegisterHolding (task : Nat) (s : State) : Out :=
  .next <| s.whenReady task 0x03 fun s t =>
    let d := BitVec.ofNat 512 (t.f 767 256)
    let st := s.refuseHolding d
    if st != 0 then s.complete t st (bitsOf d 11 0)
    else if s.d2dDown then s.fail t 0x0021
    else
      let s := (s.start t).setCarrier fun c => { c with registering := c.registering ++ [{ task := t.id, desc := d, job := t.job }] }
      (s.readExtents t d).extentsRead t

/-- HOLDING_ID that a registration names. -/
def State.registeringHid (s : State) (task : Nat) : Nat :=
  ((s.carrier.registering.find? (fun r => r.task == task)).map (fun r => bitsOf r.desc 11 0)).getD 0

/-- A registration ends without a Holding. -/
def State.refuseRegistering (s : State) (t : Task) (status : Nat) : State :=
  (s.dropWork t).complete t status (s.registeringHid t.id)

/-! Step marks (R87, R19, R246) -/

/-- A mark is accepted: C, the unprotected steps (R223), the STEP settings (R415), D under PARTNER_ONLY (R246), records that
open without a LEDGER_SEND (R213). -/
def State.acceptMark (s : State) (t : Task) (c : Nat) : State :=
  let j := t.job
  let s := if (s.lagBase j).2 then s.total Od.unprotectedSteps 1 else s
  let s := ((s.setJob j fun x => { x with c := c }).stepEffect j).policyD j
  (s.complete t 0).pumpRecords j

/-- End one own-step task that a REPLAY mark abandons (R87, R289). -/
def State.abandonTask (s : State) (t : Task) : State :=
  if t.lane && t.phase != .waiting then
    if t.slice.isSome then s.setTask t.id (fun t => { t with phase := .stopping, failWith := some (0x0013, 0, 0) })
    else (s.endLane t 0x0013 0 0 t.done).dropOwnDigests t
  else if t.type == 0x14 && t.phase != .waiting then
    match s.collOf t.id with
    | some c => (s.abortColl c 4).setColl c.group c.seq fun c => { c with abandoned := true }
    | none => s.fail t 0x0013
  else (s.dropWork t).fail t 0x0013

/-- Every own-step task of the job admitted before a REPLAY mark, of a step above V, is abandoned. -/
def State.abandonSteps (s : State) (mark : Task) : State :=
  let v := (s.job mark.job).v
  let ts := s.sched.tasks.filter (fun u => taskOwnStep u.type && u.job == mark.job && u.id < mark.id && v < u.step)
  let s := ts.foldl (fun (s : State) t =>
    if t.phase == .waiting then s.setTask t.id (fun t => { t with phase := .stopping }) else s) s
  ts.foldl (fun (s : State) t => if (s.task? t.id).isSome then s.abandonTask t else s) s

/-- What steps above V have left is dropped for the replay: counts of the fingerprint, digests, and of the records what
tasks before the mark have put there. -/
def State.forgetSteps (s : State) (mark : Task) : State :=
  let j := mark.job
  let v := (s.job j).v
  let kept := ((s.weld j).outRecords.filter (fun r => v < r.step)).map fun r =>
    { r with updates := r.updates.filter (fun u => mark.id < u.1), task := r.task.filter (fun k => mark.id < k), staged := [], had := [] }
  let live (k : Nat) : Bool :=
    s.sched.tasks.any (fun u => (u.type == 0x13 || u.type == 0x14) && u.job == j && u.step == k && mark.id < u.id)
  let s := s.setColls fun c => { c with faults := c.faults.filter (fun f => !(f.job == j.val && v < f.step)) }
  let s := s.setUpdate fun u =>
    { u with digests := u.digests.filter (fun d => !(d.job == j.val && v < d.step &&
        ((s.holding? d.holding).map (·.kind)) != some 1)) }
  s.setWeld j fun w =>
    { w with outRecords := w.outRecords.filter (fun r => r.step ≤ v) ++ kept.filter (fun r => !r.updates.isEmpty || live r.step),
             closedSteps := w.closedSteps.filter (fun k => k ≤ v || live k) }

/-- STEP_MARK (R87, R19, R223, R230, R415). -/
def execStepMark (task : Nat) (s : State) : Out :=
  .next <| s.whenReady task 0x10 fun s t =>
    let j := s.job t.job
    if t.f 257 256 == 0 then
      if t.step != j.c + 1 then s.complete t 0x0010 0 0 j.c
      else if j.badVerdict then s.complete t 0x0012 0 0 j.v
      else if s.markHeld t.job then s
      else s.acceptMark t (j.c + 1)
    else if t.step != j.v + 1 || !j.badVerdict then s.complete t 0x0010 0 0 j.c
    else
      let s := ((s.abandonSteps t).forgetSteps t).setJob t.job fun x => { x with badVerdict := false, badSteps := [] }
      s.acceptMark t (j.v + 1)

/-! SELFTEST (R102, R103) -/

/-- Rows of 8,192 bytes that GALLERY_FULL tests: those of slots that no region holds, and the spares. -/
def State.testRows (s : State) : Nat := s.unassigned * 128 + s.sparesLeft.1 + s.sparesLeft.2

/-- Steps of an item (R103). -/
def State.itemSteps (s : State) (item : Nat) : Nat :=
  if item == 8 then max 1 (ceilDiv s.testRows 4096) else if item == 9 then 10 else 1

/-- The items that a SELFTEST runs: those of its mask, or all of its LEVEL (log entry 73). -/
def Task.testItems (t : Task) : List Nat :=
  let mask := t.f 272 264
  if mask == 0 then (if t.f 256 256 == 0 then [1, 2, 3, 4, 5, 6, 7] else [8, 9])
  else (List.range 9).filterMap (fun k => if mask / 2 ^ k % 2 == 1 then some (k + 1) else none)

/-- SELFTEST (R102): its steps run at the frame boundaries. -/
def execSelftest (task : Nat) (s : State) : Out :=
  .next <| s.whenReady task 0x06 fun s t =>
    let items := t.testItems
    let run : SelfTest :=
      { task := t.id, items := items, steps := s.itemSteps (items.headD 1), ran := 0, failed := 0, start := s.frame,
        total := items.length, first := none }
    (s.start t).setSched fun c => { c with selftest := some run }

/-! Power states (R100, R101) -/

/-- Enter a lower power state. -/
def State.enterPower (s : State) (p : PowerState) (count : OdRef) : State :=
  let s := (s.bump count).setSched fun c => { c with power := p, idleFrames := 0 }
  if p != .e1 && s.time.state == .synced then s.enterHoldover else s

/-- IDLE_FRAME_LIMIT (R101): the idle frames in a row have reached the limit of the present state. -/
def execIdleFrameLimit (s : State) : Out :=
  .next <|
    let n := s.sched.idleFrames
    let limit := s.cfg Od.powerStateLimit
    if s.sched.exiting then s
    else match s.sched.power with
      | .e0 => if s.cfg Od.e1IdleFrames ≤ n && 1 ≤ limit then s.enterPower .e1 Od.e1EntryCount else s
      | .e1 => if s.cfg Od.e2IdleFrames ≤ n && !s.anyJob && 2 ≤ limit then s.enterPower .e2 Od.e2EntryCount else s
      | .e2 => if s.cfg Od.e3IdleFrames ≤ n && !s.anyJob && 3 ≤ limit then s.enterPower .e3 Od.e3EntryCount else s
      | .e3 => s

/-- WAKE_EVENT (R101). -/
def execWakeEvent (cause : WakeEvent) (s : State) : Out :=
  .next <| match cause with
    | .sqTail => s.wakeUp
    | .mailbox => s.wakeUp
    | .odWrite => s.wakeUp
    | .phoaz => s.wakeUp
    | .portSignal => if s.sched.power == .e3 then s else s.wakeUp

/-- POWER_EXIT_DONE (R100): the exit latency has passed. -/
def execPowerExitDone (s : State) : Out :=
  .next <| if s.sched.exiting then
      (s.setSched fun c => { c with power := .e0, exiting := false, idleFrames := 0 }).observeSync
    else s

/-- POWER_STATE_LIMIT (R101): the write of the setting; below the present state it ends that state, as any write of the
dictionary does. -/
def execPowerStateLimit (agent : Agent) (value : BitVec 8) (s : State) : Out :=
  .next (s.odRow agent Od.powerStateLimit.key [value] fun s => acceptSetting Od.powerStateLimit.key value.toNat s)

end Sys2Proof.Machine
end

