-- ==== Sys2Proof/Machine/Service.lean ====
section
/-!
DEFINITION. Predictive retirement, Docent bundles and Curator images (R448 to R456).
-/
namespace Sys2Proof.Machine

/-! Security versions (R402) -/

/-- A security-version counter: 0 Curator, 1 Docent, 2 kernel, 3 bundle. -/
def State.svn (s : State) (k : Nat) : Nat := (s.battery.svn.toList.getD k none).getD (Config.svnFloor k % 2 ^ 32)

/-- A counter rises to a higher value. -/
def State.raiseSvn (s : State) (k v : Nat) : State :=
  if s.svn k < v then s.setBattery fun b => { b with svn := vmod b.svn k (fun _ => some v) } else s

/-- SVN_WRITE (R402): an authenticated FIELD write of a higher value. -/
def State.svnWrite (s : State) (k v : Nat) (authenticated : Bool) : Nat × State :=
  if !authenticated then (abAuthRequired, s) else if v ≤ s.svn k then (abOutOfRange, s) else (0, s.raiseSvn k v)

/-- SVN_WRITE (R402), of subindex 05 to 08. -/
def execSvnWrite (agent : Agent) (sub : BitVec 8) (value : BitVec 32) (authenticated : Bool) (s : State) : Out :=
  .next <|
    if 5 ≤ sub.toNat && sub.toNat ≤ 8 then
      s.odRow agent (0x104000 + sub.toNat) (leBytes 4 value.toNat) fun s => s.svnWrite (sub.toNat - 5) value.toNat authenticated
    else s

/-! Predictive retirement (R448) -/

/-- Retire a cipher pipe by plan: a pipe that serves no pair just leaves the spares. -/
def State.planPipe (s : State) (pipe : Nat) : State :=
  match s.sec.pairMap.findIdx? (fun p => p.1 == pipe || p.2 == pipe) with
  | some pair => s.retirePipe pair pipe
  | none => ((s.bump Od.pipeRetireCount).retirePart (partId 6 pipe)).setSec fun x =>
      { x with pipesRetired := addOnce x.pipesRetired pipe }

/-- Retire a Docent core by plan: exchanged at the boundary as for a pin, with no fault counted (Table 17-6). -/
def State.planCore (s : State) (phys : Nat) : State :=
  match (List.finRange 20).find? (fun c => (s.core c).phys == phys) with
  | none =>
    let s := { s with docent := { s.docent with spares := s.docent.spares.filter (fun x => x != phys) } }
    (s.odSet Od.docentSparesLeft s.docent.spares.length).settleCore phys true
  | some c =>
    match s.docent.spares with
    | [] => s
    | q :: rest =>
      let s := { s with docent := { s.docent with spares := rest } }
      ((s.odSet Od.docentSparesLeft rest.length).remapCore c q).settleCore phys true

/-- A spare of the class is left for a part, and the means can be used now (Table 17-7). -/
def State.canPlan (s : State) (cls i : Nat) : Bool :=
  let other (l : List Nat) : Bool := l.any (fun x => x != i)
  match cls with
  | 1 => other s.laneSpares
  | 2 => other s.rowSpares
  | 3 => other s.colSpares
  | 4 => other s.encSpares
  | 5 => other s.decSpares
  | 6 => other s.sparePipes
  | 7 => other s.docent.spares && !(List.finRange 20).any (fun c => (s.core c).phys == i && (s.core c).frozen.isSome)
  | 9 =>
    let x := s.port (portOf (i / 32))
    x.state == .up && i / 16 % 2 == 1 && x.rxMap.contains (i % 16) && (x.spare .rx).isSome && !x.swaps.any (·.asked)
  | 10 =>
    let x := s.port (portOf (i / 2))
    x.state == .up && x.laser == i % 2 && x.otherLaser.isSome && x.plan.isNone && !x.lasersBad.contains (i % 2)
  | _ => false

/-- Retire a part by its planned means. A receive lane is retired by the live swap that is asked for here (R304). -/
def State.planRetire (s : State) (cls i : Nat) : State :=
  match cls with
  | 1 => s.retireLane i
  | 2 => s.retireRow i
  | 3 => s.retireCol i
  | 4 => s.retireCoder false i
  | 5 => s.retireCoder true i
  | 6 => s.planPipe i
  | 7 => s.planCore i
  | 9 =>
    let p := portOf (i / 32)
    let x := s.port p
    let w : LiveSwap := { number := x.swapNo, lane := i % 16, asked := true, point := none, frame := s.frame }
    (s.setPort p (fun y => { y with swaps := y.swaps ++ [w], swapNo := (y.swapNo + 1) % 65536 })).send
      (.ctrl p.val 4 [w.number, i % 16])
  | 10 =>
    let p := portOf (i / 2)
    let s := (s.setPort p (fun y => { y with lasersBad := addOnce y.lasersBad (i % 2) })).retirePart (partId 10 i)
    s.planRetrain p 1
  | _ => s

/-- PREDICTIVE_RETIRE (R448): a part of a class with planned means retires onto a spare; a part of classes 8, 11 and 12 is
reported once. -/
def execPredictiveRetire (part : BitVec 16) (s : State) : Out :=
  .next <|
    let pid := part.toNat
    let cls := pid / 4096
    let r := s.score pid
    if !partKnown pid || s.cfg Od.scoreEnable == 0 || r.state == .retired || r.score < s.cfg Od.retireThreshold then s
    else if cls == 8 || cls == 11 || cls == 12 then
      if s.service.reported.contains pid then s
      else (s.setService fun v => { v with reported := v.reported ++ [pid] }).event Od.predictiveRetireCount pid
    else if s.cfg Od.predictiveRetire == 1 && s.canPlan cls (pid % 4096) then
      (s.planRetire cls (pid % 4096)).countEvent Od.predictiveRetireCount pid
    else s

/-! Docent bundles (R390, R451 to R455) -/

/-- The kernel set that a bundle's kernel image brings (R121, R122). -/
def Bundle.kernels (b : Bundle) : KernelSet :=
  { imageId := b.kernelId.toNat, adamw := b.kvers[0].toNat, lion := b.kvers[1].toNat, sgdm := b.kvers[2].toNat,
    adafactor := b.kvers[3].toNat }

/-- The kernel image of a bundle follows at its boundary (R123, R143). -/
def State.armKernels (s : State) (b : Option Bundle) : State :=
  let k : KernelSet := (b.map (fun b => Bundle.kernels b)).getD {}
  let level := (b.map (fun b => b.woadLevel.toNat)).getD 0
  (s.setUpdate fun u => { u with kernelsNext := some k }).setWoad fun w => { w with levelNext := some level }

/-- BUNDLE_STATE (Table 17-13). -/
def State.bundleState (s : State) : BundleState :=
  if s.service.trial.isSome then .trial
  else if s.service.active.isNone then .none
  else if s.service.staged.isSome then .staged
  else .active

/-- The signature verifies and no security version is below its counter (R390, R452). -/
def State.bundleSigned (s : State) (b : Bundle) : Bool :=
  b.sigOk && s.svn 1 ≤ b.svnDocent.toNat && s.svn 2 ≤ b.svnKernel.toNat && s.svn 3 ≤ b.svnBundle.toNat

/-- A refused image is counted (R390, R403, R452). -/
def State.refuseImage (s : State) : Nat × State := (abInvalid, s.bump Od.imageRefusedCount)

/-- DOCENT_BUNDLE_LOAD (R390): the Docent boot ROM takes the first bundle. -/
def State.bundleLoad (s : State) (b : Bundle) : Nat × State :=
  if !s.mainUp then (abNotReady, s)
  else if !s.bundleSigned b || s.service.active.isSome then s.refuseImage
  else (0, (s.setService fun v => { v with active := some b }).armKernels (some b))

/-- A dictionary write of an image: a refusal counts in IMAGE_REFUSED_COUNT beside OD_ABORT_COUNT. -/
def State.imageWrite (s : State) (a : Agent) (key : Nat) (bytes : Bytes) (f : State → Nat × State) : Nat × State :=
  let c := s.odCheck a key bytes
  if c != 0 then (c, s.odRefuse)
  else
    let (c, t) := f s
    if c != 0 then (c, t.odRefuse) else (0, t.wakeUp)

/-- An image row of its own: the answer goes back to its agent. -/
def State.imageRow (s : State) (a : Agent) (key : Nat) (f : State → Nat × State) : State :=
  let (c, s) := s.imageWrite a key [] f
  s.send (.od a.code c [])

/-- DOCENT_BUNDLE_LOAD (R390). -/
def execDocentBundleLoad (agent : Agent) (bundle : Bundle) (s : State) : Out :=
  .next (s.imageRow agent Od.docentBundleLoad.key fun s => s.bundleLoad bundle)

/-- Some trial stands (R453, R456). -/
def State.anyTrial (s : State) : Bool := s.service.trial.isSome || s.curator.trial.isSome

/-- Some pair of some job runs in REPLAY mode (R454). -/
def State.replayPair (s : State) : Bool := s.welds.toList.any (fun w => w.state == .paired && w.mode == .replay)

/-- BUNDLE_STAGE (R452): the checks in order. A newly staged bundle replaces the one staged before it, and an activation of
that one with it. -/
def State.bundleStage (s : State) (b : Bundle) : Nat × State :=
  if !s.bundleSigned b || !matrixOk b.matrix b.id.toNat || ownClassOf b s.curatorFw == 2 then s.refuseImage
  else if s.service.trial.isSome then (abBusy, s)
  else (0, s.setService fun v => { v with staged := some b, armed := none })

/-- BUNDLE_STAGE (R452). -/
def execBundleStage (agent : Agent) (bundle : Bundle) (s : State) : Out :=
  .next (s.imageRow agent Od.bundleStage.key fun s => s.bundleStage bundle)

/-- BUNDLE_ACTIVATE (R453, R454). -/
def State.bundleActivate (s : State) (v : Nat) : Nat × State :=
  match s.service.staged with
  | none => (abInvalid, s)
  | some b =>
    let cls := ownClassOf b s.curatorFw
    let schema := match s.service.active with
      | some a => a.schema != b.schema
      | none => false
    if v != b.id.toNat || cls == 2 then (abInvalid, s)
    else if s.anyTrial || (schema && s.anyJob) || (cls == 1 && s.replayPair) then (abBusy, s)
    else (0, s.setService fun x => { x with armed := some s.frame })

/-- BUNDLE_ACTIVATE (R453, R454). -/
def execBundleActivate (agent : Agent) (value : BitVec 32) (s : State) : Out :=
  .next (s.odRow agent Od.bundleActivate.key (leBytes 4 value.toNat) fun s => s.bundleActivate value.toNat)

/-- A boundary is quiet (R453). -/
def State.quiet (s : State) : Bool :=
  s.sched.tasks.all (fun t =>
    !(t.type == 0x13 || t.type == 0x14 || t.type == 0x16 || (0x20 ≤ t.type && t.type ≤ 0x2F) ||
      (0x40 ≤ t.type && t.type ≤ 0x5F))) &&
  s.docent.cores.toList.all (fun c => c.frozen.isNone)

/-- BUNDLE_SWITCH (R453): at the first quiet boundary the staged bundle becomes active, on trial. -/
def execBundleSwitch (s : State) : Out :=
  .next <| match s.service.armed, s.service.staged with
    | some f, some b =>
      if s.time.cycle == 0 && f < s.frame && s.quiet then
        (s.setService fun v => { v with
          previous := v.active, active := some b, staged := none, armed := none, trial := some s.frame,
          trialBad := false }).armKernels (some b)
      else s
    | _, _ => s

/-- ACTIVATE_WAIT_TIMEOUT (R453): no quiet boundary within ACTIVATE_WAIT_FRAMES. -/
def execActivateWaitTimeout (s : State) : Out :=
  .next <| match s.service.armed with
    | some f =>
      if s.lapsed f (s.cfg Od.activateWaitFrames) then
        (s.setService fun v => { v with armed := none }).countEvent Od.activateAbandonCount
      else s
    | none => s

/-- BUNDLE_TRIAL_FAIL (R455): the trial has failed by a core fault or a write of 0, or the image has missed its health word
at three boundaries. The cores go back to the context of the last boundary, and the previous bundle resumes. -/
def execBundleTrialFail (missed : Bool) (s : State) : Out :=
  .next <|
    if s.service.trial.isSome && (s.service.trialBad || (missed && s.trialing)) then
      let old := s.service.previous
      let s := s.setService fun v => { v with
        active := old, previous := none, staged := none, trial := none, trialBad := false }
      let s := { s with docent := { s.docent with cores := s.docent.cores.map (fun (c : DocentCore) => { c with stalled := [] }) } }
      (s.armKernels old).countEvent Od.revertCount
    else s

/-- A bundle is committed (R455): its security versions become the counters, and the previous bundle is freed. -/
def State.commitBundle (s : State) : State :=
  match s.service.active with
  | some b =>
    let s := ((s.raiseSvn 1 b.svnDocent.toNat).raiseSvn 2 b.svnKernel.toNat).raiseSvn 3 b.svnBundle.toNat
    s.setService fun v => { v with trial := none, previous := none }
  | none => s

/-- BUNDLE_COMMIT (R455): 0 fails the trial, 1 commits it once its frames have passed. -/
def State.bundleCommit (s : State) (v : Nat) : Nat × State :=
  if s.service.trial.isNone then (abBusy, s)
  else if v == 0 then (0, s.setService fun x => { x with trialBad := true })
  else if s.trialing || s.service.trialBad then (abBusy, s)
  else (0, s.commitBundle)

/-- BUNDLE_COMMIT (R455). -/
def execBundleCommit (agent : Agent) (value : BitVec 8) (s : State) : Out :=
  .next (s.odRow agent Od.bundleCommit.key [value] fun s => s.bundleCommit value.toNat)

/-- TRIAL_END (R455): with AUTO_COMMIT the engine commits at the end of the trial by itself. -/
def execTrialEnd (s : State) : Out :=
  .next <|
    if s.service.trial.isSome && !s.trialing && !s.service.trialBad && s.cfg Od.autoCommit == 1 then s.commitBundle else s

/-! Curator images (R403, R456) -/

/-- The image in a slot, 1 A or 2 B. -/
def State.curatorImage (s : State) (slot : Nat) : Option CuratorImage :=
  if slot == 1 then s.battery.imageA else if slot == 2 then s.battery.imageB else none

/-- An image passes its check (R403). -/
def State.imageGood (s : State) (i : CuratorImage) : Bool := i.sigOk && s.svn 0 ≤ i.svn.toNat

/-- The slots in the order of R403: the one that BOOT_CHOICE names, and the other. Values 2 and 3 read as 0. -/
def State.bootOrder (s : State) : List Nat := if s.battery.bootChoice == 1 then [2, 1] else [1, 2]

/-- The image that runs after a start (R403): the first that passes its check, else the ROM image. A slot that holds an image
which fails is counted. -/
def State.bootSlot (s : State) : Nat × State :=
  s.bootOrder.foldr (fun k (found : State → Nat × State) (s : State) =>
    match s.curatorImage k with
    | some i => if s.imageGood i then (k, s) else found (s.bump Od.imageRefusedCount)
    | none => found s) (fun s => (0, s)) s

/-- CURATOR_IMAGE_LOAD (R403): the slot of the image that is not running; with the ROM image running, the slot that
BOOT_CHOICE names. -/
def State.imageLoad (s : State) (i : CuratorImage) : Nat × State :=
  if !s.imageGood i then s.refuseImage
  else
    let slot := if s.curator.slot == 1 then 2 else if s.curator.slot == 2 then 1 else s.bootOrder.headD 1
    (0, s.setBattery fun b => if slot == 1 then { b with imageA := some i } else { b with imageB := some i })

/-- CURATOR_IMAGE_LOAD (R403). -/
def execCuratorImageLoad (agent : Agent) (image : CuratorImage) (s : State) : Out :=
  .next (s.imageRow agent Od.curatorImageLoad.key fun s => s.imageLoad image)

/-- CURATOR_ACTIVATE (R454, R456). -/
def State.curatorActivate (s : State) (slot : Nat) : Nat × State :=
  match s.curatorImage slot with
  | none => (abInvalid, s)
  | some i =>
    let cls := match s.service.active with
      | some b => ownClassOf b i.fw.toNat
      | none => 1
    if s.curator.slot == slot || cls == 2 then (abInvalid, s)
    else if s.anyTrial || (cls == 1 && s.replayPair) then (abBusy, s)
    else (0, s.setCurator fun c => { c with activate := some (slot, s.frame) })

/-- CURATOR_ACTIVATE (R456). -/
def execCuratorActivate (agent : Agent) (value : BitVec 8) (s : State) : Out :=
  .next (s.odRow agent Od.curatorActivate.key [value] fun s => s.curatorActivate value.toNat)

/-- The Curator core restarts on an image: it resumes after 12 frames (R456; log entry 75). -/
def State.restartCurator (s : State) (slot : Nat) (trial : Option Nat) : State :=
  s.setCurator fun c => { c with slot := slot, activate := none, trial := trial, pausedTo := some (s.frame + 13) }

/-- CURATOR_RESTART (R456): at the boundary after the activation. -/
def execCuratorRestart (s : State) : Out :=
  .next <| match s.curator.activate with
    | some (k, f) => if s.time.cycle == 0 && f < s.frame then s.restartCurator k (some s.frame) else s
    | none => s

/-- The trial of a Curator image is within its TRIAL_FRAMES. -/
def State.curatorTrialing (s : State) : Bool :=
  match s.curator.trial with
  | some f => !s.lapsed f (s.cfg Od.trialFrames)
  | none => false

/-- CURATOR_TRIAL_FAIL (R456): the image has missed the watchdog at three boundaries of TRIAL_FRAMES; the image of BOOT_CHOICE
restarts. -/
def execCuratorTrialFail (s : State) : Out :=
  .next <|
    if s.curatorTrialing then
      let (k, s) := s.bootSlot
      (s.restartCurator k none).countEvent Od.revertCount
    else s

/-- CURATOR_COMMIT (R456): after a clean trial the image becomes the one tried first. A write of 0 has no effect. -/
def State.curatorCommit (s : State) (v : Nat) : Nat × State :=
  match s.curator.trial, s.curatorImage s.curator.slot with
  | some f, some i =>
    if v == 0 then (0, s)
    else if !s.lapsed f (s.cfg Od.trialFrames) then (abBusy, s)
    else
      let s := s.raiseSvn 0 i.svn.toNat
      let s := s.setBattery fun b => { b with bootChoice := s.curator.slot - 1 }
      (0, s.setCurator fun c => { c with trial := none })
  | _, _ => if v == 0 then (0, s) else (abBusy, s)

/-- CURATOR_COMMIT (R456). -/
def execCuratorCommit (agent : Agent) (value : BitVec 8) (s : State) : Out :=
  .next (s.odRow agent Od.curatorCommit.key [value] fun s => s.curatorCommit value.toNat)

/-- The Curator resumes: what it held back is written in order (R456). -/
def State.resumeCurator (s : State) : State :=
  match s.curator.pausedTo with
  | some f =>
    if f ≤ s.frame then
      let s := s.curator.recQueue.foldl (fun s p =>
        s.setBattery fun b => { b with records := b.records.set p.1 p.2 }) s
      s.setCurator fun c => { c with pausedTo := none, recQueue := [] }
    else s
  | none => s

end Sys2Proof.Machine
end

