-- ==== Sys2Proof/Machine/Curator.lean ====
section
/-!
DEFINITION. The start: rails, stages, holds, the battery domain at Stage A and at power loss, engine ID and helper data
(R385 to R403).
-/
namespace Sys2Proof.Machine

/-! The parts of the state by power domain (Table 15-1) -/

/-- Dictionary values after the main domain has lost power: the Curator's entries stay, the others are as stored or at their
default (R400). -/
def State.odAfterMainLoss (s : State) : List (Nat × Nat) :=
  (s.battery.store.filter (fun p => !odCurator p.1)).foldl (fun l p => assocSet l p.1 p.2)
    (s.od.filter (fun p => odCurator p.1))

/-- A bound SUSPECT part of a score list. -/
def boundSuspect (p : Nat × Score) : Bool := p.2.state == .suspect && (p.2.bandBound || p.2.loadBound)

/-- The scores as the battery domain holds them, with the pins starting afresh (R442). -/
def State.reloadScores (s : State) : State :=
  State.startAllPins <| s.setService fun v => { v with
    scores := v.scoreCopy, suspects := (v.scoreCopy.filter boundSuspect).map (·.1), pins := [], reported := [] }

/-- The D2D modules that a mask of retired ones leaves (R53). -/
def modulesLeft (mask : Nat) : Nat := ((List.range 16).filter (fun k => mask / 2 ^ k % 2 == 0)).length

/-- The counts that follow the repair maps, without an event. -/
def State.settleMaps (s : State) : State :=
  let s := s.odSet Od.d2dModulesActive (modulesLeft (s.odGet Od.d2dModuleRetiredMask))
  let s := ((s.odSet Od.lanesActive s.update.laneMap.length).odSetP Od.spareLanesLeft s.laneSpares.length).odSet
    Od.shadowCoverage s.shadowCoverage
  let s := (s.odSet Od.arrayRowsActive s.woad.rowMap.length).odSet Od.arrayColsActive s.woad.colMap.length
  let s := (s.odSet Od.encLanesActive s.madder.encMap.length).odSet Od.decLanesActive s.madder.decMap.length
  let s := s.odSet Od.verifyCoverage (if s.encSpares.isEmpty then 0 else 1)
  let s := s.odSet Od.docentSparesLeft s.docent.spares.length
  s.odSet Od.docentActive ((s.docent.cores.toList.map (·.phys)).eraseDups.length)

/-- Everything held in the main domain is lost (R394). Repair maps stay with the battery domain (Table 15-2), and so do the
key slots with the key store. -/
def State.loseMain (s : State) : State :=
  let ports := s.fabric.ports.map (fun (p : PortState) =>
    ({ txMap := p.txMap, rxMap := p.rxMap, txRetired := p.txRetired, rxRetired := p.rxRetired, laser := p.laser,
       lasersBad := p.lasersBad, biasRef := p.biasRef } : PortState))
  let cores := s.docent.cores.map (fun (c : DocentCore) => ({ phys := c.phys } : DocentCore))
  let od := s.odAfterMainLoss
  let s := if s.time.state == .synced then s.enterHoldover else s
  let s : State := { s with
    carrier := {}, sched := {}, jobs := Vector.replicate 4 {},
    update := { laneMap := s.update.laneMap, retired := s.update.retired },
    woad := { rowMap := s.woad.rowMap, colMap := s.woad.colMap, rowsRetired := s.woad.rowsRetired,
              colsRetired := s.woad.colsRetired },
    madder := { encMap := s.madder.encMap, decMap := s.madder.decMap, encRetired := s.madder.encRetired,
                decRetired := s.madder.decRetired },
    gallery := { spareNext := s.gallery.spareNext, tableA := s.gallery.tableA, tableB := s.gallery.tableB,
                 spareNextB := s.gallery.spareNextB },
    welds := Vector.replicate 4 {}, vault := {}, colls := {}, fabric := { ports := ports },
    docent := { cores := cores, retired := s.docent.retired, spares := s.docent.spares },
    sync := {}, mboxes := Vector.replicate 16 {}, od := od }
  let s := s.setTime fun t => { t with
    parent := none, candidate := none, lockRun := 0, ports := Vector.replicate 4 {}, tickOut := none, timeReqFrame := none }
  let s := s.setSec fun x => { x with
    deferred := [], rollover := none, suspects := [], cPages := Vector.replicate 8 {}, dPages := Vector.replicate 8 {},
    cQueue := [], dQueue := [] }
  let s := s.setDict fun d => { d with
    pendingW := d.pendingW.filter (fun p => odCurator p.1), stepHeld := [], bankNs := {}, bankS := {}, transfer := none,
    snapshot := none, segRsp := none }
  let s := s.setService fun v => { v with
    active := none, staged := none, previous := none, armed := none, trial := none, trialBad := false, classRefused := [],
    bands := Vector.replicate 12 0, load := 0 }
  let s := s.setCurator fun c => { c with
    powerGood := false, powerAt := none, deadline := false, held := none, unmet := 0, pairFailed := [], checked := 0,
    checking := [], stageUs := (vmod (vmod (vmod c.stageUs 1 (fun _ => 0)) 2 (fun _ => 0)) 3 (fun _ => 0)) }
  s.reloadScores.settleMaps

/-- MAIN_POWER_LOSS (R394): main power-good falls; the engine is in Stage A from that instant. -/
def State.dropMain (s : State) : State :=
  if !s.curator.powerGood then s
  else
    let s := s.loseMain
    s.setCurator fun c => { c with stage := match c.stage with | .none => .none | .a => .a | .b => .a | .c => .a | .d => .a }

/-- MAIN_POWER_LOSS (R394). -/
def execMainPowerLoss (s : State) : Out := .next s.dropMain

/-- AON_POWER_LOSS (R468, Table 15-3): the engine goes to no stage; the battery domain keeps its contents, the field side
runs on from its own power. -/
def execAonPowerLoss (s : State) : Out :=
  .next <|
    let secs := s.timeNs / 1000000000
    let valid := s.curator.stage != .none && s.time.state != .unset
    let s := s.loseMain
    let s := s.setBattery fun b => { b with seconds := secs % 2 ^ 48, secondsValid := valid || b.secondsValid }
    { s with
      time := {}, dict := {}, curator := { field := s.curator.field }, elec := {}, od := s.battery.store,
      sec := { copyA := s.sec.copyA, copyB := s.sec.copyB, pairMap := s.sec.pairMap, pipesRetired := s.sec.pipesRetired,
               pairsRetired := s.sec.pairsRetired } }

/-- VBAT_LOW (R386): nothing is lost while the always-on rail is present. -/
def execVbatLow (s : State) : Out :=
  .next (if s.curator.stage == .none then s else s.countEvent Od.vbatLowCount)

/-! Holds (R396) -/

/-- The holds that stand before a stage, as codes of HOLD_REASON. -/
def State.holds (s : State) (st : Stage) : List Nat :=
  let h := s.battery.startHold
  let on (c : Bool) (k : Nat) : List Nat := if c then [k] else []
  match st with
  | .b => on (h == 1) 1 ++ on (s.curator.slot == 0) 3
  | .c => on (h == 2) 1 ++ on (s.engineId == 0) 2
  | .d => on (h == 3) 1 ++ on (s.ownClass == 2) 4
  | .none => []
  | .a => []

/-- HELD_BEFORE and HOLD_REASON: the stage whose transition a hold stops now, and the lowest reason. -/
def State.heldBefore (s : State) : Nat :=
  match s.curator.held with
  | some st => if (s.holds st).isEmpty then 0 else st.code
  | none => 0

/-- HOLD_REASON. -/
def State.holdReason (s : State) : Nat :=
  match s.curator.held with
  | some st => (s.holds st).headD 0
  | none => 0

/-! Stages (Table 15-3) -/

/-- Microseconds since main power-good. -/
def State.sincePower (s : State) : Nat := (((s.timeNs : Int) - s.curator.powerAt.getD 0).toNat) / 1000

/-- Enter a stage; STAGE_TIMES_US takes the time of entry. -/
def State.markStage (s : State) (st : Stage) : State :=
  s.setCurator fun c => { c with
    stage := st, held := none, stageUs := vmod c.stageUs (st.code - 1) (fun _ => s.sincePower % 2 ^ 32) }

/-- Entry of Stage B (R390): ports enabled in LINK_ENABLE start training. -/
def State.enterB (s : State) : State :=
  let s := s.markStage .b
  s.linkEnableEffect (s.cfg Od.linkEnable)

/-- The Catalogue check of an open job at Stage C (R393): the head's part 0 is asked for at VAULT_INDEX. -/
def State.checkHead (s : State) (j : JobId) : State :=
  let r := s.record j
  if !(s.job j).open_ || r.aLastId == 0 then s
  else
    let s := s.setCurator fun c => { c with checking := c.checking ++ [j.val] }
    if (s.keyStatus 1).isSome then s.catalogueChecked j false
    else s.vaultAskName 0x63 (objName r.lineage r.aLastId r.shard 2 0) (.stageC j.val) (some r.vaultIdx)

/-- Entry of Stage C (R393). -/
def State.enterC (s : State) : State :=
  let s := (s.markStage .c).setCurator fun c => { c with checked := 0, checking := [] }
  ((List.finRange 4).foldl (fun s j => s.checkHead j) s).settleVault

/-- Make a transition, or hold it (R388). -/
def State.advance (s : State) (st : Stage) : State :=
  if !(s.holds st).isEmpty then s.setCurator fun c => { c with held := some st }
  else match st with
    | .b => s.enterB
    | .c => s.enterC
    | .d => (s.markStage .d).observeSync
    | .none => s
    | .a => s

/-- The conditions of R392 that are unmet, bits 0 to 3 for conditions 1 to 4. -/
def State.unmetC (s : State) : Nat :=
  let bit (unmet : Bool) (k : Nat) : Nat := if unmet then 2 ^ k else 0
  let ports := (List.finRange 4).any (fun p => s.cfg Od.linkEnable / 2 ^ p.val % 2 == 1 &&
    (s.port p).state != .up && (s.port p).state != .failed)
  let pairs := (List.finRange 4).any (fun j => (s.job j).open_ && (s.record j).partner != 0 &&
    (s.weld j).state != .paired && !s.curator.pairFailed.contains j.val)
  bit s.service.active.isNone 0 + bit ports 1 + bit (s.time.state != .synced && s.time.state != .grandmaster) 2 + bit pairs 3

/-- Stage C at its deadline: the conditions still unmet are latched and reported (R392). -/
def State.latchUnmet (s : State) : State :=
  let u := s.unmetC
  let s := s.setCurator fun c => { c with unmet := u }
  if u == 0 then s else s.event Od.stageCUnmet u

/-- STAGE_C (R392): every condition is met, or the deadline passed before Stage B was entered. -/
def execStageC (s : State) : Out :=
  .next <|
    if s.curator.stage == .b && s.curator.held.isNone then
      if s.unmetC == 0 then s.advance .c else if s.curator.deadline then s.latchUnmet.advance .c else s
    else s

/-- STAGE_C_DEADLINE (R391, R392): 3 s after main power-good. -/
def execStageCDeadline (s : State) : Out :=
  .next <|
    if s.curator.powerGood && s.curator.stage != .none && !s.curator.deadline && 3000000 ≤ s.sincePower then
      let s := (s.setCurator fun c => { c with deadline := true }).observeSync
      if s.curator.stage == .b then
        let s := s.latchUnmet
        if s.curator.held.isSome then s else s.advance .c
      else s
    else s

/-- STAGE_D (R393): both checks have ended and the version class is not refused. -/
def execStageD (s : State) : Out :=
  .next <|
    if s.curator.stage == .c && s.curator.held.isNone && s.curator.checking.isEmpty then s.advance .d else s

/-- HOLD_RELEASE (R388): the transition takes place at the first frame boundary after the hold has been removed. -/
def execHoldRelease (s : State) : Out :=
  .next <| match s.curator.held with
    | some st => if (s.holds st).isEmpty && s.time.cycle == 0 then s.advance st else s
    | none => s

/-! Stage A (R386, R389, R399, R401) -/

/-- The canary (R386). -/
def batteryCanary : Nat := 0xA5C35A3C0F1EE1F0

/-- C_CONFIG (R404, Table 15-9): own address and PLCA settings. -/
def State.ownMac (s : State) : Nat := 2 * 2 ^ 40 + s.deviceSerial % 2 ^ 40

/-- Send C_CONFIG. -/
def State.sendConfig (s : State) : State :=
  s.barrierDown 0x82 (beBytes 6 s.ownMac ++
    [BitVec.ofNat 8 (s.cfg Od.plcaNodeId), BitVec.ofNat 8 (s.cfg Od.plcaNodeCount),
     BitVec.ofNat 8 (s.cfg Od.plcaBurstCount), BitVec.ofNat 8 (s.cfg Od.plcaBurstTimer), 0, 0, 0, 0])

/-- VBAT was lost: every region takes its reset or default value, and the repair maps return to identity (R390, R401). -/
def State.resetBattery (s : State) : State :=
  let n := s.battery.enrolment
  let ports := s.fabric.ports.map (fun (_ : PortState) => ({} : PortState))
  let s : State := { s with
    battery := { enrolment := n + 1 }, od := [], update := {}, woad := {}, madder := {}, gallery := {}, docent := {},
    fabric := { s.fabric with ports := ports },
    sec := { } }
  s.setService fun v => { v with scores := [], scoreCopy := [], suspects := [], pins := [], reported := [] }

/-- Offset of a region in Table 15-5, which names it in an event. -/
def regionOffset (r : Region) : Nat :=
  match r with
  | .curatorState => 0x40 | .jobRecord j => 0x100 + 128 * j.val | .svn => 0x720 | .pufHelper => 0x1000 | .trim => 0x2000
  | .scores => 0x3000 | .odStore => 0x7000 | .ivEpoch => 0x700

/-- Both copies of a region have failed (R399). Of the IV_EPOCH the rules state no action: it is drawn afresh (log entry 78). -/
def State.loseRegion (s : State) (r : Region) : State :=
  let s := match r with
    | .curatorState =>
      (s.setBattery fun b => { b with startCount := 0, startHold := 0, bootChoice := 0, engineId := 0, alarmStanding := false,
                                      alarmSource := 0, alarmCount := 0, curatorGen := 0 }).raiseAlarm 4
    | .svn => (s.setBattery fun b => { b with svn := Vector.replicate 4 none }).raiseAlarm 4
    | .pufHelper => (s.setBattery fun b => { b with helper := none, enrolment := b.enrolment + 1 }).raiseAlarm 4
    | .jobRecord j => s.setBattery fun b => { b with records := b.records.set j {} }
    | .trim => (s.odSetP Od.trimTable 0).odSetP Od.trimValid 0
    | .scores => s.setService fun v => { v with scores := [], scoreCopy := [], suspects := [], pins := [] }
    | .odStore =>
      let keep (p : Nat × Nat) : Bool := p.1 == Od.trimTable.key || p.1 == Od.trimValid.key
      let kept := s.battery.store.filter keep
      State.setBattery { s with od := kept } fun b => { b with store := kept }
    | .ivEpoch => s.drawIvEpoch
  s.countEvent Od.batteryRegionLostCount (regionOffset r)

/-- Load the kept key slots (R328): from a copy that unwraps, else the STORE alarm. -/
def State.loadKept (s : State) (bad : List (BitVec 6 × Bool)) (i : Nat) : State :=
  let fails (copy : Bool) : Bool := bad.any (fun x => x.1.toNat == i && x.2 == copy)
  match assoc s.sec.copyA i, assoc s.sec.copyB i with
  | none, none => s
  | a, b =>
    match (if fails false then none else a), (if fails true then none else b) with
    | some k, _ => s.loadSlot i k
    | none, some k => s.loadSlot i k
    | none, none => s.raiseAlarm 4

/-- STAGE_A (R389). -/
def execStageA (obs : StageAObs) (s : State) : Out :=
  .next <|
    if s.curator.stage != .none then s
    else
      let lost := obs.dip || s.battery.canary != batteryCanary
      let standing := s.battery.alarmStanding && !lost
      let s := if lost then s.resetBattery else { s with od := s.battery.store }
      let s := s.setBattery fun b => { b with canary := batteryCanary }
      let valid := obs.valid && !lost
      let secs := if valid then obs.seconds.toNat else 0
      let s := { s with time := { frameExt := secs * 10000, state := if valid then .coarse else .unset } }
      let s := s.setBattery fun b => { b with seconds := secs, secondsValid := valid }
      let us := s.free.1 % 2001
      let s := s.free.2
      let s := s.setCurator fun c => { c with
        stage := .a, vbatLost := lost, stageUs := vmod c.stageUs 0 (fun _ => us),
        powerAt := if c.powerGood then some (secs * 1000000000 : Int) else none }
      let s := s.setSec fun x => { x with alarm := standing }
      let gone := if lost then [] else
        (obs.bad.map (·.1)).eraseDups.filter (fun r => obs.bad.contains (r, false) && obs.bad.contains (r, true))
      let s := gone.foldl (fun s r => s.loseRegion r) s
      let s := if lost || obs.pufOk then s else s.raiseAlarm 4
      let s := if s.alarmed then s else s.deriveRoot
      let s := if s.alarmed || lost then s else [1, 2, 3, 7].foldl (fun s i => if s.alarmed then s else s.loadKept obs.badSlots i) s
      let s := if s.alarmed then s else s.deriveTransport
      let s := if lost then s.drawIvEpoch else s
      let (slot, s) := s.bootSlot
      let s := s.setCurator fun c => { c with slot := slot }
      s.reloadScores.settleMaps.sendConfig

/-! Main power and Stage B (R467, R390) -/

/-- Main power-good rises: START_COUNT counts it, and a start begins. -/
def State.raiseMain (s : State) : State :=
  let s := s.setBattery fun b => { b with startCount := min (b.startCount + 1) (2 ^ 32 - 1),
                                          curatorGen := (b.curatorGen + 1) % 2 ^ 32 }
  s.setCurator fun c => { c with
    powerGood := true, powerAt := if c.stage == .none then none else some (s.timeNs : Int), deadline := false, held := none,
    unmet := 0, pairFailed := [] }

/-- MAIN_POWER_GOOD (R467): VIN_MAIN has been in its window for 1 ms with VIN_AON in its window. A package at a main-off
temperature stays down until THERMAL_RESTART (R476). -/
def execMainPowerGood (s : State) : Out :=
  .next (if s.curator.powerGood || s.elec.shutdown.isSome then s else s.raiseMain)

/-- The spare part of a port that item 9 has failed leaves the pool: an optical lane that no map holds, or the laser that
feeds the spare lane (R299, R300, log entry 76). -/
def State.retireSparePart (s : State) (cls i : Nat) : State :=
  if cls == 10 then
    (s.setPort (portOf (i / 2)) (fun x => { x with lasersBad := addOnce x.lasersBad (i % 2) })).retirePart (partId 10 i)
  else
    (s.setPort (portOf (i / 32)) (fun x =>
      if i / 16 % 2 == 1 then { x with rxRetired := addOnce x.rxRetired (i % 16) }
      else { x with txRetired := addOnce x.txRetired (i % 16) })).retirePart (partId 9 i)

/-- A part is a spare of its port. -/
def State.portSpare (s : State) (cls i : Nat) : Bool :=
  if cls == 10 then (s.port (portOf (i / 2))).otherLaser == some (i % 2)
  else if cls == 9 then
    let x := s.port (portOf (i / 32))
    x.spare (if i / 16 % 2 == 1 then .rx else .tx) == some (i % 16)
  else false

/-- A part that failed an item of the self-test (R104): lanes of the units and of the array leave their maps, onto a spare or,
with none left, for good (R131, R159, R182); others are retired onto a spare where one is left; else the failure is scored
(log entry 76). A Gallery bank moves the row that failed. -/
def State.retireTested (s : State) (part row : Nat) : State :=
  let (cls, i) := (part / 4096, part % 4096)
  if (s.score part).state == .retired then s
  else if cls == 8 then s.queueRemap i row []
  else if (1 ≤ cls && cls ≤ 5) || s.canPlan cls i then s.planRetire cls i
  else if s.portSpare cls i then s.retireSparePart cls i
  else s.scoreTransient part

/-- The self-test item that tests a class of part (Table 04-13, Table 17-2). -/
def testItem (cls : Nat) : Nat := ([0, 1, 2, 2, 3, 3, 4, 6, 7, 9, 9] : List Nat).getD cls 0

/-- STAGE_B (R390): the Stage B steps have ended, the mainband among them. After VBAT loss the short self-test has run, and
the remap table is built afresh (R201). -/
def execStageB (obs : StageBObs) (s : State) : Out :=
  .next <|
    if s.curator.stage == .a && s.curator.powerGood && s.curator.held.isNone && s.carrier.mainband then
      let s := if s.curator.vbatLost then
          let s := s.rebuildRemap (obs.badRows.map (fun r => (r.1.toNat, r.2.toNat)))
            (obs.badSpares.map (fun x => (x.1.toNat, x.2.1, x.2.2.toNat)))
          let s := s.bumpBy Od.selftestFailCount ((obs.failed.map (fun p => testItem (p.toNat / 4096))).eraseDups.length)
          obs.failed.foldl (fun s p => s.retireTested p.toNat 0) s
        else s.loadRemap obs.badEntries
      s.advance .b
    else s

/-! Entries of the Curator (R396, R397, R400) -/

/-- START_HOLD (R396). -/
def State.startHold (s : State) (v : Nat) : Nat × State :=
  (0, s.setBattery fun b => { b with startHold := v, curatorGen := (b.curatorGen + 1) % 2 ^ 32 })

/-- START_HOLD (R396). -/
def execStartHold (agent : Agent) (value : BitVec 8) (s : State) : Out :=
  .next (s.odRow agent Od.startHold.key [value] fun s => s.startHold value.toNat)

/-- Slots 1, 2, 3 and 7 are empty (R397). -/
def State.slotsEmpty (s : State) : Bool := [1, 2, 3, 7].all (fun i => (s.slot i).state == .empty)

/-- ROOT is derived afresh; while an alarm stands that waits for its clearing (R354). -/
def State.rederive (s : State) : State := if s.alarmed then s else s.deriveRoot

/-- ENGINE_ID (R397): ports that are UP train afresh, and ports that had no ID to train with start. -/
def State.setEngineId (s : State) (v : Nat) : Nat × State :=
  if !s.slotsEmpty || s.anyJob then (abBusy, s)
  else
    let s := s.setBattery fun b => { b with engineId := v, curatorGen := (b.curatorGen + 1) % 2 ^ 32 }
    let s := s.rederive
    let s := (List.finRange 4).foldl (fun s p => if (s.port p).state == .up then s.enterTraining p else s) s
    (0, if s.mainUp then s.linkEnableEffect (s.cfg Od.linkEnable) else s)

/-- ENGINE_ID (R397). -/
def execEngineId (agent : Agent) (value : BitVec 32) (s : State) : Out :=
  .next (s.odRow agent Od.engineId.key (leBytes 4 value.toNat) fun s => s.setEngineId value.toNat)

/-- PUF_HELPER (R397). -/
def State.setHelper (s : State) (bs : Bytes) (matches_ : Bool) : Nat × State :=
  if bs.length < 2048 then (abLengthLow, s)
  else if 2048 < bs.length then (abLengthHigh, s)
  else if !s.slotsEmpty then (abBusy, s)
  else if !matches_ then (abInvalid, s)
  else (0, (s.setBattery fun b => { b with helper := some bs }).rederive)

/-- PUF_HELPER (R397). -/
def execPufHelper (agent : Agent) (value : Bytes) (matches_ : Bool) (s : State) : Out :=
  .next (s.odRow agent Od.pufHelper.key value fun s => s.setHelper value matches_)

/-- P_COUNTER_STORE (R400): at a boundary whose FRAME_EXT is a multiple of 10,000 the counters marked P are stored. -/
def execPCounterStore (s : State) : Out :=
  .next <|
    if s.time.cycle == 0 && s.frame % 10000 == 0 && s.curator.stage != .none && !s.curatorPaused then
      let kept (p : Nat × Nat) : Bool := match odRowOf p.1 with
        | some r => r.persist
        | none => false
      s.setBattery fun b => { b with store := s.od.filter kept }
    else s

end Sys2Proof.Machine
end

