-- ==== Sys2Proof/Machine/Field.lean ====
section
/-!
DEFINITION. The isolation barrier and the field side (R404 to R406, R478), thermal limits and test access (R474 to R476).
-/
namespace Sys2Proof.Machine

/-! Barrier messages (R404, Tables 15-8, 15-9) -/

/-- TYPE, SEQ and LENGTH of a barrier header. -/
def barType (h : BitVec 64) : Nat := bitsOf h 63 56
def barSeq (h : BitVec 64) : Nat := bitsOf h 55 48
def barLen (h : BitVec 64) : Nat := bitsOf h 47 37

/-- A received barrier message is good (R406): CRC, TYPE, LENGTH and SEQ. -/
def barrierGood (h : BitVec 64) (payload : Bytes) (crcOk : Bool) (type : Nat) (expected : Option Nat) : Bool :=
  crcOk && barType h == type && barLen h ≤ 1536 && barLen h == payload.length &&
  (match expected with | some n => barSeq h == n | none => true)

/-- SEQ expected after a received message: the one after its own, or after the one expected when its CRC is bad. -/
def barrierNext (h : BitVec 64) (crcOk : Bool) (expected : Option Nat) : Option Nat :=
  if crcOk then some ((barSeq h + 1) % 256) else expected.map (fun n => (n + 1) % 256)

/-- The Curator receives a barrier message (R406): a bad one is counted and dropped. -/
def State.barrierUp (s : State) (h : BitVec 64) (payload : Bytes) (crcOk : Bool) (type : Nat) (f : State → State) : State :=
  if s.curator.stage == .none then s
  else
    let good := barrierGood h payload crcOk type s.curator.rxSeq
    let s := s.setCurator fun c => { c with rxSeq := barrierNext h crcOk c.rxSeq }
    if good then f s else s.bump Od.barrierErrCount

/-- Change the field side. -/
def State.setField (s : State) (f : FieldSide → FieldSide) : State := s.setCurator fun c => { c with field := f c.field }

/-- Add one to a U32 of F_STATUS. -/
def up32 (n : Nat) : Nat := min (n + 1) (2 ^ 32 - 1)

/-- The field side receives a barrier message (R406): a bad one counts as an FCS error. -/
def State.barrierFar (s : State) (h : BitVec 64) (payload : Bytes) (crcOk : Bool) (type : Nat) (f : State → State) : State :=
  if !s.curator.field.podl then s
  else
    let good := barrierGood h payload crcOk type s.curator.field.rxSeq
    let s := s.setField fun x => { x with rxSeq := barrierNext h crcOk x.rxSeq }
    if good then f s else s.setField fun x => { x with fcsErrs := up32 x.fcsErrs }

/-- Send a barrier message up to the Curator. -/
def State.fieldSend (s : State) (type : Nat) (payload : Bytes) : State :=
  let m : BarrierMsg := { type := type, seq := s.curator.field.txSeq, payload := payload }
  (s.send (.barrier false m)).setField fun x => { x with txSeq := (x.txSeq + 1) % 256 }

/-! The field side (R405, R478) -/

/-- PODL_POWER_UP (R478): the field side starts afresh, and transmits nothing before its first C_CONFIG. -/
def execPodlPowerUp (s : State) : Out :=
  .next (if s.curator.field.podl then s else s.setField fun _ => { podl := true })

/-- PODL_POWER_LOSS (R478): the field side runs only while the bus supplies PoDL. -/
def execPodlPowerLoss (s : State) : Out := .next (s.setField fun _ => {})

/-- The field side's own address, once it has a C_CONFIG. -/
def FieldSide.mac (f : FieldSide) : Option Nat := f.config.map (fun c => beNat (c.take 6))

/-- FIELD_FRAME (R405): a Phoaz frame to the own address, broadcast or the Phoaz group goes up as F_FRAME; every other is
counted as filtered. -/
def execFieldFrame (dst src : BitVec 48) (etherType : BitVec 16) (payload : Bytes) (fcsOk : Bool) (s : State) : Out :=
  .next <|
    let f := s.curator.field
    if !f.podl then s
    else if !fcsOk || 1522 < payload.length then s.setField fun x => { x with fcsErrs := up32 x.fcsErrs }
    else
      let mine := f.mac == some dst.toNat || dst.toNat == 2 ^ 48 - 1 || dst.toNat == phoazGroup
      if etherType.toNat == 0x88B6 && mine then
        s.fieldSend 0x01 (beBytes 6 dst.toNat ++ beBytes 6 src.toNat ++ beBytes 2 0x88B6 ++ payload)
      else s.setField fun x => { x with filtered := up32 x.filtered }

/-- C_FRAME (R405): a frame to send: queued for the bus. -/
def execCFrame (hdr : BitVec 64) (payload : Bytes) (crcOk : Bool) (s : State) : Out :=
  .next <| s.barrierFar hdr payload crcOk 0x81 fun s => s.setField fun x => { x with queue := x.queue ++ [payload] }

/-- C_CONFIG (R405). -/
def execCConfig (hdr : BitVec 64) (payload : Bytes) (crcOk : Bool) (s : State) : Out :=
  .next <| s.barrierFar hdr payload crcOk 0x82 fun s => s.setField fun x =>
    if payload.length == 14 then { x with config := some payload, beat := some s.timeNs }
    else { x with fcsErrs := up32 x.fcsErrs }

/-- C_HEARTBEAT (R405). -/
def execCHeartbeat (hdr : BitVec 64) (crcOk : Bool) (s : State) : Out :=
  .next <| s.barrierFar hdr [] crcOk 0x83 fun s => s.setField fun x => { x with beat := some s.timeNs }

/-- HEARTBEAT_LOSS (R405): no C_HEARTBEAT for 5 ms: queued frames are discarded, and the field side waits for a new
C_CONFIG. -/
def execHeartbeatLoss (s : State) : Out :=
  .next <|
    let f := s.curator.field
    let lost := match f.beat with
      | some t => decide (t + 5000000 ≤ s.timeNs) || s.curator.stage == .none
      | none => true
    if f.podl && f.config.isSome && lost then s.setField fun x => { x with config := none, queue := [] } else s

/-- The frame that the field side puts on the bus for a queued C_FRAME payload: destination, own source address, EtherType,
and padding to 46 bytes (R405). -/
def FieldSide.ethernet (f : FieldSide) (p : Bytes) : Bytes :=
  let body := p.drop 6
  p.take 6 ++ beBytes 6 (f.mac.getD 0) ++ beBytes 2 0x88B6 ++ body ++ List.replicate (46 - body.length) 0

/-- At a frame boundary the queued frames go onto the bus (log entry 79). -/
def State.drainField (s : State) : State :=
  let f := s.curator.field
  if f.podl && f.config.isSome then
    (f.queue.foldl (fun s p => s.send (.ethernet (f.ethernet p))) s).setField fun x => { x with queue := [] }
  else s

/-- F_STATUS as the field side sends it every 1 ms (Table 15-9). -/
def State.fieldStatus (s : State) : Bytes :=
  let f := s.curator.field
  let node := (f.config.map (fun c => c.getD 6 255)).getD 255
  let flags : BitVec 8 := BitVec.ofNat 8 ((if f.podl then 1 else 0) + (if f.config.isSome && node != 255 then 2 else 0))
  [flags, node] ++ beBytes 4 f.fcsErrs ++ beBytes 4 f.filtered ++ beBytes 4 (s.free.1 % 2 ^ 32) ++ [0, 0]

/-- The messages that cross the barrier every 1 ms (Table 15-9): C_HEARTBEAT unless the Curator restarts (R456), and
F_STATUS. The count of collisions is a free value: no rule says what the bus meets. -/
def State.beatBarrier (s : State) : State :=
  if s.frame % 10 != 0 then s
  else
    let s := if s.curator.stage == .none || s.curatorPaused then s else s.barrierDown 0x83 []
    if s.curator.field.podl then (s.fieldSend 0x02 s.fieldStatus).free.2 else s

/-! The Curator's side (R404, R406) -/

/-- The LENGTH, AUTH flag, VERSION and TYPE of a Phoaz header (Table 16-7). -/
def phLen (h : BitVec 128) : Nat := bitsOf h 79 64
def phAuth (h : BitVec 128) : Bool := bitOf h 104
def phType (h : BitVec 128) : Nat := bitsOf h 119 112

/-- Types that only the engine sends, and reserved types (Table 16-8). -/
def phBadType (t : Nat) : Bool :=
  t == 0 || 0x10 ≤ t || t == 0x02 || t == 0x04 || t == 0x07 || t == 0x09 || t == 0x0B

/-- The Phoaz frame of an F_FRAME payload, unless it is malformed (R424, R425). -/
def readPhoaz (now : Nat) (p : Bytes) : Option PhoazFrame :=
  let data := p.drop 14
  let hdr : BitVec 128 := BitVec.ofNat 128 (beNat (data.take 16))
  let n := phLen hdr
  let trailer := if phAuth hdr then 40 else 0
  if p.length < 30 || bitsOf hdr 127 120 != 1 || phBadType (phType hdr) || 1024 < n || data.length < 16 + n + trailer then none
  else some { dst := BitVec.ofNat 48 (beNat (p.take 6)), src := BitVec.ofNat 48 (beNat ((p.drop 6).take 6)), hdr := hdr,
              body := (data.drop 16).take n,
              counter := if phAuth hdr then BitVec.ofNat 64 (beNat ((data.drop (16 + n)).take 8)) else 0
              tag := if phAuth hdr then BitVec.ofNat 256 (beNat ((data.drop (24 + n)).take 32)) else 0
              stamp := now }

/-- F_FRAME (R404, R425): a well-formed frame waits for its own row; a malformed one is counted and dropped. While the
Curator restarts requests go unanswered (R456). -/
def execFFrame (hdr : BitVec 64) (payload : Bytes) (crcOk : Bool) (s : State) : Out :=
  .next <| s.barrierUp hdr payload crcOk 0x01 fun s =>
    if s.curatorPaused then s
    else match readPhoaz s.timeNs payload with
      | some f => s.setDict fun d => { d with phoazIn := d.phoazIn ++ [f] }
      | none => s.bump Od.phoazMalformedCount

/-- F_STATUS (R406): the field link is up; when it comes back the Curator sends C_CONFIG anew (log entry 80). -/
def execFStatus (hdr : BitVec 64) (payload : Bytes) (crcOk : Bool) (s : State) : Out :=
  .next <| s.barrierUp hdr payload (crcOk && payload.length == 16) 0x02 fun s =>
    let up := s.curator.linkUp
    let s := s.setCurator fun c => { c with statusAt := some s.timeNs, status := some payload, linkUp := true }
    if up then s else s.sendConfig

/-- F_STATUS_TIMEOUT (R406): no F_STATUS for 5 ms. -/
def execFStatusTimeout (s : State) : Out :=
  .next <|
    let late := match s.curator.statusAt with
      | some t => decide (t + 5000000 ≤ s.timeNs)
      | none => true
    if s.curator.stage != .none && s.curator.linkUp && late then
      let s := (s.setCurator fun c => { c with linkUp := false }).bump Od.fieldLinkLossCount
      if s.mainUp then s.event Od.fieldLinkLossCount else s
    else s

/-! Thermal limits (R475, R476) -/

/-- HOT, CRITICAL and main-off thresholds of a part in °C (Table 18-5). -/
def thermalLimits (p : ThermalPart) : Int × Int × Option Int :=
  match p with
  | .logicDie => (100, 110, some 120)
  | .dram => (85, 95, some 105)
  | .optics => (75, 80, none)

/-- Place of a part among the classes. -/
def thermalIndex (p : ThermalPart) : Nat := match p with | .logicDie => 0 | .dram => 1 | .optics => 2

/-- The class after a reading: each class clears 5 °C below the threshold that set it (R475). -/
def thermalClass (p : ThermalPart) (old : Nat) (t : Int) : Nat :=
  let (hot, crit, _) := thermalLimits p
  if crit ≤ t || (old == 3 && crit - 5 < t) then 3
  else if hot ≤ t || (2 ≤ old && hot - 5 < t) then 2
  else 0

/-- DIE_THERMAL_CLASS (R476): the class takes part in the worst class from the next boundary, which counts and reports the
entries (R70). -/
def execDieThermalClass (part : ThermalPart) (celsius : Int) (s : State) : Out :=
  .next { s with elec := { s.elec with die := vmod s.elec.die (thermalIndex part) (fun old => thermalClass part old celsius) } }

/-- THERMAL_SHUTDOWN (R476): a main-off threshold has been reached. -/
def execThermalShutdown (part : ThermalPart) (celsius : Int) (s : State) : Out :=
  .next <| match (thermalLimits part).2.2 with
    | none => s
    | some off =>
      if off ≤ celsius && s.curator.powerGood then
        let s := (s.bump Od.thermHotCount).dropMain
        let s := { s with elec := { s.elec with shutdown := some part } }
        s.event Od.thermHotCount 255
      else s

/-- THERMAL_RESTART (R476): the part has cooled 15 °C below its main-off threshold. -/
def execThermalRestart (part : ThermalPart) (celsius : Int) (vinMain : Bool) (s : State) : Out :=
  .next <| match s.elec.shutdown, (thermalLimits part).2.2 with
    | some p, some off =>
      if p == part && celsius ≤ off - 15 then
        let s := { s with elec := { s.elec with shutdown := none } }
        if vinMain && s.curator.stage != .none then s.raiseMain else s
      else s
    | _, _ => s

/-! Test access (R474) -/

/-- KEY_STORE_STATE (Table 13-9): 0 NORMAL, 1 ALARM, 2 UNENROLLED. -/
def State.keyStoreState (s : State) : Nat := if s.alarmed then 1 else if (s.slot 3).state == .empty then 2 else 0

/-- TAP_INSTRUCTION (R474): the IDCODE comes out; an instruction that loads internal scan chains is refused while the key
store is NORMAL. -/
def execTapInstruction (i : TapInstr) (s : State) : Out :=
  .next <|
    let put (t : TapInstr) (s : State) : State := { s with elec := { s.elec with tap := t } }
    match i with
    | .scanChain => if s.keyStoreState == 0 then (put .bypass s).bump Od.cwDeniedCount else put .scanChain s
    | .idcode => (put .idcode s).send (.tap 0x1A160009)
    | .bypass => put .bypass s
    | .samplePreload => put .samplePreload s
    | .extest => put .extest s
    | .debug => put .debug s
    | .ieee1838 => put .ieee1838 s
    | .ieee1500 => put .ieee1500 s

end Sys2Proof.Machine
end

