-- ==== Sys2Proof/Machine/Carrier.lean ====
section
/-!
DEFINITION. The transaction layer towards the carrier (R52 to R72): completions, faults and timeouts of requests to carrier
memory, thermal reports, the grant, failing modules and extent updates.
-/
namespace Sys2Proof.Machine

/-! Headers (Table 03-2, R57) -/

def dTag (h : BitVec 128) : Nat := bitsOf h 15 0
def dType (h : BitVec 128) : Nat := bitsOf h 31 27
def dLen (h : BitVec 128) : Nat := bitsOf h 39 32
def dAux (h : BitVec 128) : Nat := bitsOf h 55 48
def dStatus (h : BitVec 128) : Nat := bitsOf h 63 56

/-- A received message is well formed as far as its own header says (R57): type, STATUS and LEN. -/
def d2dFormed (h : BitVec 128) (payload : Bytes) (type : Nat) : Bool :=
  dType h == type && dStatus h ≤ 4 && (dStatus h != 2 || type == 2) && dLen h ≤ 4 && payload.length == 64 * dLen h

/-- A malformed message is counted, dropped and reported (R57). -/
def State.d2dMalformed (s : State) : State := s.countEvent Od.d2dMalformedCount

/-- A message from the carrier, which comes only over a trained mainband: malformed, or taken. -/
def State.d2dIn (s : State) (formed : Bool) (f : State → State) : State :=
  if !s.carrier.mainband then s else if formed then f s else s.d2dMalformed

/-- The outstanding request that a completion names, of its kind (R57). -/
def State.answered (s : State) (h : BitVec 128) (kind : MemKind) : Option D2dReq :=
  s.carrier.reqs.find? (fun r => r.tag == dTag h && r.kind == kind)

/-- A request ends. -/
def State.endReq (s : State) (r : D2dReq) : State :=
  s.setCarrier fun c => { c with reqs := c.reqs.filter (fun x => x.tag != r.tag) }

/-! What follows a finished transfer -/

/-- Every write of an owner has been accepted: what waits for it goes on. -/
def State.writesDone (s : State) (o : ReqOwner) : State :=
  if s.reqOut (fun x => x == o) then s
  else
    let s := s.setCarrier fun c => { c with writes := c.writes.filter (fun w => w.owner != o) }
    match o with
    | .taskWrite t =>
      match s.task? t with
      | some t => if t.type == 0x33 then s.fetchDone t else s.collWritten t.id
      | none => s
    | .restoreWrite t key => s.restoreWritten t key
    | .copyWrite j _ _ => s.pumpCopies (jobOf j)
    | _ => s

/-- What waits for the buffer of an owner's read goes on once it is whole. -/
def State.readOn (s : State) (o : ReqOwner) : State :=
  match o with
  | .extentTable t =>
    match s.task? t with
    | some t => s.extentsRead t
    | none => s
  | .memberTable _ => s.pumpGroups
  | .taskRead t =>
    match s.task? t with
    | some t => if 0x53 ≤ t.type && t.type ≤ 0x55 then s.collSourceRead t else s
    | none => s
  | _ => s

/-- A read of an owner has brought its bytes. -/
def State.readDone (s : State) (o : ReqOwner) (cells : List (Nat × Byte)) : State :=
  match o with
  | .sliceRead t hid leaf => s.fillBuf t hid leaf cells
  | .sqRead q slot => s.recordRead q slot (cells.map (·.2))
  | .extentTable t => (s.fillTask t cells).readOn o
  | .memberTable t => (s.fillTask t cells).readOn o
  | .taskRead t => (s.fillTask t cells).readOn o
  | .serveRead x => s.fillTask x cells
  | _ => s

/-! Faults of a request (R57, R64 to R67, R77) -/

/-- A task that is no lane task ends because of a transfer. A collective is aborted for every member (R286). -/
def State.failIo (s : State) (task status detail detail2 : Nat) : State :=
  match s.task? task with
  | none => s
  | some t =>
    if 0x53 ≤ t.type && t.type ≤ 0x55 then s.collFault t status detail detail2
    else (s.dropWork t).complete t status detail detail2

/-- The Leaf of a task's read that a carrier address belongs to. -/
def State.readLeaf (s : State) (task addr : Nat) : Nat × Nat :=
  match s.taskBuf task with
  | none => (0xFFFF, 0)
  | some b =>
    match s.holding? b.holding with
    | none => (b.holding, 0)
    | some h => (b.holding, (b.leaf + ((h.addrs b.leaf b.len).findIdx? (fun a => a / 64 == addr / 64)).getD 0) / 1048576)

/-- A slice needs what a read asked for: its own elements, or anything read beside the stream. -/
def State.sliceNeeds (s : State) (t : Task) (hid addr : Nat) : Bool :=
  match t.slice, s.holding? hid with
  | some x, some h =>
    !t.streamed.any (fun o => o.1 == hid) ||
    (List.range x.size).any (fun k => (h.elemAddrs (t.done + k)).any (fun a => a / 256 == addr / 256))
  | _, _ => false

/-- A read of a lane task brings nothing: its block is asked for again at a boundary (R57, R65), and the slice that needs it
rolls back. -/
def State.sliceReadLost (s : State) (r : D2dReq) (task hid leaf : Nat) (free : Bool) : State :=
  let here (x : Nat) : Bool := x / 256 == r.addr / 256
  let n := (s.carrier.reqs.filter (fun x => x.owner == r.owner && here x.addr)).length
  let s := s.setCarrier fun c =>
    { c with reqs := mapIf c.reqs (fun x => x.owner == r.owner && here x.addr) (fun x => { x with owner := .orphan }) }
  let s := s.setUpdate fun u =>
    { u with streams := mapIf u.streams (fun b => b.task == task && b.holding == hid && b.leaf == leaf)
               (fun b => { b with cells := b.cells.filter (fun c => !here c.1), waiting := b.waiting - (n + 1) }) }
  match s.task? task with
  | some t => if s.sliceNeeds t hid r.addr then s.faultSlice task free else s
  | none => s

/-- A write of a slice, or of a run-in, fails: the slice rolls back, or the one that the run-in has begun. -/
def State.sliceWriteLost (s : State) (key : Nat) (free : Bool) : State :=
  match s.task? key, s.task? (key - 2 ^ 64) with
  | some _, _ => s.faultSlice key free
  | none, some t => if 2 ^ 64 ≤ key then s.rollbackRunIn t free none else s
  | none, none => s

/-- A read that is no slice's starts again from its first byte at the next boundary (R57, R65). -/
def State.readAgain (s : State) (o : ReqOwner) (task : Nat) (timeout : Bool) : State :=
  (s.orphanReqs (fun x => x == o)).setUpdate fun u =>
    { u with streams := mapIf u.streams (fun b => b.task == task) (fun b =>
        { b with cells := [], waiting := max 1 b.waiting, again := if timeout then b.again + 1 else b.again }) }

/-- A write that is no slice's starts again from its first byte at the next boundary. -/
def State.writeAgain (s : State) (o : ReqOwner) (timeout : Bool) : State :=
  (s.orphanReqs (fun x => x == o)).setCarrier fun c =>
    { c with writes := mapIf c.writes (fun w => w.owner == o) (fun w =>
        { w with restart := true, again := if timeout then w.again + 1 else w.again }) }

/-- A transfer has timed out SLICE_RETRY_LIMIT times in a row (R57). -/
def State.exhausted (s : State) (o : ReqOwner) (task : Nat) : Bool :=
  let n := s.cfg Od.sliceRetryLimit
  (s.taskBuf task).any (fun b => decide (n ≤ b.again)) || s.carrier.writes.any (fun w => w.owner == o && decide (n ≤ w.again))

/-- The span copy whose writes fail is dropped and asked for again. -/
def State.copyLost (s : State) (j : JobId) (master index : Nat) : State :=
  (s.dropReqs (fun o => o == .copyWrite j.val master index)).discardCopies j
    (fun c => c.writing && c.master == master && c.index == index)

/-- A read for restore serving or a span copy that brings no usable bytes: the Leaf counts as poisoned (R66). -/
def State.servePoison (s : State) (xfer : Nat) : State :=
  s.setUpdate fun u =>
    { u with streams := mapIf u.streams (fun b => b.task == xfer) (fun b =>
        { b with poison := [(0, 1)], waiting := b.waiting - 1 }) }

/-- A read for restore serving that the carrier denies: the Leaf is missing for the reason LOST; a span copy is not taken. -/
def State.serveDenied (s : State) (xfer : Nat) : State :=
  let s := s.orphanReqs (fun o => o == .serveRead xfer)
  match s.vault.serves.find? (fun r => r.buf == some xfer) with
  | some r => (s.freeBufs xfer).serveMissing r 5
  | none => s.setUpdate fun u =>
      { u with streams := mapIf u.streams (fun b => b.task == xfer) (fun b => { b with poison := [(0, 1)], waiting := 0 }) }

/-- XLAT_FAULT (R65): the access is counted and reported, the extent marked pending. The table read of a registration
belongs to no extent: the event names the Holding, and an index that no rule gives. -/
def State.reqXlat (s : State) (r : D2dReq) : State :=
  let mark (s : State) : State := match r.extent with
    | some (h, e) => s.xlatFault h e
    | none => s.bump Od.xlatFaultCount
  match r.owner with
  | .sqRead q slot => s.ringFailed q slot 1 true
  | .cqWrite q slot => s.ringFailed q slot 1 false
  | .sliceRead t hid leaf => (mark s).sliceReadLost r t hid leaf true
  | .sliceWrite t => (mark s).sliceWriteLost t true
  | .extentTable t =>
    let (x, s) := (s.bump Od.xlatFaultCount).free
    match s.task? t with
    | some t => (s.event Od.xlatFaultCount (s.registeringHid t.id) x).refuseRegistering t 0x0101
    | none => s
  | .memberTable t => (mark s).readAgain r.owner t false
  | .taskRead t => (mark s).readAgain r.owner t false
  | .serveRead x => (mark s).readAgain r.owner x false
  | .taskWrite _ => (mark s).writeAgain r.owner false
  | .restoreWrite _ _ => (mark s).writeAgain r.owner false
  | .copyWrite _ _ _ => (mark s).writeAgain r.owner false
  | .stageRead j step => (mark s).loseOwn (jobOf j) step
  | .orphan => mark s

/-- POISON (R66). -/
def State.reqPoison (s : State) (r : D2dReq) : State :=
  match r.owner with
  | .sqRead q slot => s.ringFailed q slot 2 true
  | .sliceRead t hid leaf =>
    let s := s.fillBuf t hid leaf []
    match s.task? t with
    | some t => s.poisonRead t hid leaf
    | none => s.bump Od.memPoisonCount
  | .extentTable t =>
    let s := s.bump Od.memPoisonCount
    match s.task? t with
    | some t => s.refuseRegistering t 0x0102
    | none => s
  | .memberTable t =>
    let (h, k) := s.readLeaf t r.addr
    (s.bump Od.memPoisonCount).failIo t 0x0023 h k
  | .taskRead t =>
    let (h, k) := s.readLeaf t r.addr
    (s.bump Od.memPoisonCount).failIo t 0x0023 h k
  | .serveRead x => (s.bump Od.memPoisonCount).servePoison x
  | .stageRead j step => (s.bump Od.memPoisonCount).loseOwn (jobOf j) step
  | _ => s.bump Od.memPoisonCount

/-- ACCESS_DENIED or UNMAPPED (R67). -/
def State.reqDenied (s : State) (r : D2dReq) (status : Nat) : State :=
  let hid := (r.extent.map (·.1)).getD 0
  let lane (s : State) (task : Nat) : State :=
    s.setTask task (fun t => { t with failWith := some (0x0024, status, hid) })
  match r.owner with
  | .sqRead q slot => s.ringFailed q slot status true
  | .cqWrite q slot => s.ringFailed q slot status false
  | .sliceRead t h leaf => lane ((s.bump Od.memDeniedCount).fillBuf t h leaf []) t
  | .sliceWrite t => lane (s.bump Od.memDeniedCount) (if 2 ^ 64 ≤ t then t - 2 ^ 64 else t)
  | .extentTable t =>
    let s := s.bump Od.memDeniedCount
    match s.task? t with
    | some t => s.refuseRegistering t (0x0100 + status)
    | none => s
  | .memberTable t => (s.bump Od.memDeniedCount).failIo t 0x0024 status hid
  | .taskRead t => (s.bump Od.memDeniedCount).failIo t 0x0024 status hid
  | .taskWrite t => (s.bump Od.memDeniedCount).failIo t 0x0024 status hid
  | .restoreWrite t _ => (s.bump Od.memDeniedCount).failIo t 0x0024 status hid
  | .serveRead x => (s.bump Od.memDeniedCount).serveDenied x
  | .copyWrite j m i => (s.bump Od.memDeniedCount).copyLost (jobOf j) m i
  | .stageRead j step => (s.bump Od.memDeniedCount).loseOwn (jobOf j) step
  | .orphan => s.bump Od.memDeniedCount

/-- A completion that is not OK, by its status (Table 03-4). -/
def State.reqFault (s : State) (r : D2dReq) (status : Nat) : State :=
  if status == 1 then s.reqXlat r else if status == 2 then s.reqPoison r else s.reqDenied r status

/-- MRD_CPL (R57, R65 to R67). -/
def execMrdCpl (hdr : BitVec 128) (payload : Bytes) (s : State) : Out :=
  .next <| match s.answered hdr .read with
    | none => s.d2dIn false id
    | some r =>
      let len := if dStatus hdr == 0 then r.len else 0
      s.d2dIn (d2dFormed hdr payload 2 && dLen hdr == len) fun s =>
        let s := s.endReq r
        if dStatus hdr == 0 then s.readDone r.owner (cellsAt r.addr payload) else s.reqFault r (dStatus hdr)

/-- MWR_CPL (R55, R57): with OK the write is accepted by the D2D outbound path. -/
def execMwrCpl (hdr : BitVec 128) (payload : Bytes) (s : State) : Out :=
  .next <| match s.answered hdr .write with
    | none => s.d2dIn false id
    | some r =>
      s.d2dIn (d2dFormed hdr payload 4 && dLen hdr == 0) fun s =>
        let s := s.endReq r
        if dStatus hdr != 0 then s.reqFault r (dStatus hdr)
        else match r.owner with
          | .cqWrite q _ => s.entryWritten q
          | o => s.writesDone o

/-- D2D_CPL_TIMEOUT (R57): the completion of a request has not arrived within D2D_CPL_TIMEOUT_FRAMES. Of a ring access no
status is there to be reported: the event carries a free value. -/
def execD2dCplTimeout (tag : BitVec 16) (s : State) : Out :=
  .next <| match s.carrier.reqs.find? (fun r => r.tag == tag.toNat) with
    | none => s
    | some r =>
      if !s.lapsed r.frame (s.cfg Od.d2dCplTimeoutFrames) then s
      else
        let s := (s.endReq r).bump Od.d2dCplTimeoutCount
        let again (s : State) (task : Nat) : State := if s.exhausted r.owner task then s.failIo task 0x0020 0 0 else s
        match r.owner with
        | .sqRead q slot => s.free.2.ringFailed q slot s.free.1 true
        | .cqWrite q slot => s.free.2.ringFailed q slot s.free.1 false
        | .sliceRead t hid leaf => s.sliceReadLost r t hid leaf false
        | .sliceWrite t => s.sliceWriteLost t false
        | .extentTable t => again (s.readAgain r.owner t true) t
        | .memberTable t => again (s.readAgain r.owner t true) t
        | .taskRead t => again (s.readAgain r.owner t true) t
        | .serveRead x => s.readAgain r.owner x true
        | .taskWrite t => again (s.writeAgain r.owner true) t
        | .restoreWrite t _ => again (s.writeAgain r.owner true) t
        | .copyWrite j m i =>
          let s := s.writeAgain r.owner true
          if s.exhausted r.owner (2 ^ 64) then s.copyLost (jobOf j) m i else s
        | .stageRead j step => s.loseOwn (jobOf j) step
        | .orphan => s

/-! Transfers that start again at a boundary (R57, R65) -/

/-- Start a held write again, unless an extent blocks it or a write to its granules is outstanding (R55). -/
def State.restartWrite (s : State) (w : WriteXfer) : State :=
  match s.holding? w.holding with
  | none => s.setCarrier fun c => { c with writes := c.writes.filter (fun x => x != w) }
  | some h =>
    let (s, go) := s.openRange h w.off w.bytes.length
    if !go || (h.addrs w.off w.bytes.length).any s.granuleBusy then s
    else
      let s := s.setCarrier fun c => { c with writes := mapIf c.writes (fun x => x == w) (fun x => { x with restart := false }) }
      s.issueWrites w.owner h w.off w.bytes

/-- The owner of a buffer that belongs to no lane task. -/
def State.bufOwner (s : State) (b : StreamBuf) : ReqOwner :=
  match s.task? b.task with
  | none => .serveRead b.task
  | some t =>
    if t.type == 0x03 then .extentTable t.id else if t.type == 0x50 || t.type == 0x51 then .memberTable t.id else .taskRead t.id

/-- Start a read again whose requests have all ended and which still waits for bytes. -/
def State.restartRead (s : State) (b : StreamBuf) : State :=
  let o := s.bufOwner b
  if b.waiting == 0 || s.reqOut (fun x => x == o) then s
  else
    let keep (s : State) : State := s.setUpdate fun u =>
      { u with streams := mapIf u.streams (fun x => x.task == b.task) (fun x => { x with again := b.again }) }
    if b.holding == 4096 then
      match s.task? b.task, s.carrier.registering.find? (fun r => r.task == b.task) with
      | some t, some r => (keep (s.readExtents t r.desc)).readOn o
      | _, _ => s
    else match s.holding? b.holding with
      | some h => if b.len == 0 then s else (keep (s.startRead o b.task h b.leaf b.len)).readOn o
      | none => s

/-- A write of a restore. -/
def WriteXfer.restores (w : WriteXfer) : Bool := match w.owner with | .restoreWrite _ _ => true | _ => false

/-- Every transfer that is to start again does so; restores wait for their grant. -/
def State.restartIo (s : State) : State :=
  if !s.carrier.mainband || s.d2dDown then s
  else
    let s := (s.carrier.writes.filter (fun w => w.restart && !w.restores)).foldl (fun s w => s.restartWrite w) s
    (s.update.streams.filter (fun b => b.len != 0 || b.holding == 4096)).foldl (fun s b => s.restartRead b) s

/-- Writes of restores start as far as their grants of the frame go (R15, R258). -/
def State.startHeldWrites (s : State) : State :=
  if !s.carrier.mainband || s.d2dDown then s
  else (s.carrier.writes.filter (fun w => w.restart && w.restores)).foldl (fun (s : State) w =>
    match w.owner with
    | .restoreWrite t _ =>
      match s.takeUnits (.restore t) (s.restoreRank t) { write := w.bytes.length } with
      | some s => s.restartWrite w
      | none => s
    | _ => s) s

/-! Extents (R61, R65) -/

/-- The owner's answer to EXTENT_UPDATE (R61). -/
def State.extentWrite (s : State) (a : Agent) (value : Bytes) : Nat × State :=
  let v := leNat value
  let hid := v % 65536
  let e := v / 2 ^ 32 % 2 ^ 32
  let entry : BitVec 64 := BitVec.ofNat 64 (v / 2 ^ 64)
  if 16 < value.length then (abLengthHigh, s)
  else if value.length < 16 then (abLengthLow, s)
  else if v / 65536 % 65536 != 0 || bitsOf entry 20 1 != 0 then (abInvalid, s)
  else match s.holding? hid with
    | none => (abInvalid, s)
    | some h =>
      if (s.job h.job).owner.agent != a then (abInvalid, s)
      else if h.extents.length ≤ e then (abOutOfRange, s)
      else (0, s.setCarrier fun c => { c with extUpdates := c.extUpdates ++ [(hid, e, entry)] })

/-- EXTENT_UPDATE (R61): takes effect at the next boundary. -/
def execExtentUpdate (agent : Agent) (value : Bytes) (s : State) : Out :=
  .next (s.odRow agent Od.extentUpdate.key value fun s => s.extentWrite agent value)

/-- Extent updates take effect at the boundary (R61, R65): the entry is replaced, and the extent is no longer pending. -/
def State.applyExtents (s : State) : State :=
  let us := s.carrier.extUpdates
  s.setCarrier fun c => { c with
    extUpdates := []
    holdings := c.holdings.map (fun (h : Holding) => us.foldl (fun (h : Holding) u =>
      if h.id == u.1 then { h with extents := h.extents.set u.2.1 u.2.2 } else h) h)
    pendingExt := c.pendingExt.filter (fun p => !us.any (fun u => u.1 == p.holding && u.2.1 == p.extent)) }

/-- A range of a Holding meets an extent. -/
def State.rangeMeets (s : State) (hid e h off n : Nat) : Bool :=
  h == hid && ((s.holding? h).map (fun x => (x.extentsOf off n).contains e)).getD false

/-- A running task waits for a pending extent (R65): a lane task whose next slice would touch it, or a task with a transfer
that it blocks. -/
def State.waitsExtent (s : State) (t : Task) (hid e : Nat) : Bool :=
  if t.phase == .waiting then false
  else if t.lane then
    let one := s.setCarrier fun c => { c with pendingExt := c.pendingExt.filter (fun p => p.holding == hid && p.extent == e) }
    let n := s.sliceSize (s.frameBudget (s.thermalPct s.carrier.worst)) t (s.snapshotBytes t)
    t.slice.isNone && s.plannable t && one.touchesPending t (max n (min 1 (t.units - t.done)))
  else
    let output (h off n : Nat) : Bool := s.rangeMeets hid e h off n
    s.update.streams.any (fun b => b.task == t.id && b.waiting != 0 && b.holding < 4096 && output b.holding b.leaf b.len) ||
    s.carrier.writes.any (fun w => w.restart && output w.holding w.off w.bytes.length && (match w.owner with
      | .taskWrite k => k == t.id
      | .restoreWrite k _ => k == t.id
      | _ => false)) ||
    s.vault.quarantine.any (fun q => s.writerOf q == t.id && output q.holding (q.leaf * 1048576)
      (((s.holding? q.holding).map (fun h => h.leafBytes q.leaf)).getD 0)) ||
    s.vault.restores.any (fun r => r.task == t.id && 3 ≤ r.phase && t.writes.contains hid) ||
    s.vault.fetches.any (fun r => r.task == t.id && r.parts ≤ r.part && !r.writing &&
      output (t.f 347 336) (t.f 383 352) r.bytes.length) ||
    s.colls.open_.any (fun c => c.task == t.id && c.committed && !c.writing && t.writes.contains hid)

/-- XLAT_WAIT_LIMIT (R65): each task that waits for the extent completes with XLAT_TIMEOUT. -/
def execXlatWaitLimit (holding : BitVec 12) (extent : BitVec 32) (s : State) : Out :=
  .next <|
    let hid := holding.toNat
    let e := extent.toNat
    match s.carrier.pendingExt.find? (fun p => p.holding == hid && p.extent == e) with
    | none => s
    | some p =>
      if !s.lapsed p.frame (s.cfg Od.xlatWaitLimitFrames) then s
      else
        let ts := s.sched.tasks.filter (fun t => s.waitsExtent t hid e)
        let s := if ts.isEmpty then s else s.raise .xlatTimeout
        let s := s.setCarrier fun c => { c with
          alXlat := c.alXlat || !ts.isEmpty
          pendingExt := mapIf c.pendingExt (fun x => x == p) (fun x => { x with reported := true }) }
        ts.foldl (fun (s : State) t =>
          match s.task? t.id with
          | none => s
          | some t => if t.lane then s.endLane t 0x0022 hid e t.done else s.failIo t.id 0x0022 hid e) s

/-! Time, thermal reports, grant (R56, R68, R69) -/

/-- D2D_NOP (R57): ignored; a message of a type that the carrier may not send is malformed, and so is a CW_RD or CW_WR whose
header or payload is. Well-formed messages of the other types are rows of their own. -/
def execD2dNop (hdr : BitVec 128) (payload : Bytes) (s : State) : Out :=
  .next <|
    let ty := dType hdr
    if ty == 5 || ty == 6 then s.d2dIn (d2dFormed hdr payload ty && dLen hdr == ty - 5) id
    else if [2, 4, 10, 11, 12].contains ty then s
    else s.d2dIn (ty == 0 && d2dFormed hdr payload 0 && dLen hdr == 0) id

/-- TIME_REQ (R56): one per frame; a further one is malformed. -/
def execTimeReq (hdr : BitVec 128) (payload : Bytes) (s : State) : Out :=
  .next <| s.d2dIn (d2dFormed hdr payload 10 && dLen hdr == 0 && s.time.timeReqFrame != some s.frame) fun s =>
    (s.setTime fun t => { t with timeReqFrame := some s.frame }).sendTime

/-- THERM (R69). -/
def execTherm (hdr : BitVec 128) (payload : Bytes) (s : State) : Out :=
  .next <|
    let stack := dAux hdr % 32
    s.d2dIn (d2dFormed hdr payload 11 && dLen hdr == 0 && stack < s.cfg Od.stackCount) fun s =>
      s.setCarrier fun c => { c with
        thermStacks := vmod c.thermStacks stack (fun _ => { cls := dAux hdr / 32 % 4, since := some s.frame }) }

/-- GRANT (R68): takes effect at the next boundary. -/
def execGrant (hdr : BitVec 128) (payload : Bytes) (s : State) : Out :=
  .next <| s.d2dIn (d2dFormed hdr payload 12 && dLen hdr == 0 && dAux hdr ≤ 100) fun s =>
    s.setCarrier fun c => { c with grantNext := some (dAux hdr) }

/-- THERM_STALE (R69): the stack is taken as WARM, counted and reported once. -/
def execThermStale (stack : BitVec 5) (s : State) : Out :=
  .next <|
    let i := stack.toNat
    let x := s.carrier.thermStacks.toList.getD i {}
    let due := match x.since with
      | some f => s.lapsed f (s.cfg Od.thermStaleFrames)
      | none => false
    if i < s.cfg Od.stackCount && due && !x.stale then
      (s.setCarrier fun c => { c with thermStacks := vmod c.thermStacks i (fun x => { x with cls := 1, stale := true }) }).countEvent
        Od.thermStaleCount i
    else s

/-- STACK_CLASS (R72): the classes held since the mainband trained. -/
def State.stackClasses (s : State) : Nat :=
  if !s.carrier.mainband then 0
  else packFields ((s.carrier.thermStacks.toList.take (s.cfg Od.stackCount)).map (fun x => (2, x.cls)))

/-! Modules (R53, R54) -/

/-- MAINBAND_TRAINED (R390): the control window opens, and stacks without a report are WARM (R69). -/
def execMainbandTrained (s : State) : Out :=
  .next <|
    if s.curator.powerGood && s.curator.stage != .none && !s.carrier.mainband then
      s.setCarrier fun c => { c with mainband := true, thermStacks := c.thermStacks.map (fun (_ : Stack) => { since := some s.frame }) }
    else s

/-- A task at work has carrier memory still to read or to write: lanes, registrations, restores, Catalogues, WELD_RESYNC and
WELD_ROLLBACK, collectives with a Holding, and a read that has not ended. -/
def State.needsCarrier (s : State) (t : Task) : Bool :=
  t.phase != .waiting && (t.lane || [0x03, 0x20, 0x21, 0x33, 0x43, 0x44].contains t.type ||
    (0x53 ≤ t.type && t.type ≤ 0x55 && s.collIo t) ||
    s.update.streams.any (fun b => b.task == t.id && b.waiting != 0))

/-- Without a module every task that needs carrier memory ends (R53). -/
def State.endD2d (s : State) : State :=
  (s.sched.tasks.filter s.needsCarrier).foldl (fun (s : State) t =>
    match s.task? t.id with
    | none => s
    | some t => if t.lane then s.endLane t 0x0021 0 0 t.done else s.failIo t.id 0x0021 0 0) s

/-- D2D_LANE_FAIL (R53): a lane is repaired onto a redundant lane; or the module is retired, and the slices with traffic in
flight roll back. Every module carries traffic of every slice (log entry 81). -/
def execD2dLaneFail (module : BitVec 4) (retire : Bool) (s : State) : Out :=
  .next <|
    let k := module.toNat
    let mask := s.odGet Od.d2dModuleRetiredMask
    if !s.carrier.mainband || mask / 2 ^ k % 2 == 1 then s
    else if !retire then
      (s.setCarrier fun c => { c with laneRepairs := c.laneRepairs.filter (fun x => x.1 != k) ++ [(k, s.frame)] }).scored (partId 12 k) 4
    else
      let mask := mask + 2 ^ k
      let s := (s.odSetP Od.d2dModuleRetiredMask mask).odSet Od.d2dModulesActive (modulesLeft mask)
      let s := (s.bump Od.d2dLaneRepairCount).retirePart (partId 12 k)
      let busy := s.carrier.reqs.filterMap (fun r => match r.owner with
        | .sliceRead t _ _ => some t
        | .sliceWrite t => some t
        | _ => none)
      let s := busy.eraseDups.foldl (fun (s : State) t => s.sliceWriteLost t false) s
      let s := ((s.setCarrier fun c => { c with alDegraded := true }).raise .d2dDegraded).event Od.d2dLaneRepairCount k
      if s.d2dDown then s.endD2d else s

end Sys2Proof.Machine
end

