-- ==== Sys2Proof/Machine/DictRead.lean ====
section
/-!
DEFINITION. What a read of the object dictionary returns (R408 to R412, R418). Entries that other units hold are computed
from them; every other entry is the stored value. Scalars come back in little-endian order; multi-byte fields inside a
DOMAIN are little-endian too (R5), but for the values that chapters lay out as frames (log entry 82).
-/
namespace Sys2Proof.Machine

/-- The value of an entry: a number of its type's size, or a byte string. -/
inductive OdVal
  | num (n : Nat)
  | bytes (b : Bytes)
  deriving DecidableEq, Repr

/-- A list of computed entries, by reference. -/
abbrev OdVals := List (OdRef × (Unit → OdVal))

/-- The value that a list of computed entries gives for a key. -/
def OdVals.pick (l : OdVals) (key : Nat) : Option OdVal := (l.find? (fun p => p.1.key == key)).map (fun p => p.2 ())

/-- UTF-8 of an ASCII text. -/
def asciiBytes (t : String) : Bytes := t.toList.map (fun c => BitVec.ofNat 8 c.toNat)

/-- 1 for true. -/
def flag (b : Bool) : Nat := if b then 1 else 0

/-! Chapters 15 and 16 -/

/-- A SEQ is above another under 32-bit serial comparison (R46, R423). -/
def seqAbove (a b : Nat) : Bool :=
  let d := (a + 2 ^ 32 - b % 2 ^ 32) % 2 ^ 32
  d != 0 && d < 2 ^ 31

/-- ERROR_REGISTER (R423). -/
def State.errorRegister (s : State) : Nat :=
  let ack := s.cfg Od.errorAckSeq
  (List.range 8).foldl (fun n k =>
    if s.dict.history.any (fun e => eventClass e.index == k && seqAbove e.seq ack) then n + 2 ^ k else n) 0

/-- A job record as its 64 bytes (Table 15-7). -/
def JobRecord.bytes (r : JobRecord) : Bytes :=
  let body := leBytes 60 (packFields [(32, r.gen), (1, 0), (1, flag r.used), (4, 0), (2, r.vaultIdx), (8, 0), (16, r.shard),
    (32, r.partner), (64, r.aLastId), (64, r.aLast), (64, r.d), (64, r.v), (128, r.lineage)])
  if r == {} then leBytes 64 0 else leBytes 4 (crc32c body) ++ body

/-- TRIM_TABLE: empty until the engine has learned one; what it then holds is a free value (log entry 83). -/
def State.trimBytes (s : State) : Bytes :=
  let v := s.odGet Od.trimTable
  if v == 0 then [] else leBytes (1 + v % 4096) (v / 4096)

/-- Retention counter (Table 15-5): while the always-on rail is up it follows the time. -/
def State.retention (s : State) : Bool × Nat :=
  if s.time.state != .unset then (true, s.timeNs / 1000000000) else (s.battery.secondsValid, s.battery.seconds)

/-- Identity, events and Phoaz (Table 16-13). -/
def State.identityVals (s : State) : OdVals := [
  (Od.hwRevision, fun _ => .num hwRevision),
  (Od.vendorName, fun _ => .bytes (asciiBytes "Linren Silicon")),
  (Od.productName, fun _ => .bytes (asciiBytes "Iarnogen IG-8 State Custodian")),
  (Od.errorRegister, fun _ => .num s.errorRegister),
  (Od.errorHistoryCount, fun _ => .num s.dict.history.length),
  (Od.errorHistory, fun _ => .bytes (s.dict.history.flatMap (fun e => leBytes 24 e.record))),
  (Od.eventSeq, fun _ => .num s.dict.eventSeq),
  (Od.fieldMacAddr, fun _ => .bytes (beBytes 6 s.ownMac)),
  (Od.phoazGroupAddr, fun _ => .bytes (beBytes 6 phoazGroup)),
  (Od.fieldMasterAddr, fun _ => .bytes (leBytes 6 (s.odGet Od.fieldMasterAddr)))]

/-- Engine ID, start, battery domain, images and barrier (Table 15-11). -/
def State.startVals (s : State) : OdVals := [
  (Od.engineId, fun _ => .num s.engineId),
  (Od.deviceSerial, fun _ => .num s.deviceSerial),
  (Od.pufHelper, fun _ => .bytes s.helperData),
  (Od.startStage, fun _ => .num s.curator.stage.code),
  (Od.startHold, fun _ => .num s.battery.startHold),
  (Od.heldBefore, fun _ => .num s.heldBefore),
  (Od.stageCUnmet, fun _ => .num s.curator.unmet),
  (Od.stageTimesUs, fun _ => .bytes (s.curator.stageUs.toList.flatMap (fun n => leBytes 4 n))),
  (Od.holdReason, fun _ => .num s.holdReason),
  (Od.catalogueChecked, fun _ => .num s.curator.checked),
  (Od.startCount, fun _ => .num s.battery.startCount),
  (Od.jobRecord 0, fun _ => .bytes (s.record 0).bytes),
  (Od.jobRecord 1, fun _ => .bytes (s.record 1).bytes),
  (Od.jobRecord 2, fun _ => .bytes (s.record 2).bytes),
  (Od.jobRecord 3, fun _ => .bytes (s.record 3).bytes),
  (Od.vbatLost, fun _ => .num (flag s.curator.vbatLost)),
  (Od.retentionValid, fun _ => .num (flag s.retention.1)),
  (Od.retentionSeconds, fun _ => .num s.retention.2),
  (Od.curatorImageSlot, fun _ => .num s.curator.slot),
  (Od.curatorImageVersion, fun _ => .num s.curatorFw),
  (Od.svnCurator, fun _ => .num (s.svn 0)),
  (Od.svnDocent, fun _ => .num (s.svn 1)),
  (Od.svnKernel, fun _ => .num (s.svn 2)),
  (Od.svnBundle, fun _ => .num (s.svn 3)),
  (Od.docentBundleId, fun _ => .num s.bundleId),
  (Od.fieldLinkUp, fun _ => .num (flag s.curator.linkUp))]

/-! Chapters 02 to 04 -/

/-- Time and frames (Table 02-8). -/
def State.timeVals (s : State) : OdVals := [
  (Od.frameNo, fun _ => .num s.frameNo),
  (Od.frameExt, fun _ => .num s.frame),
  (Od.timeNs, fun _ => .num s.timeNs),
  (Od.timeState, fun _ => .num s.time.state.code),
  (Od.jobOpen, fun _ => .num (flag s.anyJob)),
  (Od.trimTable, fun _ => .bytes s.trimBytes),
  (Od.freqOffsetPpb, fun _ => .num (unsigned 32 (s.time.slewRate / 10)))]

/-- The carrier interface and Holdings (Table 03-13), queues, self-test and power (Table 04-14). -/
def State.carrierVals (s : State) : OdVals := [
  (Od.carrierGrantPct, fun _ => .num s.carrier.grantPct),
  (Od.stackClass, fun _ => .num s.stackClasses),
  (Od.holdingCount, fun _ => .num s.carrier.holdings.length),
  (Od.ownStateBytes, fun _ => .num (s.kindBytes 0)),
  (Od.mirrorBytes, fun _ => .num (s.kindBytes 1)),
  (Od.holdingDesc, fun _ => .bytes (((s.holding? (s.cfg Od.holdingSelect)).map (fun h => leBytes 64 h.desc.toNat)).getD [])),
  (Od.qpEnabledMask, fun _ => .num (s.sched.qps.foldl (fun n p => n + 2 ^ p.q) 0)),
  (Od.tasksPending, fun _ => .num (s.sched.qps.foldl (fun n p => n + p.pendingCt) 0)),
  (Od.jobsOpen, fun _ => .num (s.jobs.toList.filter (·.open_)).length),
  (Od.selftestProgress, fun _ => .num (match s.sched.selftest with
    | some x => (x.total - x.items.length) * 100 / x.total
    | none => 0)),
  (Od.powerState, fun _ => .num s.sched.power.code)]

/-! Chapters 05 to 08 -/

/-- The generation in a slot: 0 CURRENT, 1 PREVIOUS. -/
def State.genSlot (s : State) (k : Nat) : Option Generation := if k == 0 then s.madder.current else s.madder.previous

/-- The update unit, Woad, Madder and the Gallery (Tables 05-10, 06-7, 07-10, 08-6). DEDUCED (log entry 167): ARRAY_MAP reads
0xFF at and above the active count, as LANE_MAP does (R133). -/
def State.unitVals (s : State) : OdVals := [
  (Od.kernelImageId, fun _ => .num s.update.kernels.imageId),
  (Od.kverAdamw, fun _ => .num s.update.kernels.adamw),
  (Od.kverLion, fun _ => .num s.update.kernels.lion),
  (Od.kverSgdm, fun _ => .num s.update.kernels.sgdm),
  (Od.kverAdafactor, fun _ => .num s.update.kernels.adafactor),
  (Od.streamCreditsFree, fun _ => .num (s.cfg Od.streamCredits - s.streamUsed)),
  (Od.laneMap, fun _ => .bytes (mapBytes 128 s.update.laneMap)),
  (Od.woadLevel, fun _ => .num s.woad.level),
  (Od.factorCacheFree, fun _ => .num (s.cacheFree * 65536)),
  (Od.arrayMap, fun _ => .bytes (mapBytes 128 s.woad.rowMap ++ mapBytes 128 s.woad.colMap)),
  (Od.genCurrentId, fun _ => .num ((s.madder.current.map (·.id)).getD 0)),
  (Od.genPreviousId, fun _ => .num ((s.madder.previous.map (·.id)).getD 0)),
  (Od.genImage, fun _ => .bytes (((s.genSlot (s.cfg Od.genReadSelect)).map (·.image)).getD [])),
  (Od.encLaneMap, fun _ => .bytes (mapBytes 64 s.madder.encMap)),
  (Od.decLaneMap, fun _ => .bytes (mapBytes 64 s.madder.decMap)),
  (Od.unassignedLeaves, fun _ => .num s.unassigned),
  (Od.regionUsed, fun _ => .bytes (s.regionUsed.flatMap (fun n => leBytes 4 n))),
  (Od.primarySparesLeft, fun _ => .num s.sparesLeft.1),
  (Od.secondarySparesLeft, fun _ => .num s.sparesLeft.2),
  (Od.remapTable, fun _ => .bytes s.remapBytes),
  (Od.remapTableUsed, fun _ => .num s.gallery.tableA.length)]

/-! Chapters 09 to 11 -/

/-- The per-job entries of the Weld show the job of WELD_JOB_SELECT, and the reset values of a job that is not open. -/
def State.weldShown (s : State) : Weld × Job :=
  let j := jobOf (s.cfg Od.weldJobSelect)
  if (s.job j).open_ then (s.weld j, s.job j) else ({}, {})

/-- The held record of the job shown whose step RECORD_SELECT names, as its header and entries (R221; log entry 84). -/
def State.shownRecord (s : State) : Bytes :=
  match s.weldShown.1.inRecords.find? (fun r => r.complete && r.step == s.cfg Od.recordSelect) with
  | some r => beBytes 64 r.head.toNat ++ r.entries.flatMap (fun e => beBytes 128 e.toNat)
  | none => []

/-- PARTNER_ENGINE_ID (R398): of the lowest-numbered job whose record names one. -/
def State.partnerShown (s : State) : Nat :=
  (((List.finRange 4).map (fun j => (s.record j).partner)).find? (fun p => p != 0)).getD 0

/-- The Weld, Accessions, Vault and restore, verdicts and collectives (Tables 09-12, 10-16, 11-8). -/
def State.stepVals (s : State) : OdVals := [
  (Od.pairState, fun _ => .num s.weldShown.1.state.code),
  (Od.partnerEngineId, fun _ => .num s.partnerShown),
  (Od.mirrorMode, fun _ => .num s.weldShown.1.mode.code),
  (Od.pairClass, fun _ => .num s.weldShown.1.cls),
  (Od.mStep, fun _ => .num s.weldShown.2.m),
  (Od.appliedStep, fun _ => .num s.weldShown.1.applied),
  (Od.outStaleFrom, fun _ => .num (s.weldShown.1.outStale.getD 0)),
  (Od.inStaleSpans, fun _ => .num (s.weldShown.1.inSpans.filter (·.stale)).length),
  (Od.recordsHeld, fun _ => .num (s.weldShown.1.inRecords.filter (·.complete)).length),
  (Od.recordEntries, fun _ => .bytes s.shownRecord),
  (Od.dStep 0, fun _ => .num (s.record 0).d),
  (Od.dStep 1, fun _ => .num (s.record 1).d),
  (Od.dStep 2, fun _ => .num (s.record 2).d),
  (Od.dStep 3, fun _ => .num (s.record 3).d),
  (Od.aLast 0, fun _ => .num (s.record 0).aLast),
  (Od.aLast 1, fun _ => .num (s.record 1).aLast),
  (Od.aLast 2, fun _ => .num (s.record 2).aLast),
  (Od.aLast 3, fun _ => .num (s.record 3).aLast),
  (Od.aLastId 0, fun _ => .num (s.record 0).aLastId),
  (Od.aLastId 1, fun _ => .num (s.record 1).aLastId),
  (Od.aLastId 2, fun _ => .num (s.record 2).aLastId),
  (Od.aLastId 3, fun _ => .num (s.record 3).aLastId),
  (Od.accOpenCount, fun _ => .num (s.vault.accs.filter (fun a => a.state == .open_)).length),
  (Od.spareState, fun _ => .num s.vault.spare.code),
  (Od.groupInfo, fun _ => .bytes (s.groupInfo (s.cfg Od.groupSelect)))]

/-! Chapters 12 to 14 -/

/-- LANE_RETIRED: transmit lanes in [8:0], receive lanes in [24:16]. -/
def PortState.retiredMask (x : PortState) : Nat :=
  let bits (l : List Nat) : Nat := l.foldl (fun n k => n + 2 ^ k) 0
  bits x.txRetired + 65536 * bits x.rxRetired

/-- Entries of one port (Table 12-10). -/
def State.portVals (s : State) (p : Port) : OdVals :=
  let x := s.port p
  [(Od.linkState p.val, fun _ => .num x.state.code),
   (Od.linkPartnerId p.val, fun _ => .num x.partner),
   (Od.laneMapTx p.val, fun _ => .bytes (mapBytes 8 x.txMap)),
   (Od.laneMapRx p.val, fun _ => .bytes (mapBytes 8 x.rxMap)),
   (Od.laneRetired p.val, fun _ => .num x.retiredMask),
   (Od.laserActive p.val, fun _ => .num x.laser),
   (Od.laserBiasPct p.val, fun _ => .num x.biasPct),
   (Od.laneCe p.val, fun _ => .bytes ((List.range 9).flatMap (fun k => leBytes 8 ((assoc x.laneCe k).getD 0))))]

/-- The record of a key slot (Table 13-3). -/
def KeySlot.record (k : KeySlot) : Nat :=
  packFields [(2, k.state.code), (6, 0), (8, k.purpose), (8, k.parent), (16, k.gen), (6, k.ops), (2, 0), (16, k.useMask),
    (32, k.limitM1), (32, k.ivEpoch), (64, k.usage), (64, k.keyId)]

/-- Physical pipes of the 64 pairs; a retired pair reads 0xFF (PAIR_MAP; log entry 85). -/
def State.pairBytes (s : State) : Bytes :=
  (List.range 64).flatMap (fun p =>
    if s.sec.pairsRetired.contains p then [0xFF, 0xFF]
    else match s.sec.pairMap[p]? with
      | some (a, b) => [BitVec.ofNat 8 a, BitVec.ofNat 8 b]
      | none => [0xFF, 0xFF])

/-- Security (Table 13-9), Docent, sync memory, mailboxes and lending (Table 14-11). -/
def State.guardVals (s : State) : OdVals := [
  (Od.keyStoreState, fun _ => .num s.keyStoreState),
  (Od.alarmSource, fun _ => .num s.battery.alarmSource),
  (Od.alarmCount, fun _ => .num s.battery.alarmCount),
  (Od.keySlotInfo, fun _ => .bytes (leBytes 32 (s.slot (s.cfg Od.keySlotSelect)).record)),
  (Od.lineageGen, fun _ => .num (s.slot 2).gen),
  (Od.lineagePrevGen, fun _ => .num (s.slot 7).gen),
  (Od.pairsActive, fun _ => .num (64 - s.sec.pairsRetired.length)),
  (Od.pairMap, fun _ => .bytes s.pairBytes),
  (Od.sparePipesLeft, fun _ => .num s.sparePipes.length),
  (Od.docentMap, fun _ => .bytes s.docentMap),
  (Od.syncWaitsActive, fun _ => .num s.sync.waiters.length),
  (Od.syncWaitTable, fun _ => .bytes s.waitTable),
  (Od.mboxServices, fun _ => .bytes s.services)]

/-! Chapter 17 -/

/-- Fewest primary and secondary spares left in any bank. -/
def State.fewestRows (s : State) : Nat :=
  (s.gallery.spareNext.map (fun x => (656 - x.2.1) + (64 - x.2.2))).foldl min 720

/-- SPARE_SUMMARY (R449). -/
def State.spareSummary (s : State) : Bytes :=
  let ports := s.fabric.ports.toList
  let lanes := ports.map (fun x => min (flag (x.spare .tx).isSome) (flag (x.spare .rx).isSome))
  let lasers := ports.map (fun x => flag x.otherLaser.isSome)
  [s.laneSpares.length, s.rowSpares.length, s.colSpares.length, s.encSpares.length, s.decSpares.length, s.sparePipes.length,
   s.docent.spares.length, s.fewestRows, lanes.foldl min 1, lasers.foldl min 1, 0, 0].map (fun n => BitVec.ofNat 8 (min 255 n))

/-- The PART_IDs of the score region, by class and index (R441, R442). -/
def allParts : List Nat :=
  (List.range 13).flatMap (fun c =>
    if c == 9 then ((List.range 128).filter (fun i => i % 16 < 9)).map (fun i => partId 9 i)
    else (List.range (partCount c)).map (fun i => partId c i))

/-- SCORE_TABLE (R442): copy A of the fault-score region, 7,344 bytes. -/
def State.scoreTable (s : State) : Bytes :=
  let body := allParts.flatMap (fun p => leBytes 8 (Score.word ((assoc s.service.scoreCopy p).getD {})))
  leBytes 2 0x5343 ++ leBytes 2 1 ++ leBytes 2 916 ++ leBytes 2 0 ++ leBytes 4 s.service.scoreGen ++ leBytes 4 (crc32c body) ++
    body

/-- Parts in a state. -/
def State.partsIn (s : State) (st : PartState) : Nat := (s.service.scores.filter (fun p => p.2.state == st)).length

/-- Scores, images and compatibility (Table 17-14). -/
def State.serviceVals (s : State) : OdVals := [
  (Od.partsWatch, fun _ => .num (s.partsIn .watch)),
  (Od.partsSuspect, fun _ => .num (s.partsIn .suspect)),
  (Od.spareSummary, fun _ => .bytes s.spareSummary),
  (Od.partRecord, fun _ => .bytes (leBytes 8 (s.score (s.cfg Od.partSelect)).word)),
  (Od.scoreTable, fun _ => .bytes s.scoreTable),
  (Od.bundleState, fun _ => .num s.bundleState.code),
  (Od.stagedBundleId, fun _ => .num ((s.service.staged.map (fun b => b.id.toNat)).getD 0)),
  (Od.localClass, fun _ => .num s.ownClass),
  (Od.matrix, fun _ => .bytes ((s.service.active.map (·.matrix)).getD []))]

/-! Reads -/

/-- The computed value of an entry, if it is one that other units hold. -/
def State.odComputed (s : State) (key : Nat) : Option OdVal :=
  let i := key / 256
  if i < 0x1010 || i == 0x1060 then s.identityVals.pick key
  else if i < 0x2000 then s.startVals.pick key
  else if i < 0x3000 then s.timeVals.pick key
  else if i < 0x4000 || i == 0x9010 || i == 0xA000 then s.carrierVals.pick key
  else if i < 0x5000 || i == 0x9020 then s.unitVals.pick key
  else if i < 0x6000 then s.stepVals.pick key
  else if 0x6100 ≤ i && i < 0x6104 then (s.portVals (portOf (i - 0x6100))).pick key
  else if i < 0x9000 then s.guardVals.pick key
  else s.serviceVals.pick key

/-- The bytes of a value: a scalar in its type's size, little-endian. -/
def OdVal.toBytes (t : OdType) (v : OdVal) : Bytes :=
  match v with
  | .bytes b => b
  | .num n => leBytes (t.size.getD 0) n

/-- Nine free I32 values (RX_POWER_MDBM: what a receiver measures). -/
def State.drawPower (s : State) : Bytes × State :=
  (List.range 9).foldl (fun (acc : Bytes × State) _ => (acc.1 ++ leBytes 4 acc.2.free.1, acc.2.free.2)) ([], s)

/-- The value of an entry, as little-endian scalar or byte string; a read of HIST clears what it returns (R170). -/
def State.odFetch (s : State) (r : OdRow) (key : Nat) : Bytes × State :=
  if key == Od.hist.key then s.takeHist
  else if r.ref.key == (Od.rxPowerMdbm 0).key then s.drawPower
  else match s.odComputed key with
    | some v => (v.toBytes r.type, s)
    | none => (leBytes (r.type.size.getD 0) (s.odGet (r.refOf key)), s)

/-- Checks 2 to 4 of R412 on a read; 0 when they pass. HIGHEST_SUB answers like the entries of its index. -/
def State.odReadCheck (s : State) (a : Agent) (key : Nat) : Nat :=
  let m := odMissing key
  if m != 0 then m
  else if !agentReads a then abAccess
  else match odRowOf key with
    | none => if !s.mainUp && !odCurator key then abNotReady else 0
    | some r => if r.writeOnly then abAccess else if s.odNotReady r key false then abNotReady else 0

/-- A read that has passed its checks. -/
def State.odValue (s : State) (key : Nat) : Bytes × State :=
  match odRowOf key with
  | some r => s.odFetch r key
  | none => (leBytes 1 ((odHighest (key / 256)).getD 0), s)

/-- An entry is a scalar, which Phoaz carries most significant byte first (R410). -/
def odScalar (key : Nat) : Bool :=
  match odRowOf key with
  | some r => r.type.size.isSome
  | none => true

/-- A value as a Phoaz body carries it, and the way back (R410). -/
def phoazOrder (key : Nat) (b : Bytes) : Bytes := if odScalar key then b.reverse else b

end Sys2Proof.Machine
end

