-- ==== Sys2Proof/Machine/Dictionary.lean ====
section
/-!
DEFINITION. Dictionary writes on every path, the OD window (R413 to R421) and the effect of accepted writes.
-/
namespace Sys2Proof.Machine

/-! Writes -/

/-- The owner of an action entry whose checks are its chapter's own, and acceptance of every other entry (R413, R418). -/
def State.odOwner (a : Agent) (authenticated : Bool) (key : Nat) (bytes : Bytes) (obs : ActionObs) (s : State) : Nat × State :=
  let v := leNat bytes
  if key == Od.wrapLoad.key then s.wrapLoad bytes obs.intact
  else if key == Od.fieldAuthLoad.key then s.fieldAuthLoad bytes authenticated obs.intact
  else if key == Od.alarmClear.key then s.alarmClear v (!obs.intact)
  else if key == Od.engineId.key then s.setEngineId v
  else if key == Od.pufHelper.key then s.setHelper bytes obs.intact
  else if key == Od.startHold.key then s.startHold v
  else if Od.svnCurator.key ≤ key && key ≤ Od.svnBundle.key then s.svnWrite (key - Od.svnCurator.key) v authenticated
  else if key == Od.bundleActivate.key then s.bundleActivate v
  else if key == Od.bundleCommit.key then s.bundleCommit v
  else if key == Od.curatorActivate.key then s.curatorActivate v
  else if key == Od.curatorCommit.key then s.curatorCommit v
  else if key == Od.recalibratePort.key then s.recalibrate v
  else if key == Od.qpCreate.key then s.createPair a bytes
  else if key == Od.qpDestroy.key then s.destroyWrite a v
  else if key == Od.extentUpdate.key then s.extentWrite a bytes
  else if key == Od.syncOwnerReset.key then s.ownerResetWrite a v
  else acceptSetting key v s

/-- The owner of an image entry; a value that is no image is refused as one that does not verify. -/
def State.odImage (key : Nat) (obs : ActionObs) (s : State) : Nat × State :=
  if key == Od.curatorImageLoad.key then
    match obs.image with
    | some i => s.imageLoad i
    | none => s.refuseImage
  else match obs.bundle with
    | some b => if key == Od.bundleStage.key then s.bundleStage b else s.bundleLoad b
    | none => s.refuseImage

/-- A write of a whole value on any path (R412, R413): the abort code, 0 when it is accepted. -/
def State.odWriteAny (s : State) (a : Agent) (authenticated : Bool) (key : Nat) (bytes : Bytes) (obs : ActionObs) :
    Nat × State :=
  if key == Od.curatorImageLoad.key || key == Od.bundleStage.key || key == Od.docentBundleLoad.key then
    s.imageWrite a key bytes (State.odImage key obs)
  else if key == Od.madderGenLoad.key then s.genWrite a key bytes (fun s => s.genLoad bytes)
  else if key == Od.madderGenRecall.key then s.genWrite a key bytes (fun s => s.genRecall bytes)
  else s.odWriteWith a key bytes (State.odOwner a authenticated key bytes obs)

/-! Effect of accepted writes (R414, R416) -/

/-- What a unit does when a value of its entry takes effect; the other units read the value in force when they use it. -/
def State.entryEffect (s : State) (key : Nat) : State :=
  if key == Od.linkEnable.key then s.linkEnableEffect (s.odGet Od.linkEnable)
  else if key == Od.ppsEnable.key && s.odGet Od.ppsEnable == 0 then s.setTime fun t => { t with ppsLeft := 0 }
  else if Od.plcaNodeId.key ≤ key && key ≤ Od.plcaBurstTimer.key then s.sendConfig
  else
    let i := key / 256 - 0x6100
    if i < 4 && key == (Od.laneMapReset i).key then s.laneMapResetEffect (portOf i) else s

/-- A pending write takes effect. -/
def State.writeEffect (s : State) (key : Nat) : State :=
  if (assoc s.dict.pendingW key).isSome then
    (s.setDict fun d => { d with pendingW := assocErase d.pendingW key }).entryEffect key
  else s

/-- Every pending write takes effect (R414): what is left of them at a boundary. -/
def State.writeEffects (s : State) : State := (s.dict.pendingW.map (·.1)).foldl (fun s k => s.writeEffect k) s

/-- OD_WRITE_EFFECT (R414). -/
def execOdWriteEffect (index : BitVec 16) (sub : BitVec 8) (s : State) : Out :=
  .next (s.writeEffect (index.toNat * 256 + sub.toNat))

/-! The OD window (R419, R420) -/

/-- The agent of a bank. -/
def bankAgent (b : Host2) : Agent := match b with | .ns => .hostNs | .s => .hostS

/-- A bank. -/
def State.bank (s : State) (b : Host2) : OdBank := match b with | .ns => s.dict.bankNs | .s => s.dict.bankS

/-- Change a bank. -/
def State.setBank (s : State) (b : Host2) (f : OdBank → OdBank) : State :=
  match b with
  | .ns => s.setDict fun d => { d with bankNs := f d.bankNs }
  | .s => s.setDict fun d => { d with bankS := f d.bankS }

/-- The entry that OD_ADDR names. -/
def OdBank.key (b : OdBank) : Nat := b.addr % 65536 * 256 + b.addr / 65536 % 256

/-- Bytes of OD_DATA from byte 0. -/
def OdBank.bytes (b : OdBank) (n : Nat) : Bytes := (List.range n).map (fun i => (assoc b.data i).getD 0)

/-- Write one byte of OD_DATA. -/
def putData (data : List (Nat × Byte)) (i : Nat) (v : Byte) : List (Nat × Byte) :=
  if v == 0 then assocErase data i else assocSet data i v

/-- Write bytes of OD_DATA from byte 0. -/
def putBytes (data : List (Nat × Byte)) (bs : Bytes) : List (Nat × Byte) :=
  bs.zipIdx.foldl (fun d p => putData d p.2 p.1) data

/-- A command of a bank completes: DONE, or ERROR with OD_ABORT; INTR when OD_INTR enables it. -/
def State.bankEnd (s : State) (b : Host2) (code : Nat) : State :=
  let s := s.setBank b fun x => if code == 0 then { x with done := true } else { x with error := true, abort := code }
  let s := s.raise (.odStatus (b == .s) (if code == 0 then 1 else 2))
  let i := (s.bank b).intr
  if i / 256 % 2 == 1 then s.intr (i % 256) else s

/-- Return a part of a value: OD_LEN, OD_TOTAL, OD_DATA, and the snapshot, which the last byte releases. -/
def OdBank.part (x : OdBank) (key : Nat) (value : Bytes) (frame : Nat) : OdBank :=
  let p := (value.drop x.offset).take 4096
  { x with len := p.length, total := value.length, data := putBytes x.data p,
           snapshot := if value.length ≤ x.offset + p.length then none else some { key := key, value := value, frame := frame } }

/-- READ (R420). -/
def State.bankRead (s : State) (b : Host2) : State :=
  let x := s.bank b
  if x.offset == 0 then
    let c := s.odReadCheck (bankAgent b) x.key
    if c != 0 then s.odRefuse.bankEnd b c
    else
      let (value, s) := s.odValue x.key
      (s.setBank b fun x => x.part x.key value s.frame).bankEnd b 0
  else match x.snapshot with
    | some p =>
      if p.key != x.key then s.odRefuse.bankEnd b abNoTransfer
      else if p.value.length ≤ x.offset then s.odRefuse.bankEnd b abOrder
      else (s.setBank b fun x => x.part p.key p.value s.frame).bankEnd b 0
    | none => s.odRefuse.bankEnd b abNoTransfer

/-- A part of the transfer of a bank: it fits the offset expected, and only the last part is shorter than 4,096 bytes. -/
def State.bankPart (s : State) (b : Host2) (t : Transfer) (obs : ActionObs) : State :=
  let x := s.bank b
  let left := t.total - t.got.length
  if t.key != x.key || x.offset != t.got.length || x.len != min 4096 left then
    (s.odRefuse.setBank b fun x => { x with transfer := none }).bankEnd b abOrder
  else
    let got := t.got ++ x.bytes x.len
    if got.length == t.total then
      let s := s.setBank b fun x => { x with transfer := none }
      let (c, s) := s.odWriteAny (bankAgent b) false t.key got obs
      s.bankEnd b c
    else
      let t := { t with got := got, frame := s.frame, last := some (x.offset, x.len) }
      (s.setBank b fun x => { x with transfer := some t }).bankEnd b 0

/-- WRITE (R420). -/
def State.bankWrite (s : State) (b : Host2) (obs : ActionObs) : State :=
  let s := s.setBank b fun x => { x with snapshot := none }
  let x := s.bank b
  if x.offset == 0 then
    let s := if x.transfer.isSome then s.odRefuse else s
    s.bankPart b { key := x.key, total := x.total, got := [], frame := s.frame } obs
  else match x.transfer with
    | some t => s.bankPart b t obs
    | none => s.odRefuse.bankEnd b abNoTransfer

/-- A command of a bank: nothing while the window is closed (R54); ignored, and flagged, while BUSY. -/
def State.bankCommand (s : State) (b : Host2) (busy : Bool) (f : State → State) : State :=
  if !s.mainUp || !s.carrier.mainband then s
  else if busy then (s.setBank b fun x => { x with ignored := true }).raise (.odStatus (b == .s) 5)
  else f s

/-- A read on the internal path of Docent firmware. -/
def State.internalRead (s : State) (key : Nat) : State :=
  let c := s.odReadCheck .docent key
  if c != 0 then s.odRefuse.send (.od Agent.docent.code c [])
  else
    let (v, s) := s.odValue key
    s.send (.od Agent.docent.code 0 v)

/-- A write on the internal path of Docent firmware. -/
def State.internalWrite (s : State) (key : Nat) (value : Bytes) (obs : ActionObs) : State :=
  let (c, s) := s.odWriteAny .docent false key value obs
  s.send (.od Agent.docent.code c [])

/-- OD_READ (R420). -/
def execOdRead (path : OdPath) (busy : Bool) (s : State) : Out :=
  .next <| match path with
    | .bank b => s.bankCommand b busy fun s => s.bankRead b
    | .internal i k _ => if s.mainUp && !busy then s.internalRead (i.toNat * 256 + k.toNat) else s

/-- OD_WRITE (R420). -/
def execOdWrite (path : OdPath) (busy : Bool) (obs : ActionObs) (s : State) : Out :=
  .next <| match path with
    | .bank b => s.bankCommand b busy fun s => s.bankWrite b obs
    | .internal i k v => if s.mainUp && !busy then s.internalWrite (i.toNat * 256 + k.toNat) v obs else s

/-- OD_CANCEL (R420). -/
def State.bankCancel (s : State) (b : Host2) : State :=
  (s.setBank b fun x => { x with transfer := none, snapshot := none }).bankEnd b 0

/-- OD_CANCEL (R420). -/
def execOdCancel (bank : Host2) (busy : Bool) (s : State) : Out :=
  .next (s.bankCommand bank busy fun s => s.bankCancel bank)

/-- A bank idle for SEG_IDLE_FRAMES: its snapshot is released, its transfer abandoned and counted (R420). -/
def State.bankIdle (s : State) (b : Host2) : State :=
  let x := s.bank b
  let late (f : Nat) : Bool := s.lapsed f (s.cfg Od.segIdleFrames)
  let s := match x.snapshot with
    | some p => if late p.frame then s.setBank b (fun x => { x with snapshot := none }) else s
    | none => s
  match x.transfer with
  | some t => if late t.frame then s.odRefuse.setBank b (fun x => { x with transfer := none }) else s
  | none => s

end Sys2Proof.Machine
end

