-- ==== Sys2Proof/Machine/Phoaz.lean ====
section
/-!
DEFINITION. The Phoaz field protocol (R424 to R435): reads, writes, authentication, events, time publication, discovery.
-/
namespace Sys2Proof.Machine

/-! Header fields (Table 16-7) -/

def phTrans (h : BitVec 128) : Nat := bitsOf h 95 80
def phIndex (h : BitVec 128) : Nat := bitsOf h 63 48
def phSub (h : BitVec 128) : Nat := bitsOf h 47 40
def phParam (h : BitVec 128) : Nat := bitsOf h 31 0
def phLast (h : BitVec 128) : Bool := bitOf h 105

/-- The entry that a frame names. -/
def phKey (h : BitVec 128) : Nat := phIndex h * 256 + phSub h

/-- Take a received frame of a type; while the Curator restarts it goes unanswered (R456). -/
def State.phoazTake (s : State) (f : PhoazFrame) (type : Nat) (k : State → State) : State :=
  if s.dict.phoazIn.contains f && phType f.hdr == type then
    let s := s.setDict fun d => { d with phoazIn := d.phoazIn.erase f }
    if s.curatorPaused then s else k s
  else s

/-! Answers -/

/-- Header of an answer: TRANSACTION, INDEX and SUB of the request. -/
def answerHdr (f : PhoazFrame) (type flags len param : Nat) : BitVec 128 :=
  phoazHdr type flags (phTrans f.hdr) len (phIndex f.hdr) (phSub f.hdr) param

/-- Answer a request. -/
def State.phoazAnswer (s : State) (f : PhoazFrame) (type flags param : Nat) (body : Bytes) : State :=
  s.phoaz f.src.toNat (answerHdr f type flags body.length param) body

/-- ABORT for a refusal that has been counted in OD_ABORT_COUNT (R425). -/
def State.phoazAbortTo (s : State) (f : PhoazFrame) (code : Nat) : State :=
  (s.bump Od.phoazAbortCount).phoazAnswer f 0x0A 0 code []

/-- Refuse a request (R425, R436). -/
def State.phoazRefuse (s : State) (f : PhoazFrame) (code : Nat) : State := s.odRefuse.phoazAbortTo f code

/-- Answer a request that has completed, and keep the answer for a retransmission (R428). -/
def State.phoazComplete (s : State) (f : PhoazFrame) (type flags param : Nat) (body : Bytes) : State :=
  let hdr := answerHdr f type flags body.length param
  let s := s.phoaz f.src.toNat hdr body
  s.setDict fun d => { d with
    lastReq := some { src := f.src.toNat, trans := phTrans f.hdr, type := phType f.hdr, index := phIndex f.hdr,
                      sub := phSub f.hdr, rspHdr := hdr, rspBody := body } }

/-- The stored response when the frame repeats the last request completed (R428). -/
def State.phoazRepeat (s : State) (f : PhoazFrame) : Option StoredReq :=
  match s.dict.lastReq with
  | some r =>
    if r.src == f.src.toNat && r.trans == phTrans f.hdr && r.type == phType f.hdr && r.index == phIndex f.hdr &&
        r.sub == phSub f.hdr then some r
    else none
  | none => none

/-! Authentication (R429 to R431) -/

/-- Entries that take unauthenticated writes while the key store is UNENROLLED or in ALARM (R430). -/
def openEntry (key : Nat) : Bool :=
  key == Od.fieldAuthLoad.key || key == Od.engineId.key || key == Od.pufHelper.key || key == Od.startHold.key ||
  key == Od.alarmClear.key

/-- What the TAG of a frame covers: both addresses, the header, the body and the COUNTER (R429). -/
def phCovered (f : PhoazFrame) : Bytes :=
  beBytes 6 f.dst.toNat ++ beBytes 6 f.src.toNat ++ beBytes 16 f.hdr.toNat ++ f.body ++ beBytes 8 f.counter.toNat

/-- The TAG of a frame under FIELD_AUTH, slot 3. -/
def State.phoazTag (s : State) (f : PhoazFrame) : Nat := Config.kmac (s.slot 3).key 2 (phCovered f) % 2 ^ 256

/-- PHOAZ_AUTH_CHECK (R429): the abort code, 0 when the frame is accepted. `need` when the frame's type requires AUTH. The
recomputed tag goes to the comparator, which counts a NOT_EQUAL (R345). -/
def State.phoazAuth (s : State) (f : PhoazFrame) (need : Bool) : Nat × State :=
  if phAuth f.hdr then
    if s.alarmed then (abKeyAlarm, s)
    else if (s.slot 3).state == .empty then (abAuthFail, s.bump Od.authFailCount)
    else if s.phoazTag f != f.tag.toNat then (abAuthFail, (s.bump Od.compareNeCount).bump Od.authFailCount)
    else if f.counter.toNat ≤ s.odGet Od.authCounter then (abReplay, s.bump Od.replayCount)
    else (0, s.odSetP Od.authCounter f.counter.toNat)
  else if need && (s.keyStoreState == 0 || !openEntry (phKey f.hdr)) then (abAuthRequired, s)
  else (0, s)

/-- A request: authentication first (R412), then a repetition of the last one is answered from store (R428), else it acts. -/
def State.phoazRequest (s : State) (f : PhoazFrame) (type : Nat) (need : Bool) (act : State → State) : State :=
  s.phoazTake f type fun s =>
    let (c, s) := s.phoazAuth f need
    if c != 0 then s.phoazRefuse f c
    else match s.phoazRepeat f with
      | some r => s.phoaz f.src.toNat r.rspHdr r.rspBody
      | none => act s

/-! Reads (R426) -/

/-- A value too long for the Curator's staging memory while the main domain is down (R435). -/
def State.phoazTooLong (s : State) (n : Nat) : Bool := !s.mainUp && 262144 < n

/-- READ_REQ (R426). -/
def State.phoazRead (s : State) (f : PhoazFrame) : State :=
  let key := phKey f.hdr
  let c := s.odReadCheck .field key
  if c != 0 then s.phoazRefuse f c
  else
    let (v, t) := s.odValue key
    let v := phoazOrder key v
    if s.phoazTooLong v.length then s.phoazRefuse f abNotReady
    else if v.length ≤ 1024 then (t.setDict fun d => { d with snapshot := none }).phoazComplete f 0x02 0 v.length v
    else
      let p : Snapshot := { key := key, value := v, frame := s.frame }
      (t.setDict fun d => { d with snapshot := some p }).phoazComplete f 0x02 4 v.length (v.take 1024)

/-- READ_REQ (R426). -/
def execReadReq (f : PhoazText) (tag : BitVec 256) (s : State) : Out :=
  let f : PhoazFrame := { f with tag := tag }
  .next (s.phoazRequest f 0x01 false fun s => s.phoazRead f)

/-- SEG_READ_REQ (R426): a part of the held snapshot; LAST at the end of the value. -/
def State.phoazSegRead (s : State) (f : PhoazFrame) : State :=
  match s.dict.snapshot with
  | none => s.phoazRefuse f abNoTransfer
  | some p =>
    let off := phParam f.hdr
    if p.key != phKey f.hdr then s.phoazRefuse f abNoTransfer
    else if p.value.length ≤ off || off % 1024 != 0 then s.phoazRefuse f abOrder
    else s.phoazComplete f 0x09 (if p.value.length ≤ off + 1024 then 2 else 0) off ((p.value.drop off).take 1024)

/-- SEG_READ_REQ (R426). -/
def execSegReadReq (f : PhoazText) (tag : BitVec 256) (s : State) : Out :=
  let f : PhoazFrame := { f with tag := tag }
  .next (s.phoazRequest f 0x08 false fun s => s.phoazSegRead f)

/-! Writes (R427) -/

/-- Write a whole value as FIELD: the abort code, 0 when accepted. -/
def State.phoazStore (s : State) (f : PhoazFrame) (value : Bytes) (obs : ActionObs) : Nat × State :=
  s.odWriteAny .field (phAuth f.hdr) (phKey f.hdr) (phoazOrder (phKey f.hdr) value) obs

/-- WRITE_REQ (R427). -/
def State.phoazWrite (s : State) (f : PhoazFrame) (obs : ActionObs) : State :=
  let (c, s) := s.phoazStore f f.body obs
  if c != 0 then s.phoazAbortTo f c else s.phoazComplete f 0x04 0 0 []

/-- WRITE_REQ (R427). -/
def execWriteReq (f : PhoazText) (tag : BitVec 256) (obs : ActionObs) (s : State) : Out :=
  let f : PhoazFrame := { f with tag := tag }
  .next (s.phoazRequest f 0x03 true fun s => s.phoazWrite f obs)

/-- End the open transfer with an ABORT to its source (R427); the ABORT carries what the transfer's frames named. -/
def State.phoazAbandon (s : State) (t : Transfer) (code : Nat) : State :=
  let s := (s.setDict fun d => { d with transfer := none }).odRefuse.bump Od.phoazAbortCount
  s.phoaz t.source (phoazHdr 0x0A 0 t.trans 0 (t.key / 256) (t.key % 256) code) []

/-- Checks of SEG_WRITE_INIT: the entry, its rights, its readiness, and a length above its limit (R409, R412, R435). -/
def State.segInitCheck (s : State) (key n : Nat) : Nat :=
  let m := odMissing key
  if m != 0 then m
  else match odRowOf key with
    | none => abAccess
    | some r =>
      if !r.mayWrite key .field then abAccess
      else if s.odNotReady r key true || s.phoazTooLong n then abNotReady
      else if odLength r n == abLengthHigh then abLengthHigh
      else 0

/-- SEG_WRITE_INIT (R427). -/
def State.phoazInit (s : State) (f : PhoazFrame) : State :=
  let n := phParam f.hdr
  let c := s.segInitCheck (phKey f.hdr) n
  if c != 0 then s.phoazRefuse f c
  else
    let s := match s.dict.transfer with
      | some t => s.phoazAbandon t abAbandoned
      | none => s
    let t : Transfer := { key := phKey f.hdr, total := n, got := [], frame := s.frame, source := f.src.toNat,
                          trans := phTrans f.hdr }
    (s.setDict fun d => { d with transfer := some t, segRsp := none }).phoazComplete f 0x07 0 0 []

/-- SEG_WRITE_INIT (R427). -/
def execSegWriteInit (f : PhoazText) (tag : BitVec 256) (s : State) : Out :=
  let f : PhoazFrame := { f with tag := tag }
  .next (s.phoazRequest f 0x05 true fun s => s.phoazInit f)

/-- The next segment of the open transfer, of `n` bytes. -/
def State.phoazNext (s : State) (f : PhoazFrame) (t : Transfer) (n : Nat) (obs : ActionObs) : State :=
  let got := t.got ++ f.body
  if got.length == t.total then
    let s := s.setDict fun d => { d with transfer := none, segRsp := none }
    let (c, s) := s.phoazStore f got obs
    if c != 0 then s.phoazAbortTo f c else s.phoazComplete f 0x07 2 t.total []
  else
    let hdr := answerHdr f 0x07 0 0 got.length
    let t := { t with got := got, frame := s.frame, last := some (t.got.length, n), trans := phTrans f.hdr }
    (s.setDict fun d => { d with transfer := some t, segRsp := some hdr }).phoaz f.src.toNat hdr []

/-- SEG_WRITE (R427): the expected segment, the last one again, or SEGMENT_ORDER, which abandons the transfer. -/
def State.phoazSegment (s : State) (f : PhoazFrame) (t : Transfer) (obs : ActionObs) : State :=
  let off := phParam f.hdr
  let n := f.body.length
  let left := t.total - t.got.length
  if phKey f.hdr == t.key && off == t.got.length && n == min 1024 left && phLast f.hdr == (left ≤ 1024) then
    s.phoazNext f t n obs
  else if phKey f.hdr == t.key && t.last == some (off, n) then
    s.phoaz f.src.toNat (s.dict.segRsp.getD (answerHdr f 0x07 0 0 t.got.length)) []
  else (s.setDict fun d => { d with transfer := none, segRsp := none }).phoazRefuse f abOrder

/-- SEG_WRITE (R427). With a transfer open its segments are told apart by their offsets; a repetition of the segment that
ended the last one is answered from store (R428; log entry 88). -/
def execSegWrite (f : PhoazText) (tag : BitVec 256) (obs : ActionObs) (s : State) : Out :=
  let f : PhoazFrame := { f with tag := tag }
  .next <| s.phoazTake f 0x06 fun s =>
    let (c, s) := s.phoazAuth f true
    if c != 0 then s.phoazRefuse f c
    else match s.dict.transfer, s.phoazRepeat f with
      | some t, _ => s.phoazSegment f t obs
      | none, some r => s.phoaz f.src.toNat r.rspHdr r.rspBody
      | none, none => s.phoazRefuse f abNoTransfer

/-- SEG_IDLE_TIMEOUT (R420, R427): a transfer or snapshot idle for SEG_IDLE_FRAMES. -/
def execSegIdleTimeout (bank : Option Host2) (s : State) : Out :=
  .next <| match bank with
    | some b => s.bankIdle b
    | none => match s.dict.transfer with
      | some t => if s.lapsed t.frame (s.cfg Od.segIdleFrames) then s.phoazAbandon t abTimeout else s
      | none => s

/-- PHOAZ_ABORT (R425): the rules give an ABORT of the field master no effect on the engine. -/
def execPhoazAbort (f : PhoazFrame) (s : State) : Out := .next (s.phoazTake f 0x0A fun s => s)

/-! Events to the field master (R433) -/

/-- The event at the head of the queue is done with; the next one is sent. -/
def State.nextEvent (s : State) : State :=
  State.startEvent { s with dict := { s.dict with waiting := s.dict.waiting.drop 1, sends := none } }

/-- EVENT_ACK (R433). -/
def execEventAck (f : PhoazFrame) (s : State) : Out :=
  .next <| s.phoazTake f 0x0C fun s => match s.dict.waiting with
    | e :: _ => if e.seq == phParam f.hdr && s.dict.sends.isSome then s.nextEvent else s
    | [] => s

/-- EVENT_RETRY (R433): EVENT_RETRY_MS since the last send. Under the group address an event awaits nothing. -/
def execEventRetry (s : State) : Out :=
  .next <| match s.dict.waiting, s.dict.sends with
    | e :: _, some (n, t) =>
      if s.timeNs < t + s.cfg Od.eventRetryMs * 1000000 || s.curatorPaused then s
      else if s.masterAddr == phoazGroup then s.nextEvent
      else if n < s.cfg Od.eventRetryLimit then
        (s.sendEvent e).setDict fun d => { d with sends := some (n + 1, s.timeNs) }
      else (s.bump Od.eventDropCount).nextEvent
    | _, _ => s

/-! Time publication (R432) -/

/-- TIME_SYNC (R432). -/
def execTimeSync (f : PhoazFrame) (s : State) : Out :=
  .next <| s.phoazTake f 0x0D fun s => s.setDict fun d => { d with timeSync := some (phParam f.hdr, f.stamp) }

/-- A publication of the field master's time, in ns, is used (R37, R432): stepped to while no job is open, else slewed to. -/
def State.publish (s : State) (ns : Nat) : State :=
  let stay := s.anyJob
  let s := (s.bump Od.timePubCount).correct (((s.timeNs : Int) - (ns : Int)) * 1000) true
  s.setTime fun t =>
    if stay then { t with fieldTraced := true }
    else { t with state := .field, fieldTraced := true, holdoverSince := none }

/-- The time that a TIME_FOLLOW publishes at the present instant: T_TX + (TIME_NS − t_rx), with t_rx the barrier stamp less
FIELD_RX_LATENCY_NS. -/
def publishedNs (body : Bytes) (now stamp : Nat) : Nat :=
  beNat (body.take 6) * 1000000000 + beNat (body.drop 6) + (now - stamp) + Od.fieldRxLatencyNs.dflt

/-- A publication that is not used (R432). -/
def State.rejectTime (s : State) : State := s.bump Od.timePubRejectCount

/-- TIME_FOLLOW accepted under R429. -/
def State.timeFollow (s : State) (f : PhoazFrame) : State :=
  let n := f.body.length
  if n != 10 then s.phoazRefuse f (if n < 10 then abLengthLow else abLengthHigh)
  else if 1000000000 ≤ beNat (f.body.drop 6) then s.phoazRefuse f abInvalid
  else match s.dict.timeSync with
    | some (seq, stamp) =>
      if seq != phParam f.hdr || stamp + 100000000 < s.timeNs || s.time.state == .synced || s.time.state == .grandmaster then
        s.rejectTime
      else (s.setDict fun d => { d with timeSync := none }).publish (publishedNs f.body s.timeNs stamp)
    | none => s.rejectTime

/-- TIME_FOLLOW (R432): a failure of R429 is refused and counted. -/
def execTimeFollow (f : PhoazText) (tag : BitVec 256) (s : State) : Out :=
  let f : PhoazFrame := { f with tag := tag }
  .next <| s.phoazTake f 0x0E fun s =>
    let (c, s) := if phAuth f.hdr then s.phoazAuth f true else (abAuthRequired, s)
    if c != 0 then (s.phoazRefuse f c).rejectTime else s.timeFollow f

/-! Discovery (R434) -/

/-- DISCOVER (R434): the answer waits (DEVICE_SERIAL mod 100) ms. -/
def execDiscover (f : PhoazFrame) (s : State) : Out :=
  .next <| s.phoazTake f 0x0F fun s => s.setDict fun d => { d with
    discover := d.discover ++ [(f.src.toNat, phTrans f.hdr, s.timeNs + s.deviceSerial % 100 * 1000000)] }

/-- The body of DISCOVER_RSP (Table 16-9). -/
def State.discoverBody (s : State) : Bytes :=
  beBytes 24 (packFields [(32, s.curatorFw), (24, 0), (8, s.cfg Od.plcaNodeId), (8, s.time.state.code), (8, s.keyStoreState),
    (8, s.holdReason), (8, s.curator.stage.code), (64, s.deviceSerial), (32, s.engineId)])

/-- DISCOVER_RSP (R434): the answers that are due. -/
def execDiscoverRsp (s : State) : Out :=
  .next <|
    if s.curatorPaused then s
    else
      let due := s.dict.discover.filter (fun p => p.2.2 ≤ s.timeNs)
      let s := s.setDict fun d => { d with discover := d.discover.filter (fun p => s.timeNs < p.2.2) }
      due.foldl (fun s p => s.phoaz p.1 (phoazHdr 0x10 0 p.2.1 24 0 0 0) s.discoverBody) s

end Sys2Proof.Machine
end

