-- ==== Sys2Proof/Machine/Window.lean ====
section
/-!
DEFINITION. The control window (R54, R58 to R60): rights, widths, and the registers of every region that a read or a write
reaches. A register whose access is a row of its own acts here through the same operation.
-/
namespace Sys2Proof.Machine

/-! Regions and rights (Table 03-5) -/

/-- The regions of the control window. -/
inductive CwRegion
  | global | od | pairs | mailboxes | pages | sync | view | trace | none
  deriving DecidableEq, Repr

/-- The region of an offset. -/
def cwRegion (off : Nat) : CwRegion :=
  if off < 0x10000 then .global
  else if off < 0x20000 then .od
  else if off < 0x24000 then .pairs
  else if off < 0x40000 then .none
  else if off < 0x50000 then .mailboxes
  else if off < 0x100000 then .none
  else if off < 0x200000 then .pages
  else if off < 0x280000 then .sync
  else if off < 0x300000 then .view
  else if off < 0x800000 then .none
  else .trace

/-- Numbers of the queue pair, the channel, the page and the sync word of an offset. -/
def cwPair (off : Nat) : Nat := (off - 0x20000) / 0x100
def cwChannel (off : Nat) : Channel := Fin.ofNat 16 ((off - 0x40000) / 0x1000)
def cwPage (off : Nat) : Nat := (off - 0x100000) / 0x10000
def cwSyncWord (off : Nat) : Nat := off % 0x80000 / 8

/-- An access is denied by agent rights (R59, Table 03-5). -/
def State.cwDenied (s : State) (path : CwPath) (off : Nat) (write : Bool) : Bool :=
  match cwRegion off with
  | .global => write && path == .debug
  | .od => path == .debug || (path == .hostNs) != decide (off < 0x18000)
  | .pairs => match s.qp? (cwPair off) with
    | some p => pathHost path != some p.owner
    | none => true
  | .mailboxes => path == .debug || (path == .hostNs && 8 ≤ (cwChannel off).val)
  | .pages => path.agent.code != cwPage off
  | .sync => write && path == .debug
  | .view => write || path == .hostNs
  | .trace => path != .debug
  | .none => false

/-- An access is misaligned (R59): 4 or 8 bytes wide and aligned to its size; 4 bytes alone where the region says so (R379,
R419). Agent pages judge widths themselves (R346). -/
def cwMisaligned (off size : Nat) : Bool :=
  if cwRegion off == .pages then false
  else if !(size == 4 || size == 8) || off % size != 0 then true
  else match cwRegion off with
    | .mailboxes => size != 4
    | .od => size != 4 && !(0x1000 ≤ off % 0x8000 && off % 0x8000 < 0x2000)
    | _ => false

/-! The global page (Tables 02-6, 02-7, 03-6, 03-7) -/

/-- ALARM_SUMMARY (Table 03-7, R461). -/
def State.alarmSummary (s : State) : Nat :=
  packFields [(1, flag s.alarmed), (1, flag (s.ownClass == 2 || !s.service.classRefused.isEmpty)), (1, flag s.carrier.alXlat),
    (1, flag s.carrier.alDegraded), (1, flag s.carrier.alThermal)]

/-- TIME_STATUS (Table 02-7). -/
def State.timeStatus (s : State) : Nat :=
  let parent := if s.time.state == .synced then (s.time.parent.map (·.val)).getD 15 else 15
  packFields [(3, s.time.state.code), (1, 0), (4, parent), (1, flag s.time.stepRefused), (1, flag s.anyJob),
    (1, flag s.ppsActive), (1, flag s.time.alignUncertain), (4, 0), (16, s.odGet Od.timeEpoch)]

/-- Read a 4-byte register of the global page; a _LO register latches (R49). DEDUCED (log entry 162): TIME_NS_LO reads the
present value, also after a read of FRAME_EXT_LO. -/
def State.globalRead (s : State) (off : Nat) : Nat × State :=
  let lo (n : Nat) : Nat := n % 2 ^ 32
  let hi (n : Nat) : Nat := n / 2 ^ 32 % 2 ^ 32
  if off == 0x0 then (Od.deviceId.dflt, s)
  else if off == 0x4 then (hwRevision, s)
  else if off == 0x8 then (s.curator.stage.code, s)
  else if off == 0xC then (s.alarmSummary, s)
  else if off == 0x100 then (s.frameNo, s)
  else if off == 0x108 then (lo s.frame, s.setTime fun t => { t with
    latFrameExtHi := hi s.frame, latTimeNsLo := lo s.timeNs, latTimeNsHi := hi s.timeNs, latCycle := t.cycle })
  else if off == 0x10C then (s.time.latFrameExtHi, s)
  else if off == 0x110 then (lo s.timeNs, s.setTime fun t => { t with latTimeNsHi := hi s.timeNs, latCycle := t.cycle })
  else if off == 0x114 then (s.time.latTimeNsHi, s)
  else if off == 0x118 then (s.timeStatus, s)
  else if off == 0x11C then (s.time.latCycle, s)
  else (0, s)

/-- Write a 4-byte register of the global page: only W1C bits act (R59). -/
def State.globalWrite (s : State) (off v : Nat) : State :=
  if off == 0xC then s.setCarrier fun c => { c with
    alXlat := s.w1c .xlatTimeout c.alXlat v 2, alDegraded := s.w1c .d2dDegraded c.alDegraded v 3,
    alThermal := s.w1c .thermalCritical c.alThermal v 4 }
  else if off == 0x118 then s.setTime fun t => { t with stepRefused := s.w1c .stepRefused t.stepRefused v 8 }
  else s

/-! Queue-pair pages (Tables 04-2, 04-3) -/

/-- QP_STATUS (Table 04-3). -/
def QueuePair.status (p : QueuePair) : Nat :=
  let sent := flag p.writing
  let full := (p.cqTail + sent + 1) % 2 ^ p.cqLog2 == p.cqHead
  packFields [(1, 1), (1, flag (p.owner == .s)), (1, flag (1024 ≤ p.pendingCt)), (1, flag p.bellErr),
    (1, flag (full && decide (sent < p.entries.length))), (1, flag p.fetchErr)]

/-- Read a 4-byte register of a pair's page. -/
def QueuePair.readReg (p : QueuePair) (off : Nat) : Nat :=
  if off == 0x0 then p.sqTail
  else if off == 0x4 then p.sqHead
  else if off == 0x8 then p.cqHead
  else if off == 0xC then p.cqTail
  else if off == 0x10 then p.status
  else if off == 0x14 then p.pendingCt
  else 0

/-- Write a 4-byte register of a pair's page. -/
def State.pairWrite (s : State) (q off v : Nat) : State :=
  match s.qp? q with
  | none => s
  | some p =>
    if off == 0x0 then s.writeTail p v
    else if off == 0x8 then s.writeHead p v
    else if off == 0x10 then s.setQp q (fun p =>
      { p with bellErr := s.w1c (.doorbellErr q) p.bellErr v 3, fetchErr := s.w1c (.fetchErr q) p.fetchErr v 5 })
    else s

/-! Banks of the OD window (Tables 16-3, 16-4) -/

/-- OD_STATUS: no command is in progress between two commands of the model (log entry 89). -/
def OdBank.status (b : OdBank) : Nat :=
  packFields [(1, 0), (1, flag b.done), (1, flag b.error), (1, flag b.transfer.isSome), (1, flag b.snapshot.isSome),
    (1, flag b.ignored)]

/-- Read a register of a bank. -/
def OdBank.readReg (b : OdBank) (off size : Nat) : Nat :=
  if 0x1000 ≤ off && off < 0x2000 then
    leNat ((List.range size).map (fun i => (assoc b.data (off - 0x1000 + i)).getD 0))
  else if off == 0x0 then b.addr
  else if off == 0x8 then b.len
  else if off == 0xC then b.total
  else if off == 0x10 then b.offset
  else if off == 0x14 then b.status
  else if off == 0x18 then b.abort
  else if off == 0x1C then b.intr
  else 0

/-- Write a register of a bank; `keep` says what a write leaves of a bit of OD_STATUS. The command that a write of OD_CMD starts is a row of its own. -/
def OdBank.writeReg (b : OdBank) (off size v : Nat) (keep : Nat → Bool → Bool) : OdBank :=
  if 0x1000 ≤ off && off < 0x2000 then
    { b with data := (leBytes size v).zipIdx.foldl (fun d p => putData d (off - 0x1000 + p.2) p.1) b.data }
  else if off == 0x0 then { b with addr := v % 2 ^ 24 }
  else if off == 0x8 then { b with len := v }
  else if off == 0xC then { b with total := v }
  else if off == 0x10 then { b with offset := v }
  else if off == 0x14 then
    { b with done := keep 1 b.done, error := keep 2 b.error, ignored := keep 5 b.ignored }
  else if off == 0x1C then { b with intr := v % 512 }
  else b

/-- The bank of an offset. -/
def cwBank (off : Nat) : Host2 := if off < 0x18000 then .ns else .s

/-! Mailbox pages (Tables 14-7, 14-9) -/

/-- CH_STATUS. -/
def Mailbox.status (m : Mailbox) (ch : Channel) : Nat :=
  packFields [(1, 1), (1, flag (8 ≤ ch.val)), (1, flag m.h2eBusy), (1, flag m.e2hValid), (1, flag m.seqErr), (1, flag m.e2hTimeout)]

/-- Read a register of a channel. -/
def Mailbox.readReg (m : Mailbox) (ch : Channel) (off : Nat) : Nat :=
  let word (area : List (Nat × Byte)) (k : Nat) : Nat := leNat ((List.range 4).map (fun i => (assoc area (k + i)).getD 0))
  if off < 0x100 then word m.h2eMsg off
  else if off < 0x200 then word m.e2hMsg (off - 0x100)
  else if off == 0x200 then m.h2eBell.toNat
  else if off == 0x204 then packFields [(16, m.ackCode), (8, m.ackSeq), (7, 0), (1, flag m.ackDone)]
  else if off == 0x208 then m.e2hBell.toNat
  else if off == 0x20C then m.e2hMask.toNat
  else if off == 0x214 then m.status ch
  else if off == 0x218 then m.control
  else 0

/-- E2H_ACK (R381). -/
def Mailbox.takeAck (m : Mailbox) (v : Nat) : Mailbox :=
  if m.e2hValid then { m with e2hValid := false, e2hFrame := none, e2hCode := v % 65536 } else m

/-- Bells of E2H_DOORBELL set in the present DCLK cycle (R10). -/
def State.bellsNow (s : State) (ch : Channel) : BitVec 32 :=
  BitVec.ofNat 32 (sumOf ((List.range 32).map (fun n => if s.raised.contains (.e2hBell ch.val n) then 2 ^ n else 0)))

/-- Write a register of a channel. -/
def State.mboxWrite (s : State) (path : CwPath) (ch : Channel) (off v : Nat) : State :=
  let w : BitVec 32 := BitVec.ofNat 32 v
  if off < 0x100 then s.writeH2e ch path.agent.code off w
  else if off == 0x200 then s.wakeUp.ringH2e ch path.agent.code w false
  else if off == 0x204 then s.setMbox ch (fun m => { m with ackDone := s.w1c (.ackDone ch.val) m.ackDone v 31 })
  else if off == 0x208 then s.setMbox ch (fun m => { m with e2hBell := m.e2hBell &&& ~~~(w &&& ~~~s.bellsNow ch) })
  else if off == 0x20C then s.setMbox ch (fun m => { m with e2hMask := w })
  else if off == 0x210 then s.setMbox ch (fun m => m.takeAck v)
  else if off == 0x214 then s.setMbox ch (fun m =>
    { m with seqErr := s.w1c (.mboxSeqErr ch.val) m.seqErr v 4, e2hTimeout := s.w1c (.e2hTimeout ch.val) m.e2hTimeout v 5 })
  else if off == 0x218 then s.setMbox ch (fun m => { m with control := v % 512 })
  else s

/-! Agent pages (R346, R349) -/

/-- A sequence error on the half of a page that an offset lies in. -/
def State.pageSeqErr (s : State) (a : Agent) (off : Nat) : State := if off < 0x100 then s.cSeqErr a else s.dSeqErr a

/-- The next state that a command of a page answers. -/
def Out.nextOr (o : Out) (s : State) : State :=
  match o with
  | .next t => t
  | .fault _ => s
  | .refused _ => s

/-- A page register is accessed in the width that Table 13-5 gives it. -/
def pageSizeOk (off size : Nat) : Bool := size == (if pageWide off then 8 else 4) && off % size == 0

/-- Read a page: C_OUT gives its next bytes. -/
def State.cwPageRead (s : State) (a : Agent) (off size : Nat) : Nat × State :=
  if !pageSizeOk off size then (0, s.pageSeqErr a off)
  else if off == 0x58 then
    let p := s.cPage a
    if p.out.isEmpty then (0, s.cSeqErr a)
    else (leNat (p.out.take 8), s.setC a (fun p => { p with out := p.out.drop 8 }))
  else (s.pageRead a off, s)

/-- Write a page: the registers that start something act as their own rows do. -/
def State.cwPageWrite (s : State) (a : Agent) (off size v : Nat) : State :=
  let z : BitVec 8 := BitVec.ofNat 8 size
  let w : BitVec 64 := BitVec.ofNat 64 v
  if !pageSizeOk off size then s.pageSeqErr a off
  else if off == 0x10 then Out.nextOr (execCStart a z w s) s
  else if off == 0x40 then Out.nextOr (execCData a z w s) s
  else if off == 0x48 then Out.nextOr (execCLast a z w s) s
  else if off == 0x108 then Out.nextOr (execDStart a z w s) s
  else if off == 0x110 then Out.nextOr (execDData a z w s) s
  else if off == 0x118 then Out.nextOr (execDLast a z w s) s
  else if off == 0x1B8 then Out.nextOr (execDExport a z w s) s
  else if off == 0x1B0 then Out.nextOr (execDCompare a z (w.extractLsb' 0 32) (w.extractLsb' 32 32) s) s
  else if off == 0x1BC then Out.nextOr (execDImport a z (w.extractLsb' 0 32) (w.extractLsb' 32 32) true s) s
  else s.pageWrite a off v

/-! The sync window and its debug view (Tables 14-3, 14-5) -/

/-- Perform a host operation on a sync word. -/
def State.cwSync (s : State) (path : CwPath) (word : Nat) (op : SyncOp) : Nat × State :=
  let (code, s) := s.syncEffect (.agent path.agent) path.agent.code word op
  (code, s.wake word)

/-- Write the sync window (Table 14-3). -/
def State.cwSyncWrite (s : State) (path : CwPath) (off size v : Nat) : State :=
  let word := cwSyncWord off
  if size == 8 then (s.cwSync path word (.writeXf (BitVec.ofNat 64 v))).2
  else if off % 8 == 4 then s
  else if v == 1 then (s.cwSync path word .setEmpty).2
  else if v == 2 then (s.cwSync path word .setFull).2
  else if v == 3 then (s.cwSync path word .claim).2
  else if v == 4 then (s.cwSync path word .unclaim).2
  else s.bump Od.syncBadCmdCount

/-- The half of an 8-byte word that an access of 4 bytes reads. -/
def halfOf (off size v : Nat) : Nat := if size == 8 then v else if off % 8 == 4 then v / 2 ^ 32 else v % 2 ^ 32

/-- Read the sync window: data, or STATUS [63:32] in the upper half of a 4-byte read. -/
def State.cwSyncRead (s : State) (path : CwPath) (off size : Nat) : Nat × State :=
  if size == 4 && off % 8 == 4 then
    let (v, s) := s.cwSync path (cwSyncWord off) .status
    (v / 2 ^ 32, s)
  else
    let (v, s) := s.cwSync path (cwSyncWord off) .read
    (halfOf off size v, s)

/-! Accesses (R59) -/

/-- Two 4-byte registers in one 8-byte access, the lower first. -/
def readWide (size off : Nat) (read : State → Nat → Nat × State) (s : State) : Nat × State :=
  let (a, s) := read s off
  if size == 8 then
    let (b, s) := read s (off + 4)
    (a + 2 ^ 32 * b, s)
  else (a, s)

/-- Write two 4-byte registers in one 8-byte access, the lower first. -/
def writeWide (size off v : Nat) (write : State → Nat → Nat → State) (s : State) : State :=
  let s := write s off (v % 2 ^ 32)
  if size == 8 then write s (off + 4) (v / 2 ^ 32 % 2 ^ 32) else s

/-- Read the window at an offset that rights and alignment allow. -/
def State.windowRead (s : State) (path : CwPath) (off size : Nat) : Nat × State :=
  match cwRegion off with
  | .global => readWide size off (fun s o => s.globalRead o) s
  | .od => ((s.bank (cwBank off)).readReg (off % 0x8000) size, s)
  | .pairs => readWide size (off % 0x100) (fun s o => (((s.qp? (cwPair off)).map (fun p => p.readReg o)).getD 0, s)) s
  | .mailboxes => ((s.mboxes[cwChannel off]).readReg (cwChannel off) (off % 0x1000), s)
  | .pages => s.cwPageRead path.agent (off % 0x10000) size
  | .sync => s.cwSyncRead path off size
  | .view => (halfOf off size (s.viewWord (cwSyncWord off)), s)
  | .trace => (0, s)
  | .none => (0, s)

/-- Write the window at an offset that rights and alignment allow; `v` holds the bytes of the access. -/
def State.windowWrite (s : State) (path : CwPath) (off size v : Nat) : State :=
  match cwRegion off with
  | .global => writeWide size off v (fun s o v => s.globalWrite o v) s
  | .od => s.setBank (cwBank off) (fun b => b.writeReg (off % 0x8000) size v
      fun n old => s.w1c (.odStatus (cwBank off == .s) n) old v n)
  | .pairs => writeWide size (off % 0x100) v (fun s o v => s.pairWrite (cwPair off) o v) s
  | .mailboxes => s.mboxWrite path (cwChannel off) (off % 0x1000) v
  | .pages => s.cwPageWrite path.agent (off % 0x10000) size v
  | .sync => s.cwSyncWrite path off size v
  | .view => s
  | .trace => s
  | .none => s

/-- The sideband serves reads of offsets 0x0000 to 0x00FF of the global page until the mainband has trained (R54). -/
def State.sideband (s : State) (path : CwPath) (off : Nat) : Bool :=
  path != .debug && s.curator.powerGood && s.curator.stage != .none && !s.carrier.mainband && decide (off < 0x100)

/-- CW_RD (R59). -/
def execCwRd (path : CwPath) (offset : BitVec 24) (size : BitVec 8) (tag : BitVec 16) (s : State) : Out :=
  .next <|
    let off := offset.toNat
    let n := size.toNat
    if !s.cwOpen path && !s.sideband path off then s
    else if s.cwDenied path off false then s.denyCw path (some tag.toNat)
    else if cwMisaligned off n then s.send (.cwCpl path (some tag.toNat) 0x11 0)
    else
      let (v, s) := s.windowRead path off n
      s.send (.cwCpl path (some tag.toNat) 0 v)

/-- REGISTER_WRITE (R59): CW_WR. -/
def execRegisterWrite (path : CwPath) (offset : BitVec 24) (size : BitVec 8) (tag : BitVec 16) (data : BitVec 64) (s : State) :
    Out :=
  .next <|
    let off := offset.toNat
    let n := size.toNat
    if !s.cwOpen path then s
    else if s.cwDenied path off true then s.denyCw path (some tag.toNat)
    else if cwMisaligned off n then s.send (.cwCpl path (some tag.toNat) 0x11 0)
    else (s.windowWrite path off n (data.toNat % 2 ^ (8 * n))).send (.cwCpl path (some tag.toNat) 0 0)

end Sys2Proof.Machine
end

