-- ==== Sys2Proof/Machine/Frame.lean ====
section
/-!
DEFINITION. FRAME_BOUNDARY (R23): what the frame tick closes, and what it opens.
-/
namespace Sys2Proof.Machine

/-! Self-tests (R103, R104) -/

/-- A lane task of one of these types holds a slice for the frame. -/
def State.sliced (s : State) (f : Task → Bool) : Bool := s.sched.tasks.any (fun t => t.slice.isSome && f t)

/-- Work of ranks 3, 6 and 7 on Leaves and objects: restores, serving and EGRESS. -/
def State.moving (s : State) : Bool :=
  !s.vault.restores.isEmpty || !s.vault.serves.isEmpty || !s.vault.egress.isEmpty || !s.vault.quarantine.isEmpty

/-- The unit that a step of an item holds has no grant of ranks 1 to 7 in the frame (R103). Steps on spare parts run beside
such work. -/
def State.unitFree (s : State) (item : Nat) : Bool :=
  match item with
  | 1 => !s.sliced (fun t => t.type != 0x12)
  | 2 => !s.sliced (fun t => s.macs t != 0)
  | 3 => s.madder.enc.isEmpty && !s.moving
  | 4 => !s.moving && s.vault.reqs.isEmpty && s.colls.open_.isEmpty && s.welds.toList.all (fun w => w.outRecords.isEmpty && w.unacked.isEmpty)
  | 5 => !s.sliced (fun _ => true) && !s.moving
  | 7 => !s.sliced (fun _ => true) && !s.moving
  | 8 => !s.sliced (fun _ => true) && !s.moving
  | _ => true

/-- RESULT of a SELFTEST: items run, items failed, frames from start to end (R104). -/
def State.testResult (s : State) (r : SelfTest) : Nat := r.ran + r.failed * 2 ^ 16 + (s.frame - r.start) % 2 ^ 32 * 2 ^ 32

/-- A SELFTEST ends: SELFTEST_FAIL names its first failing item and the part, a cancelled one ends CANCELLED (R104,
Table 04-11). -/
def State.endTest (s : State) (r : SelfTest) : State :=
  let v := s.testResult r
  let s := (s.odSetP Od.selftestLastResult v).setSched fun c => { c with selftest := none }
  match s.task? r.task with
  | none => s
  | some t =>
    if t.phase == .stopping then (s.bump Od.cancelCount).complete t 0x0005 (s.cancelDetail t) 0 v
    else match r.first with
      | some (item, index) => s.complete t 0x0048 item index v
      | none => s.complete t 0 0 0 v

/-- The test's task is gone, or is cancelled while no item is under way. -/
def State.testOver (s : State) (r : SelfTest) : Bool :=
  match s.task? r.task with
  | none => true
  | some t => t.phase == .stopping && r.steps == s.itemSteps (r.items.headD 1)

/-- SELFTEST_FAIL (R104): the failing part of the running step is counted, scored and retired onto a spare. -/
def State.failStep (s : State) (r : SelfTest) (item : Nat) (fail : Option (BitVec 16 × BitVec 15)) : State × SelfTest :=
  match fail with
  | none => (s, r)
  | some (part, row) =>
    let again := r.failed / 2 ^ (item - 1) % 2 == 1
    let bit := if again then 0 else 2 ^ (item - 1)
    ((if again then s else s.bump Od.selftestFailCount).retireTested part.toNat row.toNat,
     { r with failed := r.failed + bit, first := r.first.or (some (item, part.toNat % 4096)) })

/-- The end of the frame in which a step ran (R103): the next step, the next item, or the end of the test. -/
def State.closeTest (s : State) (fail : Option (BitVec 16 × BitVec 15)) : State :=
  match s.sched.selftest with
  | none => s
  | some r =>
    match r.items, r.running with
    | item :: rest, true =>
      let (s, r) := s.failStep r item fail
      let r := { r with running := false }
      let r := if r.steps ≤ 1 || (item == 8 && s.testRows == 0) then
          { r with items := rest, ran := r.ran + 2 ^ (item - 1), steps := s.itemSteps (rest.headD 1) }
        else { r with steps := if item == 8 then min (r.steps - 1) (ceilDiv s.testRows 4096) else r.steps - 1 }
      if r.items.isEmpty || s.testOver r then s.endTest r else s.setSched fun c => { c with selftest := some r }
    | [], _ => s.endTest r
    | _, false => if s.testOver r then s.endTest r else s

/-- SELFTEST_STEP (R103): a step starts when its unit is free for the frame. -/
def State.openTest (s : State) : State :=
  match s.sched.selftest with
  | none => s
  | some r => s.setSched fun c => { c with selftest := some { r with running := s.unitFree (r.items.headD 0) } }

/-! Transmission (R312, R315) -/

/-- A receiving block withholds the credits of a VC for want of room: the collective buffer VC1 (R281), the partner part of
LEDGER VC2 (R214), QUARANTINE VC3 and VC4 (R190). -/
def State.withheld (s : State) (vc : Nat) : Bool :=
  match vc with
  | 1 => s.colls.rxWait
  | 2 => s.partnerFree == 0
  | 3 | 4 => s.quarantineFree == 0
  | _ => false

/-- Return the credits owed on a VC, unless its block withholds them (R312). -/
def State.returnCredit (s : State) (p : Port) (vc : Nat) : State :=
  let n := (s.port p).owed.toList.getD vc 0
  if n == 0 || s.withheld vc then s
  else (s.setPort p (fun x => { x with owed := vmod x.owed vc (fun _ => 0) })).send (.credit p.val vc n)

/-- The frame's last flit slots of a port are used, the credits owed go out with its flits, and a frame in which a VC had a
message ready and no credit is counted (R312, R315). -/
def State.closePort (s : State) (p : Port) : State :=
  let s := s.transmitPort p 160000
  let x := s.port p
  let s := s.setPort p (fun x => { x with used := 0, stalled := false })
  let s := if x.stalled then s.total (Od.creditStallFrames p.val) 1 else s
  if x.state == .up && s.opticsOn then (List.range 6).foldl (fun s vc => s.returnCredit p vc) s else s

/-- The frame ends on every port. -/
def State.transmit (s : State) : State := (List.finRange 4).foldl State.closePort s

/-! Idle frames (R101) -/

/-- An admitted task is incomplete, a SELFTEST runs, or a mailbox doorbell is pending. -/
def State.busyNow (s : State) : Bool :=
  !s.sched.tasks.isEmpty || s.sched.selftest.isSome || s.mboxes.toList.any (fun m => m.h2eBell != 0)

/-- Idle frames in a row in the present state: the frame is idle when nothing of R101 held at any time in it. -/
def State.countIdle (s : State) : State :=
  s.setSched fun c =>
    { c with active := s.busyNow, idleFrames := if c.active || s.busyNow || c.exiting then 0 else c.idleFrames + 1 }

/-! Pins and load (R444, R447) -/

/-- A frame that matched and passed without a failure counts for its pin (R447). -/
def State.countPins (s : State) : State :=
  s.setService fun v => { v with
    pins := v.pins.map (fun (p : Pin) => if s.pinMatches p.part then { p with clean := p.clean + 1 } else p) }

/-- Load class of the frame from the planner's grants (R444). -/
def State.loadClass (s : State) : Nat :=
  if !s.vault.restores.isEmpty || !s.vault.serves.isEmpty then 3
  else if s.sliced (fun t => s.ledgerStage t != 0 || s.vault.taps.any (fun x => x.rider == some t.id)) then 2
  else if s.sliced (fun _ => true) then 1 else 0

/-- PIN_CHECK (R447): the checks of Table 17-6 that begin at a boundary. -/
def State.checkPins (s : State) (bad : List (BitVec 16)) : State :=
  let s := s.startAllPins
  let s := s.service.pins.foldl (fun (s : State) p =>
    if p.part / 4096 == 7 && s.pinMatches p.part then s.pinCore (p.part % 4096) bad else s) s
  if s.odGet Od.shadowCoverage == s.shadowCoverage then s else s.odSet Od.shadowCoverage s.shadowCoverage

/-! Time (R23 to R25, R44) -/

/-- The frequency moves by at most 1 ppm per second, within SLEW_LIMIT_PPB, towards the one that works the remaining
correction off, whose size no rule gives; a frame at it takes its part off the correction (R25, log entry 91). -/
def State.slewFrame (s : State) : State :=
  let limit : Int := 10 * s.cfg Od.slewLimitPpb
  let size : Int := min limit (10 * Config.slewPpb s.time.slewPs s.frame)
  let want : Int := if s.time.slewPs == 0 then 0 else if s.time.slewPs < 0 then -size else size
  let rate : Int := max (s.time.slewRate - 1) (min (s.time.slewRate + 1) want)
  let rate : Int := max (-limit) (min limit rate)
  s.setTime fun t => { t with slewRate := rate, slewPs := if t.slewPs == 0 then 0 else t.slewPs - rate / 100 }

/-- The time passes to cycle 0 of the next frame (R23, R24). -/
def State.openFrame (s : State) : State :=
  State.newCycle (s.setTime fun t => { t with frameExt := t.frameExt + 1, cycle := 0, ppsLeft := t.ppsLeft - 1 })

/-- TICK (R56) and TICK_OUT (R44) of the frame opened. -/
def State.tick (s : State) : State :=
  let s := if s.carrier.mainband then s.send (.d2d 0x08 false 0 s.frame 0 0 []) else s
  if s.cfg Od.tickOutEnable == 1 then s.setTime fun t => { t with tickOut := some s.frame } else s

/-! The boundary -/

/-- Work of each job at a boundary: `closing` at the tick that ends a frame, else under the grants of the frame opened. -/
def State.jobsBoundary (s : State) (closing : Bool) : State :=
  (List.finRange 4).foldl (fun (s : State) j =>
    let s := (s.pumpRecords j).moveRecords j
    let s := (s.tapCopies j (s.job j).c).finishCopyReads j
    let s := (s.pumpCopies j).sendAsks j
    if closing then s.ackFrame j else s.startCopyReads j) s

/-- Restores, Catalogues, collectives and groups go on. -/
def State.pumpAll (s : State) : State :=
  let s := (s.vault.restores.map (·.task)).foldl (fun s t => s.pumpVault t 8) s
  s.pumpFetches.pumpColls.pumpGroups.settleVault.drain

/-- Credits of VC1 withheld for want of buffer in the frame are counted (R281). -/
def State.closeRx (s : State) : State :=
  if s.colls.rxWait then (s.total Od.rxBufferWaitFrames 1).setColls fun c => { c with rxWait := false } else s

/-- The frame that ends (R26 to R31, R104, R128, R207, R312, R315, R358, R447). -/
def State.closeFrame (s : State) (obs : FrameObs) : State :=
  let spares := s.encSpares
  let s := ((s.total Od.starvedCycles obs.starved.toNat).total Od.d2dAdapterRetryCount obs.adapterRetries.toNat).total
    Od.datapathCeCount obs.corrected.toNat
  let s := (s.closeSlices.closeTest obs.selftestFail).alarmTasks
  let s := ((s.jobsBoundary true).captureBoundary).pumpAll
  let s := s.transmit.closeRx.galleryBoundary.madderBoundary spares
  let s := (s.takeBells obs.bellsTaken).snapshotCores obs.lateDrain
  s.countPins.countIdle.pairsBoundary

/-- The grant that holds in the frame opened (R68). -/
def State.newGrant (s : State) : State :=
  match s.carrier.grantNext with
  | some g => s.setCarrier fun c => { c with grantPct := g, grantNext := none }
  | none => s

/-- SHADOW_ROTATE (R129, R157): the roles move to the next healthy spare, or to the lowest when the spares are not those that
`was` had before the boundary. -/
def State.rotate (s was : State) : State :=
  let s := s.setUpdate fun u =>
    { u with shadowAt := if s.laneSpares == was.laneSpares then nextRole s.laneSpares.length u.shadowAt else 0 }
  s.setWoad fun w =>
    { w with shadowAt := if s.colSpares == was.colSpares then nextRole s.colSpares.length w.shadowAt else 0 }

/-- The frame that begins (R15, R16, R68, R70, R103, R129, R176, R414, R444, R447). -/
def State.beginFrame (s was : State) (obs : FrameObs) : State :=
  let s := ((s.setService fun v => { v with bands := obs.bands }).newGrant.rotate was).swapGens
  let s := s.setCarrier fun c => { c with laneRepairs := c.laneRepairs.filter (fun x => s.frame ≤ x.2 + 3) }
  let s := s.applyExtents.restartIo.planFrame.startHeldWrites.tick
  let s := (s.jobsBoundary false).pumpAll
  let s := (s.setService fun v => { v with load := s.loadClass }).openTest.checkPins obs.pinFail
  (s.odSet Od.powerLentMw s.powerLent).observeSync

/-- FRAME_BOUNDARY (R23). The always-on part counts time in every stage; the rest needs the main domain (R100, Table 15-4). -/
def execFrameBoundary (obs : FrameObs) (s : State) : Out :=
  .next <|
    if s.curator.stage == .none then s
    else
      let was := s
      let s := if s.mainUp then s.closeFrame obs else s
      let s := s.slewFrame.writeScores.openFrame.resumeCurator.writeEffects
      let s := if s.mainUp then s.beginFrame was obs else s
      s.beatBarrier.drainField

end Sys2Proof.Machine
end

