-- ==== Sys2Proof/Machine/Dispatch.lean ====
section
/-!
DEFINITION. One arm per command: each calls its own meaning.
-/
namespace Sys2Proof.Machine

/-- The effect of a command on everything but the queue of commands that wait. -/
def exec (i : Instr) (s : State) : Host.Outcome State Fault Refusal :=
    match i with
    | .frameBoundary obs => Sys2Proof.Machine.execFrameBoundary obs s
    | .faultBudgetOverrun part index => Sys2Proof.Machine.execFaultBudgetOverrun part index s
    | .holdoverAlignExpiry => Sys2Proof.Machine.execHoldoverAlignExpiry s
    | .trimRefine => Sys2Proof.Machine.execTrimRefine s
    | .pps => Sys2Proof.Machine.execPps s
    | .frameExtLoRead path wide => Sys2Proof.Machine.execFrameExtLoRead path wide s
    | .timeNsLoRead path wide => Sys2Proof.Machine.execTimeNsLoRead path wide s
    | .sync port h => Sys2Proof.Machine.execSync port h s
    | .followUp port h origin => Sys2Proof.Machine.execFollowUp port h origin s
    | .announce port h body => Sys2Proof.Machine.execAnnounce port h body s
    | .pdelayReq port h => Sys2Proof.Machine.execPdelayReq port h s
    | .pdelayResp port h receipt => Sys2Proof.Machine.execPdelayResp port h receipt s
    | .pdelayRespFollowUp port h origin => Sys2Proof.Machine.execPdelayRespFollowUp port h origin s
    | .signaling port h => Sys2Proof.Machine.execSignaling port h s
    | .syncInterval port => Sys2Proof.Machine.execSyncInterval port s
    | .announceInterval port => Sys2Proof.Machine.execAnnounceInterval port s
    | .pdelayInterval port => Sys2Proof.Machine.execPdelayInterval port s
    | .announceTimeout => Sys2Proof.Machine.execAnnounceTimeout s
    | .mrdCpl hdr payload => Sys2Proof.Machine.execMrdCpl hdr payload s
    | .mwrCpl hdr payload => Sys2Proof.Machine.execMwrCpl hdr payload s
    | .d2dNop hdr payload => Sys2Proof.Machine.execD2dNop hdr payload s
    | .timeReq hdr payload => Sys2Proof.Machine.execTimeReq hdr payload s
    | .therm hdr payload => Sys2Proof.Machine.execTherm hdr payload s
    | .grant hdr payload => Sys2Proof.Machine.execGrant hdr payload s
    | .d2dCplTimeout tag => Sys2Proof.Machine.execD2dCplTimeout tag s
    | .xlatWaitLimit holding extent => Sys2Proof.Machine.execXlatWaitLimit holding extent s
    | .thermStale stack => Sys2Proof.Machine.execThermStale stack s
    | .d2dLaneFail module retire => Sys2Proof.Machine.execD2dLaneFail module retire s
    | .mainbandTrained => Sys2Proof.Machine.execMainbandTrained s
    | .extentUpdate agent value => Sys2Proof.Machine.execExtentUpdate agent value s
    | .registerWrite path offset size tag data => Sys2Proof.Machine.execRegisterWrite path offset size tag data s
    | .sqTail path q value => Sys2Proof.Machine.execSqTail path q value s
    | .cqHead path q value => Sys2Proof.Machine.execCqHead path q value s
    | .qpCreate agent value => Sys2Proof.Machine.execQpCreate agent value s
    | .qpDestroy agent q => Sys2Proof.Machine.execQpDestroy agent q s
    | .qpRemove q => Sys2Proof.Machine.execQpRemove q s
    | .taskAdmit => Sys2Proof.Machine.execTaskAdmit s
    | .nop task => Sys2Proof.Machine.execNop task s
    | .jobOpen task => Sys2Proof.Machine.execJobOpen task s
    | .jobClose task => Sys2Proof.Machine.execJobClose task s
    | .registerHolding task => Sys2Proof.Machine.execRegisterHolding task s
    | .releaseHolding task => Sys2Proof.Machine.execReleaseHolding task s
    | .cancel task => Sys2Proof.Machine.execCancel task s
    | .selftest task => Sys2Proof.Machine.execSelftest task s
    | .stepMark task => Sys2Proof.Machine.execStepMark task s
    | .update task => Sys2Proof.Machine.execUpdate task s
    | .woadCompress task => Sys2Proof.Machine.execWoadCompress task s
    | .ledgerSend task => Sys2Proof.Machine.execLedgerSend task s
    | .verdict task => Sys2Proof.Machine.execVerdict task s
    | .captureBand task => Sys2Proof.Machine.execCaptureBand task s
    | .mirrorApply task => Sys2Proof.Machine.execMirrorApply task s
    | .restoreVault task => Sys2Proof.Machine.execRestoreVault task s
    | .restoreMirror task => Sys2Proof.Machine.execRestoreMirror task s
    | .spareShadow task => Sys2Proof.Machine.execSpareShadow task s
    | .sparePromote task => Sys2Proof.Machine.execSparePromote task s
    | .shadowSource task => Sys2Proof.Machine.execShadowSource task s
    | .accOpen task => Sys2Proof.Machine.execAccOpen task s
    | .accSeal task => Sys2Proof.Machine.execAccSeal task s
    | .deaccession task => Sys2Proof.Machine.execDeaccession task s
    | .catalogueFetch task => Sys2Proof.Machine.execCatalogueFetch task s
    | .weldPair task => Sys2Proof.Machine.execWeldPair task s
    | .weldBind task => Sys2Proof.Machine.execWeldBind task s
    | .weldUnpair task => Sys2Proof.Machine.execWeldUnpair task s
    | .weldResync task => Sys2Proof.Machine.execWeldResync task s
    | .weldRollback task => Sys2Proof.Machine.execWeldRollback task s
    | .groupJoin task => Sys2Proof.Machine.execGroupJoin task s
    | .groupReform task => Sys2Proof.Machine.execGroupReform task s
    | .groupLeave task => Sys2Proof.Machine.execGroupLeave task s
    | .reduce task => Sys2Proof.Machine.execReduce task s
    | .broadcast task => Sys2Proof.Machine.execBroadcast task s
    | .allreduce task => Sys2Proof.Machine.execAllreduce task s
    | .keyDerive task => Sys2Proof.Machine.execKeyDerive task s
    | .keyUnwrap task intact => Sys2Proof.Machine.execKeyUnwrap task intact s
    | .keyErase task => Sys2Proof.Machine.execKeyErase task s
    | .keyRollover task => Sys2Proof.Machine.execKeyRollover task s
    | .keyRolloverSwitch intact => Sys2Proof.Machine.execKeyRolloverSwitch intact s
    | .idleFrameLimit => Sys2Proof.Machine.execIdleFrameLimit s
    | .wakeEvent cause => Sys2Proof.Machine.execWakeEvent cause s
    | .powerExitDone => Sys2Proof.Machine.execPowerExitDone s
    | .powerStateLimit agent value => Sys2Proof.Machine.execPowerStateLimit agent value s
    | .fetchGroupStart task => Sys2Proof.Machine.execFetchGroupStart task s
    | .laneGroupIssue task => Sys2Proof.Machine.execLaneGroupIssue task s
    | .runIn => Sys2Proof.Machine.execRunIn s
    | .shadowMismatch task logical second => Sys2Proof.Machine.execShadowMismatch task logical second s
    | .laneRepair activeFails shadowFails => Sys2Proof.Machine.execLaneRepair activeFails shadowFails s
    | .kernelImageSwitch => Sys2Proof.Machine.execKernelImageSwitch s
    | .factorCacheUe job set => Sys2Proof.Machine.execFactorCacheUe job set s
    | .arrayCheckFail residue => Sys2Proof.Machine.execArrayCheckFail residue s
    | .arrayRepair badRows badCols => Sys2Proof.Machine.execArrayRepair badRows badCols s
    | .encodeBlock leaf lane obs => Sys2Proof.Machine.execEncodeBlock leaf lane obs s
    | .decodeLeaf leaf lane laneError => Sys2Proof.Machine.execDecodeLeaf leaf lane laneError s
    | .coderLaneTest fails => Sys2Proof.Machine.execCoderLaneTest fails s
    | .madderGenLoad agent image => Sys2Proof.Machine.execMadderGenLoad agent image s
    | .madderGenRecall agent image => Sys2Proof.Machine.execMadderGenRecall agent image s
    | .genSwap => Sys2Proof.Machine.execGenSwap s
    | .hist agent => Sys2Proof.Machine.execHist agent s
    | .galleryUe addr reads victim => Sys2Proof.Machine.execGalleryUe addr reads victim s
    | .rowRemap die readback region contents => Sys2Proof.Machine.execRowRemap die readback region contents s
    | .scrubRow corrected bad => Sys2Proof.Machine.execScrubRow corrected bad s
    | .pairOffer hdr fields auth => Sys2Proof.Machine.execPairOffer hdr fields auth s
    | .pairAccept hdr fields auth => Sys2Proof.Machine.execPairAccept hdr fields auth s
    | .pairConfirm hdr => Sys2Proof.Machine.execPairConfirm hdr s
    | .pairRefuse hdr => Sys2Proof.Machine.execPairRefuse hdr s
    | .pairClose hdr => Sys2Proof.Machine.execPairClose hdr s
    | .pairOfferRepeat job => Sys2Proof.Machine.execPairOfferRepeat job s
    | .pairTimeout job => Sys2Proof.Machine.execPairTimeout job s
    | .autoPair job => Sys2Proof.Machine.execAutoPair job s
    | .recordOpen hdr rec entries tagOk => Sys2Proof.Machine.execRecordOpen hdr rec entries tagOk s
    | .recordData hdr payload tagOk => Sys2Proof.Machine.execRecordData hdr payload tagOk s
    | .recordTrailer hdr digests tagOk => Sys2Proof.Machine.execRecordTrailer hdr digests tagOk s
    | .ledgerAck hdr tagOk => Sys2Proof.Machine.execLedgerAck hdr tagOk s
    | .ledgerNak hdr tagOk => Sys2Proof.Machine.execLedgerNak hdr tagOk s
    | .mirrorConfirm hdr spans tagOk => Sys2Proof.Machine.execMirrorConfirm hdr spans tagOk s
    | .copyRequest hdr spans tagOk => Sys2Proof.Machine.execCopyRequest hdr spans tagOk s
    | .copyLeaf hdr payload tagOk => Sys2Proof.Machine.execCopyLeaf hdr payload tagOk s
    | .rollbackRequest hdr spans tagOk => Sys2Proof.Machine.execRollbackRequest hdr spans tagOk s
    | .weldAck hdr tagOk => Sys2Proof.Machine.execWeldAck hdr tagOk s
    | .weldHeartbeat job => Sys2Proof.Machine.execWeldHeartbeat job s
    | .partnerLost job => Sys2Proof.Machine.execPartnerLost job s
    | .mirrorDigestCompare job step => Sys2Proof.Machine.execMirrorDigestCompare job step s
    | .copyModeApply job step => Sys2Proof.Machine.execCopyModeApply job step s
    | .putAck hdr name tagOk => Sys2Proof.Machine.execPutAck hdr name tagOk s
    | .putNak hdr name tagOk => Sys2Proof.Machine.execPutNak hdr name tagOk s
    | .getData hdr stored plain tagOk objectTagOk => Sys2Proof.Machine.execGetData hdr stored plain tagOk objectTagOk s
    | .getNak hdr name tagOk => Sys2Proof.Machine.execGetNak hdr name tagOk s
    | .deleteAck hdr name tagOk => Sys2Proof.Machine.execDeleteAck hdr name tagOk s
    | .commitAck hdr name tagOk => Sys2Proof.Machine.execCommitAck hdr name tagOk s
    | .vaultReplyTimeout reqId => Sys2Proof.Machine.execVaultReplyTimeout reqId s
    | .restoreReq hdr requests tagOk => Sys2Proof.Machine.execRestoreReq hdr requests tagOk s
    | .restoreServe request => Sys2Proof.Machine.execRestoreServe request s
    | .restoreLeaf hdr digest coded tagOk => Sys2Proof.Machine.execRestoreLeaf hdr digest coded tagOk s
    | .restoreMissing hdr tagOk => Sys2Proof.Machine.execRestoreMissing hdr tagOk s
    | .restoreDone hdr sent missing tagOk => Sys2Proof.Machine.execRestoreDone hdr sent missing tagOk s
    | .restoreReplyTimeout task => Sys2Proof.Machine.execRestoreReplyTimeout task s
    | .rollForward task => Sys2Proof.Machine.execRollForward task s
    | .fingerprintContribute task => Sys2Proof.Machine.execFingerprintContribute task s
    | .collData hdr payload tagOk obs => Sys2Proof.Machine.execCollData hdr payload tagOk obs s
    | .collAbort hdr tagOk => Sys2Proof.Machine.execCollAbort hdr tagOk s
    | .collGrace hdr tagOk => Sys2Proof.Machine.execCollGrace hdr tagOk s
    | .collResult hdr payload tagOk => Sys2Proof.Machine.execCollResult hdr payload tagOk s
    | .fused hdr parts exact tagOk => Sys2Proof.Machine.execFused hdr parts exact tagOk s
    | .swResult hdr payload tagOk => Sys2Proof.Machine.execSwResult hdr payload tagOk s
    | .swRefuse hdr tagOk => Sys2Proof.Machine.execSwRefuse hdr tagOk s
    | .switchWait group seq => Sys2Proof.Machine.execSwitchWait group seq s
    | .collDeadline group seq => Sys2Proof.Machine.execCollDeadline group seq s
    | .collCommit group seq => Sys2Proof.Machine.execCollCommit group seq s
    | .heldVerdictApply job => Sys2Proof.Machine.execHeldVerdictApply job s
    | .linkEnable agent value => Sys2Proof.Machine.execLinkEnable agent value s
    | .signalDetect port lanes => Sys2Proof.Machine.execSignalDetect port lanes s
    | .trainingComplete port partner lanes bias => Sys2Proof.Machine.execTrainingComplete port partner lanes bias s
    | .trainingTimeout port => Sys2Proof.Machine.execTrainingTimeout port s
    | .linkFault port cause lane => Sys2Proof.Machine.execLinkFault port cause lane s
    | .fastRetrainDone port badTx badRx => Sys2Proof.Machine.execFastRetrainDone port badTx badRx s
    | .fastRetrainTimeout port => Sys2Proof.Machine.execFastRetrainTimeout port s
    | .init port version engine credits => Sys2Proof.Machine.execInit port version engine credits s
    | .resume port seq credits => Sys2Proof.Machine.execResume port seq credits s
    | .retryReq port seq => Sys2Proof.Machine.execRetryReq port seq s
    | .retryReqRepeat port => Sys2Proof.Machine.execRetryReqRepeat port s
    | .swapReq port number lane => Sys2Proof.Machine.execSwapReq port number lane s
    | .swapAck port number point => Sys2Proof.Machine.execSwapAck port number point s
    | .swapReqRepeat port => Sys2Proof.Machine.execSwapReqRepeat port s
    | .laneSwapPoint port dir => Sys2Proof.Machine.execLaneSwapPoint port dir s
    | .laneCeWindow port symbols => Sys2Proof.Machine.execLaneCeWindow port symbols s
    | .plannedRetrain port reason frameNo => Sys2Proof.Machine.execPlannedRetrain port reason frameNo s
    | .plannedRetrainStart port => Sys2Proof.Machine.execPlannedRetrainStart port s
    | .laserFail port => Sys2Proof.Machine.execLaserFail port s
    | .laserBiasLimit port bias => Sys2Proof.Machine.execLaserBiasLimit port bias s
    | .dataFlit port hdr payload crcOk fecOk => Sys2Proof.Machine.execDataFlit port hdr payload crcOk fecOk s
    | .idleFlit port hdr crcOk fecOk => Sys2Proof.Machine.execIdleFlit port hdr crcOk fecOk s
    | .destUnreach port engines => Sys2Proof.Machine.execDestUnreach port engines s
    | .unreachHoldExpiry port engine => Sys2Proof.Machine.execUnreachHoldExpiry port engine s
    | .bindingIdle engine vc => Sys2Proof.Machine.execBindingIdle engine vc s
    | .recalibratePort agent value => Sys2Proof.Machine.execRecalibratePort agent value s
    | .laneMapReset agent port value => Sys2Proof.Machine.execLaneMapReset agent port value s
    | .cipherMismatch pair => Sys2Proof.Machine.execCipherMismatch pair s
    | .cipherRepair firstFails secondFails again => Sys2Proof.Machine.execCipherRepair firstFails secondFails again s
    | .entropyTestFail => Sys2Proof.Machine.execEntropyTestFail s
    | .entropyRetest passes => Sys2Proof.Machine.execEntropyRetest passes s
    | .usageLoadSwitch slot => Sys2Proof.Machine.execUsageLoadSwitch slot s
    | .glitchTrip source => Sys2Proof.Machine.execGlitchTrip source s
    | .alarmClear agent value sourceActive => Sys2Proof.Machine.execAlarmClear agent value sourceActive s
    | .fieldAuthLoad agent value authenticated intact => Sys2Proof.Machine.execFieldAuthLoad agent value authenticated intact s
    | .wrapLoad agent value intact => Sys2Proof.Machine.execWrapLoad agent value intact s
    | .cStart agent size value => Sys2Proof.Machine.execCStart agent size value s
    | .cData agent size value => Sys2Proof.Machine.execCData agent size value s
    | .cLast agent size value => Sys2Proof.Machine.execCLast agent size value s
    | .cOut agent size => Sys2Proof.Machine.execCOut agent size s
    | .cipherMessageDone agent agree => Sys2Proof.Machine.execCipherMessageDone agent agree s
    | .dStart agent size value => Sys2Proof.Machine.execDStart agent size value s
    | .dData agent size value => Sys2Proof.Machine.execDData agent size value s
    | .dLast agent size value => Sys2Proof.Machine.execDLast agent size value s
    | .digestDone agent => Sys2Proof.Machine.execDigestDone agent s
    | .dCompare agent size low high => Sys2Proof.Machine.execDCompare agent size low high s
    | .dExport agent size value => Sys2Proof.Machine.execDExport agent size value s
    | .dImport agent size low high intact => Sys2Proof.Machine.execDImport agent size low high intact s
    | .pageSuspend agent digest => Sys2Proof.Machine.execPageSuspend agent digest s
    | .snapshotDeadline core => Sys2Proof.Machine.execSnapshotDeadline core s
    | .docentCoreFault core => Sys2Proof.Machine.execDocentCoreFault core s
    | .docentRepair core fails lightest => Sys2Proof.Machine.execDocentRepair core fails lightest s
    | .syncRead who word wide => Sys2Proof.Machine.execSyncRead who word wide s
    | .syncWrite t word data => Sys2Proof.Machine.execSyncWrite t word data s
    | .readFf t word => Sys2Proof.Machine.execReadFf t word s
    | .readFe t word => Sys2Proof.Machine.execReadFe t word s
    | .writeEf t word data => Sys2Proof.Machine.execWriteEf t word data s
    | .writeXf who word data => Sys2Proof.Machine.execWriteXf who word data s
    | .setEmpty who word => Sys2Proof.Machine.execSetEmpty who word s
    | .setFull who word => Sys2Proof.Machine.execSetFull who word s
    | .fetchAdd t word k => Sys2Proof.Machine.execFetchAdd t word k s
    | .cas t word a b => Sys2Proof.Machine.execCas t word a b s
    | .tallyAdd t word k => Sys2Proof.Machine.execTallyAdd t word k s
    | .tallySub t word k => Sys2Proof.Machine.execTallySub t word k s
    | .syncStatus who word => Sys2Proof.Machine.execSyncStatus who word s
    | .claim who word => Sys2Proof.Machine.execClaim who word s
    | .unclaim who word => Sys2Proof.Machine.execUnclaim who word s
    | .waitCancel t => Sys2Proof.Machine.execWaitCancel t s
    | .syncBadCmd path word value => Sys2Proof.Machine.execSyncBadCmd path word value s
    | .syncWordUe word => Sys2Proof.Machine.execSyncWordUe word s
    | .syncOwnerReset agent value => Sys2Proof.Machine.execSyncOwnerReset agent value s
    | .deadlockScan idle => Sys2Proof.Machine.execDeadlockScan idle s
    | .coreGate core idle highRank => Sys2Proof.Machine.execCoreGate core idle highRank s
    | .h2eDoorbell path ch size value corrupt => Sys2Proof.Machine.execH2eDoorbell path ch size value corrupt s
    | .h2eMsg path ch offset size value => Sys2Proof.Machine.execH2eMsg path ch offset size value s
    | .mboxAck ch seq code => Sys2Proof.Machine.execMboxAck ch seq code s
    | .e2hSend ch msg bits => Sys2Proof.Machine.execE2hSend ch msg bits s
    | .e2hAck path ch size value => Sys2Proof.Machine.execE2hAck path ch size value s
    | .mboxTimeout ch e2h => Sys2Proof.Machine.execMboxTimeout ch e2h s
    | .stageA obs => Sys2Proof.Machine.execStageA obs s
    | .mainPowerGood => Sys2Proof.Machine.execMainPowerGood s
    | .stageB obs => Sys2Proof.Machine.execStageB obs s
    | .stageC => Sys2Proof.Machine.execStageC s
    | .stageCDeadline => Sys2Proof.Machine.execStageCDeadline s
    | .stageD => Sys2Proof.Machine.execStageD s
    | .holdRelease => Sys2Proof.Machine.execHoldRelease s
    | .mainPowerLoss => Sys2Proof.Machine.execMainPowerLoss s
    | .aonPowerLoss => Sys2Proof.Machine.execAonPowerLoss s
    | .vbatLow => Sys2Proof.Machine.execVbatLow s
    | .startHold agent value => Sys2Proof.Machine.execStartHold agent value s
    | .engineId agent value => Sys2Proof.Machine.execEngineId agent value s
    | .pufHelper agent value matches_ => Sys2Proof.Machine.execPufHelper agent value matches_ s
    | .docentBundleLoad agent bundle => Sys2Proof.Machine.execDocentBundleLoad agent bundle s
    | .curatorImageLoad agent image => Sys2Proof.Machine.execCuratorImageLoad agent image s
    | .svnWrite agent sub value authenticated => Sys2Proof.Machine.execSvnWrite agent sub value authenticated s
    | .pCounterStore => Sys2Proof.Machine.execPCounterStore s
    | .fieldFrame dst src etherType payload fcsOk => Sys2Proof.Machine.execFieldFrame dst src etherType payload fcsOk s
    | .fFrame hdr payload crcOk => Sys2Proof.Machine.execFFrame hdr payload crcOk s
    | .fStatus hdr payload crcOk => Sys2Proof.Machine.execFStatus hdr payload crcOk s
    | .fStatusTimeout => Sys2Proof.Machine.execFStatusTimeout s
    | .cFrame hdr payload crcOk => Sys2Proof.Machine.execCFrame hdr payload crcOk s
    | .cConfig hdr payload crcOk => Sys2Proof.Machine.execCConfig hdr payload crcOk s
    | .cHeartbeat hdr crcOk => Sys2Proof.Machine.execCHeartbeat hdr crcOk s
    | .heartbeatLoss => Sys2Proof.Machine.execHeartbeatLoss s
    | .odRead path busy => Sys2Proof.Machine.execOdRead path busy s
    | .odWrite path busy obs => Sys2Proof.Machine.execOdWrite path busy obs s
    | .odCancel bank busy => Sys2Proof.Machine.execOdCancel bank busy s
    | .odWriteEffect index sub => Sys2Proof.Machine.execOdWriteEffect index sub s
    | .readReq f tag => Sys2Proof.Machine.execReadReq f tag s
    | .segReadReq f tag => Sys2Proof.Machine.execSegReadReq f tag s
    | .writeReq f tag obs => Sys2Proof.Machine.execWriteReq f tag obs s
    | .segWriteInit f tag => Sys2Proof.Machine.execSegWriteInit f tag s
    | .segWrite f tag obs => Sys2Proof.Machine.execSegWrite f tag obs s
    | .segIdleTimeout bank => Sys2Proof.Machine.execSegIdleTimeout bank s
    | .phoazAbort f => Sys2Proof.Machine.execPhoazAbort f s
    | .eventAck f => Sys2Proof.Machine.execEventAck f s
    | .eventRetry => Sys2Proof.Machine.execEventRetry s
    | .timeSync f => Sys2Proof.Machine.execTimeSync f s
    | .timeFollow f tag => Sys2Proof.Machine.execTimeFollow f tag s
    | .discover f => Sys2Proof.Machine.execDiscover f s
    | .discoverRsp => Sys2Proof.Machine.execDiscoverRsp s
    | .scoreHalving => Sys2Proof.Machine.execScoreHalving s
    | .pinEnd part => Sys2Proof.Machine.execPinEnd part s
    | .predictiveRetire part => Sys2Proof.Machine.execPredictiveRetire part s
    | .bundleStage agent bundle => Sys2Proof.Machine.execBundleStage agent bundle s
    | .bundleActivate agent value => Sys2Proof.Machine.execBundleActivate agent value s
    | .bundleSwitch => Sys2Proof.Machine.execBundleSwitch s
    | .activateWaitTimeout => Sys2Proof.Machine.execActivateWaitTimeout s
    | .bundleTrialFail missed => Sys2Proof.Machine.execBundleTrialFail missed s
    | .bundleCommit agent value => Sys2Proof.Machine.execBundleCommit agent value s
    | .trialEnd => Sys2Proof.Machine.execTrialEnd s
    | .curatorActivate agent value => Sys2Proof.Machine.execCuratorActivate agent value s
    | .curatorRestart => Sys2Proof.Machine.execCuratorRestart s
    | .curatorTrialFail => Sys2Proof.Machine.execCuratorTrialFail s
    | .curatorCommit agent value => Sys2Proof.Machine.execCuratorCommit agent value s
    | .ivEpochRedraw => Sys2Proof.Machine.execIvEpochRedraw s
    | .dieThermalClass part celsius => Sys2Proof.Machine.execDieThermalClass part celsius s
    | .thermalShutdown part celsius => Sys2Proof.Machine.execThermalShutdown part celsius s
    | .thermalRestart part celsius vinMain => Sys2Proof.Machine.execThermalRestart part celsius vinMain s
    | .tapInstruction i' => Sys2Proof.Machine.execTapInstruction i' s
    | .mgmtMessage port source payload => Sys2Proof.Machine.execMgmtMessage port source payload s
    | .cwRd path offset size tag => Sys2Proof.Machine.execCwRd path offset size tag s
    | .podlPowerUp => Sys2Proof.Machine.execPodlPowerUp s
    | .podlPowerLoss => Sys2Proof.Machine.execPodlPowerLoss s

end Sys2Proof.Machine
end

