-- ==== Sys2Proof/Safety.lean ====
section
/-!
DEFINITION. What a safe run is, in the terms that statements use: every step answers a next state, and the counters of time,
the dictionary store and the queue of commands keep their form.
-/
namespace Sys2Proof.Machine

/-- FRAME_CYCLE is a cycle of a frame, 0 to 159,999 (02 Table 02-5). -/
def State.timeFormed (s : State) : Prop := s.time.cycle < 160000

/-- The keys of the dictionary store rise strictly, so that a store is written in one way only. -/
def State.storeFormed (s : State) : Prop := (s.od.map (·.1)).Pairwise (· < ·)

/-- The same of the store that the battery domain keeps (R400). -/
def State.batteryFormed (s : State) : Prop := (s.battery.store.map (·.1)).Pairwise (· < ·)

/-- The sync memory is written in one way only: its words rise, and none of them is at its reset value (R364). -/
def State.syncFormed (s : State) : Prop :=
  (s.sync.words.map (·.1)).Pairwise (· < ·) ∧ ∀ p ∈ s.sync.words, p.2 ≠ {}

/-- The form that every step keeps: FRAME_CYCLE is a cycle of a frame (R23), the dictionary's stores and the sync memory are written in one way
only, the event history and the queue to the field master hold at most 64 events each (R422, R433), and at most eight
collective groups are joined (R292). -/
def State.formed (s : State) : Prop :=
  s.timeFormed ∧ s.storeFormed ∧ s.batteryFormed ∧ s.dict.history.length ≤ 64 ∧ s.dict.waiting.length ≤ 64 ∧
    s.colls.groups.length ≤ 8 ∧ s.syncFormed

/-- What a command may never do to the state it starts from: touch the queue of commands, take back a message that was sent, or
draw a free value a second time. -/
def State.follows (s₀ s : State) : Prop :=
  s.pending = s₀.pending ∧ s₀.outbox <:+ s.outbox ∧ s₀.freeCtr ≤ s.freeCtr

/-- The task of a number is of a type, is ready, and passes the checks of R80 and R86 on its job and owner. -/
def State.runs (s : State) (id ty : Nat) (t : Task) : Prop :=
  s.task? id = some t ∧ t.type = ty ∧ s.ready t = true ∧
    (taskJobBound ty = true → ty ≠ 0x01 → (s.job t.job).open_ = true ∧ (s.job t.job).owner = t.owner)

/-- The state in which a ready task's own meaning begins: the frame in which it became ready is noted. -/
def State.begun (s : State) (id : Nat) : State := s.setTask id (fun t => { t with readyAt := s.frame })

/-- A dictionary command passes the checks of R412, and its owner accepts it. -/
def State.odTakes (s : State) (a : Agent) (key : Nat) (bytes : Bytes) (f : State → Nat × State) : Prop :=
  s.odCheck a key bytes = 0 ∧ (f s).1 = 0

/-- The state after an accepted dictionary command: its effect, the wake event of R101, and the answer to its agent. -/
def State.odDone (s : State) (a : Agent) (f : State → Nat × State) : State := ((f s).2.wakeUp).send (.od a.code 0 [])

/-- The checks of R205 and R206 admit a Weld message of a type and a payload length, with its tag good and its SEQ taken: `u` is the
state in which its meaning begins. -/
def State.weldTakes (s : State) (h : BitVec 256) (type size : Nat) (u : State) : Prop :=
  s.alarmed = false ∧ s.fromSpare (wJob h) h = false ∧ wType h = type ∧ s.weldPeer (wJob h) = some (wSrc h) ∧ wLen h = size ∧ size ≤ 1048576 ∧
    (s.setWeld (wJob h) fun w => { w with lastRx := some s.frame, rxThisFrame := true }).takeSeq (wJob h) h = (u, true)

/-- The checks of R255 admit a restore message of a type and a payload length, with its tag good. -/
def State.restoreTakes (s : State) (h : BitVec 256) (type size : Nat) : Prop :=
  s.alarmed = false ∧ wType h = type ∧ wLen h = size ∧ size ≤ 1050656 ∧ (s.job (wJob h)).open_ = true

/-- The checks of R243 admit a reply of the Vault of a type, a payload length and a name, to the outstanding request `r`. -/
def State.vaultTakes (s : State) (h : BitVec 256) (type asked size : Nat) (name : BitVec 256) (r : VaultReq) : Prop :=
  s.alarmed = false ∧ s.vault.reqs.find? (fun r => r.id == bitsOf h 255 192) = some r ∧ bitsOf h 31 24 = type ∧ r.type = asked ∧
    bitsOf h 20 0 = size ∧ sameName r.name name = true ∧ bitsOf h 95 64 = s.engineId ∧ bitsOf h 127 96 = s.cfg (Od.vaultTarget r.target)

/-- The checks of R280 admit a collective message of a type for the collective `c` of the joined group `g`. -/
def State.collTakes (s : State) (h : BitVec 512) (payload : Bytes) (type : Nat) (g : Group) (c : Coll) : Prop :=
  s.alarmed = false ∧ cType h = type ∧ collBad h payload = false ∧ s.group? (cGroup h) = some g ∧ cEpoch h = g.epoch ∧ s.collSource g h = true ∧
    s.coll? g.id (cSeq h) = some c

/-- A Phoaz frame of a type waits, and the Curator serves it: `u` is the state in which its meaning begins. -/
def State.phoazWaits (s : State) (f : PhoazFrame) (type : Nat) (u : State) : Prop :=
  f ∈ s.dict.phoazIn ∧ phType f.hdr = type ∧ u = (s.setDict fun d => { d with phoazIn := d.phoazIn.erase f }) ∧
    u.curatorPaused = false

/-- A Phoaz request passes authentication (R429), and is no repetition of the last one (R428): `v` is the state in which it
acts. -/
def State.phoazTakes (s : State) (f : PhoazFrame) (type : Nat) (need : Bool) (v : State) : Prop :=
  ∃ u, s.phoazWaits f type u ∧ u.phoazAuth f need = (0, v) ∧ v.phoazRepeat f = none

/-- A step that is no stop. -/
def State.goesOn (s : State) : Prop := ∃ t, step s = .next t

/-- The state after n steps, when none of them stops. -/
def State.after (s : State) : Nat → Option State
  | 0 => some s
  | n + 1 => match step s with
    | .next t => t.after n
    | .fault _ => none
    | .refused _ => none

end Sys2Proof.Machine
end

