-- ==== Sys2Proof/WellFormed.lean ====
section
/-!
DEFINITION. Which commands the outside can put before the block: the limits that the spec sets on messages, frames and
observations and that the operands' types do not already say. The meanings are defined for every command.
-/
namespace Sys2Proof

/-- A transaction-layer message: whole 64-byte units, at most four (03 Table 03-2). -/
def d2dPayload (payload : Bytes) : Bool := payload.length % 64 == 0 && payload.length ≤ 256

/-- A barrier message: at most 1,536 bytes (15 Table 15-8). -/
def barrierFormed (payload : Bytes) : Bool := payload.length ≤ 1536

/-- No entry twice. -/
def noRepeat {α : Type} [DecidableEq α] (l : List α) : Bool := l.eraseDups.length == l.length

/-- The limits of the spec on one command. -/
def Instr.wellFormed : Instr → Bool
  | .mrdCpl _ p => d2dPayload p
  | .mwrCpl _ p => d2dPayload p
  | .d2dNop _ p => d2dPayload p
  | .timeReq _ p => d2dPayload p
  | .therm _ p => d2dPayload p
  | .grant _ p => d2dPayload p
  -- a data flit carries 244 payload bytes (12 Table 12-4)
  | .dataFlit _ _ p _ _ => p.length == 244
  -- a port has nine lanes in each direction (12 R298)
  | .signalDetect _ n => n ≤ 9
  -- a lane map names each physical lane once (12 R299)
  | .trainingComplete _ _ l _ => noRepeat l.tx.toList && noRepeat l.rx.toList
  -- a mailbox message has 256 bytes (14 Table 14-8)
  | .e2hSend _ msg _ => match msg with | some m => m.length == 256 | none => true
  -- an Ethernet payload has 46 to 1,500 bytes (15 R405)
  | .fieldFrame _ _ _ p _ => 46 ≤ p.length && p.length ≤ 1500
  | .fFrame _ p _ => barrierFormed p
  | .fStatus _ p _ => barrierFormed p
  | .cFrame _ p _ => barrierFormed p
  | .cConfig _ p _ => barrierFormed p
  -- rows and columns are named once (06 R158)
  | .arrayRepair rows cols => noRepeat rows && noRepeat cols
  -- a thread is idle once (14 R375)
  | .deadlockScan idle => noRepeat idle
  -- a Leaf is at most 1 MiB (03 R63)
  | .recordData _ p _ => p.length ≤ 1048640
  | .copyLeaf _ p _ => p.length ≤ 1048576
  -- a word of the row is named once (08 R195)
  | .scrubRow c l => noRepeat (c.map (·.1) ++ l.map (·.word))
  -- six regions, and the slots that no region holds (08 R187)
  | .rowRemap _ _ region _ => region ≤ 6
  -- Docent cores have numbers 0 to 23 (14 R357); a core drains late once (14 R358)
  | .frameBoundary obs => noRepeat obs.lateDrain && obs.pinFail.all (fun c => c < 24) && obs.starved ≤ 160000
  | _ => true

end Sys2Proof
end

