-- ==== Sys2Proof/Certificates/Slice0/Obligations.lean ====
section
/-!
DEFINITION. The statements for the provers. Each one's docstring names the rules it formalises; a statement about a free value
holds for every value of it.
-/
open Sys2Proof Sys2Proof.Machine

/-- A step takes the command at the front of the queue (log entry 2: the queue is the model's own). -/
def Obligations.StepRunsTheFront : Prop := ∀ (c : Instr) (rest : List Instr) (s : State),
  step { s with pending := c :: rest } = exec c { s with pending := rest }

/-- On an empty queue the clock goes on (R24; that it is one cycle a step is log entry 1). -/
def Obligations.EmptyQueueTicks : Prop := ∀ s : State, s.pending = [] →
  (s.curator.stage ≠ .none → s.time.cycle < 159999 → step s = .next { s with time := { s.time with cycle := s.time.cycle + 1 }, raised := [] }) ∧
  (s.curator.stage = .none ∨ 159999 ≤ s.time.cycle → step s = .next s)

/-- Every command goes on and leaves the queue of commands alone (R439). -/
def Obligations.EveryCommandGoesOn : Prop := ∀ (c : Instr) (s : State), ∃ t, exec c s = .next t ∧ t.pending = s.pending

/-- What was sent stays sent, and no free value is drawn twice (log entries 3 and 4). -/
def Obligations.NothingSentIsTakenBack : Prop := ∀ s : State, ∃ t, step s = .next t ∧
  (∃ l, t.outbox = l ++ s.outbox) ∧ s.freeCtr ≤ t.freeCtr

/-- Every step keeps the form of the state: the cycle of the frame (R24), the stores in one way only (R364, R400, R408), at most 64
events in the history and in the queue to the field master (R422, R433), at most eight groups (R292). -/
def Obligations.StepsKeepTheForm : Prop := ∀ s : State, s.formed → ∃ t, step s = .next t ∧ t.formed

/-- The state after reset has the form that every step keeps. -/
def Obligations.ResetHasTheForm : Prop := State.reset.formed

/-- A run of any length goes on and stays well formed (R439). -/
def Obligations.RunsNeverStop : Prop := ∀ (s : State) (cs : List Instr) (n : Nat), s.formed →
  ∃ t, { s with pending := cs }.after n = some t ∧ t.formed

/-- What reset leaves (R388, R390). -/
def Obligations.ResetState : Prop :=
  let s := State.reset
  s.curator.stage = .none ∧ s.mainUp = false ∧ s.carrier.mainband = false ∧ s.timeNs = 0 ∧ s.time.state = .unset ∧
  s.time.parent = none ∧ s.sched.qps = [] ∧ s.sched.tasks = [] ∧ (∀ j, (s.job j).open_ = false) ∧ s.carrier.holdings = [] ∧
  s.colls.groups = [] ∧ s.vault.accs = [] ∧ s.sync.words = [] ∧ s.sync.waiters = [] ∧ s.od = [] ∧ s.dict.history = [] ∧
  s.pending = [] ∧ s.outbox = []

/-- The rows of the frame tick, of the alignment and of the time reads complete (R23, R33, R34, R36, R45, R49). -/
def Obligations.TimeCompletes : Prop := ∀ s : State,
  (∀ obs, s.curator.stage ≠ .none → s.mainUp = true →
    let t := (s.closeFrame obs).slewFrame.writeScores.openFrame.resumeCurator.writeEffects
    exec (.frameBoundary obs) s = .next (if t.mainUp then t.beginFrame s obs else t).beatBarrier.drainField) ∧
  (s.openFrame.frame = s.frame + 1 ∧ s.openFrame.time.cycle = 0) ∧
  (∀ part (index : BitVec 32) f, s.repairSince part index.toNat = some f → s.lapsed f part.budget = true →
    (s.repairPid part index.toNat, f) ∉ s.service.overruns → exec (.faultBudgetOverrun part index) s =
    .next ((s.setService fun v => { v with overruns := ((s.repairPid part index.toNat, f) :: v.overruns).take 64 }).countEvent
      Od.faultBudgetOverrunCount (s.repairPid part index.toNat) part.budget)) ∧
  (∀ part (index : BitVec 32), s.repairSince part index.toNat = none → exec (.faultBudgetOverrun part index) s = .next s) ∧
  (∀ f, s.time.holdoverSince = some f → s.time.state = .holdover → s.time.holdoverReported = false →
    f + s.cfg Od.holdoverAlignFrames ≤ s.frame → exec .holdoverAlignExpiry s =
      .next ((s.setTime fun t => { t with alignUncertain := true, holdoverReported := true,
                                          alignCount := t.alignCount + 1 }).eventAt 0x1001 0 0 0)) ∧
  (∀ f, s.time.syncedSince = some f → s.time.state = .synced → f + 6000000 ≤ s.frame → exec .trimRefine s =
    .next (((s.free.2.odSetP Od.trimTable s.free.1).odSetP Od.trimValid 1).setTime fun t =>
      { t with syncedSince := some t.frameExt })) ∧
  (s.ppsActive = true → s.time.cycle = 0 → s.frame % 10000 = 0 → exec .pps s =
    .next (s.setTime fun t => { t with ppsLeft := s.cfg Od.ppsWidthFrames }).sendTime) ∧
  (∀ path wide, s.cwOpen path = true → exec (.frameExtLoRead path wide) s =
    .next ((s.setTime fun t => { t with
      latFrameExtHi := s.frame / 2 ^ 32 % 2 ^ 32, latTimeNsLo := s.timeNs % 2 ^ 32,
      latTimeNsHi := s.timeNs / 2 ^ 32 % 2 ^ 32, latCycle := s.time.cycle }).send
        (.cwCpl path none 0 (s.frame % (if wide then 2 ^ 64 else 2 ^ 32))))) ∧
  (∀ path wide, s.cwOpen path = true → exec (.timeNsLoRead path wide) s =
    .next ((s.setTime fun t => { t with latTimeNsHi := s.timeNs / 2 ^ 32 % 2 ^ 32, latCycle := s.time.cycle }).send
      (.cwCpl path none 0 (s.timeNs % (if wide then 2 ^ 64 else 2 ^ 32)))))

/-- The PTP rows complete (R37, R40, R41). -/
def Obligations.ClockSyncCompletes : Prop := ∀ (s : State) (port : Port) (h : PtpHeader),
  (s.ptpHears port h = true →
    exec (.sync port h) s = .next (s.setPtp port fun x =>
      { x with pendingSync := some (h.seqId, h.source, s.timePs, h.correction) }) ∧
    (∀ origin rx corr, s.time.ports[port].pendingSync = some (h.seqId, h.source, rx, corr) →
      exec (.followUp port h origin) s = .next ((s.setPtp port fun x => { x with pendingSync := none }).offsetFrom port
        (rx - (stampPs origin : Int) - correctionPs corr - correctionPs h.correction -
          (signed 32 (s.odGet (Od.peerDelayPs port.val)) + s.cfgInt (Od.portAsymmetryPs port.val))))) ∧
    (∀ body, exec (.announce port h body) s =
      .next (if bitsOf h.source 79 16 = s.deviceSerial then s
        else (s.setPtp port fun x => { x with foreigns := hearMaster x.foreigns h.source body s.timeNs }).bmca.renewTrace)) ∧
    exec (.pdelayReq port h) s = .next ((s.send (.ptp port.val 3 h.seqId.toNat (-s.subNs) s.stampFields)).send
      (.ptp port.val 0xA h.seqId.toNat (s.subNs + h.correction.toInt) s.stampFields)) ∧
    (∀ receipt t1, s.time.ports[port].pdelaySent = some (h.seqId, t1) →
      exec (.pdelayResp port h receipt) s = .next (s.setPtp port fun x =>
        { x with pdelayRsp := some ((stampPs receipt : Int) - correctionPs h.correction, s.timePs) })) ∧
    (∀ origin t1 t2 t4, s.time.ports[port].pdelaySent = some (h.seqId, t1) →
      s.time.ports[port].pdelayRsp = some (t2, t4) →
      exec (.pdelayRespFollowUp port h origin) s =
        .next ((s.odSet (Od.peerDelayPs port.val)
          (unsigned 32 (((t4 : Int) - t1 - ((stampPs origin : Int) + correctionPs h.correction - t2)) / 2))).setPtp port
            fun x => { x with pdelaySent := none, pdelayRsp := none }))) ∧
  (s.ptpHears port h = false → ∀ origin receipt body,
    exec (.sync port h) s = .next s ∧ exec (.followUp port h origin) s = .next s ∧
    exec (.announce port h body) s = .next s ∧ exec (.pdelayReq port h) s = .next s ∧
    exec (.pdelayResp port h receipt) s = .next s ∧ exec (.pdelayRespFollowUp port h origin) s = .next s) ∧
  exec (.signaling port h) s = .next s ∧
  (s.masterPort port = true → exec (.syncInterval port) s =
    .next (((s.send (.ptp port.val 0 s.time.ports[port].syncSeq 0 [])).send
      (.ptp port.val 8 s.time.ports[port].syncSeq s.subNs s.stampFields)).setPtp port fun x =>
        { x with syncSeq := (s.time.ports[port].syncSeq + 1) % 65536 })) ∧
  (s.mainUp = true → s.bmca.masterPort port = true → ∃ body, exec (.announceInterval port) s =
    .next ((s.bmca.send (.ptp port.val 0xB s.bmca.time.ports[port].announceSeq 0 body)).setPtp port fun x =>
      { x with announceSeq := (s.bmca.time.ports[port].announceSeq + 1) % 65536 })) ∧
  (s.ptpPort port = true → exec (.pdelayInterval port) s =
    .next ((s.send (.ptp port.val 2 s.time.ports[port].pdelaySeq 0 [])).setPtp port fun x =>
      { x with pdelaySeq := (s.time.ports[port].pdelaySeq + 1) % 65536,
               pdelaySent := some (BitVec.ofNat 16 s.time.ports[port].pdelaySeq, s.timePs), pdelayRsp := none })) ∧
  (∀ p m, s.time.state = .synced → s.time.parent = some p →
    s.time.ports[p].foreigns.find? (fun m => m.source == s.time.parentId) = some m → s.silent m = true →
    exec .announceTimeout s = .next
      (s.setPtp p fun x => { x with foreigns := x.foreigns.filter (fun y => y.source != m.source) }).enterHoldover)

/-- The completions of the engine's own carrier requests (R55, R57, R65). -/
def Obligations.CarrierRepliesComplete : Prop := ∀ (s : State) (hdr : BitVec 128) (payload : Bytes) (r : D2dReq),
  (s.carrier.mainband = true → s.answered hdr .read = some r → dStatus hdr = 0 → d2dFormed hdr payload 2 = true →
    dLen hdr = r.len → exec (.mrdCpl hdr payload) s = .next ((s.endReq r).readDone r.owner (cellsAt r.addr payload))) ∧
  (s.carrier.mainband = true → s.answered hdr .write = some r → dStatus hdr = 0 → d2dFormed hdr payload 4 = true →
    dLen hdr = 0 →
    (∀ q slot, r.owner = .cqWrite q slot → exec (.mwrCpl hdr payload) s = .next ((s.endReq r).entryWritten q)) ∧
    ((∀ q slot, r.owner ≠ .cqWrite q slot) → exec (.mwrCpl hdr payload) s = .next ((s.endReq r).writesDone r.owner))) ∧
  (∀ tag : BitVec 16, s.carrier.reqs.find? (fun x => x.tag == tag.toNat) = some r →
    r.frame + s.cfg Od.d2dCplTimeoutFrames ≤ s.frame →
    let t := (s.endReq r).bump Od.d2dCplTimeoutCount
    (∀ id hid leaf, r.owner = .sliceRead id hid leaf →
      exec (.d2dCplTimeout tag) s = .next (t.sliceReadLost r id hid leaf false)) ∧
    (∀ id, r.owner = .sliceWrite id → exec (.d2dCplTimeout tag) s = .next (t.sliceWriteLost id false)) ∧
    (∀ q slot, r.owner = .sqRead q slot →
      exec (.d2dCplTimeout tag) s = .next (t.free.2.ringFailed q slot t.free.1 true)) ∧
    (∀ q slot, r.owner = .cqWrite q slot →
      exec (.d2dCplTimeout tag) s = .next (t.free.2.ringFailed q slot t.free.1 false)) ∧
    (∀ x, r.owner = .serveRead x → exec (.d2dCplTimeout tag) s = .next (t.readAgain r.owner x true)) ∧
    (r.owner = .orphan → exec (.d2dCplTimeout tag) s = .next t))

/-- The carrier's own messages and the events of its link (R53, R56, R57, R61, R65, R68, R69, R390). -/
def Obligations.CarrierMessagesComplete : Prop := ∀ (s : State) (hdr : BitVec 128) (payload : Bytes),
  (dType hdr = 0 → d2dFormed hdr payload 0 = true → dLen hdr = 0 → exec (.d2dNop hdr payload) s = .next s) ∧
  (s.carrier.mainband = true → d2dFormed hdr payload 10 = true → dLen hdr = 0 → s.time.timeReqFrame ≠ some s.frame →
    exec (.timeReq hdr payload) s = .next (s.setTime fun t => { t with timeReqFrame := some s.frame }).sendTime) ∧
  (s.carrier.mainband = true → d2dFormed hdr payload 11 = true → dLen hdr = 0 → dAux hdr % 32 < s.cfg Od.stackCount →
    exec (.therm hdr payload) s = .next (s.setCarrier fun c => { c with
      thermStacks := vmod c.thermStacks (dAux hdr % 32) (fun _ => { cls := dAux hdr / 32 % 4, since := some s.frame }) })) ∧
  (s.carrier.mainband = true → d2dFormed hdr payload 12 = true → dLen hdr = 0 → dAux hdr ≤ 100 →
    exec (.grant hdr payload) s = .next (s.setCarrier fun c => { c with grantNext := some (dAux hdr) })) ∧
  (∀ (stack : BitVec 5) (x : Stack) (f : Nat), s.carrier.thermStacks.toList[stack.toNat]? = some x → x.stale = false →
    x.since = some f → f + s.cfg Od.thermStaleFrames ≤ s.frame → stack.toNat < s.cfg Od.stackCount →
    exec (.thermStale stack) s = .next ((s.setCarrier fun c => { c with
      thermStacks := vmod c.thermStacks stack.toNat (fun x => { x with cls := 1, stale := true }) }).countEvent
        Od.thermStaleCount stack.toNat)) ∧
  (s.curator.powerGood = true → s.curator.stage ≠ .none → s.carrier.mainband = false →
    exec .mainbandTrained s = .next (s.setCarrier fun c => { c with
      mainband := true, thermStacks := c.thermStacks.map (fun (_ : Stack) => { since := some s.frame }) })) ∧
  (∀ module : BitVec 4, s.carrier.mainband = true → s.odGet Od.d2dModuleRetiredMask / 2 ^ module.toNat % 2 = 0 →
    exec (.d2dLaneFail module false) s = .next ((s.setCarrier fun c => { c with
      laneRepairs := c.laneRepairs.filter (fun x => x.1 != module.toNat) ++ [(module.toNat, s.frame)] }).scored
        (partId 12 module.toNat) 4)) ∧
  (∀ agent value, s.odTakes agent Od.extentUpdate.key value (fun s => s.extentWrite agent value) →
    exec (.extentUpdate agent value) s = .next (s.odDone agent fun s => s.extentWrite agent value)) ∧
  (∀ (holding : BitVec 12) (extent : BitVec 32) p,
    s.carrier.pendingExt.find? (fun x => x.holding == holding.toNat && x.extent == extent.toNat) = some p →
    p.frame + s.cfg Od.xlatWaitLimitFrames ≤ s.frame →
    let ts := s.sched.tasks.filter (fun t => s.waitsExtent t holding.toNat extent.toNat)
    let marked (s : State) : State := s.setCarrier fun c => { c with
      alXlat := c.alXlat || !ts.isEmpty
      pendingExt := mapIf c.pendingExt (fun x => x == p) (fun x => { x with reported := true }) }
    (ts = [] → exec (.xlatWaitLimit holding extent) s = .next (marked s)) ∧
    (ts ≠ [] → exec (.xlatWaitLimit holding extent) s = .next (ts.foldl (fun (s : State) t => match s.task? t.id with
      | none => s
      | some t => if t.lane then s.endLane t 0x0022 holding.toNat extent.toNat t.done
          else s.failIo t.id 0x0022 holding.toNat extent.toNat) (marked (s.raise .xlatTimeout)))) ∧
    (∀ t, ts = [t] → t.lane = true → (marked (s.raise .xlatTimeout)).task? t.id = some t →
      exec (.xlatWaitLimit holding extent) s =
        .next ((marked (s.raise .xlatTimeout)).endLane t 0x0022 holding.toNat extent.toNat t.done)))

/-- A malformed message of the carrier is counted, dropped and reported (R57). -/
def Obligations.MalformedCarrierMessages : Prop := ∀ (s : State) (hdr : BitVec 128) (payload : Bytes),
  (s.carrier.mainband = true →
    (s.answered hdr .read = none → exec (.mrdCpl hdr payload) s = .next (s.countEvent Od.d2dMalformedCount)) ∧
    (s.answered hdr .write = none → exec (.mwrCpl hdr payload) s = .next (s.countEvent Od.d2dMalformedCount)) ∧
    (d2dFormed hdr payload 10 = false ∨ dLen hdr ≠ 0 ∨ s.time.timeReqFrame = some s.frame →
      exec (.timeReq hdr payload) s = .next (s.countEvent Od.d2dMalformedCount)) ∧
    (d2dFormed hdr payload 11 = false ∨ dLen hdr ≠ 0 ∨ s.cfg Od.stackCount ≤ dAux hdr % 32 →
      exec (.therm hdr payload) s = .next (s.countEvent Od.d2dMalformedCount)) ∧
    (d2dFormed hdr payload 12 = false ∨ dLen hdr ≠ 0 ∨ 100 < dAux hdr →
      exec (.grant hdr payload) s = .next (s.countEvent Od.d2dMalformedCount))) ∧
  (s.carrier.mainband = false →
    exec (.mrdCpl hdr payload) s = .next s ∧ exec (.mwrCpl hdr payload) s = .next s ∧
    exec (.timeReq hdr payload) s = .next s ∧ exec (.therm hdr payload) s = .next s ∧
    exec (.grant hdr payload) s = .next s)

/-- CW_RD and CW_WR (R58, R59). -/
def Obligations.WindowAccesses : Prop :=
  ∀ (s : State) (path : CwPath) (offset : BitVec 24) (size : BitVec 8) (tag : BitVec 16) (data : BitVec 64),
  s.cwOpen path = true →
  (s.cwDenied path offset.toNat false = false → cwMisaligned offset.toNat size.toNat = false →
    exec (.cwRd path offset size tag) s = .next ((s.windowRead path offset.toNat size.toNat).2.send
      (.cwCpl path (some tag.toNat) 0 (s.windowRead path offset.toNat size.toNat).1))) ∧
  (s.cwDenied path offset.toNat true = false → cwMisaligned offset.toNat size.toNat = false →
    exec (.registerWrite path offset size tag data) s =
      .next ((s.windowWrite path offset.toNat size.toNat (data.toNat % 2 ^ (8 * size.toNat))).send
        (.cwCpl path (some tag.toNat) 0 0))) ∧
  (s.cwDenied path offset.toNat false = true → exec (.cwRd path offset size tag) s =
    .next ((s.bump Od.cwDeniedCount).send (.cwCpl path (some tag.toNat) 0x10 0))) ∧
  (s.cwDenied path offset.toNat true = true → exec (.registerWrite path offset size tag data) s =
    .next ((s.bump Od.cwDeniedCount).send (.cwCpl path (some tag.toNat) 0x10 0))) ∧
  (s.cwDenied path offset.toNat false = false → cwMisaligned offset.toNat size.toNat = true →
    exec (.cwRd path offset size tag) s = .next (s.send (.cwCpl path (some tag.toNat) 0x11 0))) ∧
  (s.cwDenied path offset.toNat true = false → cwMisaligned offset.toNat size.toNat = true →
    exec (.registerWrite path offset size tag data) s = .next (s.send (.cwCpl path (some tag.toNat) 0x11 0)))

/-- Before the mainband has trained (R54). -/
def Obligations.SidebandServesTheFirstPage : Prop :=
  ∀ (s : State) (path : CwPath) (offset : BitVec 24) (size : BitVec 8) (tag : BitVec 16) (data : BitVec 64),
  path ≠ .debug → s.carrier.mainband = false →
  (s.curator.powerGood = true → s.curator.stage ≠ .none → size = 4 ∨ size = 8 → offset.toNat % size.toNat = 0 →
    offset.toNat < 0x100 → ∃ v t, readWide size.toNat offset.toNat (fun s o => s.globalRead o) s = (v, t) ∧
      exec (.cwRd path offset size tag) s = .next (t.send (.cwCpl path (some tag.toNat) 0 v))) ∧
  (0x100 ≤ offset.toNat → exec (.cwRd path offset size tag) s = .next s) ∧
  exec (.registerWrite path offset size tag data) s = .next s

/-- Every sync operation of a free thread, and every host access of the sync window (R364, R367, R372). -/
def Obligations.SyncOperationsRun : Prop := ∀ (s : State) (t : Thread) (w : BitVec 16) (a b : BitVec 64),
  (s.threadBusy t = false → (s.core t.core).gated = false → s.logFull t.core = false →
    (∀ wide, exec (.syncRead (.thread t) w wide) s = .next (s.performSync t w.toNat .read)) ∧
    exec (.syncWrite t w a) s = .next (s.performSync t w.toNat (.write a)) ∧
    exec (.readFf t w) s = .next (s.performSync t w.toNat .readFf) ∧
    exec (.readFe t w) s = .next (s.performSync t w.toNat .readFe) ∧
    exec (.writeEf t w a) s = .next (s.performSync t w.toNat (.writeEf a)) ∧
    exec (.writeXf (.thread t) w a) s = .next (s.performSync t w.toNat (.writeXf a)) ∧
    exec (.setEmpty (.thread t) w) s = .next (s.performSync t w.toNat .setEmpty) ∧
    exec (.setFull (.thread t) w) s = .next (s.performSync t w.toNat .setFull) ∧
    exec (.fetchAdd t w a) s = .next (s.performSync t w.toNat (.fetchAdd a)) ∧
    exec (.cas t w a b) s = .next (s.performSync t w.toNat (.cas a b)) ∧
    exec (.tallyAdd t w a) s = .next (s.performSync t w.toNat (.tallyAdd a)) ∧
    exec (.tallySub t w a) s = .next (s.performSync t w.toNat (.tallySub a)) ∧
    exec (.syncStatus (.thread t) w) s = .next (s.performSync t w.toNat .status) ∧
    exec (.claim (.thread t) w) s = .next (s.performSync t w.toNat .claim) ∧
    exec (.unclaim (.thread t) w) s = .next (s.performSync t w.toNat .unclaim)) ∧
  (∀ p : CwPath, s.cwOpen p = true →
    let x := s.syncWord w.toNat
    exec (.syncRead (.host p) w true) s = .next ((s.send (.cwCpl p none 0 x.data)).wake w.toNat) ∧
    exec (.syncRead (.host p) w false) s = .next ((s.send (.cwCpl p none 0 (x.data % 2 ^ 32))).wake w.toNat) ∧
    exec (.syncStatus (.host p) w) s = .next ((s.send (.cwCpl p none 0 (s.viewWord w.toNat / 2 ^ 32))).wake w.toNat) ∧
    (p ≠ .debug →
      exec (.writeXf (.host p) w a) s =
        .next ((((s.setData w.toNat a.toNat).setFull w.toNat true p.agent.code).send (.cwCpl p none 0 0)).wake w.toNat) ∧
      exec (.setEmpty (.host p) w) s =
        .next (((s.setFull w.toNat false p.agent.code).send (.cwCpl p none 0 0)).wake w.toNat) ∧
      exec (.setFull (.host p) w) s =
        .next (((s.setFull w.toNat true p.agent.code).send (.cwCpl p none 0 0)).wake w.toNat) ∧
      exec (.claim (.host p) w) s = .next (((s.setSyncWord w.toNat { x with owner := some (.agent p.agent) }).send
        (.cwCpl p none 0 0)).wake w.toNat))) ∧
  (∀ y, s.mainUp = true → (s.core t.core).frozen = none → s.waiter? t = some y → exec (.waitCancel t) s =
    .next ((((s.dropWaiter t).logEvent t.core (.sync t.thread (noteCode 4))).giveResult t y.word (noteCode 4)).observeSync))

/-- What each sync operation does (Table 14-2, R364, R369). -/
def Obligations.SyncEffects : Prop := ∀ (s : State) (who : SyncOwner) (agent w : Nat) (a b : BitVec 64), s.syncFormed →
  let x := s.syncWord w
  let res (op : SyncOp) : Nat := (s.syncEffect who agent w op).1
  let new (op : SyncOp) : SyncWord := (s.syncEffect who agent w op).2.syncWord w
  let count := tallyCount x.data
  let target := tallyTarget x.data
  (∀ op v, v ≠ w → (s.syncEffect who agent w op).2.syncWord v = s.syncWord v) ∧
  (res .read = x.data ∧ new .read = x) ∧
  ((new (.write a)).data = a.toNat ∧ (new (.write a)).full = x.full) ∧
  (res .readFf = x.data ∧ new .readFf = x) ∧
  (res .readFe = x.data ∧ (new .readFe).data = x.data ∧ (new .readFe).full = false) ∧
  ((new (.writeEf a)).data = a.toNat ∧ (new (.writeEf a)).full = true) ∧
  ((new (.writeXf a)).data = a.toNat ∧ (new (.writeXf a)).full = true) ∧
  ((new .setEmpty).data = x.data ∧ (new .setEmpty).full = false) ∧
  ((new .setFull).data = x.data ∧ (new .setFull).full = true) ∧
  (res (.fetchAdd a) = x.data ∧ (new (.fetchAdd a)).data = (x.data + a.toNat) % 2 ^ 64 ∧
    (new (.fetchAdd a)).full = x.full) ∧
  (res (.cas a b) = x.data ∧ (new (.cas a b)).data = (if x.data = a.toNat then b.toNat else x.data) ∧
    (new (.cas a b)).full = x.full) ∧
  (res (.tallyAdd a) = x.data ∧
    (new (.tallyAdd a)).data = (target * 2 ^ 32 + min (count + a.toNat) (2 ^ 32 - 1)) % 2 ^ 64 ∧
    (new (.tallyAdd a)).full = (x.full || decide (target ≤ min (count + a.toNat) (2 ^ 32 - 1)))) ∧
  (a.toNat ≤ count → res (.tallySub a) = x.data ∧
    (new (.tallySub a)).data = (target * 2 ^ 32 + (count - a.toNat)) % 2 ^ 64 ∧
    (new (.tallySub a)).full = (x.full && decide (target ≤ count - a.toNat))) ∧
  (count < a.toNat → res (.tallySub a) = noteCode 1 ∧ new (.tallySub a) = x) ∧
  (res .status = s.viewWord w ∧ new .status = x) ∧
  (res .claim = s.ownerField x.owner ∧ new .claim = { x with owner := some who }) ∧
  ((new .unclaim).owner = none ∧ (new .unclaim).data = x.data ∧ (new .unclaim).full = x.full)

/-- A waiting operation that finds its condition unmet (R364). -/
def Obligations.UnmetConditionWaits : Prop := ∀ (s : State) (t : Thread) (w : BitVec 16) (a : BitVec 64),
  s.threadBusy t = false → (s.core t.core).gated = false → s.logFull t.core = false →
  let wait (op : SyncOp) : State := { s with sync := { s.sync with waiters := s.sync.waiters ++
    [{ who := t, word := w.toNat, op := op, frame := s.frame }] } }
  ((s.syncWord w.toNat).full = false →
    exec (.readFf t w) s = .next (wait .readFf) ∧ exec (.readFe t w) s = .next (wait .readFe)) ∧
  ((s.syncWord w.toNat).full = true → exec (.writeEf t w a) s = .next (wait (.writeEf a)))

/-- SYNC_OWNER_RESET (R373). -/
def Obligations.OwnerResetUnclaims : Prop := ∀ (s : State) (agent : Agent) (value : BitVec 8), s.syncFormed →
  s.odCheck agent Od.syncOwnerReset.key [value] = 0 →
  (value.toNat = agent.code → ∃ t, exec (.syncOwnerReset agent value) s = .next t ∧ ∀ w,
    (t.syncWord w).data = (s.syncWord w).data ∧ (t.syncWord w).full = (s.syncWord w).full ∧
    (t.syncWord w).owner = (if (s.syncWord w).owner = some (.agent agent) then none else (s.syncWord w).owner)) ∧
  (value.toNat ≠ agent.code → exec (.syncOwnerReset agent value) s =
    .next ((s.bump Od.odAbortCount).send (.od agent.code abAccess [])))

/-- The rows of Docent's cores and of the sync memory's faults (R361, R367, R368, R373, R375, R377). -/
def Obligations.DocentCompletes : Prop := ∀ (s : State) (core : Fin 20),
  (∀ (path : CwPath) (w : BitVec 16) (v : BitVec 32), s.cwOpen path = true → path ≠ .debug → v = 0 ∨ 4 < v.toNat →
    exec (.syncBadCmd path w v) s = .next ((s.bump Od.syncBadCmdCount).send (.cwCpl path none 0 0))) ∧
  (∀ w : BitVec 16, s.mainUp = true →
    let x := s.syncWord w.toNat
    let t := (s.bump Od.syncUeCount).setSyncWord w.toNat { x with
      data := 0, full := false, owner := none, lastFrame := if x.full then s.frameNo else x.lastFrame }
    exec (.syncWordUe w) s = .next (((s.sync.waiters.filter (fun y => y.word == w.toNat)).foldl
      (fun s y => s.finishWait y (noteCode 2)) t).observeSync.event Od.syncUeCount w.toNat)) ∧
  (∀ agent (value : BitVec 8), s.odTakes agent Od.syncOwnerReset.key [value] (fun s => s.ownerResetWrite agent value.toNat) →
    exec (.syncOwnerReset agent value) s = .next (s.odDone agent fun s => s.ownerResetWrite agent value.toNat)) ∧
  (∀ idle, exec (.deadlockScan idle) s =
    .next ((s.sync.waiters.map (·.who)).foldl (fun s t => s.classWait idle t) s)) ∧
  (∀ idle, s.mainUp = true → s.cfg Od.lendEnable = 1 → (s.core core).frozen = none → s.coreQuiet core idle = true →
    exec (.coreGate core idle false) s = .next (s.setCore core fun x => { x with gated := true })) ∧
  (s.mainUp = true → (s.core core).frozen = none → (s.bump Od.docentFaultCount).trialing = false →
    let t := (s.bump Od.docentFaultCount).setCore core fun x => { x with
      frozen := some (s.frame, x.phys), stalled := [], gated := false, waking := false, pinSwap := false }
    exec (.docentCoreFault core) s = .next t ∧
    (1600 ≤ s.time.cycle → exec (.snapshotDeadline core) s = .next t) ∧
    (s.time.cycle < 1600 → exec (.snapshotDeadline core) s = .next s)) ∧
  (∀ fails lightest f phys spare rest, (s.core core).frozen = some (f, phys) → f + 2 ≤ s.frame →
    (s.core core).pinSwap = false → s.docent.spares = spare :: rest →
    exec (.docentRepair core fails lightest) s =
      .next (((State.odSet { s with docent := { s.docent with spares := rest } } Od.docentSparesLeft rest.length).remapCore
        core spare).settleCore phys (fails || s.pinned (partId 7 phys))))

/-- The mailbox rows (R379, R380, R381, R382). -/
def Obligations.MailboxCompletes : Prop := ∀ (s : State) (ch : Channel),
  (∀ (path : CwPath) (size : BitVec 8) (value : BitVec 32), s.cwOpen path = true →
    (∀ corrupt, mboxStatus path ch 0x200 size.toNat = 0 → exec (.h2eDoorbell path ch size value corrupt) s =
      .next ((s.wakeUp.ringH2e ch path.agent.code value corrupt).send (.cwCpl path none 0 0))) ∧
    (∀ offset : BitVec 8, mboxStatus path ch offset.toNat size.toNat = 0 → s.mboxes[ch].h2eBusy = false →
      exec (.h2eMsg path ch offset size value) s = .next ((s.setMbox ch fun m => { m with
        h2eMsg := areaWrite m.h2eMsg offset.toNat (leBytes 4 value.toNat),
        writers := addOnce m.writers path.agent.code }).send (.cwCpl path none 0 0))) ∧
    (mboxStatus path ch 0x210 size.toNat = 0 → s.mboxes[ch].e2hValid = true → exec (.e2hAck path ch size value) s =
      .next ((s.setMbox ch fun m => { m with e2hValid := false, e2hFrame := none, e2hCode := bitsOf value 15 0 }).send
        (.cwCpl path none 0 0)))) ∧
  (∀ (seq code : BitVec 16), s.mboxes[ch].h2eBusy = true → s.mboxes[ch].snapshot.map msgSeq = some seq.toNat →
    exec (.mboxAck ch seq code) s = .next (s.ackH2e ch seq.toNat code.toNat)) ∧
  (∀ (seq code : BitVec 16), s.mboxes[ch].h2eBusy = false → seq.toNat ∈ s.mboxes[ch].late →
    exec (.mboxAck ch seq code) s = .next ((s.bump Od.mboxLateAckCount).setMbox ch fun m =>
      { m with late := m.late.erase seq.toNat })) ∧
  (∀ bits, s.mainUp = true → exec (.e2hSend ch none bits) s = .next (s.ringE2h ch.val bits)) ∧
  (∀ bits bytes, s.mainUp = true → s.mboxes[ch].e2hValid = false → exec (.e2hSend ch (some bytes) bits) s =
    .next ((s.setMbox ch fun m => { m with
      e2hMsg := areaWrite [] 0 (stampMsg (areaBytes (areaWrite [] 0 (bytes.take 256))) Agent.docent.code
        [Agent.docent.code]), e2hValid := true, e2hFrame := some s.frame }).ringE2h ch.val bits)) ∧
  (∀ f, s.mboxes[ch].e2hValid = true → s.mboxes[ch].e2hFrame = some f → f + s.cfg Od.mboxTimeoutFrames ≤ s.frame →
    exec (.mboxTimeout ch true) s = .next ((((s.bump Od.mboxTimeoutCount).setMbox ch fun m =>
      { m with e2hValid := false, e2hTimeout := true, e2hFrame := none }).raise (.e2hTimeout ch.val)).send
        (.mailbox ch.val []))) ∧
  (∀ f seq, s.mboxes[ch].h2eBusy = true → s.mboxes[ch].h2eFrame = some f → s.mboxes[ch].snapshot.map msgSeq = some seq →
    f + s.cfg Od.mboxTimeoutFrames ≤ s.frame →
    exec (.mboxTimeout ch false) s = .next (((s.setMbox ch fun m => { m with late := addOnce m.late seq }).bump
      Od.mboxTimeoutCount).ackH2e ch seq 0xFFFF))

/-- The rows of the queue pairs (R73, R75, R76, R78, R89). -/
def Obligations.QueueRowsComplete : Prop := ∀ s : State,
  (∀ (path : CwPath) (q : BitVec 6) (value : BitVec 32) (p : QueuePair), s.cwOpen path = true → s.qp? q.toNat = some p →
    pathHost path = some p.owner →
    (p.dying = false → value.toNat % 65536 < 2 ^ p.sqLog2 → exec (.sqTail path q value) s =
      .next ((State.retryPair ((s.wakeUp.setQp p.q fun p => { p with sqTail := value.toNat % 65536 }).setSched fun c =>
        { c with bells := c.bells ++ (newSlots p.sqTail (value.toNat % 65536) (2 ^ p.sqLog2)).map (fun k => (p.q, k)) })
          p.q).send (.cwCpl path none 0 0))) ∧
    (value.toNat % 65536 < 2 ^ p.cqLog2 → exec (.cqHead path q value) s =
      .next (((s.setQp p.q fun p => { p with cqHead := value.toNat % 65536 }).retryPair p.q).send (.cwCpl path none 0 0)))) ∧
  (∀ agent o (value : Bytes), s.odCheck agent Od.qpCreate.key value = 0 → hostOf agent = some o → value.length = 32 →
    (pairOf (leNat value) o).illegal = false → s.qp? (pairOf (leNat value) o).q = none →
    (∀ x ∈ s.sched.creating, x.q ≠ (pairOf (leNat value) o).q) → exec (.qpCreate agent value) s =
      .next ((s.setSched fun c => { c with creating := c.creating ++ [pairOf (leNat value) o] }).wakeUp.send
        (.od agent.code 0 []))) ∧
  (∀ agent (q : BitVec 8), s.odTakes agent Od.qpDestroy.key (leBytes 1 q.toNat) (fun s => s.destroyWrite agent q.toNat) →
    exec (.qpDestroy agent q) s = .next (s.odDone agent fun s => s.destroyWrite agent q.toNat)) ∧
  (∀ (q : BitVec 6) p, s.qp? q.toNat = some p → p.dying = true → p.pendingCt = 0 → p.entries = [] → s.time.cycle = 0 →
    exec (.qpRemove q) s = .next (s.setSched fun c => { c with qps := c.qps.filter (fun x => x.q != q.toNat) })) ∧
  (∀ q k bells p r rest, s.sched.bells = (q, k) :: bells → s.qp? q = some p → p.stopped = false →
    p.fetched = r :: rest → exec .taskAdmit s =
      .next ((((s.setSched fun c => { c with bells := c.bells.erase (q, k) }).setQp p.q fun p =>
        { p with fetched := rest, pendingCt := p.pendingCt + 1 }).admitRecord p r).fetchNext p.q))

/-- The task rows of jobs, Holdings, NOP, CANCEL and SELFTEST (R85, R86, R92, R97, R102). -/
def Obligations.JobRowsComplete : Prop := ∀ (s : State) (id : Nat) (t : Task),
  (s.runs id 0x00 t → exec (.nop id) s = .next ((s.begun id).complete t 0)) ∧
  (s.runs id 0x01 t → (s.job t.job).open_ = false →
    let u := (((((s.begun id).setJob t.job fun x => { x with
      open_ := true, owner := t.owner, lineage := t.f 383 256, openStep := t.step, c := t.step, v := t.step, m := 0,
      badVerdict := false, badSteps := [] }).setWeld t.job fun w =>
        freshWeld w ((s.job t.job).lineage == t.f 383 256) t.step t.id ((((s.begun id).sched.tasks.filter (fun u =>
          u.job == t.job && decide (t.id < u.id) && (u.type == 0x13 || u.type == 0x14))).map (·.step)).eraseDups)).stepEffect t.job).openHead t.job (t.f 383 256) t.step).complete
          t 0
    exec (.jobOpen id) s = .next ((u.sched.tasks.filter (fun x => x.job == t.job && x.phase == .waiting && u.staleStep x)).foldl
      (fun (s : State) x => match s.task? x.id with
        | some x => s.complete x 0x0011 0 0 t.step
        | none => s) u)) ∧
  (s.runs id 0x02 t →
    let b := s.begun id
    let b := (b.vault.accs.filter (fun a => a.job == t.job.val && a.live)).foldl
      (fun (s : State) a => s.abandonAcc t.job.val a.id) b
    let b := (((b.endPair t.job true).closeSpare t.job).dropFactorSets (fun f => f.job == t.job.val)).setWoad fun w =>
      { w with cache := w.cache.filter (fun r => r.job != t.job.val) }
    let b := (b.carrier.holdings.filter (fun h => h.job == t.job)).foldl (fun (s : State) h => s.releaseHolding h.id) b
    let b := b.setUpdate fun u => { u with digests := u.digests.filter (fun d => d.job != t.job.val) }
    let b := b.setColls fun c =>
      { c with held := c.held.filter (fun h => h.job != t.job.val), faults := c.faults.filter (fun f => f.job != t.job.val) }
    let b := (b.setWeld t.job fun w => { w with shadowTo := 0 }).stepEffect t.job
    exec (.jobClose id) s = .next ((b.setJob t.job fun x => { x with open_ := false }).complete t 0).settleVault) ∧
  (s.runs id 0x03 t → (s.begun id).refuseHolding (BitVec.ofNat 512 (t.f 767 256)) = 0 → (s.begun id).d2dDown = false →
    exec (.registerHolding id) s = .next (((((s.begun id).start t).setCarrier fun c => { c with
      registering := c.registering ++ [{ task := t.id, desc := BitVec.ofNat 512 (t.f 767 256), job := t.job }] }).readExtents
        t (BitVec.ofNat 512 (t.f 767 256))).extentsRead t)) ∧
  (∀ h, s.runs id 0x04 t → (s.begun id).holdingIn t.job (t.f 267 256) = some h →
    exec (.releaseHolding id) s = .next (((s.begun id).releaseHolding (t.f 267 256)).complete t 0)) ∧
  (s.runs id 0x05 t → t.f 279 278 = 0 →
    (∀ u, (s.begun id).tagState t.owner (t.f 271 256) = some .pending →
      (s.begun id).sched.tasks.find? (fun u => u.owner == t.owner && u.tag == t.f 271 256) = some u →
      (s.begun id).notCancellable u = false → exec (.cancel id) s = .next ((s.begun id).runCancel t [u])) ∧
    ((s.begun id).tagState t.owner (t.f 271 256) = none → exec (.cancel id) s = .next ((s.begun id).complete t 0x0007)) ∧
    ((s.begun id).tagState t.owner (t.f 271 256) = some .doneOk →
      exec (.cancel id) s = .next ((s.begun id).complete t 0x0006))) ∧
  (s.runs id 0x06 t → exec (.selftest id) s = .next (((s.begun id).start t).setSched fun c => { c with
    selftest := some { task := t.id, items := t.testItems, steps := s.itemSteps (t.testItems.headD 1), ran := 0, failed := 0,
                       start := s.frame, total := t.testItems.length, first := none } }))

/-- STEP_MARK has the outcomes of Table 04-9 (R19, R87). -/
def Obligations.StepMarkOutcomes : Prop := ∀ (s : State) (id : Nat) (t : Task), s.runs id 0x10 t →
  let j := s.job t.job
  let b := s.begun id
  (t.f 257 256 = 0 → t.step = j.c + 1 → j.badVerdict = false →
    (b.markHeld t.job = true → exec (.stepMark id) s = .next b) ∧
    (b.markHeld t.job = false → exec (.stepMark id) s = .next (b.acceptMark t (j.c + 1)))) ∧
  (t.f 257 256 = 0 → t.step = j.c + 1 → j.badVerdict = true →
    exec (.stepMark id) s = .next (b.complete t 0x0012 0 0 j.v)) ∧
  (t.f 257 256 = 0 → t.step ≠ j.c + 1 → exec (.stepMark id) s = .next (b.complete t 0x0010 0 0 j.c)) ∧
  (t.f 257 256 ≠ 0 → t.step = j.v + 1 → j.badVerdict = true → exec (.stepMark id) s =
    .next ((((b.abandonSteps t).forgetSteps t).setJob t.job fun x => { x with badVerdict := false, badSteps := [] }).acceptMark
      t (j.v + 1))) ∧
  (t.f 257 256 ≠ 0 → t.step ≠ j.v + 1 ∨ j.badVerdict = false →
    exec (.stepMark id) s = .next (b.complete t 0x0010 0 0 j.c))

/-- The lag that holds a STEP_MARK (R19). -/
def Obligations.LagHoldsTheMark : Prop := ∀ (s : State) (j : JobId),
  ((s.weld j).state = .paired → (s.weld j).outStale = none → (s.weld j).confirmed = true →
    s.cfg Od.mirrorLagLimit + (s.job j).m < (s.job j).c + 1 → s.markHeld j = true) ∧
  ((s.weld j).state ≠ .paired → s.cfg Od.mirrorLagLimit + (s.job j).v < (s.job j).c + 1 → s.markHeld j = true) ∧
  (s.cfgStep j Od.ledgerPolicy ≠ 1 →
    ((s.weld j).state = .paired → (s.weld j).outStale = none → (s.weld j).confirmed = true →
      (s.job j).c + 1 ≤ s.cfg Od.mirrorLagLimit + (s.job j).m → s.markHeld j = false) ∧
    ((s.weld j).state ≠ .paired → (s.job j).c + 1 ≤ s.cfg Od.mirrorLagLimit + (s.job j).v → s.markHeld j = false))

/-- The power states (R100, R101). -/
def Obligations.PowerStates : Prop := ∀ s : State,
  (s.sched.exiting = false →
    (s.sched.power = .e0 → s.cfg Od.e1IdleFrames ≤ s.sched.idleFrames → 1 ≤ s.cfg Od.powerStateLimit →
      exec .idleFrameLimit s = .next ((s.bump Od.e1EntryCount).setSched fun c => { c with power := .e1, idleFrames := 0 })) ∧
    (s.sched.power = .e1 → s.cfg Od.e2IdleFrames ≤ s.sched.idleFrames → s.anyJob = false → 2 ≤ s.cfg Od.powerStateLimit →
      exec .idleFrameLimit s = .next (s.enterPower .e2 Od.e2EntryCount)) ∧
    (s.sched.power = .e2 → s.cfg Od.e3IdleFrames ≤ s.sched.idleFrames → s.anyJob = false → 3 ≤ s.cfg Od.powerStateLimit →
      exec .idleFrameLimit s = .next (s.enterPower .e3 Od.e3EntryCount)) ∧
    (s.sched.power = .e3 → exec .idleFrameLimit s = .next s)) ∧
  (∀ cause, s.sched.power ≠ .e0 → cause ≠ .portSignal ∨ s.sched.power ≠ .e3 →
    exec (.wakeEvent cause) s = .next (s.setSched fun c => { c with exiting := true })) ∧
  (s.sched.power = .e3 → exec (.wakeEvent .portSignal) s = .next s) ∧
  (∀ cause, s.sched.power = .e0 → exec (.wakeEvent cause) s = .next s) ∧
  (s.sched.exiting = true → exec .powerExitDone s =
    .next (s.setSched fun c => { c with power := .e0, exiting := false, idleFrames := 0 }).observeSync) ∧
  (∀ agent (value : BitVec 8), s.odTakes agent Od.powerStateLimit.key [value]
      (fun s => acceptSetting Od.powerStateLimit.key value.toNat s) →
    exec (.powerStateLimit agent value) s =
      .next (s.odDone agent fun s => acceptSetting Od.powerStateLimit.key value.toNat s))

/-- UPDATE, WOAD_COMPRESS and MIRROR_APPLY start (R108, R137, R226), and the kernel image is switched (R123). -/
def Obligations.SlicedTasksStart : Prop := ∀ (s : State) (id : Nat) (t : Task),
  let b := s.begun id
  (s.runs id 0x11 t → t.failWith = none → t.updateMalformed = false → b.updateFault t = none → b.d2dDown = false →
    exec (.update id) s = .next (b.start t)) ∧
  (s.runs id 0x12 t → t.woadMalformed = false → b.woadFault t = none → b.d2dDown = false →
    let counted := if b.efGap t = 0 then b else b.bump Od.efGapCount
    let reset := if t.wPhase = 0 ∧ t.wEfReset = true then
      counted.setWoad fun w => { w with efStep := assocSet w.efStep t.wEf ((t.step + 2 ^ 64 - 1) % 2 ^ 64) } else counted
    exec (.woadCompress id) s = .next ((reset.setTask t.id (fun x => { x with detail := b.efGap t })).start t)) ∧
  (s.runs id 0x16 t → t.gradSrc = 2 → t.roleHid 4 = 0xFFFF →
    (∀ r ∈ laneRoles, badHidField (t.roleHid r) = false) → b.applyFault t = none → b.d2dDown = false →
    ∀ e, b.applyEntry t = some e → exec (.mirrorApply id) s = .next ((b.setWeld t.job fun w => { w with
      inSpans := mapIf w.inSpans (fun x => x.master == bitsOf e 191 176 && x.stale) (fun x => { x with skip := t.step }) }).start
        t)) ∧
  (∀ k, s.update.kernelsNext = some k → s.time.cycle = 0 →
    (∀ t ∈ s.sched.tasks, t.type ≠ 0x11 ∧ t.type ≠ 0x12 ∧ t.type ≠ 0x16) →
    exec .kernelImageSwitch s = .next ((s.setUpdate fun u => { u with kernels := k, kernelsNext := none }).setWoad fun w =>
      { w with level := w.levelNext.getD w.level, levelNext := none }))

/-- The groups of a slice (R124, R126, R127, R139, R140). -/
def Obligations.GroupsIssue : Prop := ∀ (s : State) (id : Nat) (t : Task), s.carrier.mainband = true →
  (s.task? id = some t → t.fetches = true →
    let a := (s.groupToStart t).getD t.len
    let seen := s.seePieces t (s.rowsFor t t.next (if t.len ≤ a then t.len else s.groupEnd t a))
    ∀ a', (seen.groupBlocks t t.next a).any (seen.lateBlock t) = false → seen.groupToStart t = some a' →
      exec (.fetchGroupStart id) s = .next (seen.startGroup t a')) ∧
  (∀ x, s.task? id = some t → t.slice = some x → x.faulted = false → t.lane = true → x.issued < x.size →
    (t.type = 0x12 → t.wPhase = 0 → exec (.laneGroupIssue id) s = .next (s.issueProject t x)) ∧
    (t.type = 0x12 → t.wPhase = 1 → x.ops = 0 ∨ x.opsRun = true →
      exec (.laneGroupIssue id) s = .next (s.issueRow t x)) ∧
    (t.type ≠ 0x12 → t.pass = 11 → exec (.laneGroupIssue id) s = .next (s.issueStats t)) ∧
    (t.type ≠ 0x12 → t.pass ≠ 11 → exec (.laneGroupIssue id) s = .next (s.issueGroup t x))) ∧
  (∀ rest, 157952 ≤ s.time.cycle → s.laneOrder = t :: rest → 0 < t.runIn → s.mayRunIn t = true →
    t.next < s.runInEnd t 1 t.next t.len →
    let b := s.runInEnd t 2049 t.next (t.next + (262144 - t.runIn))
    exec .runIn s = .next (((s.beginLane t).issueLanes t t.next b true).setTask t.id (fun u => { u with runIn := u.runIn + (b - t.next) })))

/-- The faults of the lanes, the factor cache and the array, and their repairs (R130, R152, R158). -/
def Obligations.LaneAndArrayFaults : Prop := ∀ s : State,
  (∀ (id : Nat) t (logical : BitVec 7) second shadow active, s.task? id = some t → s.shadowLane second = some shadow →
    s.update.laneMap[logical.toNat]? = some active → t.type = 0x11 ∨ t.type = 0x16 →
    let v := (s.bump Od.shadowMismatchCount).setUpdate fun u => { u with
      suspect := u.suspect ++ [{ frame := s.frame, active := active, shadow := shadow, logical := logical.toNat }] }
    (t.runIn = 0 → t.slicing = true → exec (.shadowMismatch id logical second) s = .next (v.faultFor id .lane)) ∧
    (0 < t.runIn → exec (.shadowMismatch id logical second) s = .next (v.rollbackRunIn t false (some .lane)))) ∧
  (∀ x rest, s.update.suspect = x :: rest → x.frame + 1 ≤ s.frame → s.pinned (partId 1 x.active) = false →
    s.pinned (partId 1 x.shadow) = false → x.active ∉ s.update.retired → x.shadow ∉ s.update.retired →
    let t := s.setUpdate fun u => { u with suspect := rest }
    let na := s.partName (partId 1 x.active) x.active
    let nb := s.partName (partId 1 x.shadow) x.shadow
    exec (.laneRepair false false) s = .next ((((t.bump Od.laneTransientCount).scoreTransient
      (partId 1 x.active)).scoreTransient (partId 1 x.shadow)).event Od.laneTransientCount x.active x.shadow) ∧
    exec (.laneRepair true false) s = .next ((t.retireLane x.active).event Od.laneRetireCount na nb) ∧
    exec (.laneRepair false true) s = .next ((t.retireLane x.shadow).event Od.laneRetireCount nb na) ∧
    (x.active ∉ (t.retireLane x.shadow).update.retired → exec (.laneRepair true true) s =
      .next (((t.retireLane x.shadow).retireLane x.active).event Od.laneRetireCount na nb))) ∧
  (∀ (job : JobId) (holding : BitVec 12) (step : BitVec 64) entry r,
    s.residency? job.val (some holding.toNat) step.toNat = some r → r.snapshot = none →
    exec (.factorCacheUe job ⟨holding, step, entry⟩) s = .next ((State.closeResidency
      ((s.sched.tasks.filter (fun t => t.slicing && s.cacheKey t == some (r.job, r.holding, r.step))).foldl
        (fun s t => s.faultSlice t.id false) (s.bump Od.factorCacheUeCount)) (r.job, r.holding, r.step)).event
          Od.factorCacheUeCount holding.toNat step.toNat)) ∧
  (∀ residue, s.mainUp = true → residue = true ∨ s.colSpares.isEmpty = false →
    let t := s.bump (if residue = true then Od.arrayResidueErrCount else Od.arrayShadowMismatchCount)
    let u := (t.sched.tasks.filter t.usesArray).foldl (fun s t => s.faultFor t.id .array) t
    u.woad.suspect = none → exec (.arrayCheckFail residue) s = .next (u.setWoad fun w => { w with suspect := some u.frame })) ∧
  (∀ f, s.woad.suspect = some f → f + 1 ≤ s.frame → s.service.pins = [] →
    exec (.arrayRepair [] []) s = .next ((s.setWoad fun w => { w with suspect := none }).event Od.arrayRetireCount 0xFFFF))

/-- The rows of Madder's coder (R168, R169, R170, R172, R174, R176, R177). -/
def Obligations.CoderCompletes : Prop := ∀ s : State,
  (∀ agent image, s.odTakes agent Od.madderGenLoad.key image (fun s => s.genLoad image) →
    exec (.madderGenLoad agent image) s = .next (s.odDone agent fun s => s.genLoad image)) ∧
  (∀ agent image, s.odTakes agent Od.madderGenRecall.key image (fun s => s.genRecall image) →
    exec (.madderGenRecall agent image) s = .next (s.odDone agent fun s => s.genRecall image)) ∧
  (∀ agent image, s.odCheck agent Od.madderGenLoad.key image = 0 → (s.genLoad image).1 = abInvalid →
    exec (.madderGenLoad agent image) s =
      .next (((s.bump Od.odAbortCount).bump Od.genRefusedCount).send (.od agent.code abInvalid []))) ∧
  (∀ g, s.madder.load = some g → s.time.cycle = 0 → s.madder.pendSince < s.frame → exec .genSwap s = .next ((s.bump Od.genLoadCount).setMadder fun m =>
    { m with previous := m.current, current := some g, load := none, prevDead := false })) ∧
  (∀ g, s.madder.load = none → s.madder.recalled = some g → s.time.cycle = 0 → s.madder.pendSince < s.frame →
    exec .genSwap s =
    .next (s.setMadder fun m => { m with previous := some g, recalled := none, prevDead := false })) ∧
  (∀ agent, agentReads agent = true → s.mainUp = true →
    exec (.hist agent) s = .next (s.takeHist.2.send (.od agent.code 0 s.takeHist.1))) ∧
  (∀ leaf (lane : BitVec 6) e phys, s.madder.enc.find? (fun e => e.id == leaf) = some e →
    s.madder.encMap[lane.toNat]? = some phys → s.mainUp = true → s.verifyTurn lane.toNat phys = false →
    exec (.encodeBlock leaf lane .clean) s = .next (s.emitBlock e
      ((e.raw.drop (e.done * formatWidth e.format)).take (4096 * formatWidth e.format)))) ∧
  (∀ leaf (lane : BitVec 6) q phys u, s.vault.quarantine.find? (fun q => q.id == leaf) = some q →
    s.madder.decMap[lane.toNat]? = some phys → s.mainUp = true → s.writableQ q = true →
    s.takeUnits (.restore (s.writerOf q)) (s.restoreRank (s.writerOf q)) (State.decodeUnits q) = some u →
    (∀ raw, decodeLeafBytes u.liveGens q.format q.count q.coded = .raw raw →
      (Config.sha3 raw % 2 ^ 256 = q.digest → exec (.decodeLeaf leaf lane false) s = .next (u.placeQ q raw)) ∧
      (Config.sha3 raw % 2 ^ 256 ≠ q.digest → exec (.decodeLeaf leaf lane false) s = .next (u.failQ q))) ∧
    (∀ code detail detail2, decodeLeafBytes u.liveGens q.format q.count q.coded = .bad code detail detail2 →
      exec (.decodeLeaf leaf lane false) s = .next (u.badLeaf q code detail detail2))) ∧
  (∀ x, s.madder.suspect.find? (fun x => x.1) = some x → x.2.2 + 1 ≤ s.frame → s.pinned (partId 5 x.2.1) = false →
    exec (.coderLaneTest false) s =
      .next ((s.setMadder fun m => { m with suspect := m.suspect.erase x }).scoreTransient (partId 5 x.2.1)) ∧
    exec (.coderLaneTest true) s =
      .next ((s.setMadder fun m => { m with suspect := m.suspect.erase x }).retireCoder true x.2.1))

/-- The rows of the Gallery (R193, R195, R197, R198, R199). -/
def Obligations.GalleryCompletes : Prop := ∀ s : State, s.mainUp = true →
  (∀ addr reads victim, exec (.galleryUe addr reads victim) s = .next (s.badWord addr reads victim)) ∧
  (∀ corrected bad, s.opticsOn = true → s.gallery.scrubFrame ≤ s.frame →
    let t := s.scrubWords (s.gallery.scrubAt / 32768) (s.gallery.scrubAt % 32768) corrected bad
    let next := (s.gallery.scrubAt + 1) % galleryRows
    let u := t.setGallery fun g => { g with scrubAt := next, scrubFrame := t.frame + t.cfg Od.scrubFramesPerRow }
    exec (.scrubRow corrected bad) s = .next (if next = 0 then u.bump Od.scrubPassCount else u)) ∧
  (∀ (die : BitVec 2) readback region contents j, s.opticsOn = true → s.gallery.remaps.find? (fun j => j.channel / 32 == die.toNat) = some j →
    j.since < s.frame →
    (j.stage = 1 → exec (.rowRemap die readback region contents) s = .next ((s.writeRemap j).refetch j.refetch)) ∧
    (j.stage ≠ 1 → j.stage ≠ 2 → (spareOf s.gallery.spareNext j.channel).1 < 656 → j.again = false →
      exec (.rowRemap die readback region contents) s =
        .next (s.copyRow j false (spareOf s.gallery.spareNext j.channel).1 readback)))

/-- The Weld's messages complete (R207, R218, R220, R222, R227, R228, R230). -/
def Obligations.WeldMessagesComplete : Prop := ∀ (s u : State) (hdr : BitVec 256),
  let j := wJob hdr
  let step := wStep hdr
  (∀ r t, s.weldTakes hdr 0x13 0 u → u.out? j step = some r →
    let v := u.setOut j step (fun r => { r with acked := true, ended := true })
    v.ledgerTask j step = some t →
    exec (.ledgerAck hdr true) s = .next (v.complete t 0 0 0 (v.bodyBytes r (v.copyForm j)))) ∧
  (∀ r t, s.weldTakes hdr 0x14 0 u → u.out? j step = some r → 1 ≤ wAux hdr 191 184 → wAux hdr 191 184 ≤ 6 →
    let v := u.bump Od.recordLostCount
    v.ledgerTask j step = some t →
    exec (.ledgerNak hdr true) s = .next (((v.setOut j step (fun r =>
      { r with acked := true, ended := true, staged := if r.toVault then r.staged else [] })).setWeld j fun w =>
        { w with outStale := some (w.outStale.getD step) }).complete t 0x2004 (wAux hdr 191 184) step)) ∧
  (s.weldTakes hdr 0x30 0 u → exec (.weldAck hdr true) s = .next (u.coverAck j (wAux hdr 191 160))) ∧
  (∀ spans, s.weldTakes hdr 0x20 (8 + 8 * spans.length) u →
    let v := (u.setWeld j fun w => { w with peerStep := wAux hdr 191 128 }).setJob j fun x =>
      { x with m := min (wAux hdr 191 128) x.v }
    exec (.mirrorConfirm hdr spans true) s = .next (if wAux hdr 191 128 = step
      then v.setWeld j fun w => { w with outStale := none, confirmed := true } else v)) ∧
  (∀ spans, s.weldTakes hdr 0x21 (8 * spans.length) u → bitOf hdr 191 = false →
    exec (.copyRequest hdr spans true) s = .next (u.setWeld j fun w => { w with
      outSpans := mapIf w.outSpans (fun x => (spans.map refOf).contains (x.master, x.index))
        (fun x => { x with copyPending := true }) })) ∧
  (∀ payload x, s.weldTakes hdr 0x22 payload.length u → unitsOf payload.length ≤ s.partnerFree →
    let width := (((u.boundTo j (wAux hdr 191 176)).bind (u.holdingIn j)).map (·.width)).getD 4
    ((u.weld j).inGroups.flatMap (fun g => if g.hids.contains (wAux hdr 191 176)
        then (leafSpans g (wAux hdr 191 176) (wAux hdr 175 144) width).map (fun i => (g.master, i)) else [])).filter
      (fun x => match u.inSpan? j x.1 x.2 with
        | some y => y.stale || (u.weld j).mode == .copy
        | none => false) = [x] → (u.weld j).copies = [] →
    exec (.copyLeaf hdr payload true) s = .next (((u.setWeld j fun w => { w with copies := w.copies ++
      [{ master := x.1, index := x.2, stamp := step,
         leaves := [(wAux hdr 191 176, wAux hdr 175 144, payload)] }] }).tookSince u).pumpCopies j)) ∧
  (∀ spans, s.weldTakes hdr 0x23 (8 * spans.length) u →
    let leaves := (spans.map refOf).flatMap (fun x => match u.inGroup? j x.1 with
      | some g => (u.inLeaves j g x.2).map (fun l => (l.2.2, l.2.1))
      | none => [])
    exec (.rollbackRequest hdr spans true) s = .next (u.setVault fun v => { v with
      serves := v.serves ++ [
        { id := u.vault.nextObj, job := j.val, toEngine := wSrc hdr, fill := wAux hdr 191 128,
          urgent := true, curGen := 0, prevGen := 0, leaves := leaves.eraseDups, sent := 0, missing := 0, rollback := true }],
      nextObj := v.nextObj + 1 })) ∧
  (s.mainUp = true → wType hdr = 5 → wLen hdr = 0 → (s.weld j).partner = wSrc hdr →
    exec (.pairClose hdr) s = .next (s.endPair j false)) ∧
  (∀ job f, (s.weldPeer job).isSome = true → (s.weld job).rxThisFrame = false → (s.weld job).lastTx = some f →
    f + s.cfg Od.heartbeatFrames ≤ s.frame → exec (.weldHeartbeat job) s = .next (s.sendAck job))

/-- The record stream (R215, R216, R217). -/
def Obligations.RecordStream : Prop := ∀ (s u : State) (hdr : BitVec 256),
  let j := wJob hdr
  let step := wStep hdr
  (∀ rec entries, s.weldTakes hdr 0x10 (64 + 128 * entries.length) u → recordUnits rec entries ≤ s.partnerFree →
    u.discardsRecord j step = false → u.headMalformed j hdr rec entries = false →
    recordUnits rec entries ≤ u.partnerUnits → exec (.recordOpen hdr rec entries true) s =
      .next (((u.setWeld j fun w => { w with inRecords := w.inRecords.filter (fun x => x.step != step) ++
        [{ step := step, head := rec, entries := entries, data := [], digests := [], parts := 0, lastPart := false,
           complete := false, applied := [], written := [] }] }).takeSpace { partner := recordUnits rec entries }).learnGroups
            j entries)) ∧
  (∀ payload r e, s.weldTakes hdr 0x11 payload.length u → u.discardsRecord j step = false → u.in? j step = some r →
    r.complete = false → r.entries[wAux hdr 191 176]? = some e → bitsOf e 159 152 ≠ 0x10 →
    (∀ d ∈ r.data, d.1 = wAux hdr 191 176 → d.2.1 ≠ wAux hdr 175 144) →
    exec (.recordData hdr payload true) s = .next (u.setIn j step (fun r =>
      { r with data := r.data ++ [(wAux hdr 191 176, wAux hdr 175 144, payload)] }))) ∧
  (∀ digests r, s.weldTakes hdr 0x12 (40 * digests.length) u → u.discardsRecord j step = false → u.in? j step = some r →
    r.complete = false → r.parts = wAux hdr 191 160 → r.lastPart = false →
    let r' : InRecord := { r with digests := r.digests ++ digests, parts := r.parts + 1, lastPart := bitOf hdr 159 }
    (bitOf hdr 159 = false → exec (.recordTrailer hdr digests true) s = .next (u.setIn j step (fun _ => r'))) ∧
    (bitOf hdr 159 = true → r'.countsAgree = true → exec (.recordTrailer hdr digests true) s =
      .next (((u.setIn j step (fun _ => r')).setIn j step (fun r => { r with complete := true })).weldSend j 0x13 step 0
        []))) ∧
  (∀ (id : Nat) (t : Task) r, s.runs id 0x13 t → ((s.begun id).weld t.job).state = .paired →
    let v := (s.begun id).withOut t.job t.step
    v.out? t.job t.step = some r → t.len = v.bodyBytes r (v.copyForm t.job) → v.keyStatus 2 = none →
    exec (.ledgerSend id) s = .next ((((v.start t).setOut t.job t.step (fun r => { r with task := some t.id })).sendOpen t.job
      r).pumpRecord t.job t.step))

/-- The rows of pairing (R208, R209, R210, R211, R231, R232). -/
def Obligations.PairingCompletes : Prop := ∀ (s : State) (hdr : BitVec 256) (job : JobId) (id : Nat) (t : Task),
  let j := wJob hdr
  let b := s.begun id
  (∀ h, s.runs id 0x41 t → t.f 287 272 < 4096 → (b.weld t.job).state ≠ .paired →
    b.holdingIn t.job (t.f 267 256) = some h → h.kind = 1 → exec (.weldBind id) s = .next ((b.setWeld t.job fun w => { w with
      binds := (b.weld t.job).binds.filter (fun x => x.1 != t.f 267 256 && x.2 != t.f 287 272) ++
        [(t.f 267 256, t.f 287 272)] }).complete t 0)) ∧
  (s.runs id 0x40 t → t.f 289 288 < 2 → b.keyStatus 2 = none → (b.weld t.job).state = .unpaired →
    (b.weld t.job).keptOffer = none → exec (.weldPair id) s =
      .next ((b.start t).startOffer t.job (t.f 287 256) (t.f 289 288) (some t.id))) ∧
  (s.runs id 0x42 t → (b.weld t.job).state = .paired →
    exec (.weldUnpair id) s = .next ((b.complete t 0).endPair t.job true)) ∧
  (∀ (fields : BitVec 768) (auth : BitVec 256), s.mainUp = true → s.alarmed = false → let body : BitVec 1024 := fields ++ auth
    pairLegal hdr 1 128 body = true →
    ((s.weld j).state = .offering → (s.weld j).partner = wSrc hdr → wSrc hdr < s.engineId →
      exec (.pairOffer hdr fields auth) s =
        .next ((s.authGood j hdr body).2.answerOffer j (wSrc hdr) body (s.authGood j hdr body).1)) ∧
    ((s.weld j).state = .unpaired → s.pairWaiting j (wSrc hdr) = true → (s.authGood j hdr body).1 = true →
      exec (.pairOffer hdr fields auth) s =
        .next ((s.authGood j hdr body).2.setWeld j fun w => { w with keptOffer := some (wSrc hdr, body) }))) ∧
  (∀ (fields : BitVec 768) (auth : BitVec 256) v, s.mainUp = true → s.alarmed = false →
    let body : BitVec 1024 := fields ++ auth
    pairLegal hdr 2 128 body = true → wAux hdr 191 184 ≤ 2 →
    (s.weld j).state = .offering → (s.weld j).partner = wSrc hdr → s.authGood j hdr body = (true, v) →
    v.refusal j body true = none → max (s.classFrom body) (wAux hdr 191 184) ≠ 2 →
    let cls := max (s.classFrom body) (wAux hdr 191 184)
    let mode := if cls = 0 ∧ v.modeReq j (s.weld j).modeReq = 0 ∧ bitsOf body 263 256 = 0 ∧ v.levelsEqual body = true
      then 1 else 2
    exec (.pairAccept hdr fields auth) s =
      .next ((v.pairSend j (wSrc hdr) 3 (cls * 2 ^ 56 + mode * 2 ^ 48) []).enterPaired j cls mode)) ∧
  (s.mainUp = true → wType hdr = 3 → wLen hdr = 0 → wAux hdr 191 184 ≤ 1 → 1 ≤ wAux hdr 183 176 → wAux hdr 183 176 ≤ 2 →
    (s.weld j).state = .accepting → (s.weld j).partner = wSrc hdr →
    exec (.pairConfirm hdr) s = .next (s.enterPaired j (wAux hdr 191 184) (wAux hdr 183 176))) ∧
  (s.mainUp = true → wType hdr = 4 → wLen hdr = 0 → 1 ≤ wAux hdr 191 184 → wAux hdr 191 184 ≤ 5 →
    (s.weld j).state = .offering ∨ (s.weld j).state = .accepting → (s.weld j).partner = wSrc hdr →
    exec (.pairRefuse hdr) s = .next (s.pairRefused j (wAux hdr 191 184) (s.weld j).cls)) ∧
  (∀ f, (s.weld job).lastOffer = some f → (s.weld job).state = .offering → f + 100 ≤ s.frame + 1 →
    let v := s.setWeld job fun w => { w with lastOffer := some (s.frame + 1) }
    exec (.pairOfferRepeat job) s = .next (v.sendPair job (s.weld job).partner 1 0 (s.modeReq job (s.weld job).modeReq))) ∧
  (∀ f, (s.weld job).firstOffer = some f → (s.weld job).state = .offering ∨ (s.weld job).state = .accepting →
    f + s.cfg Od.pairTimeoutFrames ≤ s.frame → exec (.pairTimeout job) s = .next (s.pairFail job 0x2001 0 0)) ∧
  (∀ p : Fin 4, s.mainUp = true → (s.job job).open_ = true → s.battery.records[job].partner ≠ 0 → (s.port p).state = .up →
    s.keyThere 2 = true → (s.weld job).state = .unpaired ∨ (s.weld job).state = .lost →
    exec (.autoPair job) s = .next (s.startOffer job s.battery.records[job].partner 0 none)) ∧
  (∀ f, (s.weld job).state = .paired → (s.weld job).lastRx = some f → f + s.cfg Od.lostFrames ≤ s.frame →
    exec (.partnerLost job) s = .next (s.losePartner job (s.frame + 1)))

/-- WELD_RESYNC, WELD_ROLLBACK, MIRROR_DIGEST_COMPARE and COPY_MODE_APPLY (R222, R229, R230, R232). -/
def Obligations.MirrorTasksComplete : Prop := ∀ (s : State) (id : Nat) (t : Task) (job : JobId) (step : BitVec 64),
  let b := s.begun id
  let w := b.weld t.job
  (∀ h x, s.runs id 0x43 t → w.state = .paired → t.f 256 256 = 0 → b.holdingIn t.job (t.f 283 272) = some h →
    w.binds.find? (fun x => x.1 == t.f 283 272) = some x → b.keyStatus 2 = none → b.d2dDown = false →
    let spans := w.inGroups.flatMap (fun g => ((List.range g.spans).filter (fun i => g.hids.contains x.2 &&
      (t.f 319 288 ≤ i && i < t.f 319 288 + t.f 351 320))).map (fun i => (g.master, i)))
    let v := (spans.foldl (fun (s : State) x => s.markStale t.job x.1 [x.2] w.applied) b).requestCopies t.job spans
    (spans = [] → exec (.weldResync id) s = .next (v.complete t 0)) ∧
    (spans ≠ [] → exec (.weldResync id) s =
      .next ((v.start t).setWeld t.job fun w => { w with resyncs := w.resyncs ++ [(t.id, spans)] }))) ∧
  (s.runs id 0x43 t → w.state = .paired → t.f 256 256 = 1 → b.keyStatus 2 = none → b.d2dDown = false →
    let spans := w.inGroups.flatMap (fun g => (List.range g.spans).map (fun i => (g.master, i)))
    let v := (spans.foldl (fun (s : State) x => s.markStale t.job x.1 [x.2] w.applied) b).weldSend t.job 0x21 0 (2 ^ 63) []
    exec (.weldResync id) s = .next (if spans = [] then v.complete t 0
      else (v.start t).setWeld t.job fun w => { w with resyncs := w.resyncs ++ [(t.id, spans)] })) ∧
  (s.runs id 0x44 t → w.state = .paired → t.step = (s.job t.job).v → (s.job t.job).badVerdict = true →
    b.keyStatus 2 = none → b.d2dDown = false →
    let spans := (w.outSpans.filter (fun x => decide ((s.job t.job).v < x.lastWrite))).map (fun x => (x.master, x.index))
    let asked := if spans = [] then b else b.weldSend t.job 0x23 t.step t.step (spans.flatMap spanRef)
    exec (.weldRollback id) s = .next (((asked.start t).setWeld t.job fun w => { w with
      rollback := some { task := t.id, target := t.step, waiting := spans, missing := 0, total := spans.length } }).settleRollback
        t.job)) ∧
  (∀ r, s.in? job step.toNat = some r → r.complete = true → step.toNat ≤ (s.job job).v →
    (∀ e < r.entries.length, e ∈ r.applied) → (∀ x ∈ (s.weld job).inRecords, x.complete = true → step.toNat ≤ x.step) →
    (∀ c ∈ (s.weld job).copies, c.writing = false ∧
      ((s.weld job).mode = .copy → c.stamp = step.toNat → s.copyFull job c = false)) →
    exec (.mirrorDigestCompare job step) s = .next (s.compareRecord job r)) ∧
  (∀ r, s.in? job step.toNat = some r → r.complete = true → r.applied = [] → step.toNat ≤ (s.job job).v →
    bitsOf r.head 175 168 = 2 → r.entries ≠ [] →
    let u := (s.entrySpans job r.entries).foldl (fun (s : State) x => s.markStale job x.1 [x.2] step.toNat) s
    let u := (u.setIn job step.toNat (fun r => { r with applied := List.range r.entries.length })).pumpCopies job
    exec (.copyModeApply job step) s = .next (u.askCopies job ((u.entrySpans job r.entries).filter (fun x =>
      !(u.weld job).copies.any (fun c => c.master == x.1 && c.index == x.2 && c.stamp == step.toNat && u.copyFull job c) &&
      !(u.weld job).inSpans.any (fun y => y.master == x.1 && y.index == x.2 && !y.stale)))))

/-- The task rows of Accessions (R235, R236, R237, R251, R252). -/
def Obligations.CaptureAndSeal : Prop := ∀ (s : State) (id : Nat) (t : Task),
  let b := s.begun id
  let acc := t.f 319 256
  (s.runs id 0x30 t → (b.vault.accs.filter (fun a => a.job == t.job.val && a.live)).length < 4 → acc ≠ 0 →
    (∀ a ∈ b.vault.accs, a.id = acc → a.live = false) → (b.record t.job).aLastId ≠ acc →
    exec (.accOpen id) s = .next ((b.setVault fun v => { v with
      accs := v.accs.filter (fun x => !(x.job == t.job.val && x.id == acc)) ++
        [{ job := t.job.val, id := acc, shard := t.f 335 320, state := .open_, sa := 0, leaves := [], gens := [],
           firstStep := none, order := [], sealRun := none }] }).complete t 0)) ∧
  (s.runs id 0x15 t → b.captureFault t = none → b.keyStatus 2 = none → b.duplicateCapture t = false →
    exec (.captureBand id) s = .next ((b.start t).setVault fun v => { v with taps := v.taps ++
      [{ task := t.id, acc := acc, holding := t.f 331 320, first := t.f 367 336, count := t.len, step := t.step,
         rider := none, cells := [], poisonedLeaves := [] }] })) ∧
  (∀ a, s.runs id 0x31 t → b.acc? t.job acc = some a → a.state = .open_ → b.keyStatus 2 = none →
    exec (.accSeal id) s = .next ((b.start t).setAcc t.job.val acc (fun a =>
      { a with state := .sealing, sa := t.step, sealRun := some (t.id, 0) })).settleVault) ∧
  (s.runs id 0x32 t → b.acc? t.job acc = none → bitOf t.record 400 = true ∨ ((b.record t.job).aLastId ≠ acc ∧
      t.f 399 336 ≤ (b.job t.job).aLast) → b.keyStatus 1 = none →
    exec (.deaccession id) s = .next (((b.start t).setVault fun v => { v with deacc := v.deacc ++
      [{ task := t.id, job := t.job.val, acc := acc, shard := t.f 335 320, below := t.f 399 336, next := 0,
         failed := false }] }).deaccNext t.id)) ∧
  (∀ h, s.runs id 0x33 t → b.holdingIn t.job (t.f 347 336) = some h → b.keyStatus 2 = none → h.kind = 3 →
    b.d2dDown = false → exec (.catalogueFetch id) s = .next (((b.start t).setVault fun v => { v with
      fetches := v.fetches ++ [{ task := t.id, acc := acc, part := 0, parts := 1, bytes := [], writing := false }] }).askPart t
        acc 0 none))

/-- The replies of the Vault (R243, R246, R250, R251, R252, R258, R480). -/
def Obligations.VaultReplies : Prop := ∀ (s : State) (hdr name : BitVec 256) (r : VaultReq),
  let u := s.dropVaultReq r.id
  let reason := bitsOf hdr 191 184
  (s.vaultTakes hdr 0x61 0x60 32 name r →
    (∀ e, r.owner = .object e → exec (.putAck hdr name true) s = .next (u.objectAcked e r.target).settleVault) ∧
    (∀ t g, r.owner = .genPut t g → exec (.putAck hdr name true) s = .next (u.setVault fun v =>
      { v with genAcked := addOnce v.genAcked (nameLineage r.name, g) }).settleVault)) ∧
  (s.vaultTakes hdr 0x62 0x60 32 name r →
    (reason = 2 → exec (.putNak hdr name true) s = .next (u.vaultRetry r).settleVault) ∧
    (reason = 1 ∨ reason = 3 → exec (.putNak hdr name true) s = .next (u.vaultMoveOn r).settleVault)) ∧
  (s.vaultTakes hdr 0x65 0x63 32 name r →
    (reason = 1 → exec (.getNak hdr name true) s = .next (u.ownerFailed r.owner).settleVault) ∧
    (reason = 2 → exec (.getNak hdr name true) s = .next (u.vaultRetry r).settleVault) ∧
    (reason = 3 → exec (.getNak hdr name true) s = .next (u.vaultMoveOn r).settleVault)) ∧
  (∀ (stored : BitVec 512) plain, let got := BitVec.ofNat 256 (bitsOf stored 511 256)
    s.vaultTakes hdr 0x64 0x63 (64 + plain.length + 16) (replyName r.name got) r → s.objectRoom r plain.length = true →
    storedOk stored got plain.length = true →
    exec (.getData hdr stored plain true true) s = .next (u.objectGot r plain).settleVault) ∧
  (∀ t, s.vaultTakes hdr 0x67 0x66 32 name r → r.owner = .delete (some t) →
    exec (.deleteAck hdr name true) s = .next (u.deaccStep t false).settleVault) ∧
  (∀ t a, s.vaultTakes hdr 0x69 0x68 32 name r → r.owner = .commit t →
    u.vault.accs.find? (fun a => a.sealRun == some (t, 3)) = some a →
    exec (.commitAck hdr name true) s = .next (u.sealDone a t r.target).settleVault) ∧
  (∀ q : BitVec 64, s.vault.reqs.find? (fun r => r.id == q.toNat) = some r →
    r.frame + s.cfg Od.vaultReplyFrames ≤ s.frame → exec (.vaultReplyTimeout q) s = .next (s.vaultRetry r).settleVault)

/-- The restore tasks and the spare's tasks (R253, R256, R257, R259, R264, R265). -/
def Obligations.RestoreTasks : Prop := ∀ (s : State) (id : Nat) (t : Task),
  let b := s.begun id
  (∀ h, s.runs id 0x21 t → badHidField (t.f 303 288) = false → b.holdingIn t.job (t.f 315 304) = some h →
    t.f 351 320 + t.len ≤ h.leaves → b.keyStatus 2 = none → b.d2dDown = false →
    let v := (b.start t).setVault fun v => { v with
      restores := v.restores ++ [
        { task := t.id, mirror := true, server := t.f 287 256, fill := t.step,
          wants := (List.range t.len).map (fun k => { holding := h.id, leaf := t.f 351 320 + k, status := 0, again := false }),
          lastRx := b.frame, asks := 1 }],
      spareFill := if h.kind = 1 then max v.spareFill t.step else v.spareFill }
    exec (.restoreMirror id) s = .next ((v.askRestore t.job (t.f 287 256) t.step (bitOf t.record 8)
      [(t.f 303 288, t.f 351 320, t.len)]).settleMirror t.id)) ∧
  (∀ h, s.runs id 0x20 t → (∀ r ∈ [0, 1, 2, 3, 5, 6, 7], badHidField (t.target r) = false) → b.vaultFault t = none →
    b.keyStatus 2 = none → b.holdingIn t.job (t.f 363 352) = some h → b.d2dDown = false →
    (∀ role ∈ t.targetRoles, (b.targetHolding t role).map (·.kind) ≠ some 1) →
    exec (.restoreVault id) s = .next (((b.start t).setVault fun v => { v with
      restores := v.restores ++ [{ task := t.id, mirror := false, fill := t.step, lastRx := b.frame }] }).startRead
        (.taskRead t.id) t.id h 0 h.bytes)) ∧
  (s.runs id 0x22 t → t.f 287 256 = 0 ∨ b.ownClass ≠ 1 →
    let v := b.setVault fun v => { v with
      spare := .shadowing, spareJob := t.job.val, spareSource := t.f 287 256, spareClean := 0,
      spareSteps := if t.f 287 256 = 0 then 0 else t.f 303 288 }
    exec (.spareShadow id) s = .next (((v.spareSpans t.job).setWeld t.job fun w => { w with rxSeq := 1 }).settleSpare.complete t
      0)) ∧
  (s.runs id 0x23 t → b.vault.spare = .ready → b.vault.spareJob = t.job.val →
    let bound := (b.weld t.job).binds.map (·.1)
    let step := (b.weld t.job).applied
    let v := (b.setCarrier fun c => { c with
      holdings := mapIf c.holdings (fun h => h.job == t.job && bound.contains h.id)
        (fun h => { h with desc := ownDesc h.desc }) }).setWeld t.job fun w =>
        { w with binds := [], inSpans := [], inGroups := [] }
    let v := (v.setJob t.job fun x => { x with c := step, v := step }).writeRecord t.job (fun r => { r with v := step })
    exec (.sparePromote id) s = .next ((v.setVault fun v => { v with
      spare := .promoted, filled := v.filled.filter (fun x => x.1 != t.job.val) }).complete t 0 0 0 step)) ∧
  (s.runs id 0x24 t → exec (.shadowSource id) s =
    .next ((b.setWeld t.job fun w => { w with shadowTo := t.f 287 256, shadowSeq := 1 }).complete t 0)) ∧
  (∀ r, s.restore? id = some r → s.task? id = some t → r.mirror = false → r.phase = 4 → s.restoreWriting id = false →
    s.targetBlocked t = none →
    ((r.items t)[r.item]? = none → exec (.rollForward id) s = .next (s.rollEnd t r)) ∧
    (∀ x u, (r.items t)[r.item]? = some x → r.rolledAt ≠ some s.frame →
      let n := s.rollSize t r x (s.unitsFor (.restore id) (s.restoreRank id))
      n ≠ 0 → s.takeUnits (.restore id) (s.restoreRank id) (s.rollUnits t r x n) = some u →
      exec (.rollForward id) s = .next (u.rollSlice t r x n)))

/-- The restore messages (R253, R254, R255, R256). -/
def Obligations.RestoreMessages : Prop := ∀ (s : State) (hdr : BitVec 256),
  let j := wJob hdr
  let hid := wAux hdr 191 176
  let leaf := wAux hdr 175 144
  (∀ requests : List (BitVec 128), s.restoreTakes hdr 0x50 (16 * requests.length) →
    exec (.restoreReq hdr requests true) s = .next (s.setVault fun v => { v with
      serves := v.serves ++ [
        { id := s.vault.nextObj, job := j.val, toEngine := wSrc hdr, fill := wStep hdr,
          urgent := bitOf hdr 191, curGen := wAux hdr 175 160, prevGen := wAux hdr 159 144,
          leaves := requests.flatMap (fun r =>
            (List.range (bitsOf r 63 32)).map (fun k => (bitsOf r 127 112, bitsOf r 95 64 + k))),
          sent := 0, missing := 0, rollback := false }], nextObj := v.nextObj + 1 })) ∧
  (∀ digest coded o, s.restoreTakes hdr 0x51 (32 + coded.length) → s.leafOwner j (wSrc hdr) (wStep hdr) hid leaf = some o →
    unitsOf (coded.length + 16) ≤ s.quarantineFree →
    exec (.restoreLeaf hdr digest coded true) s = .next (((s.heardServer (wSrc hdr)).countArrived o).quarantineLeaf
      o coded digest.toNat)) ∧
  (∀ task i, s.restoreTakes hdr 0x52 0 → 1 ≤ wAux hdr 143 136 → wAux hdr 143 136 ≤ 5 →
    (s.heardServer (wSrc hdr)).leafOwner j (wSrc hdr) (wStep hdr) hid leaf = some (.mirror task i) →
    exec (.restoreMissing hdr true) s =
      .next (((s.heardServer (wSrc hdr)).mirrorMissing task i (wAux hdr 143 136)).settleMirror task)) ∧
  (∀ sent missing r, s.restoreTakes hdr 0x53 8 → let u := s.heardServer (wSrc hdr)
    u.vault.restores.find? (fun r => r.mirror && r.server == wSrc hdr && r.fill == wStep hdr && 0 < r.asks &&
      (u.task? r.task).map (·.job) == some j) = some r → r.asks ≠ 1 →
    exec (.restoreDone hdr sent missing true) s = .next (u.setRestore r.task (fun y =>
      { y with asks := y.asks - 1, told := r.told + sent.toNat }))) ∧
  (∀ (task : Nat) r, s.restore? task = some r → r.mirror = true → r.lastRx + s.cfg Od.restoreReplyFrames ≤ s.frame →
    r.wants.any (fun w => w.status == 0) = true →
    exec (.restoreReplyTimeout task) s = .next ((s.setRestore task (fun r => { r with
      serverLost := true, wants := mapIf r.wants (fun w => w.status == 0) (fun w => { w with status := 3 }) })).settleMirror
        task)) ∧
  (∀ (id : Nat) r k rest, s.vault.serves.find? (fun r => r.id == id) = some r → r.leaves = (hid, k) :: rest →
    r.coding = false →
    (s.boundTo (jobOf r.job) hid = none → s.serveReason (jobOf r.job) r.fill hid k ≠ 0 → exec (.restoreServe id) s =
      .next (s.serveMissing r (s.serveReason (jobOf r.job) r.fill hid k))) ∧
    (∀ l h b bid, s.boundTo (jobOf r.job) hid = some l → s.holdingIn (jobOf r.job) l = some h →
      r.fill ≤ (s.weld (jobOf r.job)).applied → s.serveReason (jobOf r.job) r.fill hid k = 0 →
      s.leafStep (jobOf r.job) h k = some r.stamp → r.buf = some bid → s.taskBuf bid = some b → b.waiting = 0 → b.poison = [] →
      s.madder.current = none → exec (.restoreServe id) s =
        .next ((((s.freeBufs b.task).setVault fun v => { v with nextObj := v.nextObj + 1 }).setMadder fun m => { m with
          enc := m.enc ++ [
            { id := (s.freeBufs b.task).vault.nextObj, owner := .serve r.id, format := h.format,
              raw := s.bufBytes b, gen := some 0, done := 0, coded := [] }] }).setServe r.id (fun r =>
              { r with coding := true }))))

/-- The task rows of groups, verdicts and collectives (R270, R273, R275, R277, R292 to R294). -/
def Obligations.GroupTasksComplete : Prop := ∀ (s : State) (id : Nat) (t : Task),
  let b := s.begun id
  let gid := t.f 271 256
  (s.runs id 0x50 t → 1 ≤ t.f 291 288 → t.f 291 288 ≤ 4 → (b.holdingIn t.job (t.f 351 340)).isSome = true →
    b.groupBad t = false → b.group? gid = none → b.colls.groups.length < 8 →
    exec (.groupJoin id) s = .next (b.readTable t)) ∧
  (∀ g, s.runs id 0x51 t → 1 ≤ t.f 291 288 → t.f 291 288 ≤ 4 → (b.holdingIn t.job (t.f 351 340)).isSome = true →
    b.groupIn t.job gid = some g → b.groupBad t = false → g.epoch < t.f 287 272 → t.f 384 384 = 0 →
    exec (.groupReform id) s = .next ((b.setGroup gid fun g => { g with reforming := true }).readTable t)) ∧
  (∀ g, s.runs id 0x52 t → b.groupIn t.job gid = some g →
    let u := (b.setGroup gid fun g => { g with reforming := true }).abortColls (fun c => c.group == gid) 5 b.frame
    (u.groupFree gid = true → exec (.groupLeave id) s =
      .next (((u.setColls fun c => { c with groups := c.groups.filter (fun g => g.id != gid) }).odSet Od.groupCount
        (u.colls.groups.filter (fun g => g.id != gid)).length).complete t 0)) ∧
    (u.groupFree gid = false → exec (.groupLeave id) s = .next (u.start t))) ∧
  (∀ g, s.runs id 0x14 t → b.groupIn t.job gid = some g → g.absent = 0 → b.keyStatus 2 = none → g.reforming = false →
    exec (.verdict id) s = .next ((b.start t).postColl t g (Coll.blank 0 3 3 t.step 16 false g.root))) ∧
  (s.runs id 0x53 t → exec (.reduce id) s = .next (b.startColl t 1)) ∧
  (s.runs id 0x54 t → exec (.broadcast id) s = .next (b.startColl t 2)) ∧
  (s.runs id 0x55 t → exec (.allreduce id) s = .next (b.startColl t 3)) ∧
  (s.task? id = some t → t.type = 0x14 → t.phase ≠ .waiting → s.verdictWaits t = false →
    s.mayContribute t.job t.step = true → exec (.fingerprintContribute id) s =
      .next (s.contribute id ((s.fingerprint t false).map (fun v => (v, v)))))

/-- The collective messages and the collectives' deadlines (R272, R280, R286 to R288, R290, R291). -/
def Obligations.CollMessagesComplete : Prop := ∀ (s : State) (hdr : BitVec 512) (payload : Bytes) (g : Group) (c : Coll),
  (∀ obs, s.collTakes hdr payload 1 g c → exec (.collData hdr payload true obs) s = .next (s.collTake c g hdr payload obs)) ∧
  (s.collTakes hdr [] 2 g c → exec (.collAbort hdr true) s = .next (s.collTake c g hdr [] .clean)) ∧
  (s.collTakes hdr [] 3 g c → exec (.collGrace hdr true) s = .next (s.collTake c g hdr [] .clean)) ∧
  (s.collTakes hdr payload 6 g c → exec (.swResult hdr payload true) s = .next (s.collTake c g hdr payload .clean)) ∧
  (s.collTakes hdr [] 7 g c → exec (.swRefuse hdr true) s = .next (s.collTake c g hdr [] .clean)) ∧
  (s.collTakes hdr payload 8 g c → exec (.collResult hdr payload true) s = .next (s.collTake c g hdr payload .clean)) ∧
  (∀ parts : List FusedPart, s.alarmed = false → cType hdr = 4 → parts.length ≤ 16 → (∀ p ∈ parts, cGroup p.hdr = cGroup hdr) →
    exec (.fused hdr parts true true) s =
      .next (parts.foldl (fun (s : State) p => s.collMsg p.hdr p.payload .clean) s)) ∧
  (∀ (group : BitVec 16) (seq : BitVec 32), s.coll? group.toNat seq.toNat = some c →
    let late := c.parts.filter (fun p => match p.switch with
      | some f => s.lapsed f (s.cfg Od.switchWaitFrames)
      | none => false)
    (late ≠ [] → exec (.switchWait group seq) s =
      .next ((late.foldl (fun (s : State) p => s.fallBack c p) s).settleColl c.group c.seq)) ∧
    (c.deadline < s.frame + 1 → c.writing = false → c.committed = false →
      exec (.collDeadline group seq) s = .next (s.abortCollAt c 1 (s.frame + 1))) ∧
    (∀ r, c.committed = false → c.outcome (s.frame + 1) = some (.inl r) →
      exec (.collCommit group seq) s = .next (s.commitResult c r).pumpGroups) ∧
    (∀ a, c.committed = false → c.outcome (s.frame + 1) = some (.inr a) →
      exec (.collCommit group seq) s = .next (s.commitAbort c a).pumpGroups)) ∧
  (∀ job : JobId, s.colls.held.any (fun h => h.job == job && h.step == (s.job job).v + 1) = true →
    exec (.heldVerdictApply job) s = .next (s.applyGood job ((s.job job).v + 1)))

/-- The rows of a port's link state (R299, R301 to R303, R306). -/
def Obligations.LinkStates : Prop := ∀ (s : State) (port : Port),
  let x := s.port port
  (∀ agent (v : BitVec 8), s.odTakes agent Od.linkEnable.key [v] (acceptSetting Od.linkEnable.key v.toNat) →
    exec (.linkEnable agent v) s = .next (s.odDone agent (acceptSetting Od.linkEnable.key v.toNat))) ∧
  (∀ agent (v : BitVec 8), s.odTakes agent Od.recalibratePort.key [v] (fun s => s.recalibrate v.toNat) →
    exec (.recalibratePort agent v) s = .next (s.odDone agent fun s => s.recalibrate v.toNat)) ∧
  (∀ agent (v : BitVec 8), s.odTakes agent (Od.laneMapReset port.val).key [v]
      (acceptSetting (Od.laneMapReset port.val).key v.toNat) →
    exec (.laneMapReset agent port v) s = .next (s.odDone agent (acceptSetting (Od.laneMapReset port.val).key v.toNat))) ∧
  (∀ lanes : BitVec 4, x.state = .down → 8 ≤ lanes.toNat → x.laser ≠ 255 →
    (s.cfg Od.retrainLimit ≤ x.entries → exec (.signalDetect port lanes) s = .next (s.enterLink port .failed)) ∧
    (x.entries < s.cfg Od.retrainLimit → exec (.signalDetect port lanes) s =
      .next ((s.enterLink port .training).setPort port (fun x => { x with entries := x.entries + 1 })))) ∧
  (∀ (engine : BitVec 32) (credits : Vector (BitVec 16) 6), x.state = .training → exec (.init port 1 engine credits) s =
    .next (s.setPort port (fun x => { x with partner := engine.toNat, credits := credits.map (·.toNat) }))) ∧
  (∀ (partner : BitVec 32) (lanes : TrainedLanes), x.state = .training → x.planned = true →
    let tx := lanes.tx.toList.map (·.val)
    let rx := lanes.rx.toList.map (·.val)
    (∀ l ∈ tx, l ∉ x.txRetired) → (∀ l ∈ rx, l ∉ x.rxRetired) → tx.eraseDups.length = 8 → rx.eraseDups.length = 8 →
    ∀ bias : Vector (BitVec 32) 2,
    let u := (s.enterLink port .up).setPort port (fun x =>
      { x with partner := partner.toNat, txMap := tx, rxMap := rx, entries := 0, txSeq := 0, rxSeq := 0, retry := [],
               replayed := none, retrying := false, assembling := [], deficit := Vector.replicate 6 0, turn := 1,
               visiting := false, replay := 0, farSpare := lanes.farSpare,
               biasRef := x.biasRef.zipWith (fun old new => old.or (some new.toNat)) bias })
    exec (.trainingComplete port partner lanes bias) s =
      .next ((u.send (.ctrl port.val 1 ([1, u.engineId, port.val] ++ u.ownCredits))).bump (Od.fullRetrainCount port.val))) ∧
  (x.state = .training → x.since + 8000 ≤ s.frame →
    let u := s.bump (Od.fullRetrainCount port.val)
    exec (.trainingTimeout port) s = .next (if u.cfg Od.retrainLimit ≤ (u.port port).entries then u.enterLink port .failed
      else u.enterLink port .down)) ∧
  (x.state = .up → ∀ cause lane,
    exec (.linkFault port cause lane) s = .next (s.linkFault port (lane.map (fun l => (l.1, l.2.val))))) ∧
  (x.state = .retraining → x.planned = true → s.frame < x.since + 4 → ∀ u v, s.retrainSwap port .tx none = some u →
    u.retrainSwap port .rx none = some v →
    let w := ((v.enterLink port .up).setPort port (fun y => { y with entries := 0 })).bump (Od.fastRetrainCount port.val)
    exec (.fastRetrainDone port none none) s =
      .next ((w.send (.ctrl port.val 2 ((w.port port).rxSeq :: (w.port port).credits.toList))).planLaser port)) ∧
  (x.state = .retraining → x.since + 3 ≤ s.frame → exec (.fastRetrainTimeout port) s = .next (s.enterTraining port)) ∧
  (x.state = .up → ∀ (reason : BitVec 8) (f : BitVec 32), exec (.plannedRetrain port reason f) s =
    .next (s.setPort port (fun x => { x with plan := some (reason.toNat, s.extend f.toNat) }))) ∧
  (∀ reason f, x.plan = some (reason, f) → x.state = .up → f ≤ s.frame → reason ≠ 1 →
    exec (.plannedRetrainStart port) s = .next (s.enterRetraining port true)) ∧
  (x.state = .training → x.laser ≠ 255 → ∀ l, x.otherLaser = some l → exec (.laserFail port) s =
    .next (((s.setPort port (fun y => { y with lasersBad := addOnce y.lasersBad x.laser, swaps := [] })).retirePart
      (partId 10 (2 * port.val + x.laser))).switchLaser port l)) ∧
  (∀ bias : BitVec 32, x.state = .up → s.cfg Od.laserBiasLimitPct ≤ x.percent bias.toNat → x.otherLaser.isSome = true →
    x.plan = none → let u := s.setPort port (fun x => { x with biasPct := x.percent bias.toNat })
    exec (.laserBiasLimit port bias) s = .next (u.planRetrain port 1))

/-- Flits, the control messages of an UP port, and the routing rows (R303, R304, R307, R310, R311, R313, R317, R318). -/
def Obligations.LinkMessages : Prop := ∀ (s : State) (port : Port), (s.port port).state = .up →
  s.opticsOn = true →
  let x := s.port port
  (∀ (hdr : BitVec 64) (payload : Bytes), bitsOf hdr 63 60 = 1 → bitsOf hdr 19 4 = x.rxSeq → bitsOf hdr 59 57 ≤ 5 →
    1 ≤ bitsOf hdr 54 47 → bitsOf hdr 54 47 ≤ 244 → payload.length = 244 → bitOf hdr 56 = true →
    let u := (s.setPort port (fun x => { x with rxSeq := (x.rxSeq + 1) % 65536, retrying := false })).takeAck port hdr
    let vc := bitsOf hdr 59 57
    assoc (u.port port).assembling vc = none →
    (bitOf hdr 55 = true → exec (.dataFlit port hdr payload true true) s =
      .next ((u.setPort port (fun x => { x with assembling := assocErase x.assembling vc })).arrive port vc
        (payload.take (bitsOf hdr 54 47)))) ∧
    (bitOf hdr 55 = false → bitsOf hdr 54 47 = 244 → exec (.dataFlit port hdr payload true true) s =
      .next (u.setPort port (fun x => { x with assembling := assocSet x.assembling vc (some (payload.take 244)) })))) ∧
  (∀ hdr : BitVec 64, bitsOf hdr 63 60 = 0 → bitsOf hdr 59 57 = 0 → bitsOf hdr 54 47 = 0 →
    exec (.idleFlit port hdr true true) s = .next (s.takeAck port hdr)) ∧
  (∀ (seq : BitVec 16) credits, exec (.resume port seq credits) s = .next (s.replayFrom port seq.toNat)) ∧
  (∀ seq : BitVec 16, x.retry.any (fun r => r.1 == seq.toNat) = true → x.replayed = none → 1 < s.cfg Od.linkRetryLimit →
    let u := ((s.setPort port (fun y => { y with replayed := some (seq.toNat, 1) })).replayFrom port seq.toNat).bump
      (Od.linkRetryCount port.val)
    u.cfg Od.linkRetryLimit = s.cfg Od.linkRetryLimit → exec (.retryReq port seq) s = .next u) ∧
  (x.retrying = true → exec (.retryReqRepeat port) s = .next (s.send (.ctrl port.val 3 [x.rxSeq]))) ∧
  (∀ (number : BitVec 16) (lane : BitVec 8), (∀ w ∈ x.swaps, w.asked = true) → lane.toNat ∈ x.txMap →
    (x.spare .tx).isSome = true → exec (.swapReq port number lane) s = .next ((s.setPort port (fun y => { y with
      swaps := y.swaps ++ [{ number := number.toNat, lane := lane.toNat, asked := false, point := some 8192,
                             frame := s.frame }] })).send (.ctrl port.val 5 [number.toNat, 8192]))) ∧
  (∀ (number : BitVec 16) (point : BitVec 32), exec (.swapAck port number point) s = .next (s.setPort port (fun x =>
    { x with swaps := x.swaps.map (fun (w : LiveSwap) =>
        if w.asked && w.number == number.toNat then { w with point := some point.toNat } else w) }))) ∧
  (exec (.swapReqRepeat port) s = .next ((x.swaps.filter (fun w => w.asked && w.point.isNone)).foldl
    (fun s w => s.send (.ctrl port.val 4 [w.number, w.lane])) s)) ∧
  (∀ dir w n, x.swaps.find? (fun w => w.asked == (dir == .rx) && w.point.isSome) = some w → x.spare dir = some n →
    exec (.laneSwapPoint port dir) s = .next ((s.setPort port (fun y => { y with
      swaps := y.swaps.filter (fun v => !(v.number == w.number && v.asked == w.asked)) })).swapLane port dir w.lane n)) ∧
  (∀ symbols : Vector (BitVec 32) 9, exec (.laneCeWindow port symbols) s =
    .next ((List.finRange 9).foldl (fun s l => s.laneWindow port l.val (symbols[l]).toNat) s)) ∧
  (∀ (source : BitVec 32) payload, exec (.mgmtMessage port source payload) s =
    .next ((s.send (.mgmt .partner source.toNat payload)).setSched fun c => { c with active := true })) ∧
  (∀ engines : List (BitVec 32),
    let u := (s.setPort port (fun x => { x with
      unreach := ((engines.map (·.toNat)).eraseDups.map (fun e => (e, s.frame))) ++
        x.unreach.filter (fun u => !(engines.map (·.toNat)).contains u.1) })).reroute port
          (fun d => (engines.map (·.toNat)).contains d) true
    exec (.destUnreach port engines) s = .next (u.abortColls (fun c =>
      ((u.ringNext c).map (fun d => (engines.map (·.toNat)).contains d && u.cutOff d)).getD false) 3 u.frame)) ∧
  (∀ engine : BitVec 32, exec (.unreachHoldExpiry port engine) s = .next (s.setPort port (fun x => { x with
    unreach := x.unreach.filter (fun u => !(u.1 == engine.toNat &&
      decide (u.2 + s.cfg Od.unreachHoldFrames ≤ s.frame))) }))) ∧
  (∀ (engine : BitVec 32) (vc : Fin 6), (∀ m ∈ x.queue, m.dst ≠ engine.toNat ∨ m.vc ≠ vc.val) →
    (∀ b ∈ s.fabric.bindings, b.dst = engine.toNat → b.vc = vc.val →
      portOf b.port = port ∧ b.last + s.cfg Od.bindingIdleFrames ≤ s.frame) →
    exec (.bindingIdle engine vc) s = .next (s.setFabric fun x => { x with
      bindings := x.bindings.filter (fun b => !(b.dst == engine.toNat && b.vc == vc.val)) }))

/-- The rows of the key slots (R324, R327, R331 to R333, R336, R354, R464). -/
def Obligations.KeyRowsComplete : Prop := ∀ (s : State) (id : Nat) (t : Task),
  let b := s.begun id
  (s.runs id 0x60 t → b.keyCheck t = none → t.f 317 312 ≤ 56 →
    let p := b.slot t.keyParent
    exec (.keyDerive id) s = .next ((b.replaceSlot t.keyTarget (some
      { key := Config.kdf p.key t.label t.context, keyId := derivedId p t.label t.context, ops := t.keyOps,
        useMask := t.keyMask, gen := p.gen, parent := t.keyParent, loader := some t.owner })).complete t 0)) ∧
  (s.runs id 0x62 t → b.keyCheck t = none → exec (.keyErase id) s = .next ((b.replaceSlot t.keyTarget none).complete t 0)) ∧
  (s.runs id 0x61 t → t.phase = .waiting → b.keyCheck t = none → b.keyGenBad t = false →
    exec (.keyUnwrap id true) s = .next (b.startBlob t)) ∧
  (∀ blob, s.task? id = some t → t.type = 0x61 → t.phase ≠ .waiting → s.blobRead t = some blob → s.alarmed = false →
    s.keyGenBad t = false → exec (.keyUnwrap id true) s = .next (((s.endIo id).loadUnwrapped t blob).complete t 0)) ∧
  (s.runs id 0x63 t → t.phase = .waiting → b.pendingSwitch = none → b.sec.rollover = none → b.keyCheck t = none → b.keyGenBad t = false →
    exec (.keyRollover id) s = .next (b.startBlob t)) ∧
  (∀ blob, s.task? id = some t → t.type = 0x63 → t.phase ≠ .waiting → s.sec.rollover = none → s.blobRead t = some blob →
    exec (.keyRollover id) s = .next ((s.freeBufs id).setSec fun x => { x with
      rollover := some { task := id, frame := t.f 447 384, blob := blob, gen := t.keyGen,
                         ops := t.keyOps, mask := t.keyMask } })) ∧
  (∀ r, s.sec.rollover = some r → r.frame ≤ s.frame → (s.slot 1).state ≠ .empty → (s.slot 2).gen < r.gen →
    s.task? r.task = some t → (s.slot 2).state ≠ .empty →
    let u := (s.setSec fun x => { x with rollover := none }).putSlot 7 { s.slot 2 with purpose := 16 }
    let u := u.loadSlot 2 { key := Config.unwrap (s.slot 1).key r.blob, keyId := unwrappedId (s.slot 1) r.blob, ops := r.ops,
                            useMask := r.mask, gen := r.gen, purpose := 3 }
    let u := ((u.decryptOnly 2 7).odSetP Od.ivEpochRandom 0).setService fun v => { v with newRoll := true }
    u.task? r.task = some t → exec (.keyRolloverSwitch true) s = .next (u.complete t 0)) ∧
  (∀ (slot : BitVec 6) l f, (s.slot slot.toNat).newLoad = some (l, f) → s.time.cycle = 0 → f < s.frame →
    exec (.usageLoadSwitch slot) s =
    .next (s.setSec fun x => { x with
      slots := vmod x.slots slot.toNat (fun k => { k with ops := k.ops &&& 2, newLoad := none }) })) ∧
  (s.odGet Od.ivEpoch = 0xFFFFFFFF → s.service.newWrap = true → s.service.newRoll = true →
    (∀ n < 16, (s.slot (48 + n)).state = .empty) → exec .ivEpochRedraw s =
      .next (s.drawIvEpoch.setService fun v => { v with newWrap := false, newRoll := false })) ∧
  (∀ agent value ok intact, s.odTakes agent Od.fieldAuthLoad.key value (fun s => s.fieldAuthLoad value ok intact) →
    exec (.fieldAuthLoad agent value ok intact) s = .next (s.odDone agent fun s => s.fieldAuthLoad value ok intact)) ∧
  (∀ agent value intact, s.odTakes agent Od.wrapLoad.key value (fun s => s.wrapLoad value intact) →
    exec (.wrapLoad agent value intact) s = .next (s.odDone agent fun s => s.wrapLoad value intact)) ∧
  (∀ agent (v : BitVec 8) active, s.odTakes agent Od.alarmClear.key [v] (fun s => s.alarmClear v.toNat active) →
    exec (.alarmClear agent v active) s = .next (s.odDone agent fun s => s.alarmClear v.toNat active))

/-- The rows of the cipher and digest pages (R345, R347 to R351). -/
def Obligations.PagesComplete : Prop := ∀ (s : State) (agent : Agent) (v : BitVec 64),
  let p := s.cPage agent
  let d := s.dPage agent
  (p.busy = false → p.aadLen ≤ 4096 → p.msgLen ≤ 1048576 → v.toNat % 2 = 1 → s.slotServes p.slot agent p.op = true →
    (p.op = 0 → (s.slot p.slot).state ≠ .exhausted → exec (.cStart agent 4 v) s =
      .next (((s.takeUse p.slot).setC agent (fun q => { q with
        busy := true, iv := s.nextIv p.slot, fed := [], ended := false, taken := 0, since := 0, out := [] })).setSec fun x => { x with cQueue := enqueuePage x.cQueue agent.code })) ∧
    (p.op ≠ 0 → exec (.cStart agent 4 v) s =
      .next ((s.setC agent (fun q => { q with
        busy := true, iv := p.iv, fed := [], ended := false, taken := 0, since := 0, out := [] })).setSec fun x => { x with cQueue := enqueuePage x.cQueue agent.code }))) ∧
  (p.busy = true → p.ended = false →
    (8 ≤ inFree p.fed p.taken → exec (.cData agent 8 v) s = .next (s.cFeed agent (leBytes 8 v.toNat) false)) ∧
    (p.lastBytes ≤ 8 → exec (.cLast agent 8 v) s = .next (s.cFeed agent ((leBytes 8 v.toNat).take p.lastBytes) true))) ∧
  (p.out ≠ [] → exec (.cOut agent 8) s =
    .next ((s.setC agent (fun q => { q with out := q.out.drop 8 })).send (.page agent.code (leNat (p.out.take 8))))) ∧
  (s.sec.cQueue.head? = some agent.code → p.busy = true → p.ended = true → p.taken = p.fed.length →
    let text := gcmText (s.slot p.slot).key p.iv (p.fed.drop p.aadLen)
    let tag := Config.gcmTag (s.slot p.slot).key p.iv (p.fed.take p.aadLen) text % 2 ^ 128
    (p.op = 0 → exec (.cipherMessageDone agent true) s = .next (((s.setC agent (fun q => { q.abandon with
      out := q.out ++ text.drop ((p.fed.drop p.aadLen).length / 4096 * 4096), done := true, tag := tag })).raise
        (.cStatus agent.code 1)).leaveCipher agent)) ∧
    (p.op ≠ 0 → tag = p.tag → exec (.cipherMessageDone agent true) s =
      .next ((((s.setC agent (fun q => { q.abandon with out := text, done := true, tagOk := true })).raise
        (.cStatus agent.code 3)).raise (.cStatus agent.code 1)).leaveCipher agent)) ∧
    (p.op ≠ 0 → tag ≠ p.tag → exec (.cipherMessageDone agent true) s =
      .next (((((s.setC agent (fun q => { q.abandon with done := true, tagFail := true })).raise
        (.cStatus agent.code 4)).tagFail).raise (.cStatus agent.code 1)).leaveCipher agent))) ∧
  (d.busy = false → d.alg < 2 → v.toNat % 2 = 1 → exec (.dStart agent 4 v) s =
    .next ((s.setD agent (fun p => { p with
      busy := true, fed := [], ended := false, taken := 0, since := 0, chain := none, before := 0, result := 0,
      keyed := false })).setSec fun x => { x with dQueue := enqueuePage x.dQueue agent.code })) ∧
  (d.busy = true → d.ended = false →
    (8 ≤ inFree d.fed d.taken → exec (.dData agent 8 v) s = .next (s.dFeed agent (leBytes 8 v.toNat) false)) ∧
    (d.lastBytes ≤ 8 → exec (.dLast agent 8 v) s = .next (s.dFeed agent ((leBytes 8 v.toNat).take d.lastBytes) true))) ∧
  (s.sec.dQueue.head? = some agent.code → d.busy = true → d.ended = true → d.taken = d.fed.length →
    exec (.digestDone agent) s = .next (((s.setD agent (fun q => { q.abandon with
      done := true, result := d.value (s.slot d.slot).key, keyed := decide (2 ≤ q.alg) })).raise
        (.dStatus agent.code 1)).leaveDigest agent)) ∧
  (d.chain = none → d.before = 0 → d.alg = 1 → ∀ key, d.value key = Config.sha3 d.fed % 2 ^ 256) ∧
  (∀ low high, d.busy = false → d.done = true → low.toNat % 2 = 1 →
    let bits := if d.alg = 0 ∨ d.alg = 2 then 384 else 256
    (d.result = d.expect % 2 ^ bits → exec (.dCompare agent 4 low high) s =
      .next ((s.setD agent (fun p => { p with equal := true })).raise (.dStatus agent.code 3))) ∧
    (d.result ≠ d.expect % 2 ^ bits → exec (.dCompare agent 4 low high) s =
      .next (((s.bump Od.compareNeCount).setD agent (fun p => { p with notEqual := true })).raise
        (.dStatus agent.code 4)))) ∧
  (∀ k, d.busy = true → d.ended = false → d.taken % digestBlock d.alg = 0 → d.taken = d.fed.length → v.toNat % 2 = 1 →
    d.alg < 2 → s.exportKey agent = some k →
    let blob := Config.wrapState k (d.stateBytes agent.code (s.digestKeyId d) (s.slot d.slot).key)
    exec (.dExport agent 4 v) s = .next ((s.bump Od.exportCount).setD agent (fun p =>
      { p with blob := (blob ++ List.replicate 440 0).take 440 }))) ∧
  (∀ (plain : Bytes) low high, d.busy = false → low.toNat % 2 = 1 → s.importable agent = some plain →
    exec (.dImport agent 4 low high true) s = .next (State.runDigest ((s.setD agent (fun p => p.resume plain)).setSec fun x =>
      { x with dQueue := enqueuePage x.dQueue agent.code }))) ∧
  (∀ low high intact, d.busy = false → low.toNat % 2 = 1 → s.importable agent = none ∨ intact = false →
    exec (.dImport agent 4 low high intact) s =
    .next (((s.bump Od.importRefusedCount).setD agent (fun p => { p with importRefused := true })).raise
      (.dStatus agent.code 8))) ∧
  (∀ next, s.sec.cQueue.head? = some agent.code →
    nextAgent (s.sec.cQueue.filter (fun b => b != agent.code)) agent.code = some next →
    mayStop p.fed.length p.taken p.since 16 (s.cfg Od.userQuantumBlocks) p.ended = true →
    exec (.pageSuspend agent false) s = .next (State.headCipher ((((s.total Od.suspendCount 1).setC agent (fun p =>
      { p with suspended := true })).raise (.cStatus agent.code 2)).setSec fun x => { x with
        cQueue := next :: s.sec.cQueue.filter (fun c => c != next) })))

/-- The faults of the cipher unit, of its entropy source and of the glitch detectors (R338, R339, R353, R477). -/
def Obligations.CipherFaults : Prop := ∀ s : State,
  (∀ pair : BitVec 6, pair.toNat ∉ s.sec.pairsRetired → (∀ x ∈ s.sec.suspects, x.pair ≠ pair.toNat) → exec (.cipherMismatch pair) s =
    .next ((s.bump Od.cipherMismatchCount).setSec fun z => { z with suspects := z.suspects ++
      [{ pair := pair.toNat, frame := s.frame, first := (s.sec.pairMap.getD pair.toNat (0, 0)).1,
         second := (s.sec.pairMap.getD pair.toNat (0, 0)).2 }] })) ∧
  (∀ x rest, s.sec.suspects = x :: rest → x.frame < s.frame → s.pinned (partId 6 x.first) = false →
    s.pinned (partId 6 x.second) = false →
    let u := s.setSec fun z => { z with suspects := rest }
    exec (.cipherRepair false false false) s = .next (((u.scoreTransient (partId 6 x.first)).scoreTransient
      (partId 6 x.second)).event Od.cipherMismatchCount 0xFFFF x.pair) ∧
    exec (.cipherRepair true false false) s = .next ((u.retirePipe x.pair x.first).event Od.pipeRetireCount
      (u.partName (partId 6 x.first) x.first) 0xFFFF)) ∧
  (∀ source, exec (.glitchTrip source) s = .next (s.raiseAlarm 3)) ∧
  (s.sec.seedStopped = false → exec .entropyTestFail s = .next s.entropyFail) ∧
  (s.sec.seedStopped = true → s.time.cycle = 0 → s.frame ≠ s.sec.entropyFrame → exec (.entropyRetest true) s =
    .next (s.setSec fun x => { x with entropyFails := 0, seedStopped := false }))

/-- The rows of the power supplies and of the stages (R386, R388, R390 to R394, R396, R397, R400, R467, R468). -/
def Obligations.StagesComplete : Prop := ∀ s : State,
  (s.curator.powerGood = false → s.elec.shutdown = none → exec .mainPowerGood s = .next s.raiseMain) ∧
  exec .mainPowerLoss s = .next s.dropMain ∧
  (∃ t, exec .aonPowerLoss s = .next t ∧ t.curator.stage = .none ∧ t.curator.field = s.curator.field ∧
    t.od = t.battery.store ∧ t.battery.seconds = s.timeNs / 1000000000 % 2 ^ 48 ∧ t.sec.copyA = s.sec.copyA ∧
    t.sec.copyB = s.sec.copyB) ∧
  (∀ obs : StageAObs, s.curator.stage = .none → obs.dip = false → s.battery.canary = batteryCanary →
    s.battery.alarmStanding = false → obs.bad = [] → obs.pufOk = true → obs.badSlots = [] →
    ∃ t, exec (.stageA obs) s = .next t ∧ t.curator.stage = .a ∧ t.time.cycle = 0 ∧
      t.time.frameExt = (if obs.valid = true then obs.seconds.toNat * 10000 else 0) ∧
      t.time.state = (if obs.valid = true then .coarse else .unset)) ∧
  (∀ obs, s.curator.stage = .a → s.curator.powerGood = true → s.curator.held = none → s.carrier.mainband = true →
    s.curator.vbatLost = false → exec (.stageB obs) s = .next ((s.loadRemap obs.badEntries).advance .b)) ∧
  (s.curator.stage = .b → s.curator.held = none → s.unmetC = 0 → exec .stageC s = .next (s.advance .c)) ∧
  (s.curator.stage = .c → s.curator.held = none → s.curator.checking = [] → exec .stageD s = .next (s.advance .d)) ∧
  (s.curator.powerGood = true → s.curator.deadline = false → 3000000 ≤ s.sincePower →
    let u := (s.setCurator fun c => { c with deadline := true }).observeSync
    (s.curator.stage = .a → exec .stageCDeadline s = .next u) ∧
    (u.curator.stage = .b → s.curator.stage = .b → u.latchUnmet.curator.held = none →
      exec .stageCDeadline s = .next (u.latchUnmet.advance .c))) ∧
  (s.curator.stage = .b → s.curator.held = none → s.unmetC ≠ 0 → s.curator.deadline = true →
    exec .stageC s = .next (s.latchUnmet.advance .c)) ∧
  (∀ st, s.curator.held = some st → s.holds st = [] → s.time.cycle = 0 → exec .holdRelease s = .next (s.advance st)) ∧
  (∀ agent (v : BitVec 8), s.odTakes agent Od.startHold.key [v] (fun s => s.startHold v.toNat) →
    exec (.startHold agent v) s = .next (s.odDone agent fun s => s.startHold v.toNat)) ∧
  (∀ agent (v : BitVec 32), s.odTakes agent Od.engineId.key (leBytes 4 v.toNat) (fun s => s.setEngineId v.toNat) →
    exec (.engineId agent v) s = .next (s.odDone agent fun s => s.setEngineId v.toNat)) ∧
  (∀ agent value m, s.odTakes agent Od.pufHelper.key value (fun s => s.setHelper value m) →
    exec (.pufHelper agent value m) s = .next (s.odDone agent fun s => s.setHelper value m)) ∧
  (s.curator.stage ≠ .none → exec .vbatLow s = .next (s.countEvent Od.vbatLowCount)) ∧
  (s.time.cycle = 0 → s.frame % 10000 = 0 → s.curator.stage ≠ .none → s.curatorPaused = false →
    exec .pCounterStore s = .next (s.setBattery fun b => { b with store := s.od.filter (fun p => match odRowOf p.1 with
      | some r => r.persist
      | none => false) }))

/-- The rows of the scores, the die temperatures and the test port (R402, R445, R447, R448, R472, R474, R476). -/
def Obligations.ServiceComplete : Prop := ∀ s : State,
  (s.time.cycle = 0 → s.frame % max 1 (s.cfg Od.scoreHalfLifeFrames) = 0 → s.cfg Od.scoreEnable = 1 →
    exec .scoreHalving s = .next s.halveScores.writeScores) ∧
  (∀ (part : BitVec 16) p, s.service.pins.find? (fun p => p.part == part.toNat) = some p → s.cfg Od.pinFrames ≤ p.clean →
    exec (.pinEnd part) s = .next (s.pinClean part.toNat)) ∧
  (∀ part : BitVec 16, partKnown part.toNat = true → s.cfg Od.scoreEnable ≠ 0 → (s.score part.toNat).state ≠ .retired →
    s.cfg Od.retireThreshold ≤ (s.score part.toNat).score →
    (part.toNat / 4096 = 8 ∨ part.toNat / 4096 = 11 ∨ part.toNat / 4096 = 12 → part.toNat ∉ s.service.reported →
      exec (.predictiveRetire part) s = .next ((s.setService fun v =>
        { v with reported := v.reported ++ [part.toNat] }).event Od.predictiveRetireCount part.toNat)) ∧
    (part.toNat / 4096 ≠ 8 → part.toNat / 4096 ≠ 11 → part.toNat / 4096 ≠ 12 → s.cfg Od.predictiveRetire = 1 →
      s.canPlan (part.toNat / 4096) (part.toNat % 4096) = true → exec (.predictiveRetire part) s =
        .next ((s.planRetire (part.toNat / 4096) (part.toNat % 4096)).countEvent Od.predictiveRetireCount part.toNat))) ∧
  (∀ agent (sub : BitVec 8) (v : BitVec 32) ok, 5 ≤ sub.toNat → sub.toNat ≤ 8 →
    s.odTakes agent (0x104000 + sub.toNat) (leBytes 4 v.toNat) (fun s => s.svnWrite (sub.toNat - 5) v.toNat ok) →
    exec (.svnWrite agent sub v ok) s = .next (s.odDone agent fun s => s.svnWrite (sub.toNat - 5) v.toNat ok)) ∧
  (∀ part celsius, exec (.dieThermalClass part celsius) s = .next { s with elec := { s.elec with
    die := vmod s.elec.die (thermalIndex part) (fun old => thermalClass part old celsius) } }) ∧
  (∀ part celsius off, (thermalLimits part).2.2 = some off → off ≤ celsius → s.curator.powerGood = true →
    let u := (s.bump Od.thermHotCount).dropMain
    exec (.thermalShutdown part celsius) s =
      .next (State.event { u with elec := { u.elec with shutdown := some part } } Od.thermHotCount 255)) ∧
  (∀ part celsius off, s.elec.shutdown = some part → (thermalLimits part).2.2 = some off → celsius ≤ off - 15 →
    let u := { s with elec := { s.elec with shutdown := none } }
    exec (.thermalRestart part celsius false) s = .next u ∧
    (s.curator.stage ≠ .none → exec (.thermalRestart part celsius true) s = .next (State.raiseMain u)) ∧
    (s.curator.stage = .none → exec (.thermalRestart part celsius true) s = .next u)) ∧
  (∀ i, i ≠ .scanChain → ∃ t, exec (.tapInstruction i) s = .next t ∧ t.elec.tap = i) ∧
  (s.keyStoreState = 0 → ∃ t, exec (.tapInstruction .scanChain) s = .next t ∧ t.elec.tap = .bypass) ∧
  (s.keyStoreState ≠ 0 → ∃ t, exec (.tapInstruction .scanChain) s = .next t ∧ t.elec.tap = .scanChain)

/-- The rows of the Docent bundles and the Curator images (R390, R403, R452, R453, R455, R456). -/
def Obligations.ImagesComplete : Prop := ∀ (s : State) (agent : Agent),
  (∀ bundle, s.odTakes agent Od.docentBundleLoad.key [] (fun s => s.bundleLoad bundle) →
    exec (.docentBundleLoad agent bundle) s = .next (s.odDone agent fun s => s.bundleLoad bundle)) ∧
  (∀ bundle, s.odTakes agent Od.bundleStage.key [] (fun s => s.bundleStage bundle) →
    exec (.bundleStage agent bundle) s = .next (s.odDone agent fun s => s.bundleStage bundle)) ∧
  (∀ image, s.odTakes agent Od.curatorImageLoad.key [] (fun s => s.imageLoad image) →
    exec (.curatorImageLoad agent image) s = .next (s.odDone agent fun s => s.imageLoad image)) ∧
  (∀ v : BitVec 32, s.odTakes agent Od.bundleActivate.key (leBytes 4 v.toNat) (fun s => s.bundleActivate v.toNat) →
    exec (.bundleActivate agent v) s = .next (s.odDone agent fun s => s.bundleActivate v.toNat)) ∧
  (∀ v : BitVec 8, s.odTakes agent Od.bundleCommit.key [v] (fun s => s.bundleCommit v.toNat) →
    exec (.bundleCommit agent v) s = .next (s.odDone agent fun s => s.bundleCommit v.toNat)) ∧
  (∀ v : BitVec 8, s.odTakes agent Od.curatorActivate.key [v] (fun s => s.curatorActivate v.toNat) →
    exec (.curatorActivate agent v) s = .next (s.odDone agent fun s => s.curatorActivate v.toNat)) ∧
  (∀ v : BitVec 8, s.odTakes agent Od.curatorCommit.key [v] (fun s => s.curatorCommit v.toNat) →
    exec (.curatorCommit agent v) s = .next (s.odDone agent fun s => s.curatorCommit v.toNat)) ∧
  (∀ f b, s.service.armed = some f → s.service.staged = some b → s.time.cycle = 0 → f < s.frame → s.quiet = true →
    exec .bundleSwitch s =
    .next ((s.setService fun v => { v with previous := v.active, active := some b, staged := none, armed := none,
                                           trial := some s.frame, trialBad := false }).armKernels (some b))) ∧
  (∀ f, s.service.armed = some f → f + s.cfg Od.activateWaitFrames ≤ s.frame → exec .activateWaitTimeout s =
    .next ((s.setService fun v => { v with armed := none }).countEvent Od.activateAbandonCount)) ∧
  (∀ missed, s.service.trial.isSome = true → s.service.trialBad = true →
    let u := s.setService fun v => { v with
      active := s.service.previous, previous := none, staged := none, trial := none, trialBad := false }
    let w := { u with docent := { u.docent with cores := u.docent.cores.map (fun (c : DocentCore) =>
      { c with stalled := [] }) } }
    exec (.bundleTrialFail missed) s = .next ((State.armKernels w s.service.previous).countEvent Od.revertCount)) ∧
  (s.service.trial.isSome = true → s.trialing = false → s.service.trialBad = false → s.cfg Od.autoCommit = 1 →
    exec .trialEnd s = .next s.commitBundle) ∧
  (∀ k f, s.curator.activate = some (k, f) → s.time.cycle = 0 → f < s.frame →
    exec .curatorRestart s = .next (s.restartCurator k (some s.frame))) ∧
  (s.curatorTrialing = true → exec .curatorTrialFail s =
    .next ((s.bootSlot.2.restartCurator s.bootSlot.1 none).countEvent Od.revertCount))

/-- The rows of the field side and of the barrier (R404 to R406, R478). -/
def Obligations.FieldSideCompletes : Prop := ∀ (s : State) (hdr : BitVec 64) (payload : Bytes),
  let f := s.curator.field
  (f.podl = false → exec .podlPowerUp s = .next (s.setField fun _ => { podl := true })) ∧
  exec .podlPowerLoss s = .next (s.setField fun _ => {}) ∧
  (∀ dst src : BitVec 48, f.podl = true → payload.length ≤ 1522 → f.mac = some dst.toNat →
    exec (.fieldFrame dst src 0x88B6 payload true) s = .next (s.fieldSend 0x01
      (beBytes 6 dst.toNat ++ beBytes 6 src.toNat ++ beBytes 2 0x88B6 ++ payload))) ∧
  (∀ (dst src : BitVec 48) (et : BitVec 16), f.podl = true → payload.length ≤ 1522 → et.toNat ≠ 0x88B6 →
    exec (.fieldFrame dst src et payload true) s = .next (s.setField fun x => { x with filtered := up32 x.filtered })) ∧
  (f.podl = true → ∀ type, barrierGood hdr payload true type f.rxSeq = true →
    let u := s.setField fun x => { x with rxSeq := barrierNext hdr true x.rxSeq }
    (type = 0x81 → exec (.cFrame hdr payload true) s = .next (u.setField fun x => { x with queue := x.queue ++ [payload] })) ∧
    (type = 0x82 → payload.length = 14 → exec (.cConfig hdr payload true) s =
      .next (u.setField fun x => { x with config := some payload, beat := some s.timeNs })) ∧
    (type = 0x83 → payload = [] → exec (.cHeartbeat hdr true) s =
      .next (u.setField fun x => { x with beat := some s.timeNs }))) ∧
  (s.curator.stage ≠ .none → ∀ type, barrierGood hdr payload true type s.curator.rxSeq = true →
    let u := s.setCurator fun c => { c with rxSeq := barrierNext hdr true c.rxSeq }
    (∀ frame, type = 0x01 → u.curatorPaused = false → readPhoaz s.timeNs payload = some frame →
      exec (.fFrame hdr payload true) s = .next (u.setDict fun d => { d with phoazIn := d.phoazIn ++ [frame] })) ∧
    (type = 0x02 → payload.length = 16 → s.curator.linkUp = true → exec (.fStatus hdr payload true) s =
      .next (u.setCurator fun c => { c with statusAt := some s.timeNs, status := some payload, linkUp := true }))) ∧
  (∀ t, f.podl = true → f.config.isSome = true → f.beat = some t → t + 5000000 ≤ s.timeNs →
    exec .heartbeatLoss s = .next (s.setField fun x => { x with config := none, queue := [] })) ∧
  (∀ t, s.curator.stage ≠ .none → s.curator.linkUp = true → s.curator.statusAt = some t → t + 5000000 ≤ s.timeNs →
    s.mainUp = false → exec .fStatusTimeout s =
      .next ((s.setCurator fun c => { c with linkUp := false }).bump Od.fieldLinkLossCount))

/-- The rows of the OD window and of the internal path (R412, R414, R419, R420). -/
def Obligations.DictionaryCompletes : Prop := ∀ s : State, s.mainUp = true →
  (s.carrier.mainband = true → ∀ b : Host2,
    let x := s.bank b
    (x.offset = 0 → s.odReadCheck (bankAgent b) x.key = 0 → exec (.odRead (.bank b) false) s =
      .next (((s.odValue x.key).2.setBank b fun y => y.part y.key (s.odValue x.key).1
        (s.odValue x.key).2.frame).bankEnd b 0)) ∧
    (∀ obs u, x.offset = 0 → x.transfer = none → x.total ≤ 4096 → x.len = x.total → (x.bytes x.len).length = x.total →
      ((s.setBank b fun y => { y with snapshot := none }).setBank b fun y => { y with transfer := none }).odWriteAny
        (bankAgent b) false x.key (x.bytes x.len) obs = (0, u) →
      exec (.odWrite (.bank b) false obs) s = .next (u.bankEnd b 0)) ∧
    exec (.odCancel b false) s = .next ((s.setBank b fun x => { x with transfer := none, snapshot := none }).bankEnd b 0)) ∧
  (∀ (i : BitVec 16) (k : BitVec 8) value, s.odReadCheck .docent (i.toNat * 256 + k.toNat) = 0 →
    exec (.odRead (.internal i k value) false) s = .next ((s.odValue (i.toNat * 256 + k.toNat)).2.send
      (.od Agent.docent.code 0 (s.odValue (i.toNat * 256 + k.toNat)).1))) ∧
  (∀ (i : BitVec 16) (k : BitVec 8) value obs u,
    s.odWriteAny .docent false (i.toNat * 256 + k.toNat) value obs = (0, u) →
    exec (.odWrite (.internal i k value) false obs) s = .next (u.send (.od Agent.docent.code 0 []))) ∧
  (∀ (i : BitVec 16) (k : BitVec 8), (assoc s.dict.pendingW (i.toNat * 256 + k.toNat)).isSome = true →
    exec (.odWriteEffect i k) s = .next ((s.setDict fun d => { d with
      pendingW := assocErase d.pendingW (i.toNat * 256 + k.toNat) }).entryEffect (i.toNat * 256 + k.toNat)))

/-- The Phoaz rows (R425 to R429, R432 to R434). -/
def Obligations.PhoazCompletes : Prop := ∀ (s u : State) (f : PhoazFrame),
  let key := phKey f.hdr
  (s.phoazTakes f 0x01 false u → u.odReadCheck .field key = 0 → (phoazOrder key (u.odValue key).1).length ≤ 1024 →
    let v := phoazOrder key (u.odValue key).1
    exec (.readReq f.toPhoazText f.tag) s =
      .next (((u.odValue key).2.setDict fun d => { d with snapshot := none }).phoazComplete f 0x02 0 v.length v)) ∧
  (∀ p, s.phoazTakes f 0x08 false u → u.dict.snapshot = some p → p.key = key → phParam f.hdr < p.value.length →
    phParam f.hdr % 1024 = 0 → exec (.segReadReq f.toPhoazText f.tag) s = .next (u.phoazComplete f 0x09
      (if p.value.length ≤ phParam f.hdr + 1024 then 2 else 0) (phParam f.hdr)
        ((p.value.drop (phParam f.hdr)).take 1024))) ∧
  (∀ obs v, s.phoazTakes f 0x03 true u → u.phoazStore f f.body obs = (0, v) →
    exec (.writeReq f.toPhoazText f.tag obs) s = .next (v.phoazComplete f 0x04 0 0 [])) ∧
  (s.phoazTakes f 0x05 true u → u.segInitCheck key (phParam f.hdr) = 0 → u.dict.transfer = none →
    exec (.segWriteInit f.toPhoazText f.tag) s = .next ((u.setDict fun d => { d with
      transfer := some { key := key, total := phParam f.hdr, got := [], frame := u.frame, source := f.src.toNat,
                         trans := phTrans f.hdr }, segRsp := none }).phoazComplete f 0x07 0 0 [])) ∧
  (∀ obs w t, s.phoazWaits f 0x06 w → w.phoazAuth f true = (0, u) → u.dict.transfer = some t → key = t.key →
    phParam f.hdr = t.got.length → f.body.length = 1024 → 1024 < t.total - t.got.length → phLast f.hdr = false →
    exec (.segWrite f.toPhoazText f.tag obs) s = .next ((u.setDict fun d => { d with
      transfer := some { t with got := t.got ++ f.body, frame := u.frame, last := some (t.got.length, 1024),
                                trans := phTrans f.hdr },
      segRsp := some (answerHdr f 0x07 0 0 (t.got ++ f.body).length) }).phoaz f.src.toNat
        (answerHdr f 0x07 0 0 (t.got ++ f.body).length) [])) ∧
  (s.phoazWaits f 0x0A u → exec (.phoazAbort f) s = .next u) ∧
  (∀ e rest, s.phoazWaits f 0x0C u → u.dict.waiting = e :: rest → e.seq = phParam f.hdr → u.dict.sends.isSome = true →
    exec (.eventAck f) s = .next u.nextEvent) ∧
  (s.phoazWaits f 0x0D u → exec (.timeSync f) s =
    .next (u.setDict fun d => { d with timeSync := some (phParam f.hdr, f.stamp) })) ∧
  (∀ w stamp, s.phoazWaits f 0x0E w → phAuth f.hdr = true → w.phoazAuth f true = (0, u) → f.body.length = 10 →
    beNat (f.body.drop 6) < 1000000000 → u.dict.timeSync = some (phParam f.hdr, stamp) → u.timeNs ≤ stamp + 100000000 →
    u.time.state ≠ .synced → u.time.state ≠ .grandmaster → exec (.timeFollow f.toPhoazText f.tag) s =
      .next ((u.setDict fun d => { d with timeSync := none }).publish (publishedNs f.body u.timeNs stamp))) ∧
  (s.phoazWaits f 0x0F u → exec (.discover f) s = .next (u.setDict fun d => { d with
    discover := d.discover ++ [(f.src.toNat, phTrans f.hdr, u.timeNs + u.deviceSerial % 100 * 1000000)] })) ∧
  (s.curatorPaused = false → let v := s.setDict fun d => { d with
      discover := d.discover.filter (fun p => s.timeNs < p.2.2) }
    exec .discoverRsp s = .next ((s.dict.discover.filter (fun p => p.2.2 ≤ s.timeNs)).foldl
      (fun s p => s.phoaz p.1 (phoazHdr 0x10 0 p.2.1 24 0 0 0) s.discoverBody) v)) ∧
  (∀ e rest n t, s.dict.waiting = e :: rest → s.dict.sends = some (n, t) → t + s.cfg Od.eventRetryMs * 1000000 ≤ s.timeNs →
    s.curatorPaused = false → s.masterAddr ≠ phoazGroup →
    (n < s.cfg Od.eventRetryLimit → exec .eventRetry s =
      .next ((s.sendEvent e).setDict fun d => { d with sends := some (n + 1, s.timeNs) })) ∧
    (s.cfg Od.eventRetryLimit ≤ n → exec .eventRetry s = .next (s.bump Od.eventDropCount).nextEvent)) ∧
  (∀ t, s.dict.transfer = some t → t.frame + s.cfg Od.segIdleFrames ≤ s.frame →
    exec (.segIdleTimeout none) s = .next (s.phoazAbandon t abTimeout))

/-- Frames and the time (R23). -/
def Obligations.FrameIsTheTime : Prop := ∀ s : State, s.timeFormed →
  (s.timePs % 100000000 = 0 ↔ s.time.cycle = 0) ∧ s.timeNs = s.timePs / 1000 ∧ s.frame = s.timeNs / 100000 ∧
  s.frameNo = s.frame % 2 ^ 32 ∧
  s.openFrame.timePs = (s.timePs / 100000000 + 1) * 100000000 ∧ s.openFrame.frame = s.frame + 1

/-- Extending a received frame number (R47). -/
def Obligations.FrameNumbersExtend : Prop := ∀ s : State,
  (∀ f < 2 ^ 32, let d := (BitVec.ofNat 32 f - BitVec.ofNat 32 s.frame).toNat
    (s.extend f : Int) = if d < 2 ^ 31 then (s.frame : Int) + d else max 0 ((s.frame : Int) - (2 ^ 32 - d))) ∧
  (∀ n : Nat, n < s.frame + 2 ^ 31 → s.frame ≤ n + 2 ^ 31 → s.extend (n % 2 ^ 32) = n)

/-- Woad's entries (Table 06-7, R161). WOAD_LEVEL's default is the image's and ARRAY_MAP's is the identity. -/
def Obligations.WoadEntriesRefuseWrites : Prop :=
  (∀ e ∈ ([(0x404001, .u16, .ro, false, none), (0x404002, .u32, .const, false, some 16777216),
      (0x404003, .u32, .ro, false, some 16777216), (0x404004, .u64, .ro, false, some 0),
      (0x404005, .u32, .ro, false, some 0), (0x404006, .u32, .ro, true, some 0), (0x404007, .u8, .ro, false, some 128),
      (0x404008, .u8, .ro, false, some 128), (0x404009, .domain, .ro, true, none), (0x40400A, .u32, .ro, true, some 0),
      (0x40400B, .u32, .ro, true, some 0), (0x40400C, .u32, .ro, true, some 0), (0x40400D, .u32, .ro, false, some 0),
      (0x40400E, .u32, .ro, false, some 0), (0x40400F, .u32, .ro, false, some 0), (0x404010, .u64, .ro, true, some 0),
      (0x404011, .u64, .ro, true, some 0)] : List (Nat × OdType × OdAccess × Bool × Option Nat)),
    ∃ r, odRowOf e.1 = some r ∧ r.type = e.2.1 ∧ r.access = e.2.2.1 ∧ r.persist = e.2.2.2.1 ∧
      (∀ d, e.2.2.2.2 = some d → r.ref.dflt = d)) ∧
  (∀ (s : State) (agent : Agent) (auth : Bool) (key : Nat) (bytes : Bytes) (obs : ActionObs),
    0x404001 ≤ key → key ≤ 0x404011 →
    s.odWriteAny agent auth key bytes obs = (abAccess, s.bump Od.odAbortCount))

/-- The receive buffers of a port (R314). -/
def Obligations.CreditSumIsBounded : Prop := ∀ (s : State) (k : Fin 6) (v : BitVec 16) (auth : Bool) (obs : ActionObs),
  s.mainUp = true → s.anyJob = false →
  (if k = 0 then 32 ≤ v.toNat ∧ v.toNat ≤ 256 else 256 ≤ v.toNat ∧ v.toNat ≤ 4096) →
  let value (j : Nat) : Nat := if j = k.val then v.toNat else s.odGet (Od.vcRxCredits j)
  let sum := value 0 + value 1 + value 2 + value 3 + value 4 + value 5
  (sum ≤ 9280 → s.odCheck .hostS (Od.vcRxCredits k.val).key (leBytes 2 v.toNat) = 0) ∧
  (9280 < sum → s.odWriteAny .hostS auth (Od.vcRxCredits k.val).key (leBytes 2 v.toNat) obs =
    (abOutOfRange, s.bump Od.odAbortCount))

/-- The event history (R422, R423). -/
def Obligations.HistoryKeepsTheNewest : Prop := ∀ s : State,
  (∀ index sub detail detail2, let t := s.eventAt index sub detail detail2
    t.dict.eventSeq = (s.dict.eventSeq + 1) % 2 ^ 32 ∧
    t.dict.history = (({ seq := (s.dict.eventSeq + 1) % 2 ^ 32, frame := s.frame, detail := detail % 2 ^ 32,
                         detail2 := detail2 % 2 ^ 32, index := index, sub := sub } : Event) :: s.dict.history).take 64) ∧
  (∃ t, exec .mainPowerLoss s = .next t ∧ t.dict.history = s.dict.history ∧ t.dict.eventSeq = s.dict.eventSeq ∧
    t.dict.waiting = s.dict.waiting) ∧
  (∃ t, exec .aonPowerLoss s = .next t ∧ t.dict.history = [] ∧ t.dict.eventSeq = 0 ∧ t.dict.waiting = [])

/-- Counters saturate and totals wrap (R462). -/
def Obligations.CountersSaturate : Prop := ∀ (s : State) (r q : OdRef) (n : Nat), s.storeFormed →
  ((s.bumpBy r n).odGet r = min (s.odGet r + n) (2 ^ r.width - 1)) ∧
  (s.odGet r = 2 ^ r.width - 1 → (s.bumpBy r n).odGet r = s.odGet r) ∧
  (r.width = 64 → (s.total r n).odGet r = (s.odGet r + n) % 2 ^ 64) ∧
  (q.key ≠ r.key → (s.bumpBy r n).odGet q = s.odGet q ∧ (s.total r n).odGet q = s.odGet q)
end

