-- ==== Sys2Proof/Laws/Kept.lean ====
section
/-!
SUPPORT. `Kept s₀ s`: the state s, reached from s₀ inside one command, has the queue of s₀, has sent what s₀ had sent, has
drawn no fewer free values, and is well formed if s₀ is. Here stand its ways through the model's control structures and through
the shared operations; the files Kept… hold one lemma for each operation built on them.
-/
namespace Sys2Proof.Machine

/-- What every operation of the model keeps. -/
def Kept (s₀ s : State) : Prop := s₀.follows s ∧ (s₀.formed → s.formed)

/-- A command goes on, and keeps what every operation keeps. -/
def KeptOut (s₀ : State) (o : Out) : Prop := ∃ t, o = .next t ∧ Kept s₀ t

theorem Kept.refl (s : State) : Kept s s := ⟨⟨rfl, List.suffix_refl _, Nat.le_refl _⟩, id⟩

theorem Kept.out {s₀ s : State} (h : Kept s₀ s) : KeptOut s₀ (.next s) := ⟨s, rfl, h⟩

theorem Kept.trans {a b c : State} (h : Kept a b) (k : Kept b c) : Kept a c :=
  ⟨⟨k.1.1.trans h.1.1, h.1.2.1.trans k.1.2.1, Nat.le_trans h.1.2.2 k.1.2.2⟩, fun f => k.2 (h.2 f)⟩

/-- A state that differs in fields that no part of `Kept` reads. -/
theorem Kept.upd {s₀ s e : State} (hp : s.pending = e.pending) (ho : s.outbox = e.outbox) (hf : s.freeCtr = e.freeCtr)
    (hod : s.od = e.od) (hb : s.battery.store = e.battery.store) (hh : s.dict.history = e.dict.history)
    (hw : s.dict.waiting = e.dict.waiting) (hg : s.colls.groups = e.colls.groups) (hc : s.time.cycle = e.time.cycle)
    (hs : s.sync.words = e.sync.words) (h : Kept s₀ e) : Kept s₀ s := by
  obtain ⟨⟨a, b, c⟩, d⟩ := h
  refine ⟨⟨hp.trans a, ho ▸ b, hf ▸ c⟩, fun f => ?_⟩
  have d := d f
  simp only [State.formed, State.timeFormed, State.storeFormed, State.batteryFormed, State.syncFormed, hod, hb, hh, hw, hg, hc, hs] at d ⊢
  exact d

/-- A state whose event lists hold no more than they may. -/
theorem Kept.events {s₀ s e : State} (hp : s.pending = e.pending) (ho : s.outbox = e.outbox) (hf : s.freeCtr = e.freeCtr)
    (hod : s.od = e.od) (hb : s.battery.store = e.battery.store)
    (hh : e.dict.history.length ≤ 64 → s.dict.history.length ≤ 64)
    (hw : e.dict.waiting.length ≤ 64 → s.dict.waiting.length ≤ 64) (hg : s.colls.groups = e.colls.groups)
    (hc : s.time.cycle = e.time.cycle) (hs : s.sync.words = e.sync.words) (h : Kept s₀ e) : Kept s₀ s := by
  obtain ⟨⟨a, b, c⟩, d⟩ := h
  refine ⟨⟨hp.trans a, ho ▸ b, hf ▸ c⟩, fun f => ?_⟩
  obtain ⟨d1, d2, d3, d4, d5, d6, d7⟩ := d f
  refine ⟨?_, ?_, ?_, hh d4, hw d5, ?_, ?_⟩
  · rw [State.timeFormed, hc]; exact d1
  · rw [State.storeFormed, hod]; exact d2
  · rw [State.batteryFormed, hb]; exact d3
  · rw [hg]; exact d6
  · rw [State.syncFormed, hs]; exact d7

/-- A state whose dictionary part comes from elsewhere in the same command. -/
theorem Kept.dictOf {s₀ s e d : State} (hp : s.pending = e.pending) (ho : s.outbox = e.outbox) (hf : s.freeCtr = e.freeCtr)
    (hod : s.od = e.od) (hb : s.battery.store = e.battery.store) (hh : s.dict.history = d.dict.history)
    (hw : s.dict.waiting = d.dict.waiting) (hg : s.colls.groups = e.colls.groups) (hc : s.time.cycle = e.time.cycle)
    (hs : s.sync.words = e.sync.words) (h : Kept s₀ e) (k : Kept s₀ d) : Kept s₀ s := by
  obtain ⟨⟨a, b, c⟩, x⟩ := h
  refine ⟨⟨hp.trans a, ho ▸ b, hf ▸ c⟩, fun f => ?_⟩
  obtain ⟨d1, d2, d3, d4, d5, d6, d7⟩ := x f
  refine ⟨?_, ?_, ?_, hh ▸ (k.2 f).2.2.2.1, hw ▸ (k.2 f).2.2.2.2.1, ?_, ?_⟩
  · rw [State.timeFormed, hc]; exact d1
  · rw [State.storeFormed, hod]; exact d2
  · rw [State.batteryFormed, hb]; exact d3
  · rw [hg]; exact d6
  · rw [State.syncFormed, hs]; exact d7

/-- The same for a record written out. -/
theorem Kept.mk {s₀ e : State} {time : TimeUnit} {carrier : Carrier} {sched : Sched} {jobs : Vector Job 4}
    {update : UpdateUnit} {woad : Woad} {madder : Madder} {gallery : Gallery} {welds : Vector Weld 4} {vault : Vault}
    {colls : Colls} {fabric : Fabric} {sec : Security} {docent : Docent} {sync : SyncMem} {mboxes : Vector Mailbox 16}
    {curator : Curator} {battery : Battery} {dict : Dictionary} {service : Service} {elec : Electrical}
    {od : List (Nat × Nat)} {raised : List W1c} {pending : List Instr} {outbox : List OutMsg} {freeCtr : Nat}
    (hp : pending = e.pending) (ho : outbox = e.outbox) (hf : freeCtr = e.freeCtr)
    (hod : od = e.od) (hb : battery.store = e.battery.store) (hh : dict.history = e.dict.history)
    (hw : dict.waiting = e.dict.waiting) (hg : colls.groups = e.colls.groups) (hc : time.cycle = e.time.cycle)
    (hs : sync.words = e.sync.words) (h : Kept s₀ e) :
    Kept s₀ (State.mk time carrier sched jobs update woad madder gallery welds vault colls fabric sec docent sync mboxes curator battery dict service elec od raised pending outbox freeCtr) :=
  Kept.upd hp ho hf hod hb hh hw hg hc hs h

/-- A new time of the frame that is a cycle of it. -/
theorem Kept.timeTo {s₀ s : State} {f : TimeUnit → TimeUnit} (hf : s.timeFormed → (s.setTime f).timeFormed) (h : Kept s₀ s) :
    Kept s₀ (s.setTime f) := ⟨h.1, fun k => ⟨hf (h.2 k).1, (h.2 k).2⟩⟩

/-- One more free value is drawn. -/
theorem Kept.drawn {s₀ s : State} (h : Kept s₀ s) : Kept s₀ { s with freeCtr := s.freeCtr + 1 } :=
  ⟨⟨h.1.1, h.1.2.1, Nat.le_succ_of_le h.1.2.2⟩, h.2⟩

/-- New groups, no more than there may be. -/
theorem Kept.groupsTo {s₀ s : State} {f : Colls → Colls} (hf : s.colls.groups.length ≤ 8 → (f s.colls).groups.length ≤ 8)
    (h : Kept s₀ s) : Kept s₀ (s.setColls f) :=
  ⟨h.1, fun k => ⟨(h.2 k).1, (h.2 k).2.1, (h.2 k).2.2.1, (h.2 k).2.2.2.1, (h.2 k).2.2.2.2.1, hf (h.2 k).2.2.2.2.2.1, (h.2 k).2.2.2.2.2.2⟩⟩

theorem Kept.ite {s₀ a b : State} {c : Prop} [Decidable c] (ha : Kept s₀ a) (hb : Kept s₀ b) :
    Kept s₀ (if c then a else b) := by split <;> assumption

theorem Kept.dite {s₀ : State} {c : Prop} [Decidable c] {a : c → State} {b : ¬c → State} (ha : ∀ h, Kept s₀ (a h))
    (hb : ∀ h, Kept s₀ (b h)) : Kept s₀ (if h : c then a h else b h) := by
  by_cases h : c
  · rw [dif_pos h]; exact ha h
  · rw [dif_neg h]; exact hb h

theorem Kept.cond {s₀ a b : State} {c : Bool} (ha : Kept s₀ a) (hb : Kept s₀ b) : Kept s₀ (bif c then a else b) := by
  cases c <;> assumption

theorem KeptOut.ite {s₀ : State} {a b : Out} {c : Prop} [Decidable c] (ha : KeptOut s₀ a) (hb : KeptOut s₀ b) :
    KeptOut s₀ (if c then a else b) := by split <;> assumption

theorem Kept.ite_snd {α : Type} {s₀ : State} {a b : α × State} {c : Prop} [Decidable c] (ha : Kept s₀ a.2)
    (hb : Kept s₀ b.2) : Kept s₀ (if c then a else b).2 := by split <;> assumption

theorem Kept.ite_fst {α : Type} {s₀ : State} {a b : State × α} {c : Prop} [Decidable c] (ha : Kept s₀ a.1)
    (hb : Kept s₀ b.1) : Kept s₀ (if c then a else b).1 := by split <;> assumption

theorem Kept.of_snd {α : Type} {s₀ s : State} {p : α × State} {a : α} (e : p = (a, s)) (h : Kept s₀ p.2) : Kept s₀ s := by
  subst e; exact h

theorem Kept.of_fst {α : Type} {s₀ s : State} {p : State × α} {a : α} (e : p = (s, a)) (h : Kept s₀ p.1) : Kept s₀ s := by
  subst e; exact h

/-- A partial operation keeps what is kept wherever it answers. -/
def KeptOpt (s₀ : State) (o : Option State) : Prop := ∀ t, o = some t → Kept s₀ t

theorem Kept.of_some {s₀ s : State} {o : Option State} (e : o = some s) (h : KeptOpt s₀ o) : Kept s₀ s := h s e

theorem KeptOpt.none {s₀ : State} : KeptOpt s₀ none := fun _ e => (Option.some_ne_none _ e.symm).elim

theorem KeptOpt.some {s₀ s : State} (h : Kept s₀ s) : KeptOpt s₀ (some s) := fun _ e => Option.some.inj e ▸ h

theorem KeptOpt.bind {s₀ : State} {α : Type} {o : Option α} {f : α → Option State} (h : ∀ a, KeptOpt s₀ (f a)) :
    KeptOpt s₀ (o.bind f) := by
  cases o with
  | none => exact KeptOpt.none
  | some a => exact h a

theorem KeptOpt.ite {s₀ : State} {a b : Option State} {c : Prop} [Decidable c] (ha : KeptOpt s₀ a) (hb : KeptOpt s₀ b) :
    KeptOpt s₀ (if c then a else b) := by split <;> assumption

theorem Kept.foldl {α : Type} {s₀ s : State} {l : List α} {f : State → α → State}
    (hf : ∀ s a, Kept s₀ s → Kept s₀ (f s a)) (h : Kept s₀ s) : Kept s₀ (l.foldl f s) := by
  induction l generalizing s with
  | nil => exact h
  | cons a l ih => exact ih (hf s a h)

theorem Kept.foldl_snd {α β : Type} {s₀ : State} {l : List α} {f : β × State → α → β × State} {p : β × State}
    (hf : ∀ p a, Kept s₀ p.2 → Kept s₀ (f p a).2) (h : Kept s₀ p.2) : Kept s₀ (l.foldl f p).2 := by
  induction l generalizing p with
  | nil => exact h
  | cons a l ih => exact ih (hf p a h)

theorem Kept.foldl_fst {α β : Type} {s₀ : State} {l : List α} {f : State × β → α → State × β} {p : State × β}
    (hf : ∀ p a, Kept s₀ p.1 → Kept s₀ (f p a).1) (h : Kept s₀ p.1) : Kept s₀ (l.foldl f p).1 := by
  induction l generalizing p with
  | nil => exact h
  | cons a l ih => exact ih (hf p a h)

/-! The keyed lists -/

theorem mem_keys_assocSet {α : Type} {l : List (Nat × α)} {k x : Nat} {v : α} (h : x ∈ (assocSet l k v).map (·.1)) :
    x = k ∨ x ∈ l.map (·.1) := by
  induction l with
  | nil => simp [assocSet] at h; exact .inl h
  | cons p l ih =>
    simp only [assocSet] at h
    split at h
    · simpa using h
    · split at h
      · simp at h; rcases h with h | h
        · exact .inl h
        · exact .inr (by simp [h])
      · simp at h; rcases h with h | h
        · exact .inr (by simp [h])
        · rcases ih (by simpa using h) with h | h
          · exact .inl h
          · exact .inr (by simp at h ⊢; exact .inr h)

theorem mem_assocSet {α : Type} {l : List (Nat × α)} {k : Nat} {v : α} {p : Nat × α} (h : p ∈ assocSet l k v) :
    p = (k, v) ∨ p ∈ l := by
  induction l with
  | nil => simpa [assocSet] using h
  | cons q l ih =>
    simp only [assocSet] at h
    split at h
    · simpa using h
    · split at h
      · rcases List.mem_cons.1 h with h | h
        · exact .inl h
        · exact .inr (List.mem_cons_of_mem _ h)
      · rcases List.mem_cons.1 h with h | h
        · exact .inr (h ▸ List.mem_cons_self)
        · exact (ih h).imp id (List.mem_cons_of_mem _)

theorem assocSet_sorted {α : Type} {l : List (Nat × α)} (k : Nat) (v : α) (h : (l.map (·.1)).Pairwise (· < ·)) :
    ((assocSet l k v).map (·.1)).Pairwise (· < ·) := by
  induction l with
  | nil => simp [assocSet]
  | cons p l ih =>
    obtain ⟨a, x⟩ := p
    simp only [List.map_cons, List.pairwise_cons] at h
    simp only [assocSet]
    split
    · rename_i c
      simp only [List.map_cons, List.pairwise_cons]
      refine ⟨fun y hy => ?_, h⟩
      rcases List.mem_cons.1 hy with rfl | hy
      · exact c
      · exact Nat.lt_trans c (h.1 y hy)
    · split
      · rename_i c d
        simp only [List.map_cons, List.pairwise_cons]
        exact ⟨fun y hy => (beq_iff_eq.1 d) ▸ h.1 y hy, h.2⟩
      · rename_i c d
        simp only [List.map_cons, List.pairwise_cons]
        refine ⟨fun y hy => ?_, ih h.2⟩
        rcases mem_keys_assocSet hy with rfl | hy
        · have : y ≠ a := fun e => d (beq_iff_eq.2 e)
          omega
        · exact h.1 y hy

theorem filter_sorted {α : Type} {l : List (Nat × α)} (p : Nat × α → Bool) (h : (l.map (·.1)).Pairwise (· < ·)) :
    ((l.filter p).map (·.1)).Pairwise (· < ·) :=
  List.Pairwise.sublist (List.filter_sublist.map _) h

theorem assocErase_sorted {α : Type} {l : List (Nat × α)} (k : Nat) (h : (l.map (·.1)).Pairwise (· < ·)) :
    ((assocErase l k).map (·.1)).Pairwise (· < ·) := filter_sorted _ h

/-- Reading a keyed list after a set: the key set answers the value, every other key what it answered. -/
theorem assoc_assocSet {α : Type} (l : List (Nat × α)) (k x : Nat) (v : α) (h : (l.map (·.1)).Pairwise (· < ·)) :
    assoc (assocSet l k v) x = if x = k then some v else assoc l x := by
  induction l with
  | nil =>
    by_cases e : x = k
    · simp [assocSet, assoc, e]
    · simp [assocSet, assoc, e, Ne.symm e]
  | cons p l ih =>
    obtain ⟨a, y⟩ := p
    simp only [List.map_cons, List.pairwise_cons] at h
    have ih := ih h.2
    simp only [assocSet]
    split
    · by_cases e : x = k
      · simp [assoc, e]
      · simp [assoc, List.find?_cons, e, Ne.symm e]
    · split
      · rename_i c d
        have d := beq_iff_eq.1 d
        by_cases e : x = k
        · simp [assoc, e]
        · have : ¬ a = x := fun q => e (by omega)
          simp [assoc, e, Ne.symm e, this]
      · rename_i c d
        have d : ¬ k = a := fun q => d (beq_iff_eq.2 q)
        by_cases q : a = x
        · have e : ¬ x = k := by omega
          simp [assoc, q, e]
        · have e : assoc ((a, y) :: assocSet l k v) x = assoc (assocSet l k v) x := by
            simp [assoc, q]
          have f : assoc ((a, y) :: l) x = assoc l x := by simp [assoc, q]
          rw [e, f, ih]

/-- Reading a keyed list after a key is taken out. -/
theorem assoc_assocErase {α : Type} (l : List (Nat × α)) (k x : Nat) :
    assoc (assocErase l k) x = if x = k then none else assoc l x := by
  induction l with
  | nil => simp [assoc, assocErase]
  | cons p l ih =>
    obtain ⟨a, y⟩ := p
    simp only [assoc, assocErase] at ih ⊢
    by_cases c : a = k
    · simp only [List.filter_cons, c, bne_self_eq_false, Bool.false_eq_true, ite_false, List.find?_cons]
      rw [ih]
      by_cases e : x = k
      · simp [e]
      · have : (k == x) = false := by simpa using Ne.symm e
        simp [e, this]
    · have : (a != k) = true := by simp [c]
      simp only [List.filter_cons, this, ite_true, List.find?_cons]
      by_cases q : a = x
      · have e : ¬ x = k := by omega
        simp [q, e]
      · have : (a == x) = false := by simp [q]
        simp only [this]
        exact ih

end Sys2Proof.Machine
end

