-- ==== Sys2Proof/Laws/KeptCore.lean ====
section
/-!
SUPPORT. `Kept` of the shared operations, tasks, time, scores and the dictionary: one lemma for each operation.
-/
namespace Sys2Proof.Machine

theorem State.raise_kept {s₀ s : State} {b : W1c} (hK : Kept s₀ s) :
    Kept s₀ (State.raise s b) := by
  unfold State.raise
  repeat' first | (with_reducible apply_assumption -exfalso -symm)

theorem State.newCycle_kept {s₀ s : State} (hK : Kept s₀ s) :
    Kept s₀ (State.newCycle s) := by
  unfold State.newCycle
  repeat' first | (with_reducible apply_assumption -exfalso -symm)

theorem State.odSet_kept {s₀ s : State} {r : OdRef} {v : Nat} (h : Kept s₀ s) : Kept s₀ (s.odSet r v) := by
  refine ⟨h.1, fun f => ?_⟩
  obtain ⟨a, b, c⟩ := h.2 f
  refine ⟨a, ?_, c⟩
  unfold State.odSet State.storeFormed
  dsimp only
  split
  · exact assocErase_sorted _ b
  · exact assocSet_sorted _ _ b

theorem State.bumpBy_kept {s₀ s : State} {r : OdRef} {n : Nat} (hK : Kept s₀ s) :
    Kept s₀ (State.bumpBy s r n) := by
  unfold State.bumpBy
  with_reducible repeat' first | assumption | apply State.odSet_kept

theorem State.bump_kept {s₀ s : State} {r : OdRef} (hK : Kept s₀ s) :
    Kept s₀ (State.bump s r) := by
  unfold State.bump
  with_reducible repeat' first | assumption | apply State.bumpBy_kept

theorem State.total_kept {s₀ s : State} {r : OdRef} {n : Nat} (hK : Kept s₀ s) :
    Kept s₀ (State.total s r n) := by
  unfold State.total
  with_reducible repeat' first | assumption | apply State.odSet_kept

theorem State.send_kept {s₀ s : State} {m : OutMsg} (h : Kept s₀ s) : Kept s₀ (s.send m) :=
  ⟨⟨h.1.1, h.1.2.1.trans (List.suffix_cons _ _), h.1.2.2⟩, h.2⟩

theorem State.free_kept {s₀ s : State} (h : Kept s₀ s) : Kept s₀ s.free.2 :=
  ⟨⟨h.1.1, h.1.2.1, Nat.le_succ_of_le h.1.2.2⟩, h.2⟩

theorem State.freeMore_kept {s₀ s : State} {n : Nat} (h : Kept s₀ s) : Kept s₀ (s.freeMore n) :=
  ⟨⟨h.1.1, h.1.2.1, Nat.le_trans h.1.2.2 (Nat.le_add_right _ _)⟩, h.2⟩

theorem State.intr_kept {s₀ s : State} {vector : Nat} (hK : Kept s₀ s) :
    Kept s₀ (State.intr s vector) := by
  unfold State.intr
  with_reducible repeat' first | assumption | apply State.send_kept

theorem State.ringE2h_kept {s₀ s : State} {ch : Nat} {bits : BitVec 32} (hK : Kept s₀ s) :
    Kept s₀ (State.ringE2h s ch bits) := by
  unfold State.ringE2h
  with_reducible repeat' first | intro _ | apply State.intr_kept | apply Kept.ite | apply Kept.dite | apply Kept.foldl | apply_assumption -exfalso -symm

theorem State.barrierDown_kept {s₀ s : State} {type : Nat} {payload : Bytes} (hK : Kept s₀ s) :
    Kept s₀ (State.barrierDown s type payload) := by
  unfold State.barrierDown
  repeat' first | (with_reducible apply State.send_kept) | (extract_lets +onlyGivenNames z; first | (refine (fun hz : Kept s₀ z => ?_) ?_; clear_value z; revert z; intro _ _; rotate_left; unfold z; clear z; rotate_right) | (clear_value z; revert z; intro _)) | (with_reducible apply_assumption -exfalso -symm)

theorem State.phoaz_kept {s₀ s : State} {dst : Nat} {hdr : BitVec 128} {body : Bytes} (hK : Kept s₀ s) :
    Kept s₀ (State.phoaz s dst hdr body) := by
  unfold State.phoaz
  with_reducible repeat' first | assumption | apply State.barrierDown_kept

theorem State.sendEvent_kept {s₀ s : State} {e : Event} (hK : Kept s₀ s) :
    Kept s₀ (State.sendEvent s e) := by
  unfold State.sendEvent
  with_reducible repeat' first | assumption | apply State.phoaz_kept

theorem State.startEvent_kept {s₀ s : State} (h : Kept s₀ s) : Kept s₀ s.startEvent := by
  unfold State.startEvent
  split
  · exact Kept.dictOf (e := s.sendEvent _) (d := s) rfl rfl rfl rfl rfl rfl rfl rfl rfl rfl (State.sendEvent_kept h) h
  · exact h

theorem State.eventToField_kept {s₀ s : State} {e : Event} (h : Kept s₀ s) : Kept s₀ (s.eventToField e) := by
  unfold State.eventToField
  split
  · exact h
  · split
    · exact State.sendEvent_kept h
    · split
      · rename_i c
        refine State.startEvent_kept (Kept.events (e := s) rfl rfl rfl rfl rfl id (fun _ => ?_) rfl rfl rfl h)
        simp only [List.length_append, List.length_cons, List.length_nil]
        omega
      · refine State.startEvent_kept (State.bump_kept (Kept.events (e := s) rfl rfl rfl rfl rfl id (fun k => ?_) rfl rfl rfl h))
        simp only [List.length_append, List.length_drop, List.length_cons, List.length_nil]
        omega

theorem State.eventAt_kept {s₀ s : State} {index sub detail detail2 : Nat} (h : Kept s₀ s) :
    Kept s₀ (s.eventAt index sub detail detail2) := by
  unfold State.eventAt
  extract_lets q e d s1 s2
  have h1 : Kept s₀ s1 := Kept.events (e := s) rfl rfl rfl rfl rfl (fun _ => by
    simp only [s1, List.length_take]; omega) id rfl rfl rfl h
  refine State.eventToField_kept ?_
  repeat' (first | exact h1 | (with_reducible apply Kept.ite) | (with_reducible apply State.ringE2h_kept) | unfold s2)

theorem State.event_kept {s₀ s : State} {r : OdRef} {detail : optParam Nat 0} {detail2 : optParam Nat 0} (hK : Kept s₀ s) :
    Kept s₀ (State.event s r detail detail2) := by
  unfold State.event
  with_reducible repeat' first | assumption | apply State.eventAt_kept

theorem State.countEvent_kept {s₀ s : State} {r : OdRef} {detail : optParam Nat 0} {detail2 : optParam Nat 0} (hK : Kept s₀ s) :
    Kept s₀ (State.countEvent s r detail detail2) := by
  unfold State.countEvent
  with_reducible repeat' first | assumption | apply State.event_kept | apply State.bump_kept

theorem State.setJob_kept {s₀ s : State} {j : JobId} {f : Job → Job} (hK : Kept s₀ s) :
    Kept s₀ (State.setJob s j f) := by
  unfold State.setJob
  repeat' first | (with_reducible apply_assumption -exfalso -symm)

theorem State.setWeld_kept {s₀ s : State} {j : JobId} {f : Weld → Weld} (hK : Kept s₀ s) :
    Kept s₀ (State.setWeld s j f) := by
  unfold State.setWeld
  repeat' first | (with_reducible apply_assumption -exfalso -symm)

theorem State.writeRecord_kept {s₀ s : State} {j : JobId} {f : JobRecord → JobRecord} (hK : Kept s₀ s) :
    Kept s₀ (State.writeRecord s j f) := by
  unfold State.writeRecord
  with_reducible repeat' first | apply Kept.ite | apply_assumption -exfalso -symm

theorem State.setSched_kept {s₀ s : State} {f : Sched → Sched} (h : Kept s₀ s) : Kept s₀ (s.setSched f) :=
  Kept.mk rfl rfl rfl rfl rfl rfl rfl rfl rfl rfl h

theorem State.setCarrier_kept {s₀ s : State} {f : Carrier → Carrier} (h : Kept s₀ s) : Kept s₀ (s.setCarrier f) :=
  Kept.mk rfl rfl rfl rfl rfl rfl rfl rfl rfl rfl h

theorem State.setTime_kept {s₀ s : State} {f : TimeUnit → TimeUnit} (hf : (f s.time).cycle = s.time.cycle) (h : Kept s₀ s) :
    Kept s₀ (s.setTime f) := Kept.mk rfl rfl rfl rfl rfl rfl rfl rfl hf rfl h

theorem State.setUpdate_kept {s₀ s : State} {f : UpdateUnit → UpdateUnit} (h : Kept s₀ s) : Kept s₀ (s.setUpdate f) :=
  Kept.mk rfl rfl rfl rfl rfl rfl rfl rfl rfl rfl h

theorem State.setWoad_kept {s₀ s : State} {f : Woad → Woad} (h : Kept s₀ s) : Kept s₀ (s.setWoad f) :=
  Kept.mk rfl rfl rfl rfl rfl rfl rfl rfl rfl rfl h

theorem State.setMadder_kept {s₀ s : State} {f : Madder → Madder} (h : Kept s₀ s) : Kept s₀ (s.setMadder f) :=
  Kept.mk rfl rfl rfl rfl rfl rfl rfl rfl rfl rfl h

theorem State.setGallery_kept {s₀ s : State} {f : Gallery → Gallery} (h : Kept s₀ s) : Kept s₀ (s.setGallery f) :=
  Kept.mk rfl rfl rfl rfl rfl rfl rfl rfl rfl rfl h

theorem State.setVault_kept {s₀ s : State} {f : Vault → Vault} (h : Kept s₀ s) : Kept s₀ (s.setVault f) :=
  Kept.mk rfl rfl rfl rfl rfl rfl rfl rfl rfl rfl h

theorem State.setColls_kept {s₀ s : State} {f : Colls → Colls} (hg : (f s.colls).groups = s.colls.groups) (h : Kept s₀ s) :
    Kept s₀ (s.setColls f) := Kept.mk rfl rfl rfl rfl rfl rfl rfl hg rfl rfl h

theorem State.setFabric_kept {s₀ s : State} {f : Fabric → Fabric} (h : Kept s₀ s) : Kept s₀ (s.setFabric f) :=
  Kept.mk rfl rfl rfl rfl rfl rfl rfl rfl rfl rfl h

theorem State.setSec_kept {s₀ s : State} {f : Security → Security} (h : Kept s₀ s) : Kept s₀ (s.setSec f) :=
  Kept.mk rfl rfl rfl rfl rfl rfl rfl rfl rfl rfl h

theorem State.setDict_kept {s₀ s : State} {f : Dictionary → Dictionary} (hh : (f s.dict).history = s.dict.history)
    (hw : (f s.dict).waiting = s.dict.waiting) (h : Kept s₀ s) : Kept s₀ (s.setDict f) :=
  Kept.mk rfl rfl rfl rfl rfl hh hw rfl rfl rfl h

theorem State.setCurator_kept {s₀ s : State} {f : Curator → Curator} (h : Kept s₀ s) : Kept s₀ (s.setCurator f) :=
  Kept.mk rfl rfl rfl rfl rfl rfl rfl rfl rfl rfl h

theorem State.setBattery_kept {s₀ s : State} {f : Battery → Battery} (hb : (f s.battery).store = s.battery.store)
    (h : Kept s₀ s) : Kept s₀ (s.setBattery f) := Kept.mk rfl rfl rfl rfl hb rfl rfl rfl rfl rfl h

theorem State.odStore_kept {s₀ s : State} {r : OdRef} {v : Nat} (h : Kept s₀ s) : Kept s₀ (s.odStore r v) := by
  refine ⟨h.1, fun f => ?_⟩
  obtain ⟨a, b, c, d⟩ := h.2 f
  refine ⟨a, b, ?_, d⟩
  unfold State.odStore State.batteryFormed State.setBattery
  dsimp only
  split
  · exact assocErase_sorted _ c
  · exact assocSet_sorted _ _ c

theorem State.odSetP_kept {s₀ s : State} {r : OdRef} {v : Nat} (hK : Kept s₀ s) :
    Kept s₀ (State.odSetP s r v) := by
  unfold State.odSetP
  with_reducible repeat' first | assumption | apply State.odStore_kept | apply State.odSet_kept

theorem State.setService_kept {s₀ s : State} {f : Service → Service} (h : Kept s₀ s) : Kept s₀ (s.setService f) :=
  Kept.mk rfl rfl rfl rfl rfl rfl rfl rfl rfl rfl h

theorem State.wakeUp_kept {s₀ s : State} (hK : Kept s₀ s) :
    Kept s₀ (State.wakeUp s) := by
  unfold State.wakeUp
  with_reducible repeat' first | assumption | apply State.setSched_kept | apply Kept.ite

theorem State.idle_kept {s₀ s : State} (h : Kept s₀ s) : Kept s₀ s.idle := by
  refine ⟨?_, fun f => ?_⟩
  · unfold State.idle; split <;> exact h.1
  · have k := h.2 f
    unfold State.idle
    split
    · rename_i c
      simp only [Bool.and_eq_true, decide_eq_true_eq] at c
      exact ⟨by show s.time.cycle + 1 < 160000; omega, k.2⟩
    · exact k

theorem State.setTask_kept {s₀ s : State} {id : Nat} {f : Task → Task} (hK : Kept s₀ s) :
    Kept s₀ (State.setTask s id f) := by
  unfold State.setTask
  with_reducible repeat' first | assumption | apply State.setSched_kept

theorem State.setTag_kept {s₀ s : State} {o : Host2} {tag : Nat} {v : TagState} (hK : Kept s₀ s) :
    Kept s₀ (State.setTag s o tag v) := by
  unfold State.setTag
  with_reducible repeat' first | assumption | apply State.setSched_kept

theorem State.setQp_kept {s₀ s : State} {q : Nat} {f : QueuePair → QueuePair} (hK : Kept s₀ s) :
    Kept s₀ (State.setQp s q f) := by
  unfold State.setQp
  with_reducible repeat' first | assumption | apply State.setSched_kept

theorem State.mrd_kept {s₀ s : State} {owner : ReqOwner} {addr : Nat} {len : Nat} {extent : Option (Nat × Nat)} {secure : Bool} (hK : Kept s₀ s) :
    Kept s₀ (State.mrd s owner addr len extent secure) := by
  unfold State.mrd
  repeat' first | (with_reducible apply State.send_kept) | (extract_lets +onlyGivenNames z; first | (refine (fun hz : Kept s₀ z => ?_) ?_; clear_value z; revert z; intro _ _; rotate_left; unfold z; clear z; rotate_right) | (clear_value z; revert z; intro _)) | (with_reducible apply_assumption -exfalso -symm)

theorem State.mwr_kept {s₀ s : State} {owner : ReqOwner} {addr : Nat} {len : Nat} {cells : List (Nat × Byte)} {extent : Option (Nat × Nat)} {secure : Bool} (hK : Kept s₀ s) :
    Kept s₀ (State.mwr s owner addr len cells extent secure) := by
  unfold State.mwr
  repeat' first | (with_reducible apply State.send_kept) | (extract_lets +onlyGivenNames z; first | (refine (fun hz : Kept s₀ z => ?_) ?_; clear_value z; revert z; intro _ _; rotate_left; unfold z; clear z; rotate_right) | (clear_value z; revert z; intro _)) | (with_reducible apply_assumption -exfalso -symm)

theorem State.cqWriteOne_kept {s₀ s : State} {q : Nat} {p : QueuePair} {e : HeldEntry} (hK : Kept s₀ s) :
    Kept s₀ (State.cqWriteOne s q p e) := by
  unfold State.cqWriteOne
  with_reducible repeat' first | assumption | apply State.mwr_kept | apply State.setQp_kept

theorem State.cqPump_kept {s₀ s : State} {q : Nat} (hK : Kept s₀ s) :
    Kept s₀ (State.cqPump s q) := by
  unfold State.cqPump
  repeat' first | (with_reducible first | assumption | apply State.cqWriteOne_kept | apply Kept.ite) | split

theorem State.putEntry_kept {s₀ s : State} {q : Nat} {e : HeldEntry} (hK : Kept s₀ s) :
    Kept s₀ (State.putEntry s q e) := by
  unfold State.putEntry
  with_reducible repeat' first | assumption | apply State.cqPump_kept | apply State.setQp_kept

theorem State.observeSync_kept {s₀ s : State} (hK : Kept s₀ s) :
    Kept s₀ (State.observeSync s) := by
  unfold State.observeSync
  with_reducible repeat' first | assumption | apply State.setSched_kept

theorem State.addFault_kept {s₀ s : State} {job : Nat} {step : Nat} {f : StepFaults → StepFaults} (hK : Kept s₀ s) :
    Kept s₀ (State.addFault s job step f) := by
  unfold State.addFault
  repeat' first | (with_reducible first | assumption | apply State.setColls_kept | rfl) | split

theorem State.noteStep_kept {s₀ s : State} {t : Task} {status : Nat} (hK : Kept s₀ s) :
    Kept s₀ (State.noteStep s t status) := by
  unfold State.noteStep
  with_reducible repeat' first | assumption | apply State.addFault_kept | apply Kept.ite

theorem State.markStale_kept {s₀ s : State} {j : JobId} {master : Nat} {idx : List Nat} {skip : Nat} (hK : Kept s₀ s) :
    Kept s₀ (State.markStale s j master idx skip) := by
  unfold State.markStale
  with_reducible repeat' first | assumption | apply State.setWeld_kept

theorem State.askCopies_kept {s₀ s : State} {j : JobId} {spans : List (Nat × Nat)} (hK : Kept s₀ s) :
    Kept s₀ (State.askCopies s j spans) := by
  unfold State.askCopies
  with_reducible repeat' first | assumption | apply State.setWeld_kept

theorem State.noteApply_kept {s₀ s : State} {t : Task} {status : Nat} (hK : Kept s₀ s) :
    Kept s₀ (State.noteApply s t status) := by
  unfold State.noteApply
  repeat' first | (with_reducible first | assumption | apply State.setWeld_kept | apply State.askCopies_kept | apply State.markStale_kept | apply Kept.ite) | split

theorem State.noteLedger_kept {s₀ s : State} {t : Task} {status : Nat} (hK : Kept s₀ s) :
    Kept s₀ (State.noteLedger s t status) := by
  unfold State.noteLedger
  with_reducible repeat' first | assumption | apply State.setWeld_kept | apply Kept.ite

theorem State.abandonAcc_kept {s₀ s : State} {job : Nat} {id : Nat} (hK : Kept s₀ s) :
    Kept s₀ (State.abandonAcc s job id) := by
  unfold State.abandonAcc
  with_reducible repeat' first | assumption | apply State.setVault_kept | apply State.setMadder_kept

theorem State.noteSeal_kept {s₀ s : State} {t : Task} {status : Nat} (hK : Kept s₀ s) :
    Kept s₀ (State.noteSeal s t status) := by
  unfold State.noteSeal
  with_reducible repeat' first | assumption | apply State.setVault_kept | apply State.abandonAcc_kept | apply Kept.ite

theorem State.dropTaps_kept {s₀ s : State} {task : Nat} (hK : Kept s₀ s) :
    Kept s₀ (State.dropTaps s task) := by
  unfold State.dropTaps
  with_reducible repeat' first | assumption | apply State.setVault_kept

theorem State.noteEnd_kept {s₀ s : State} {t : Task} {status : Nat} (hK : Kept s₀ s) :
    Kept s₀ (State.noteEnd s t status) := by
  unfold State.noteEnd
  with_reducible repeat' first | assumption | apply State.noteStep_kept | apply State.noteApply_kept | apply State.noteLedger_kept | apply State.noteSeal_kept | apply State.dropTaps_kept | apply State.setUpdate_kept | apply Kept.ite

theorem State.endTask_kept {s₀ s : State} {t : Task} {status : Nat} {detail : Nat} {detail2 : Nat} {result : Nat} (hK : Kept s₀ s) :
    Kept s₀ (State.endTask s t status detail detail2 result) := by
  unfold State.endTask
  with_reducible repeat' first | assumption | apply State.setSched_kept | apply State.setTag_kept | apply State.observeSync_kept | apply State.noteEnd_kept | apply State.putEntry_kept

theorem State.spreadFailure_kept {s₀ s : State} {n : Nat} (h : Kept s₀ s) : Kept s₀ (s.spreadFailure n) := by
  induction n generalizing s with
  | zero => exact h
  | succ k ih =>
    unfold State.spreadFailure
    split
    · exact h
    · exact ih (State.endTask_kept h)

theorem State.complete_kept {s₀ s : State} {t : Task} {status : Nat} {detail : optParam Nat 0} {detail2 : optParam Nat 0} {result : optParam Nat 0} (hK : Kept s₀ s) :
    Kept s₀ (State.complete s t status detail detail2 result) := by
  unfold State.complete
  with_reducible repeat' first | assumption | apply State.endTask_kept | apply State.spreadFailure_kept | apply Kept.ite

theorem State.fail_kept {s₀ s : State} {t : Task} {status : Nat} {detail : optParam Nat 0} {detail2 : optParam Nat 0} (hK : Kept s₀ s) :
    Kept s₀ (State.fail s t status detail detail2) := by
  unfold State.fail
  with_reducible repeat' first | assumption | apply State.complete_kept

theorem State.malformed_kept {s₀ s : State} {t : Task} (hK : Kept s₀ s) :
    Kept s₀ (State.malformed s t) := by
  unfold State.malformed
  with_reducible repeat' first | assumption | apply State.complete_kept | apply State.bump_kept

theorem State.whenReady_kept {s₀ s : State} {id : Nat} {ty : Nat} {f : State → Task → State} (hf : ∀ x0 x1, Kept s₀ x0 → Kept s₀ (f x0 x1)) (hK : Kept s₀ s) :
    Kept s₀ (State.whenReady s id ty f) := by
  unfold State.whenReady
  repeat' first | (with_reducible first | assumption | apply State.setTask_kept | apply State.complete_kept | apply hf | apply Kept.ite) | split

theorem State.start_kept {s₀ s : State} {t : Task} (hK : Kept s₀ s) :
    Kept s₀ (State.start s t) := by
  unfold State.start
  with_reducible repeat' first | assumption | apply State.setTask_kept

theorem State.setPtp_kept {s₀ s : State} {p : Port} {f : PtpPort → PtpPort} (hK : Kept s₀ s) :
    Kept s₀ (State.setPtp s p f) := by
  unfold State.setPtp
  with_reducible repeat' first | assumption | apply State.setTime_kept | rfl

theorem State.enterHoldover_kept {s₀ s : State} (hK : Kept s₀ s) :
    Kept s₀ (State.enterHoldover s) := by
  unfold State.enterHoldover
  with_reducible repeat' first | assumption | apply State.bump_kept | apply State.setTime_kept | rfl

theorem State.enterSynced_kept {s₀ s : State} {p : Port} (hK : Kept s₀ s) :
    Kept s₀ (State.enterSynced s p) := by
  unfold State.enterSynced
  with_reducible repeat' first | assumption | apply State.observeSync_kept | apply State.setTime_kept | rfl

theorem State.enterGrandmaster_kept {s₀ s : State} (hK : Kept s₀ s) :
    Kept s₀ (State.enterGrandmaster s) := by
  unfold State.enterGrandmaster
  with_reducible repeat' first | assumption | apply State.observeSync_kept | apply State.setTime_kept | rfl

theorem State.discardPtp_kept {s₀ s : State} {ns : Nat} (hK : Kept s₀ s) :
    Kept s₀ (State.discardPtp s ns) := by
  unfold State.discardPtp
  with_reducible repeat' first | assumption | apply State.setTime_kept | rfl

theorem State.discardTimers_kept {s₀ s : State} {f : Nat} (hK : Kept s₀ s) :
    Kept s₀ (State.discardTimers s f) := by
  unfold State.discardTimers
  repeat' first | (with_reducible apply_assumption -exfalso -symm)

theorem State.discardOdTimers_kept {s₀ s : State} {ns : Nat} (hK : Kept s₀ s) :
    Kept s₀ (State.discardOdTimers s ns) := by
  unfold State.discardOdTimers
  with_reducible repeat' first | assumption | apply State.setCurator_kept | apply State.setService_kept | apply State.setDict_kept | rfl

theorem State.stepTime_kept {s₀ s : State} {ns : Nat} (hK : Kept s₀ s) :
    Kept s₀ (State.stepTime s ns) := by
  unfold State.stepTime
  repeat' first | (with_reducible assumption) | (refine Kept.timeTo (fun _ => ?_) ?_; exact (by show _ % 100000 * 8 / 5 < 160000; omega)) | (with_reducible first | apply State.setCurator_kept | apply State.odSet_kept | apply State.discardOdTimers_kept | apply State.discardTimers_kept | apply State.event_kept | apply Kept.ite)

theorem State.correct_kept {s₀ s : State} {offset : Int} {step : Bool} (hK : Kept s₀ s) :
    Kept s₀ (State.correct s offset step) := by
  unfold State.correct
  with_reducible repeat' first | assumption | apply State.stepTime_kept | apply State.setTime_kept | apply State.countEvent_kept | apply State.raise_kept | apply Kept.ite | rfl

theorem State.renewTrace_kept {s₀ s : State} (hK : Kept s₀ s) :
    Kept s₀ (State.renewTrace s) := by
  unfold State.renewTrace
  repeat' first | (with_reducible first | assumption | apply State.setTime_kept | rfl) | split

theorem State.bmca_kept {s₀ s : State} (hK : Kept s₀ s) :
    Kept s₀ (State.bmca s) := by
  unfold State.bmca
  repeat' first | (with_reducible first | assumption | apply State.enterGrandmaster_kept | apply State.setTime_kept | apply State.renewTrace_kept | apply State.enterHoldover_kept | rfl) | split

theorem State.portLost_kept {s₀ s : State} {p : Port} (hK : Kept s₀ s) :
    Kept s₀ (State.portLost s p) := by
  unfold State.portLost
  with_reducible repeat' first | assumption | apply State.setPtp_kept | apply State.enterHoldover_kept | apply State.setTime_kept | apply Kept.ite | rfl

theorem State.offsetFrom_kept {s₀ s : State} {p : Port} {offset : Int} (hK : Kept s₀ s) :
    Kept s₀ (State.offsetFrom s p offset) := by
  unfold State.offsetFrom
  with_reducible repeat' first | assumption | apply State.setTime_kept | apply State.correct_kept | apply State.enterSynced_kept | apply Kept.ite | rfl

theorem execHoldoverAlignExpiry_kept {s₀ s : State} (hK : Kept s₀ s) :
    KeptOut s₀ (execHoldoverAlignExpiry s) := by
  unfold execHoldoverAlignExpiry
  repeat' first | (with_reducible first | assumption | apply State.eventAt_kept | apply State.setTime_kept | apply Kept.out | rfl) | split

theorem execTrimRefine_kept {s₀ s : State} (hK : Kept s₀ s) :
    KeptOut s₀ (execTrimRefine s) := by
  unfold execTrimRefine
  repeat' first | (with_reducible first | assumption | apply State.free_kept | apply State.setTime_kept | apply State.odSetP_kept | apply Kept.out | rfl) | split

theorem State.sendTime_kept {s₀ s : State} (hK : Kept s₀ s) :
    Kept s₀ (State.sendTime s) := by
  unfold State.sendTime
  with_reducible repeat' first | assumption | apply State.send_kept | apply Kept.ite

theorem execPps_kept {s₀ s : State} (hK : Kept s₀ s) :
    KeptOut s₀ (execPps s) := by
  unfold execPps
  with_reducible repeat' first | assumption | apply State.sendTime_kept | apply State.setTime_kept | apply Kept.out | apply Kept.ite | rfl

theorem execFrameExtLoRead_kept {s₀ : State} {path : CwPath} {wide : Bool} {s : State} (hK : Kept s₀ s) :
    KeptOut s₀ (execFrameExtLoRead path wide s) := by
  unfold execFrameExtLoRead
  with_reducible repeat' first | assumption | apply State.setTime_kept | apply State.send_kept | apply Kept.out | apply Kept.ite | rfl

theorem execTimeNsLoRead_kept {s₀ : State} {path : CwPath} {wide : Bool} {s : State} (hK : Kept s₀ s) :
    KeptOut s₀ (execTimeNsLoRead path wide s) := by
  unfold execTimeNsLoRead
  with_reducible repeat' first | assumption | apply State.setTime_kept | apply State.send_kept | apply Kept.out | apply Kept.ite | rfl

theorem execSync_kept {s₀ : State} {port : Port} {h : PtpHeader} {s : State} (hK : Kept s₀ s) :
    KeptOut s₀ (execSync port h s) := by
  unfold execSync
  with_reducible repeat' first | assumption | apply State.setPtp_kept | apply Kept.out | apply Kept.ite

theorem execFollowUp_kept {s₀ : State} {port : Port} {h : PtpHeader} {origin : BitVec 80} {s : State} (hK : Kept s₀ s) :
    KeptOut s₀ (execFollowUp port h origin s) := by
  unfold execFollowUp
  repeat' first | (with_reducible first | assumption | apply State.offsetFrom_kept | apply State.setPtp_kept | apply Kept.out) | split

theorem execAnnounce_kept {s₀ : State} {port : Port} {h : PtpHeader} {body : AnnounceBody} {s : State} (hK : Kept s₀ s) :
    KeptOut s₀ (execAnnounce port h body s) := by
  unfold execAnnounce
  with_reducible repeat' first | assumption | apply State.renewTrace_kept | apply State.bmca_kept | apply State.setPtp_kept | apply Kept.out | apply Kept.ite

theorem execPdelayReq_kept {s₀ : State} {port : Port} {h : PtpHeader} {s : State} (hK : Kept s₀ s) :
    KeptOut s₀ (execPdelayReq port h s) := by
  unfold execPdelayReq
  with_reducible repeat' first | assumption | apply State.send_kept | apply Kept.out | apply Kept.ite

theorem execPdelayResp_kept {s₀ : State} {port : Port} {h : PtpHeader} {receipt : BitVec 80} {s : State} (hK : Kept s₀ s) :
    KeptOut s₀ (execPdelayResp port h receipt s) := by
  unfold execPdelayResp
  repeat' first | (with_reducible first | assumption | apply State.setPtp_kept | apply Kept.out) | split

theorem execPdelayRespFollowUp_kept {s₀ : State} {port : Port} {h : PtpHeader} {origin : BitVec 80} {s : State} (hK : Kept s₀ s) :
    KeptOut s₀ (execPdelayRespFollowUp port h origin s) := by
  unfold execPdelayRespFollowUp
  repeat' first | (with_reducible first | assumption | apply State.setPtp_kept | apply State.odSet_kept | apply Kept.out) | split

theorem execSignaling_kept {s₀ : State} {_port : Port} {_h : PtpHeader} {s : State} (hK : Kept s₀ s) :
    KeptOut s₀ (execSignaling _port _h s) := by
  unfold execSignaling
  with_reducible repeat' first | assumption | apply Kept.out

theorem execSyncInterval_kept {s₀ : State} {port : Port} {s : State} (hK : Kept s₀ s) :
    KeptOut s₀ (execSyncInterval port s) := by
  unfold execSyncInterval
  with_reducible repeat' first | assumption | apply State.setPtp_kept | apply State.send_kept | apply Kept.out | apply Kept.ite

theorem execAnnounceInterval_kept {s₀ : State} {port : Port} {s : State} (hK : Kept s₀ s) :
    KeptOut s₀ (execAnnounceInterval port s) := by
  unfold execAnnounceInterval
  with_reducible repeat' first | assumption | apply State.bmca_kept | apply State.setPtp_kept | apply State.send_kept | apply Kept.out | apply Kept.ite

theorem execPdelayInterval_kept {s₀ : State} {port : Port} {s : State} (hK : Kept s₀ s) :
    KeptOut s₀ (execPdelayInterval port s) := by
  unfold execPdelayInterval
  with_reducible repeat' first | assumption | apply State.setPtp_kept | apply State.send_kept | apply Kept.out | apply Kept.ite

theorem execAnnounceTimeout_kept {s₀ s : State} (hK : Kept s₀ s) :
    KeptOut s₀ (execAnnounceTimeout s) := by
  unfold execAnnounceTimeout
  repeat' first | (with_reducible first | assumption | apply State.enterHoldover_kept | apply State.setPtp_kept | apply Kept.out) | split

theorem State.setScore_kept {s₀ s : State} {pid : Nat} {r : Score} (hK : Kept s₀ s) :
    Kept s₀ (State.setScore s pid r) := by
  unfold State.setScore
  with_reducible repeat' first | assumption | apply State.setService_kept

theorem State.startPins_kept {s₀ s : State} {cls : Nat} (hK : Kept s₀ s) :
    Kept s₀ (State.startPins s cls) := by
  unfold State.startPins
  repeat' first | (with_reducible first | assumption | apply State.setService_kept) | split

theorem State.startAllPins_kept {s₀ s : State} (hK : Kept s₀ s) :
    Kept s₀ (State.startAllPins s) := by
  unfold State.startAllPins
  with_reducible repeat' first | assumption | apply State.startPins_kept | apply Kept.foldl

theorem State.dropPin_kept {s₀ s : State} {pid : Nat} (hK : Kept s₀ s) :
    Kept s₀ (State.dropPin s pid) := by
  unfold State.dropPin
  with_reducible repeat' first | assumption | apply State.startPins_kept | apply State.setService_kept

theorem State.settleScore_kept {s₀ s : State} {pid : Nat} {r : Score} (hK : Kept s₀ s) :
    Kept s₀ (State.settleScore s pid r) := by
  unfold State.settleScore
  with_reducible repeat' first | assumption | apply State.setScore_kept | apply State.countEvent_kept | apply State.startPins_kept | apply State.setService_kept | apply State.dropPin_kept | apply Kept.ite

theorem State.restartPin_kept {s₀ s : State} {pid : Nat} (hK : Kept s₀ s) :
    Kept s₀ (State.restartPin s pid) := by
  unfold State.restartPin
  with_reducible repeat' first | assumption | apply State.setService_kept

theorem State.scored_kept {s₀ s : State} {pid : Nat} {weight : Nat} (hK : Kept s₀ s) :
    Kept s₀ (State.scored s pid weight) := by
  unfold State.scored
  with_reducible repeat' first | assumption | apply State.settleScore_kept | apply State.restartPin_kept | apply Kept.ite

theorem State.scoreRetire_kept {s₀ s : State} {pid : Nat} (hK : Kept s₀ s) :
    Kept s₀ (State.scoreRetire s pid) := by
  unfold State.scoreRetire
  with_reducible repeat' first | assumption | apply State.dropPin_kept | apply State.settleScore_kept | apply Kept.ite

theorem State.scoreTransient_kept {s₀ s : State} {pid : Nat} (hK : Kept s₀ s) :
    Kept s₀ (State.scoreTransient s pid) := by
  unfold State.scoreTransient
  with_reducible repeat' first | assumption | apply State.scored_kept

theorem State.halveScores_kept {s₀ s : State} (hK : Kept s₀ s) :
    Kept s₀ (State.halveScores s) := by
  unfold State.halveScores
  with_reducible repeat' first | intro _ | assumption | apply State.settleScore_kept | apply Kept.ite | apply Kept.foldl

theorem State.writeScores_kept {s₀ s : State} (hK : Kept s₀ s) :
    Kept s₀ (State.writeScores s) := by
  unfold State.writeScores
  with_reducible repeat' first | assumption | apply State.setService_kept | apply Kept.ite

theorem State.retirePart_kept {s₀ s : State} {pid : Nat} (hK : Kept s₀ s) :
    Kept s₀ (State.retirePart s pid) := by
  unfold State.retirePart
  with_reducible repeat' first | assumption | apply State.scoreRetire_kept

theorem execScoreHalving_kept {s₀ s : State} (hK : Kept s₀ s) :
    KeptOut s₀ (execScoreHalving s) := by
  unfold execScoreHalving
  with_reducible repeat' first | assumption | apply State.writeScores_kept | apply State.halveScores_kept | apply Kept.out | apply Kept.ite

theorem execFaultBudgetOverrun_kept {s₀ : State} {part : RepairPart} {index : BitVec 32} {s : State} (hK : Kept s₀ s) :
    KeptOut s₀ (execFaultBudgetOverrun part index s) := by
  unfold execFaultBudgetOverrun
  repeat' first | (with_reducible first | assumption | apply State.countEvent_kept | apply State.setService_kept | apply Kept.out | apply Kept.ite) | split

theorem State.pinClean_kept {s₀ s : State} {pid : Nat} (hK : Kept s₀ s) :
    Kept s₀ (State.pinClean s pid) := by
  unfold State.pinClean
  with_reducible repeat' first | assumption | apply State.dropPin_kept | apply State.setScore_kept

theorem execPinEnd_kept {s₀ : State} {part : BitVec 16} {s : State} (hK : Kept s₀ s) :
    KeptOut s₀ (execPinEnd part s) := by
  unfold execPinEnd
  repeat' first | (with_reducible first | assumption | apply State.pinClean_kept | apply Kept.out) | split

theorem State.odAccept_kept {s₀ s : State} {key : Nat} {v : Nat} (hK : Kept s₀ s) :
    Kept s₀ (State.odAccept s key v) := by
  unfold State.odAccept
  repeat' first | (with_reducible first | assumption | apply State.odStore_kept | apply State.setDict_kept | apply State.odSet_kept | rfl) | split

theorem State.odRefuse_kept {s₀ s : State} (hK : Kept s₀ s) :
    Kept s₀ (State.odRefuse s) := by
  unfold State.odRefuse
  with_reducible repeat' first | assumption | apply State.bump_kept

theorem State.odWriteWith_kept {s₀ s : State} {a : Agent} {key : Nat} {bytes : Bytes} {f : State → Nat × State} (hf : ∀ x0, Kept s₀ x0 → Kept s₀ (f x0).2) (hK : Kept s₀ s) :
    Kept s₀ (State.odWriteWith s a key bytes f).2 := by
  unfold State.odWriteWith
  repeat' first | (with_reducible first | assumption | apply State.odRefuse_kept | apply State.wakeUp_kept | apply hf) | (extract_lets +onlyGivenNames z; clear_value z; revert z; intro _) | split | (with_reducible refine Kept.of_snd (by assumption) ?_)

theorem State.odRow_kept {s₀ s : State} {a : Agent} {key : Nat} {bytes : Bytes} {f : State → Nat × State} (hf : ∀ x0, Kept s₀ x0 → Kept s₀ (f x0).2) (hK : Kept s₀ s) :
    Kept s₀ (State.odRow s a key bytes f) := by
  unfold State.odRow
  with_reducible repeat' first | assumption | apply State.odWriteWith_kept | apply State.send_kept

theorem acceptSetting_kept {s₀ : State} {key : Nat} {v : Nat} {s : State} (hK : Kept s₀ s) :
    Kept s₀ (acceptSetting key v s).2 := by
  unfold acceptSetting
  with_reducible repeat' first | assumption | apply State.odAccept_kept

theorem State.stepEffect_kept {s₀ s : State} {j : JobId} (hK : Kept s₀ s) :
    Kept s₀ (State.stepEffect s j) := by
  unfold State.stepEffect
  with_reducible repeat' first | assumption | apply State.setDict_kept | rfl

end Sys2Proof.Machine
end

