-- ==== Sys2Proof/Laws/KeptSides.lean ====
section
/-!
SUPPORT. `Kept` of the fabric, memory traffic, security, Docent and the mailboxes: one lemma for each operation.
-/
namespace Sys2Proof.Machine

theorem State.setPort_kept {s₀ s : State} {p : Port} {f : PortState → PortState} (hK : Kept s₀ s) :
    Kept s₀ (State.setPort s p f) := by
  unfold State.setPort
  with_reducible repeat' first | assumption | apply State.setFabric_kept

theorem State.bind_kept {s₀ s : State} {dst : Nat} {vc : Nat} {p : Port} (hK : Kept s₀ s) :
    Kept s₀ (State.bind s dst vc p) := by
  unfold State.bind
  with_reducible repeat' first | assumption | apply State.setFabric_kept

theorem State.offer_kept {s₀ s : State} {dst : Nat} {vc : Nat} {proto : Nat} {hdr : Nat} {size : Nat} {payload : Bytes} (hK : Kept s₀ s) :
    Kept s₀ (State.offer s dst vc proto hdr size payload) := by
  unfold State.offer
  repeat' first | (with_reducible first | assumption | apply State.setFabric_kept | apply State.send_kept | apply State.countEvent_kept | apply State.setPort_kept | apply State.bind_kept | apply State.setSched_kept) | (extract_lets +onlyGivenNames z; first | (refine (fun hz : Kept s₀ z => ?_) ?_; clear_value z; revert z; intro _ _; rotate_left; unfold z; clear z; rotate_right) | (clear_value z; revert z; intro _)) | split

theorem State.offerPartner_kept {s₀ s : State} {p : Port} {proto : Nat} {hdr : Nat} {size : Nat} {payload : Bytes} (hK : Kept s₀ s) :
    Kept s₀ (State.offerPartner s p proto hdr size payload) := by
  unfold State.offerPartner
  with_reducible repeat' first | assumption | apply State.setFabric_kept | apply State.setPort_kept | apply State.send_kept

theorem State.moveMsg_kept {s₀ s : State} {m : TxMsg} (hK : Kept s₀ s) :
    Kept s₀ (State.moveMsg s m).1 := by
  unfold State.moveMsg
  repeat' first | (with_reducible first | assumption | apply State.setPort_kept | apply State.bind_kept) | split

theorem State.reroute_kept {s₀ s : State} {p : Port} {which : Nat → Bool} {finish : Bool} (hK : Kept s₀ s) :
    Kept s₀ (State.reroute s p which finish) := by
  unfold State.reroute
  with_reducible repeat' first | intro _ | assumption | apply State.setFabric_kept | apply State.setPort_kept | apply State.moveMsg_kept | apply State.event_kept | apply State.bumpBy_kept | apply Kept.ite | apply Kept.foldl_fst

theorem State.enterLink_kept {s₀ s : State} {p : Port} {st : LinkState} (hK : Kept s₀ s) :
    Kept s₀ (State.enterLink s p st) := by
  unfold State.enterLink
  with_reducible repeat' first | assumption | apply State.setPort_kept

theorem State.leaveService_kept {s₀ s : State} {p : Port} {st : LinkState} (hK : Kept s₀ s) :
    Kept s₀ (State.leaveService s p st) := by
  unfold State.leaveService
  with_reducible repeat' first | assumption | apply State.enterLink_kept | apply State.setPort_kept | apply State.reroute_kept | apply State.portLost_kept

theorem State.enterTraining_kept {s₀ s : State} {p : Port} (hK : Kept s₀ s) :
    Kept s₀ (State.enterTraining s p) := by
  unfold State.enterTraining
  with_reducible repeat' first | assumption | apply State.leaveService_kept | apply State.setPort_kept

theorem State.enterRetraining_kept {s₀ s : State} {p : Port} {planned : Bool} (hK : Kept s₀ s) :
    Kept s₀ (State.enterRetraining s p planned) := by
  unfold State.enterRetraining
  with_reducible repeat' first | assumption | apply State.enterLink_kept | apply State.setPort_kept

theorem State.transmitPort_kept {s₀ s : State} {p : Port} {upTo : Nat} (hK : Kept s₀ s) :
    Kept s₀ (State.transmitPort s p upTo) := by
  unfold State.transmitPort
  with_reducible repeat' first | assumption | apply State.setPort_kept | apply State.setSched_kept | apply State.send_kept | apply Kept.ite

theorem State.takeAck_kept {s₀ s : State} {p : Port} {hdr : BitVec 64} (hK : Kept s₀ s) :
    Kept s₀ (State.takeAck s p hdr) := by
  unfold State.takeAck
  with_reducible repeat' first | assumption | apply State.transmitPort_kept | apply State.setPort_kept

theorem State.linkMalformed_kept {s₀ s : State} {p : Port} (hK : Kept s₀ s) :
    Kept s₀ (State.linkMalformed s p) := by
  unfold State.linkMalformed
  with_reducible repeat' first | assumption | apply State.countEvent_kept

theorem State.answerUnreach_kept {s₀ s : State} {p : Port} {dst : Nat} (hK : Kept s₀ s) :
    Kept s₀ (State.answerUnreach s p dst) := by
  unfold State.answerUnreach
  with_reducible repeat' first | assumption | apply State.setPort_kept | apply State.offerPartner_kept | apply Kept.ite

theorem State.arrive_kept {s₀ s : State} {p : Port} {vc : Nat} {msg : Bytes} (hK : Kept s₀ s) :
    Kept s₀ (State.arrive s p vc msg) := by
  unfold State.arrive
  with_reducible repeat' first | assumption | apply State.setPort_kept | apply State.wakeUp_kept | apply State.setSched_kept | apply State.linkMalformed_kept | apply State.answerUnreach_kept | apply State.bump_kept | apply Kept.ite

theorem State.refuseFlit_kept {s₀ s : State} {p : Port} (hK : Kept s₀ s) :
    Kept s₀ (State.refuseFlit s p) := by
  unfold State.refuseFlit
  with_reducible repeat' first | assumption | apply State.send_kept | apply State.setPort_kept | apply Kept.ite

theorem State.oweFlits_kept {s₀ s : State} {p : Port} {vc : Nat} {n : Nat} (hK : Kept s₀ s) :
    Kept s₀ (State.oweFlits s p vc n) := by
  unfold State.oweFlits
  with_reducible repeat' first | assumption | apply State.setPort_kept

theorem State.dropFlit_kept {s₀ s : State} {p : Port} {vc : Nat} {held : Bytes} {eom : Bool} (hK : Kept s₀ s) :
    Kept s₀ (State.dropFlit s p vc held eom) := by
  unfold State.dropFlit
  with_reducible repeat' first | assumption | apply State.linkMalformed_kept | apply State.oweFlits_kept | apply State.setPort_kept

theorem State.takeFlit_kept {s₀ s : State} {p : Port} {hdr : BitVec 64} {payload : Bytes} (hK : Kept s₀ s) :
    Kept s₀ (State.takeFlit s p hdr payload) := by
  unfold State.takeFlit
  with_reducible repeat' first | assumption | apply State.oweFlits_kept | apply State.setPort_kept | apply State.dropFlit_kept | apply State.arrive_kept | apply Kept.ite

theorem execDataFlit_kept {s₀ : State} {port : Port} {hdr : BitVec 64} {payload : Bytes} {crcOk : Bool} {fecOk : Bool} {s : State} (hK : Kept s₀ s) :
    KeptOut s₀ (execDataFlit port hdr payload crcOk fecOk s) := by
  unfold execDataFlit
  with_reducible repeat' first | assumption | apply State.refuseFlit_kept | apply State.bump_kept | apply State.linkMalformed_kept | apply State.setPort_kept | apply State.takeFlit_kept | apply State.takeAck_kept | apply Kept.out | apply Kept.ite

theorem execIdleFlit_kept {s₀ : State} {port : Port} {hdr : BitVec 64} {crcOk : Bool} {fecOk : Bool} {s : State} (hK : Kept s₀ s) :
    KeptOut s₀ (execIdleFlit port hdr crcOk fecOk s) := by
  unfold execIdleFlit
  with_reducible repeat' first | assumption | apply State.bump_kept | apply State.linkMalformed_kept | apply State.takeAck_kept | apply Kept.out | apply Kept.ite

theorem State.linkEnableEffect_kept {s₀ s : State} {v : Nat} (hK : Kept s₀ s) :
    Kept s₀ (State.linkEnableEffect s v) := by
  unfold State.linkEnableEffect
  with_reducible repeat' first | intro _ | assumption | apply State.setPort_kept | apply State.leaveService_kept | apply State.enterLink_kept | apply Kept.ite | apply Kept.foldl

theorem execLinkEnable_kept {s₀ : State} {agent : Agent} {value : BitVec 8} {s : State} (hK : Kept s₀ s) :
    KeptOut s₀ (execLinkEnable agent value s) := by
  unfold execLinkEnable
  with_reducible repeat' first | assumption | apply State.odRow_kept | apply acceptSetting_kept | apply Kept.out

theorem execSignalDetect_kept {s₀ : State} {port : Port} {lanes : BitVec 4} {s : State} (hK : Kept s₀ s) :
    KeptOut s₀ (execSignalDetect port lanes s) := by
  unfold execSignalDetect
  with_reducible repeat' first | assumption | apply State.enterLink_kept | apply State.setPort_kept | apply Kept.out | apply Kept.ite

theorem execInit_kept {s₀ : State} {port : Port} {version : BitVec 8} {engine : BitVec 32} {credits : Vector (BitVec 16) 6} {s : State} (hK : Kept s₀ s) :
    KeptOut s₀ (execInit port version engine credits s) := by
  unfold execInit
  with_reducible repeat' first | assumption | apply State.linkMalformed_kept | apply State.setPort_kept | apply Kept.out | apply Kept.ite

theorem execTrainingComplete_kept {s₀ : State} {port : Port} {partner : BitVec 32} {lanes : TrainedLanes} {bias : Vector (BitVec 32) 2} {s : State} (hK : Kept s₀ s) :
    KeptOut s₀ (execTrainingComplete port partner lanes bias s) := by
  unfold execTrainingComplete
  with_reducible repeat' first | assumption | apply State.enterLink_kept | apply State.setPort_kept | apply State.send_kept | apply State.bump_kept | apply State.scored_kept | apply Kept.out | apply Kept.ite

theorem execTrainingTimeout_kept {s₀ : State} {port : Port} {s : State} (hK : Kept s₀ s) :
    KeptOut s₀ (execTrainingTimeout port s) := by
  unfold execTrainingTimeout
  with_reducible repeat' first | assumption | apply State.bump_kept | apply State.enterLink_kept | apply Kept.out | apply Kept.ite

theorem State.linkFault_kept {s₀ s : State} {p : Port} {lane : Option (Dir × Nat)} (hK : Kept s₀ s) :
    Kept s₀ (State.linkFault s p lane) := by
  unfold State.linkFault
  repeat' first | (with_reducible first | assumption | apply State.enterRetraining_kept | apply State.setPort_kept) | split

theorem execLinkFault_kept {s₀ : State} {port : Port} {_cause : LinkFaultCause} {lane : Option (Dir × Fin 9)} {s : State} (hK : Kept s₀ s) :
    KeptOut s₀ (execLinkFault port _cause lane s) := by
  unfold execLinkFault
  with_reducible repeat' first | assumption | apply State.linkFault_kept | apply Kept.out | apply Kept.ite

theorem State.swapLane_kept {s₀ s : State} {p : Port} {d : Dir} {old : Nat} {new : Nat} (hK : Kept s₀ s) :
    Kept s₀ (State.swapLane s p d old new) := by
  unfold State.swapLane
  with_reducible repeat' first | assumption | apply State.setPort_kept | apply State.retirePart_kept | apply State.bump_kept | apply State.event_kept

theorem State.noSpareEvent_kept {s₀ s : State} {p : Port} {d : Dir} {lane : Nat} (hK : Kept s₀ s) :
    Kept s₀ (State.noSpareEvent s p d lane) := by
  unfold State.noSpareEvent
  with_reducible repeat' first | assumption | apply State.event_kept | apply State.setPort_kept | apply Kept.ite

theorem State.retrainSwap_kept {s₀ s : State} {p : Port} {d : Dir} {bad : Option (Fin 9)} (hK : Kept s₀ s) :
    KeptOpt s₀ (State.retrainSwap s p d bad) := by
  unfold State.retrainSwap
  repeat' first | (with_reducible first | assumption | apply State.swapLane_kept | apply State.noSpareEvent_kept | apply KeptOpt.some | apply KeptOpt.none) | split

theorem State.planRetrain_kept {s₀ s : State} {p : Port} {reason : Nat} (hK : Kept s₀ s) :
    Kept s₀ (State.planRetrain s p reason) := by
  unfold State.planRetrain
  with_reducible repeat' first | assumption | apply State.send_kept | apply State.setPort_kept

theorem State.planLaser_kept {s₀ s : State} {p : Port} (hK : Kept s₀ s) :
    Kept s₀ (State.planLaser s p) := by
  unfold State.planLaser
  with_reducible repeat' first | assumption | apply State.planRetrain_kept | apply Kept.ite

theorem execFastRetrainDone_kept {s₀ : State} {port : Port} {badTx : Option (Fin 9)} {badRx : Option (Fin 9)} {s : State} (hK : Kept s₀ s) :
    KeptOut s₀ (execFastRetrainDone port badTx badRx s) := by
  unfold execFastRetrainDone
  repeat' first | (with_reducible first | assumption | apply State.retrainSwap_kept | apply State.enterTraining_kept | apply State.setPort_kept | apply State.enterLink_kept | apply State.bump_kept | apply State.scored_kept | apply State.planLaser_kept | apply State.send_kept | apply Kept.out | apply Kept.ite) | split | (with_reducible refine Kept.of_some (by assumption) ?_)

theorem execFastRetrainTimeout_kept {s₀ : State} {port : Port} {s : State} (hK : Kept s₀ s) :
    KeptOut s₀ (execFastRetrainTimeout port s) := by
  unfold execFastRetrainTimeout
  with_reducible repeat' first | assumption | apply State.enterTraining_kept | apply Kept.out | apply Kept.ite

theorem State.replayFrom_kept {s₀ s : State} {p : Port} {seq : Nat} (hK : Kept s₀ s) :
    Kept s₀ (State.replayFrom s p seq) := by
  unfold State.replayFrom
  repeat' first | (with_reducible first | assumption | apply State.setPort_kept | apply State.send_kept) | (extract_lets +onlyGivenNames z; refine (fun hz : Kept s₀ z => ?_) ?_; clear_value z; revert z; intro _ _; rotate_left; unfold z; clear z; rotate_right) | split

theorem execResume_kept {s₀ : State} {port : Port} {seq : BitVec 16} {_credits : Vector (BitVec 16) 6} {s : State} (hK : Kept s₀ s) :
    KeptOut s₀ (execResume port seq _credits s) := by
  unfold execResume
  with_reducible repeat' first | assumption | apply State.replayFrom_kept | apply Kept.out | apply Kept.ite

theorem execRetryReq_kept {s₀ : State} {port : Port} {seq : BitVec 16} {s : State} (hK : Kept s₀ s) :
    KeptOut s₀ (execRetryReq port seq s) := by
  unfold execRetryReq
  with_reducible repeat' first | assumption | apply State.setPort_kept | apply State.bump_kept | apply State.replayFrom_kept | apply State.linkFault_kept | apply Kept.out | apply Kept.ite

theorem execRetryReqRepeat_kept {s₀ : State} {port : Port} {s : State} (hK : Kept s₀ s) :
    KeptOut s₀ (execRetryReqRepeat port s) := by
  unfold execRetryReqRepeat
  with_reducible repeat' first | assumption | apply State.send_kept | apply Kept.out | apply Kept.ite

theorem execSwapReq_kept {s₀ : State} {port : Port} {number : BitVec 16} {lane : BitVec 8} {s : State} (hK : Kept s₀ s) :
    KeptOut s₀ (execSwapReq port number lane s) := by
  unfold execSwapReq
  with_reducible repeat' first | assumption | apply State.send_kept | apply State.setPort_kept | apply Kept.out | apply Kept.ite

theorem execSwapAck_kept {s₀ : State} {port : Port} {number : BitVec 16} {point : BitVec 32} {s : State} (hK : Kept s₀ s) :
    KeptOut s₀ (execSwapAck port number point s) := by
  unfold execSwapAck
  with_reducible repeat' first | assumption | apply State.setPort_kept | apply Kept.out | apply Kept.ite

theorem execSwapReqRepeat_kept {s₀ : State} {port : Port} {s : State} (hK : Kept s₀ s) :
    KeptOut s₀ (execSwapReqRepeat port s) := by
  unfold execSwapReqRepeat
  with_reducible repeat' first | intro _ | assumption | apply State.send_kept | apply Kept.out | apply Kept.ite | apply Kept.foldl

theorem execLaneSwapPoint_kept {s₀ : State} {port : Port} {dir : Dir} {s : State} (hK : Kept s₀ s) :
    KeptOut s₀ (execLaneSwapPoint port dir s) := by
  unfold execLaneSwapPoint
  repeat' first | (with_reducible first | assumption | apply State.swapLane_kept | apply State.setPort_kept | apply Kept.out | apply Kept.ite) | split

theorem State.laneWindow_kept {s₀ s : State} {p : Port} {lane : Nat} {symbols : Nat} (hK : Kept s₀ s) :
    Kept s₀ (State.laneWindow s p lane symbols) := by
  unfold State.laneWindow
  repeat' first | (with_reducible first | assumption | apply State.setPort_kept | apply State.scored_kept | apply State.bump_kept | apply State.noSpareEvent_kept | apply State.send_kept | apply Kept.ite) | split

theorem execLaneCeWindow_kept {s₀ : State} {port : Port} {symbols : Vector (BitVec 32) 9} {s : State} (hK : Kept s₀ s) :
    KeptOut s₀ (execLaneCeWindow port symbols s) := by
  unfold execLaneCeWindow
  with_reducible repeat' first | intro _ | assumption | apply State.laneWindow_kept | apply Kept.out | apply Kept.ite | apply Kept.foldl

theorem execPlannedRetrain_kept {s₀ : State} {port : Port} {reason : BitVec 8} {frameNo : BitVec 32} {s : State} (hK : Kept s₀ s) :
    KeptOut s₀ (execPlannedRetrain port reason frameNo s) := by
  unfold execPlannedRetrain
  with_reducible repeat' first | assumption | apply State.setPort_kept | apply Kept.out | apply Kept.ite

theorem State.switchLaser_kept {s₀ s : State} {p : Port} {l : Nat} (hK : Kept s₀ s) :
    Kept s₀ (State.switchLaser s p l) := by
  unfold State.switchLaser
  with_reducible repeat' first | assumption | apply State.countEvent_kept | apply State.setPort_kept

theorem execPlannedRetrainStart_kept {s₀ : State} {port : Port} {s : State} (hK : Kept s₀ s) :
    KeptOut s₀ (execPlannedRetrainStart port s) := by
  unfold execPlannedRetrainStart
  repeat' first | (with_reducible first | assumption | apply State.enterRetraining_kept | apply State.switchLaser_kept | apply Kept.out | apply Kept.ite) | split

theorem execLaserFail_kept {s₀ : State} {port : Port} {s : State} (hK : Kept s₀ s) :
    KeptOut s₀ (execLaserFail port s) := by
  unfold execLaserFail
  repeat' first | (with_reducible first | assumption | apply State.setPort_kept | apply State.retirePart_kept | apply State.switchLaser_kept | apply State.enterRetraining_kept | apply State.event_kept | apply State.leaveService_kept | apply Kept.out) | (extract_lets +onlyGivenNames z; first | (refine (fun hz : Kept s₀ z => ?_) ?_; clear_value z; revert z; intro _ _; rotate_left; unfold z; clear z; rotate_right) | (clear_value z; revert z; intro _)) | split

theorem execLaserBiasLimit_kept {s₀ : State} {port : Port} {bias : BitVec 32} {s : State} (hK : Kept s₀ s) :
    KeptOut s₀ (execLaserBiasLimit port bias s) := by
  unfold execLaserBiasLimit
  with_reducible repeat' first | assumption | apply State.planLaser_kept | apply State.setPort_kept | apply Kept.out

theorem State.recalibrate_kept {s₀ s : State} {v : Nat} (hK : Kept s₀ s) :
    Kept s₀ (State.recalibrate s v).2 := by
  unfold State.recalibrate
  repeat' first | (with_reducible first | assumption | apply State.planRetrain_kept) | split

theorem execRecalibratePort_kept {s₀ : State} {agent : Agent} {value : BitVec 8} {s : State} (hK : Kept s₀ s) :
    KeptOut s₀ (execRecalibratePort agent value s) := by
  unfold execRecalibratePort
  with_reducible repeat' first | intro _ | assumption | apply State.odRow_kept | apply State.recalibrate_kept | apply Kept.out

theorem State.laneMapResetEffect_kept {s₀ s : State} {p : Port} (hK : Kept s₀ s) :
    Kept s₀ (State.laneMapResetEffect s p) := by
  unfold State.laneMapResetEffect
  with_reducible repeat' first | assumption | apply State.setPort_kept | apply State.odSet_kept | apply Kept.ite

theorem execLaneMapReset_kept {s₀ : State} {agent : Agent} {port : Port} {value : BitVec 8} {s : State} (hK : Kept s₀ s) :
    KeptOut s₀ (execLaneMapReset agent port value s) := by
  unfold execLaneMapReset
  with_reducible repeat' first | assumption | apply State.odRow_kept | apply acceptSetting_kept | apply Kept.out

theorem execUnreachHoldExpiry_kept {s₀ : State} {port : Port} {engine : BitVec 32} {s : State} (hK : Kept s₀ s) :
    KeptOut s₀ (execUnreachHoldExpiry port engine s) := by
  unfold execUnreachHoldExpiry
  with_reducible repeat' first | assumption | apply State.setPort_kept | apply Kept.out

theorem execBindingIdle_kept {s₀ : State} {engine : BitVec 32} {vc : Fin 6} {s : State} (hK : Kept s₀ s) :
    KeptOut s₀ (execBindingIdle engine vc s) := by
  unfold execBindingIdle
  with_reducible repeat' first | assumption | apply State.setFabric_kept | apply Kept.out

theorem execMgmtMessage_kept {s₀ : State} {port : Port} {source : BitVec 32} {payload : Bytes} {s : State} (hK : Kept s₀ s) :
    KeptOut s₀ (execMgmtMessage port source payload s) := by
  unfold execMgmtMessage
  with_reducible repeat' first | assumption | apply State.setSched_kept | apply State.send_kept | apply Kept.out | apply Kept.ite

theorem State.xlatFault_kept {s₀ s : State} {hid : Nat} {e : Nat} (hK : Kept s₀ s) :
    Kept s₀ (State.xlatFault s hid e) := by
  unfold State.xlatFault
  with_reducible repeat' first | assumption | apply State.bump_kept | apply State.setCarrier_kept | apply State.event_kept | apply Kept.ite

theorem State.openRange_kept {s₀ s : State} {h : Holding} {off : Nat} {n : Nat} (hK : Kept s₀ s) :
    Kept s₀ (State.openRange s h off n).1 := by
  unfold State.openRange
  repeat' first | (with_reducible first | assumption | apply State.xlatFault_kept) | split

theorem State.orphanReqs_kept {s₀ s : State} {p : ReqOwner → Bool} (hK : Kept s₀ s) :
    Kept s₀ (State.orphanReqs s p) := by
  unfold State.orphanReqs
  with_reducible repeat' first | assumption | apply State.setCarrier_kept

theorem State.dropReqs_kept {s₀ s : State} {p : ReqOwner → Bool} (hK : Kept s₀ s) :
    Kept s₀ (State.dropReqs s p) := by
  unfold State.dropReqs
  with_reducible repeat' first | assumption | apply State.setCarrier_kept | apply State.orphanReqs_kept

theorem State.setDirty_kept {s₀ s : State} {f : List Dirty → List Dirty} (hK : Kept s₀ s) :
    Kept s₀ (State.setDirty s f) := by
  unfold State.setDirty
  with_reducible repeat' first | assumption | apply State.setCarrier_kept

theorem State.dirtyKept_kept {s₀ s : State} {key : Nat} (hK : Kept s₀ s) :
    Kept s₀ (State.dirtyKept s key) := by
  unfold State.dirtyKept
  with_reducible repeat' first | assumption | apply State.setDirty_kept

theorem State.fillTask_kept {s₀ s : State} {task : Nat} {cells : List (Nat × Byte)} (hK : Kept s₀ s) :
    Kept s₀ (State.fillTask s task cells) := by
  unfold State.fillTask
  with_reducible repeat' first | assumption | apply State.setUpdate_kept

theorem State.readGranule_kept {s₀ s : State} {owner : ReqOwner} {task : Nat} {g : Nat} {extent : Option (Nat × Nat)} {secure : Bool} (hK : Kept s₀ s) :
    Kept s₀ (State.readGranule s owner task g extent secure) := by
  unfold State.readGranule
  repeat' first | (with_reducible first | assumption | apply State.bump_kept | apply State.fillTask_kept | apply State.mrd_kept) | split

theorem State.readRange_kept {s₀ s : State} {owner : ReqOwner} {task : Nat} {h : Holding} {off : Nat} {n : Nat} (hK : Kept s₀ s) :
    Kept s₀ (State.readRange s owner task h off n) := by
  unfold State.readRange
  with_reducible repeat' first | intro _ | assumption | apply State.readGranule_kept | apply Kept.foldl

theorem State.issueWrites_kept {s₀ s : State} {owner : ReqOwner} {h : Holding} {off : Nat} {bs : Bytes} (hK : Kept s₀ s) :
    Kept s₀ (State.issueWrites s owner h off bs) := by
  unfold State.issueWrites
  with_reducible repeat' first | intro _ | assumption | apply State.mwr_kept | apply Kept.foldl

theorem State.writeRange_kept {s₀ s : State} {owner : ReqOwner} {h : Holding} {off : Nat} {bs : Bytes} (hK : Kept s₀ s) :
    Kept s₀ (State.writeRange s owner h off bs) := by
  unfold State.writeRange
  with_reducible repeat' first | assumption | apply State.setCarrier_kept | apply State.issueWrites_kept | apply Kept.ite

theorem State.holdRange_kept {s₀ s : State} {owner : ReqOwner} {h : Holding} {off : Nat} {bs : Bytes} (hK : Kept s₀ s) :
    Kept s₀ (State.holdRange s owner h off bs) := by
  unfold State.holdRange
  with_reducible repeat' first | assumption | apply State.setCarrier_kept | apply Kept.ite

theorem State.startRead_kept {s₀ s : State} {owner : ReqOwner} {task : Nat} {h : Holding} {off : Nat} {n : Nat} (hK : Kept s₀ s) :
    Kept s₀ (State.startRead s owner task h off n) := by
  unfold State.startRead
  with_reducible repeat' first | assumption | apply State.openRange_kept | apply State.setUpdate_kept | apply State.readRange_kept | apply Kept.ite

theorem State.takeUnits_kept {s₀ s : State} {w : Work} {rank : Nat} {d : Units} (hK : Kept s₀ s) :
    KeptOpt s₀ (State.takeUnits s w rank d) := by
  unfold State.takeUnits
  with_reducible repeat' first | assumption | apply State.setCarrier_kept | apply KeptOpt.some | apply KeptOpt.none | apply KeptOpt.ite

theorem State.freeBufs_kept {s₀ s : State} {task : Nat} (hK : Kept s₀ s) :
    Kept s₀ (State.freeBufs s task) := by
  unfold State.freeBufs
  with_reducible repeat' first | assumption | apply State.setUpdate_kept

theorem State.endIo_kept {s₀ s : State} {task : Nat} (hK : Kept s₀ s) :
    Kept s₀ (State.endIo s task) := by
  unfold State.endIo
  with_reducible repeat' first | assumption | apply State.dropReqs_kept | apply State.freeBufs_kept

theorem State.putSlot_kept {s₀ s : State} {i : Nat} {k : KeySlot} (hK : Kept s₀ s) :
    Kept s₀ (State.putSlot s i k) := by
  unfold State.putSlot
  with_reducible repeat' first | assumption | apply State.setSec_kept

theorem State.loadSlot_kept {s₀ s : State} {i : Nat} {k : KeySlot} (hK : Kept s₀ s) :
    Kept s₀ (State.loadSlot s i k) := by
  unfold State.loadSlot
  with_reducible repeat' first | assumption | apply State.putSlot_kept | apply State.bump_kept | apply State.event_kept | apply State.odSetP_kept | apply State.setService_kept | apply Kept.ite

theorem State.deriveRoot_kept {s₀ s : State} (hK : Kept s₀ s) :
    Kept s₀ (State.deriveRoot s) := by
  unfold State.deriveRoot
  with_reducible repeat' first | assumption | apply State.putSlot_kept

theorem State.deriveTransport_kept {s₀ s : State} (hK : Kept s₀ s) :
    Kept s₀ (State.deriveTransport s) := by
  unfold State.deriveTransport
  with_reducible repeat' first | assumption | apply State.putSlot_kept | apply Kept.ite

theorem State.touchSlot_kept {s₀ s : State} {i : Nat} (hK : Kept s₀ s) :
    Kept s₀ (State.touchSlot s i) := by
  unfold State.touchSlot
  with_reducible repeat' first | assumption | apply State.setSec_kept

theorem State.poolKey_kept {s₀ s : State} {purpose : Nat} {parent : Nat} {label : Bytes} {ctx : Bytes} (hK : Kept s₀ s) :
    Kept s₀ (State.poolKey s purpose parent label ctx).2 := by
  unfold State.poolKey
  repeat' first | (with_reducible first | assumption | apply State.touchSlot_kept | apply State.loadSlot_kept) | (extract_lets +onlyGivenNames z; clear_value z; revert z; intro _) | split

theorem State.secondLoad_kept {s₀ s : State} {i : Nat} (hK : Kept s₀ s) :
    Kept s₀ (State.secondLoad s i) := by
  unfold State.secondLoad
  with_reducible repeat' first | assumption | apply State.loadSlot_kept | apply State.setSec_kept | apply Kept.ite

theorem State.takeUse_kept {s₀ s : State} {i : Nat} (hK : Kept s₀ s) :
    Kept s₀ (State.takeUse s i) := by
  unfold State.takeUse
  with_reducible repeat' first | assumption | apply State.setSec_kept | apply State.secondLoad_kept | apply Kept.ite

theorem State.seal_kept {s₀ s : State} {purpose : Nat} {parent : Nat} {label : Bytes} {ctx : Bytes} {aad : Bytes} {text : Bytes} (hK : Kept s₀ s) :
    Kept s₀ (State.seal s purpose parent label ctx aad text).2 := by
  unfold State.seal
  repeat' first | (with_reducible first | assumption | apply State.poolKey_kept | apply State.takeUse_kept) | split | (with_reducible refine Kept.of_snd (by assumption) ?_)

theorem State.tagFail_kept {s₀ s : State} (hK : Kept s₀ s) :
    Kept s₀ (State.tagFail s) := by
  unfold State.tagFail
  with_reducible repeat' first | assumption | apply State.bump_kept

theorem State.replaceSlot_kept {s₀ s : State} {i : Nat} {k : Option KeySlot} (hK : Kept s₀ s) :
    Kept s₀ (State.replaceSlot s i k) := by
  unfold State.replaceSlot
  repeat' first | (with_reducible first | assumption | apply State.setSec_kept | apply State.loadSlot_kept | apply State.putSlot_kept) | split

theorem State.settleSlots_kept {s₀ s : State} (hK : Kept s₀ s) :
    Kept s₀ (State.settleSlots s) := by
  unfold State.settleSlots
  repeat' first | (with_reducible first | intro _ | assumption | apply State.setSec_kept | apply State.loadSlot_kept | apply State.putSlot_kept | apply Kept.foldl) | split

theorem State.unwrapFail_kept {s₀ s : State} {t : Task} (hK : Kept s₀ s) :
    Kept s₀ (State.unwrapFail s t) := by
  unfold State.unwrapFail
  with_reducible repeat' first | assumption | apply State.complete_kept | apply State.endIo_kept | apply State.bump_kept

theorem execKeyDerive_kept {s₀ : State} {task : Nat} {s : State} (hK : Kept s₀ s) :
    KeptOut s₀ (execKeyDerive task s) := by
  unfold execKeyDerive
  repeat' first | (with_reducible first | intro _ | assumption | apply State.whenReady_kept | apply State.complete_kept | apply State.malformed_kept | apply State.replaceSlot_kept | apply Kept.out) | split

theorem State.startBlob_kept {s₀ s : State} {t : Task} (hK : Kept s₀ s) :
    Kept s₀ (State.startBlob s t) := by
  unfold State.startBlob
  repeat' first | (with_reducible first | assumption | apply State.complete_kept | apply State.malformed_kept | apply State.bump_kept | apply State.fail_kept | apply State.startRead_kept | apply State.start_kept) | split

theorem State.decryptOnly_kept {s₀ s : State} {i : Nat} {j : Nat} (hK : Kept s₀ s) :
    Kept s₀ (State.decryptOnly s i j) := by
  unfold State.decryptOnly
  with_reducible repeat' first | assumption | apply State.setSec_kept

theorem State.loadUnwrapped_kept {s₀ s : State} {t : Task} {blob : Bytes} (hK : Kept s₀ s) :
    Kept s₀ (State.loadUnwrapped s t blob) := by
  unfold State.loadUnwrapped
  with_reducible repeat' first | assumption | apply State.replaceSlot_kept | apply State.decryptOnly_kept | apply Kept.ite

theorem execKeyUnwrap_kept {s₀ : State} {task : Nat} {intact : Bool} {s : State} (hK : Kept s₀ s) :
    KeptOut s₀ (execKeyUnwrap task intact s) := by
  unfold execKeyUnwrap
  repeat' first | (with_reducible first | intro _ | assumption | apply State.whenReady_kept | apply State.complete_kept | apply State.unwrapFail_kept | apply State.startBlob_kept | apply State.endIo_kept | apply State.loadUnwrapped_kept | apply Kept.out) | split

theorem execKeyErase_kept {s₀ : State} {task : Nat} {s : State} (hK : Kept s₀ s) :
    KeptOut s₀ (execKeyErase task s) := by
  unfold execKeyErase
  repeat' first | (with_reducible first | intro _ | assumption | apply State.whenReady_kept | apply State.complete_kept | apply State.replaceSlot_kept | apply Kept.out) | split

theorem execKeyRollover_kept {s₀ : State} {task : Nat} {s : State} (hK : Kept s₀ s) :
    KeptOut s₀ (execKeyRollover task s) := by
  unfold execKeyRollover
  repeat' first | (with_reducible first | intro _ | assumption | apply State.whenReady_kept | apply State.complete_kept | apply State.unwrapFail_kept | apply State.startBlob_kept | apply State.setSec_kept | apply State.freeBufs_kept | apply Kept.out) | split

theorem execKeyRolloverSwitch_kept {s₀ : State} {intact : Bool} {s : State} (hK : Kept s₀ s) :
    KeptOut s₀ (execKeyRolloverSwitch intact s) := by
  unfold execKeyRolloverSwitch
  repeat' first | (with_reducible first | assumption | apply State.setSec_kept | apply State.unwrapFail_kept | apply State.bump_kept | apply State.putSlot_kept | apply State.loadSlot_kept | apply State.odSetP_kept | apply State.decryptOnly_kept | apply State.setService_kept | apply State.complete_kept | apply Kept.out) | (extract_lets +onlyGivenNames z; first | (refine (fun hz : Kept s₀ z => ?_) ?_; clear_value z; revert z; intro _ _; rotate_left; unfold z; clear z; rotate_right) | (clear_value z; revert z; intro _)) | split

theorem execUsageLoadSwitch_kept {s₀ : State} {slot : BitVec 6} {s : State} (hK : Kept s₀ s) :
    KeptOut s₀ (execUsageLoadSwitch slot s) := by
  unfold execUsageLoadSwitch
  repeat' first | (with_reducible first | assumption | apply State.setSec_kept | apply Kept.out) | split

theorem State.drawIvEpoch_kept {s₀ s : State} (hK : Kept s₀ s) :
    Kept s₀ (State.drawIvEpoch s) := by
  unfold State.drawIvEpoch
  repeat' first | (with_reducible assumption) | (with_reducible apply Kept.drawn) | (with_reducible apply State.odSetP_kept)

theorem execIvEpochRedraw_kept {s₀ s : State} (hK : Kept s₀ s) :
    KeptOut s₀ (execIvEpochRedraw s) := by
  unfold execIvEpochRedraw
  with_reducible repeat' first | assumption | apply State.setService_kept | apply State.drawIvEpoch_kept | apply Kept.out | apply Kept.ite

theorem State.keyTasksAlarm_kept {s₀ s : State} (hK : Kept s₀ s) :
    Kept s₀ (State.keyTasksAlarm s) := by
  unfold State.keyTasksAlarm
  repeat' first | (with_reducible first | intro _ | assumption | apply State.complete_kept | apply State.endIo_kept | apply Kept.foldl) | split

theorem State.raiseAlarm_kept {s₀ s : State} {source : Nat} (hK : Kept s₀ s) :
    Kept s₀ (State.raiseAlarm s source) := by
  unfold State.raiseAlarm
  with_reducible repeat' first | assumption | apply State.setSec_kept | apply State.setBattery_kept | apply State.event_kept | apply State.keyTasksAlarm_kept | apply Kept.ite | rfl

theorem execGlitchTrip_kept {s₀ : State} {_source : GlitchSource} {s : State} (hK : Kept s₀ s) :
    KeptOut s₀ (execGlitchTrip _source s) := by
  unfold execGlitchTrip
  with_reducible repeat' first | assumption | apply State.raiseAlarm_kept | apply Kept.out

theorem State.entropyFail_kept {s₀ s : State} (hK : Kept s₀ s) :
    Kept s₀ (State.entropyFail s) := by
  unfold State.entropyFail
  with_reducible repeat' first | assumption | apply State.countEvent_kept | apply State.setSec_kept | apply State.raiseAlarm_kept | apply Kept.ite

theorem execEntropyTestFail_kept {s₀ s : State} (hK : Kept s₀ s) :
    KeptOut s₀ (execEntropyTestFail s) := by
  unfold execEntropyTestFail
  with_reducible repeat' first | assumption | apply State.entropyFail_kept | apply Kept.out | apply Kept.ite

theorem execEntropyRetest_kept {s₀ : State} {passes : Bool} {s : State} (hK : Kept s₀ s) :
    KeptOut s₀ (execEntropyRetest passes s) := by
  unfold execEntropyRetest
  with_reducible repeat' first | assumption | apply State.setSec_kept | apply State.entropyFail_kept | apply Kept.out | apply Kept.ite

theorem State.alarmClear_kept {s₀ s : State} {v : Nat} {sourceActive : Bool} (hK : Kept s₀ s) :
    Kept s₀ (State.alarmClear s v sourceActive).2 := by
  unfold State.alarmClear
  repeat' first | (with_reducible first | assumption | apply State.setSec_kept | apply State.setBattery_kept | apply State.deriveRoot_kept | rfl) | split

theorem execAlarmClear_kept {s₀ : State} {agent : Agent} {value : BitVec 8} {sourceActive : Bool} {s : State} (hK : Kept s₀ s) :
    KeptOut s₀ (execAlarmClear agent value sourceActive s) := by
  unfold execAlarmClear
  with_reducible repeat' first | intro _ | assumption | apply State.odRow_kept | apply State.alarmClear_kept | apply Kept.out

theorem State.fieldAuthLoad_kept {s₀ s : State} {value : Bytes} {authenticated : Bool} {intact : Bool} (hK : Kept s₀ s) :
    Kept s₀ (State.fieldAuthLoad s value authenticated intact).2 := by
  unfold State.fieldAuthLoad
  repeat' first | (with_reducible first | assumption | apply State.deriveTransport_kept | apply State.loadSlot_kept | apply State.bump_kept) | (extract_lets +onlyGivenNames z; clear_value z; revert z; intro _) | split

theorem execFieldAuthLoad_kept {s₀ : State} {agent : Agent} {value : Bytes} {authenticated : Bool} {intact : Bool} {s : State} (hK : Kept s₀ s) :
    KeptOut s₀ (execFieldAuthLoad agent value authenticated intact s) := by
  unfold execFieldAuthLoad
  with_reducible repeat' first | intro _ | assumption | apply State.odRow_kept | apply State.fieldAuthLoad_kept | apply Kept.out

theorem State.wrapLoad_kept {s₀ s : State} {value : Bytes} {intact : Bool} (hK : Kept s₀ s) :
    Kept s₀ (State.wrapLoad s value intact).2 := by
  unfold State.wrapLoad
  repeat' first | (with_reducible first | assumption | apply State.bump_kept | apply State.loadSlot_kept | apply State.setService_kept) | (extract_lets +onlyGivenNames z; first | (refine (fun hz : Kept s₀ z => ?_) ?_; clear_value z; revert z; intro _ _; rotate_left; unfold z; clear z; rotate_right) | (clear_value z; revert z; intro _)) | split

theorem execWrapLoad_kept {s₀ : State} {agent : Agent} {value : Bytes} {intact : Bool} {s : State} (hK : Kept s₀ s) :
    KeptOut s₀ (execWrapLoad agent value intact s) := by
  unfold execWrapLoad
  with_reducible repeat' first | intro _ | assumption | apply State.odRow_kept | apply State.wrapLoad_kept | apply Kept.out

theorem execCipherMismatch_kept {s₀ : State} {pair : BitVec 6} {s : State} (hK : Kept s₀ s) :
    KeptOut s₀ (execCipherMismatch pair s) := by
  unfold execCipherMismatch
  with_reducible repeat' first | assumption | apply State.setSec_kept | apply State.bump_kept | apply Kept.out | apply Kept.ite

theorem State.retirePipe_kept {s₀ s : State} {pair : Nat} {pipe : Nat} (hK : Kept s₀ s) :
    Kept s₀ (State.retirePipe s pair pipe) := by
  unfold State.retirePipe
  with_reducible repeat' first | assumption | apply State.retirePart_kept | apply State.bump_kept | apply State.setSec_kept

theorem execCipherRepair_kept {s₀ : State} {firstFails : Bool} {secondFails : Bool} {again : Bool} {s : State} (hK : Kept s₀ s) :
    KeptOut s₀ (execCipherRepair firstFails secondFails again s) := by
  unfold execCipherRepair
  repeat' first | (with_reducible first | assumption | apply State.setSec_kept | apply State.retirePipe_kept | apply State.event_kept | apply State.scoreTransient_kept | apply State.raiseAlarm_kept | apply Kept.out | apply Kept.ite) | split

theorem State.setC_kept {s₀ s : State} {a : Agent} {f : CipherPage → CipherPage} (hK : Kept s₀ s) :
    Kept s₀ (State.setC s a f) := by
  unfold State.setC
  with_reducible repeat' first | assumption | apply State.setSec_kept

theorem State.setD_kept {s₀ s : State} {a : Agent} {f : DigestPage → DigestPage} (hK : Kept s₀ s) :
    Kept s₀ (State.setD s a f) := by
  unfold State.setD
  with_reducible repeat' first | assumption | apply State.setSec_kept

theorem State.cSeqErr_kept {s₀ s : State} {a : Agent} (hK : Kept s₀ s) :
    Kept s₀ (State.cSeqErr s a) := by
  unfold State.cSeqErr
  with_reducible repeat' first | assumption | apply State.raise_kept | apply State.setC_kept | apply State.bump_kept

theorem State.dSeqErr_kept {s₀ s : State} {a : Agent} (hK : Kept s₀ s) :
    Kept s₀ (State.dSeqErr s a) := by
  unfold State.dSeqErr
  with_reducible repeat' first | assumption | apply State.raise_kept | apply State.setD_kept | apply State.bump_kept

theorem State.runCipher_kept {s₀ s : State} (hK : Kept s₀ s) :
    Kept s₀ (State.runCipher s) := by
  unfold State.runCipher
  repeat' first | (with_reducible first | assumption | apply State.setSec_kept) | split

theorem State.runDigest_kept {s₀ s : State} (hK : Kept s₀ s) :
    Kept s₀ (State.runDigest s) := by
  unfold State.runDigest
  repeat' first | (with_reducible first | assumption | apply State.setSec_kept) | split

theorem State.headCipher_kept {s₀ s : State} (hK : Kept s₀ s) :
    Kept s₀ (State.headCipher s) := by
  unfold State.headCipher
  with_reducible repeat' first | assumption | apply State.runCipher_kept | apply State.setSec_kept

theorem State.headDigest_kept {s₀ s : State} (hK : Kept s₀ s) :
    Kept s₀ (State.headDigest s) := by
  unfold State.headDigest
  with_reducible repeat' first | assumption | apply State.runDigest_kept | apply State.setSec_kept

theorem State.leaveCipher_kept {s₀ s : State} {a : Agent} (hK : Kept s₀ s) :
    Kept s₀ (State.leaveCipher s a) := by
  unfold State.leaveCipher
  with_reducible repeat' first | assumption | apply State.settleSlots_kept | apply State.headCipher_kept | apply State.setSec_kept

theorem State.leaveDigest_kept {s₀ s : State} {a : Agent} (hK : Kept s₀ s) :
    Kept s₀ (State.leaveDigest s a) := by
  unfold State.leaveDigest
  with_reducible repeat' first | assumption | apply State.settleSlots_kept | apply State.headDigest_kept | apply State.setSec_kept

theorem State.cAbandon_kept {s₀ s : State} {a : Agent} (hK : Kept s₀ s) :
    Kept s₀ (State.cAbandon s a) := by
  unfold State.cAbandon
  with_reducible repeat' first | assumption | apply State.leaveCipher_kept | apply State.setC_kept | apply State.cSeqErr_kept

theorem State.cDenied_kept {s₀ s : State} {a : Agent} (hK : Kept s₀ s) :
    Kept s₀ (State.cDenied s a) := by
  unfold State.cDenied
  with_reducible repeat' first | assumption | apply State.raise_kept | apply State.setC_kept | apply State.bump_kept

theorem execCStart_kept {s₀ : State} {agent : Agent} {size : BitVec 8} {value : BitVec 64} {s : State} (hK : Kept s₀ s) :
    KeptOut s₀ (execCStart agent size value s) := by
  unfold execCStart
  with_reducible repeat' first | assumption | apply State.cSeqErr_kept | apply State.cDenied_kept | apply State.bump_kept | apply State.takeUse_kept | apply State.setC_kept | apply State.setSec_kept | apply Kept.out | apply Kept.ite

theorem State.cFeed_kept {s₀ s : State} {a : Agent} {bs : Bytes} {last : Bool} (hK : Kept s₀ s) :
    Kept s₀ (State.cFeed s a bs last) := by
  unfold State.cFeed
  with_reducible repeat' first | assumption | apply State.cAbandon_kept | apply State.setC_kept | apply State.runCipher_kept | apply Kept.ite

theorem execCData_kept {s₀ : State} {agent : Agent} {size : BitVec 8} {value : BitVec 64} {s : State} (hK : Kept s₀ s) :
    KeptOut s₀ (execCData agent size value s) := by
  unfold execCData
  with_reducible repeat' first | assumption | apply State.cSeqErr_kept | apply State.raise_kept | apply State.setC_kept | apply State.bump_kept | apply State.cFeed_kept | apply Kept.out | apply Kept.ite

theorem execCLast_kept {s₀ : State} {agent : Agent} {size : BitVec 8} {value : BitVec 64} {s : State} (hK : Kept s₀ s) :
    KeptOut s₀ (execCLast agent size value s) := by
  unfold execCLast
  with_reducible repeat' first | assumption | apply State.cSeqErr_kept | apply State.cFeed_kept | apply Kept.out | apply Kept.ite

theorem execCOut_kept {s₀ : State} {agent : Agent} {size : BitVec 8} {s : State} (hK : Kept s₀ s) :
    KeptOut s₀ (execCOut agent size s) := by
  unfold execCOut
  with_reducible repeat' first | assumption | apply State.send_kept | apply State.cSeqErr_kept | apply State.setC_kept | apply Kept.out | apply Kept.ite

theorem execCipherMessageDone_kept {s₀ : State} {agent : Agent} {agree : Bool} {s : State} (hK : Kept s₀ s) :
    KeptOut s₀ (execCipherMessageDone agent agree s) := by
  unfold execCipherMessageDone
  with_reducible repeat' first | assumption | apply State.setC_kept | apply State.raise_kept | apply State.tagFail_kept | apply State.leaveCipher_kept | apply Kept.out | apply Kept.ite

theorem State.dDenied_kept {s₀ s : State} {a : Agent} (hK : Kept s₀ s) :
    Kept s₀ (State.dDenied s a) := by
  unfold State.dDenied
  with_reducible repeat' first | assumption | apply State.raise_kept | apply State.setD_kept | apply State.bump_kept

theorem execDStart_kept {s₀ : State} {agent : Agent} {size : BitVec 8} {value : BitVec 64} {s : State} (hK : Kept s₀ s) :
    KeptOut s₀ (execDStart agent size value s) := by
  unfold execDStart
  with_reducible repeat' first | assumption | apply State.dSeqErr_kept | apply State.dDenied_kept | apply State.setD_kept | apply State.setSec_kept | apply Kept.out | apply Kept.ite

theorem State.dFeed_kept {s₀ s : State} {a : Agent} {bs : Bytes} {last : Bool} (hK : Kept s₀ s) :
    Kept s₀ (State.dFeed s a bs last) := by
  unfold State.dFeed
  with_reducible repeat' first | assumption | apply State.setD_kept | apply State.total_kept | apply State.runDigest_kept | apply Kept.ite

theorem execDData_kept {s₀ : State} {agent : Agent} {size : BitVec 8} {value : BitVec 64} {s : State} (hK : Kept s₀ s) :
    KeptOut s₀ (execDData agent size value s) := by
  unfold execDData
  with_reducible repeat' first | assumption | apply State.dSeqErr_kept | apply State.raise_kept | apply State.setD_kept | apply State.bump_kept | apply State.dFeed_kept | apply Kept.out | apply Kept.ite

theorem execDLast_kept {s₀ : State} {agent : Agent} {size : BitVec 8} {value : BitVec 64} {s : State} (hK : Kept s₀ s) :
    KeptOut s₀ (execDLast agent size value s) := by
  unfold execDLast
  with_reducible repeat' first | assumption | apply State.dSeqErr_kept | apply State.dFeed_kept | apply Kept.out | apply Kept.ite

theorem execDigestDone_kept {s₀ : State} {agent : Agent} {s : State} (hK : Kept s₀ s) :
    KeptOut s₀ (execDigestDone agent s) := by
  unfold execDigestDone
  with_reducible repeat' first | assumption | apply State.leaveDigest_kept | apply State.raise_kept | apply State.setD_kept | apply Kept.out | apply Kept.ite

theorem execDCompare_kept {s₀ : State} {agent : Agent} {size : BitVec 8} {low high : BitVec 32} {s : State} (hK : Kept s₀ s) :
    KeptOut s₀ (execDCompare agent size low high s) := by
  unfold execDCompare
  with_reducible repeat' first | assumption | apply State.dSeqErr_kept | apply State.raise_kept | apply State.setD_kept | apply State.bump_kept | apply Kept.out | apply Kept.ite

theorem execDExport_kept {s₀ : State} {agent : Agent} {size : BitVec 8} {value : BitVec 64} {s : State} (hK : Kept s₀ s) :
    KeptOut s₀ (execDExport agent size value s) := by
  unfold execDExport
  repeat' first | (with_reducible first | assumption | apply State.dSeqErr_kept | apply State.dDenied_kept | apply State.setD_kept | apply State.bump_kept | apply Kept.out | apply Kept.ite) | split

theorem execDImport_kept {s₀ : State} {agent : Agent} {size : BitVec 8} {low high : BitVec 32} {intact : Bool} {s : State} (hK : Kept s₀ s) :
    KeptOut s₀ (execDImport agent size low high intact s) := by
  unfold execDImport
  repeat' first | (with_reducible first | assumption | apply State.dSeqErr_kept | apply State.raise_kept | apply State.setD_kept | apply State.bump_kept | apply State.runDigest_kept | apply State.setSec_kept | apply Kept.out) | split

theorem execPageSuspend_kept {s₀ : State} {agent : Agent} {digest : Bool} {s : State} (hK : Kept s₀ s) :
    KeptOut s₀ (execPageSuspend agent digest s) := by
  unfold execPageSuspend
  repeat' first | (with_reducible first | assumption | apply State.total_kept | apply State.headDigest_kept | apply State.setSec_kept | apply State.raise_kept | apply State.setD_kept | apply State.headCipher_kept | apply State.setC_kept | apply Kept.out | apply Kept.ite) | split

theorem State.pageWrite_kept {s₀ s : State} {a : Agent} {off : Nat} {v : Nat} (hK : Kept s₀ s) :
    Kept s₀ (State.pageWrite s a off v) := by
  unfold State.pageWrite
  with_reducible repeat' first | assumption | apply State.setC_kept | apply State.setD_kept | apply State.cSeqErr_kept | apply State.dSeqErr_kept | apply Kept.ite

theorem State.setSyncWord_kept {s₀ s : State} {w : Nat} {v : SyncWord} (h : Kept s₀ s) : Kept s₀ (s.setSyncWord w v) := by
  refine ⟨h.1, fun f => ?_⟩
  obtain ⟨a, b, c, d, e, g, k, l⟩ := h.2 f
  refine ⟨a, b, c, d, e, g, ?_⟩
  unfold State.setSyncWord State.syncFormed
  dsimp only
  split
  · exact ⟨assocErase_sorted _ k, fun p hp => l p (List.mem_filter.1 hp).1⟩
  · rename_i n
    refine ⟨assocSet_sorted _ _ k, fun p hp => ?_⟩
    rcases mem_assocSet hp with rfl | hp
    · exact fun e => n (beq_iff_eq.2 e)
    · exact l p hp

theorem State.setFull_kept {s₀ s : State} {w : Nat} {full : Bool} {agent : Nat} (hK : Kept s₀ s) :
    Kept s₀ (State.setFull s w full agent) := by
  unfold State.setFull
  with_reducible repeat' first | assumption | apply State.setSyncWord_kept | apply Kept.ite

theorem State.setData_kept {s₀ s : State} {w : Nat} {v : Nat} (hK : Kept s₀ s) :
    Kept s₀ (State.setData s w v) := by
  unfold State.setData
  with_reducible repeat' first | assumption | apply State.setSyncWord_kept

theorem State.setCore_kept {s₀ s : State} {c : Fin 20} {f : DocentCore → DocentCore} (hK : Kept s₀ s) :
    Kept s₀ (State.setCore s c f) := by
  unfold State.setCore
  repeat' first | (with_reducible apply_assumption -exfalso -symm)

theorem State.logEvent_kept {s₀ s : State} {c : Fin 20} {e : LogEvent} (hK : Kept s₀ s) :
    Kept s₀ (State.logEvent s c e) := by
  unfold State.logEvent
  with_reducible repeat' first | assumption | apply State.setCore_kept

theorem State.giveResult_kept {s₀ s : State} {t : Thread} {w : Nat} {code : Nat} (hK : Kept s₀ s) :
    Kept s₀ (State.giveResult s t w code) := by
  unfold State.giveResult
  with_reducible repeat' first | assumption | apply State.send_kept | apply Kept.ite

theorem State.wakeCore_kept {s₀ s : State} {c : Fin 20} (hK : Kept s₀ s) :
    Kept s₀ (State.wakeCore s c) := by
  unfold State.wakeCore
  with_reducible repeat' first | apply State.bump_kept | apply Kept.ite | apply_assumption -exfalso -symm

theorem State.deliver_kept {s₀ s : State} {t : Thread} {w : Nat} {code : Nat} (hK : Kept s₀ s) :
    Kept s₀ (State.deliver s t w code) := by
  unfold State.deliver
  with_reducible repeat' first | assumption | apply State.wakeCore_kept | apply State.logEvent_kept | apply State.giveResult_kept | apply Kept.ite | refine Kept.mk rfl rfl rfl rfl rfl rfl rfl rfl rfl rfl ?_

theorem State.releaseHeld_kept {s₀ s : State} {c : Fin 20} (hK : Kept s₀ s) :
    Kept s₀ (State.releaseHeld s c) := by
  unfold State.releaseHeld
  with_reducible repeat' first | intro _ | apply State.giveResult_kept | apply Kept.ite | apply Kept.foldl | apply_assumption -exfalso -symm

theorem State.dropWaiter_kept {s₀ s : State} {t : Thread} (hK : Kept s₀ s) :
    Kept s₀ (State.dropWaiter s t) := by
  unfold State.dropWaiter
  repeat' first | (with_reducible apply_assumption -exfalso -symm)

theorem State.finishWait_kept {s₀ s : State} {w : Waiter} {code : Nat} (hK : Kept s₀ s) :
    Kept s₀ (State.finishWait s w code) := by
  unfold State.finishWait
  with_reducible repeat' first | assumption | apply State.deliver_kept | apply State.dropWaiter_kept

theorem State.wakeWord_kept {s₀ s : State} {word : Nat} {n : Nat} (h : Kept s₀ s) : Kept s₀ (State.wakeWord s word n) := by
  induction n generalizing s with
  | zero => exact h
  | succ k ih =>
    unfold State.wakeWord
    repeat' (first | (with_reducible assumption) | (with_reducible apply ih) | (with_reducible (first | apply State.finishWait_kept | apply State.setFull_kept | apply State.setData_kept | apply Kept.ite)) | (extract_lets +onlyGivenNames z; clear_value z) | split)

theorem State.wake_kept {s₀ s : State} {word : Nat} (hK : Kept s₀ s) :
    Kept s₀ (State.wake s word) := by
  unfold State.wake
  with_reducible repeat' first | assumption | apply State.observeSync_kept | apply State.wakeWord_kept

theorem State.tallyAdd_kept {s₀ s : State} {word : Nat} {k : Nat} {agent : Nat} (hK : Kept s₀ s) :
    Kept s₀ (State.tallyAdd s word k agent) := by
  unfold State.tallyAdd
  with_reducible repeat' first | assumption | apply State.setData_kept | apply State.setFull_kept | apply Kept.ite

theorem State.tallySub_kept {s₀ s : State} {word : Nat} {k : Nat} {agent : Nat} (hK : Kept s₀ s) :
    KeptOpt s₀ (State.tallySub s word k agent) := by
  unfold State.tallySub
  with_reducible repeat' first | assumption | apply State.setData_kept | apply State.setFull_kept | apply KeptOpt.some | apply KeptOpt.none | apply KeptOpt.ite | apply Kept.ite

theorem State.syncEffect_kept {s₀ s : State} {owner : SyncOwner} {agent : Nat} {word : Nat} {op : SyncOp} (hK : Kept s₀ s) :
    Kept s₀ (State.syncEffect s owner agent word op).2 := by
  unfold State.syncEffect
  repeat' first | (with_reducible first | assumption | apply State.setData_kept | apply State.setFull_kept | apply State.tallyAdd_kept | apply State.tallySub_kept | apply State.countEvent_kept | apply State.setSyncWord_kept | apply Kept.ite) | split | (with_reducible refine Kept.of_some (by assumption) ?_)

theorem State.performSync_kept {s₀ s : State} {t : Thread} {word : Nat} {op : SyncOp} (hK : Kept s₀ s) :
    Kept s₀ (State.performSync s t word op) := by
  unfold State.performSync
  with_reducible repeat' first | apply State.syncEffect_kept | apply State.wake_kept | apply State.giveResult_kept | apply State.logEvent_kept | apply Kept.ite | apply_assumption -exfalso -symm

theorem State.threadOp_kept {s₀ s : State} {t : Thread} {word : Nat} {op : SyncOp} (hK : Kept s₀ s) :
    Kept s₀ (State.threadOp s t word op) := by
  unfold State.threadOp
  with_reducible repeat' first | assumption | apply State.wakeCore_kept | apply State.setCore_kept | apply State.performSync_kept | apply Kept.ite

theorem State.runStalled_kept {s₀ s : State} {c : Fin 20} (hK : Kept s₀ s) :
    Kept s₀ (State.runStalled s c) := by
  unfold State.runStalled
  with_reducible repeat' first | intro _ | assumption | apply State.setCore_kept | apply State.threadOp_kept | apply State.total_kept | apply Kept.foldl

theorem State.denyCw_kept {s₀ s : State} {path : CwPath} {tag : Option Nat} (hK : Kept s₀ s) :
    Kept s₀ (State.denyCw s path tag) := by
  unfold State.denyCw
  with_reducible repeat' first | assumption | apply State.send_kept | apply State.bump_kept

theorem State.hostSync_kept {s₀ s : State} {path : CwPath} {word : Nat} {op : SyncOp} {reads : Bool} {f : Nat → Nat} (hK : Kept s₀ s) :
    Kept s₀ (State.hostSync s path word op reads f) := by
  unfold State.hostSync
  with_reducible repeat' first | assumption | apply State.denyCw_kept | apply State.syncEffect_kept | apply State.wake_kept | apply State.send_kept | apply Kept.ite

theorem State.syncFrom_kept {s₀ s : State} {who : SyncWho} {word : Nat} {op : SyncOp} {reads : Bool} {f : Nat → Nat} (hK : Kept s₀ s) :
    Kept s₀ (State.syncFrom s who word op reads f) := by
  unfold State.syncFrom
  repeat' first | (with_reducible first | assumption | apply State.threadOp_kept | apply State.hostSync_kept) | split

theorem execSyncRead_kept {s₀ : State} {who : SyncWho} {word : BitVec 16} {wide : Bool} {s : State} (hK : Kept s₀ s) :
    KeptOut s₀ (execSyncRead who word wide s) := by
  unfold execSyncRead
  with_reducible repeat' first | assumption | apply State.syncFrom_kept | apply Kept.out

theorem execSyncWrite_kept {s₀ : State} {t : Thread} {word : BitVec 16} {data : BitVec 64} {s : State} (hK : Kept s₀ s) :
    KeptOut s₀ (execSyncWrite t word data s) := by
  unfold execSyncWrite
  with_reducible repeat' first | assumption | apply State.threadOp_kept | apply Kept.out

theorem execReadFf_kept {s₀ : State} {t : Thread} {word : BitVec 16} {s : State} (hK : Kept s₀ s) :
    KeptOut s₀ (execReadFf t word s) := by
  unfold execReadFf
  with_reducible repeat' first | assumption | apply State.threadOp_kept | apply Kept.out

theorem execReadFe_kept {s₀ : State} {t : Thread} {word : BitVec 16} {s : State} (hK : Kept s₀ s) :
    KeptOut s₀ (execReadFe t word s) := by
  unfold execReadFe
  with_reducible repeat' first | assumption | apply State.threadOp_kept | apply Kept.out

theorem execWriteEf_kept {s₀ : State} {t : Thread} {word : BitVec 16} {data : BitVec 64} {s : State} (hK : Kept s₀ s) :
    KeptOut s₀ (execWriteEf t word data s) := by
  unfold execWriteEf
  with_reducible repeat' first | assumption | apply State.threadOp_kept | apply Kept.out

theorem execWriteXf_kept {s₀ : State} {who : SyncWho} {word : BitVec 16} {data : BitVec 64} {s : State} (hK : Kept s₀ s) :
    KeptOut s₀ (execWriteXf who word data s) := by
  unfold execWriteXf
  with_reducible repeat' first | assumption | apply State.syncFrom_kept | apply Kept.out

theorem execSetEmpty_kept {s₀ : State} {who : SyncWho} {word : BitVec 16} {s : State} (hK : Kept s₀ s) :
    KeptOut s₀ (execSetEmpty who word s) := by
  unfold execSetEmpty
  with_reducible repeat' first | assumption | apply State.syncFrom_kept | apply Kept.out

theorem execSetFull_kept {s₀ : State} {who : SyncWho} {word : BitVec 16} {s : State} (hK : Kept s₀ s) :
    KeptOut s₀ (execSetFull who word s) := by
  unfold execSetFull
  with_reducible repeat' first | assumption | apply State.syncFrom_kept | apply Kept.out

theorem execFetchAdd_kept {s₀ : State} {t : Thread} {word : BitVec 16} {k : BitVec 64} {s : State} (hK : Kept s₀ s) :
    KeptOut s₀ (execFetchAdd t word k s) := by
  unfold execFetchAdd
  with_reducible repeat' first | assumption | apply State.threadOp_kept | apply Kept.out

theorem execCas_kept {s₀ : State} {t : Thread} {word : BitVec 16} {a : BitVec 64} {b : BitVec 64} {s : State} (hK : Kept s₀ s) :
    KeptOut s₀ (execCas t word a b s) := by
  unfold execCas
  with_reducible repeat' first | assumption | apply State.threadOp_kept | apply Kept.out

theorem execTallyAdd_kept {s₀ : State} {t : Thread} {word : BitVec 16} {k : BitVec 64} {s : State} (hK : Kept s₀ s) :
    KeptOut s₀ (execTallyAdd t word k s) := by
  unfold execTallyAdd
  with_reducible repeat' first | assumption | apply State.threadOp_kept | apply Kept.out

theorem execTallySub_kept {s₀ : State} {t : Thread} {word : BitVec 16} {k : BitVec 64} {s : State} (hK : Kept s₀ s) :
    KeptOut s₀ (execTallySub t word k s) := by
  unfold execTallySub
  with_reducible repeat' first | assumption | apply State.threadOp_kept | apply Kept.out

theorem execSyncStatus_kept {s₀ : State} {who : SyncWho} {word : BitVec 16} {s : State} (hK : Kept s₀ s) :
    KeptOut s₀ (execSyncStatus who word s) := by
  unfold execSyncStatus
  with_reducible repeat' first | assumption | apply State.syncFrom_kept | apply Kept.out

theorem execClaim_kept {s₀ : State} {who : SyncWho} {word : BitVec 16} {s : State} (hK : Kept s₀ s) :
    KeptOut s₀ (execClaim who word s) := by
  unfold execClaim
  with_reducible repeat' first | assumption | apply State.syncFrom_kept | apply Kept.out

theorem execUnclaim_kept {s₀ : State} {who : SyncWho} {word : BitVec 16} {s : State} (hK : Kept s₀ s) :
    KeptOut s₀ (execUnclaim who word s) := by
  unfold execUnclaim
  with_reducible repeat' first | assumption | apply State.syncFrom_kept | apply Kept.out

theorem State.waitCancel_kept {s₀ s : State} {t : Thread} (hK : Kept s₀ s) :
    Kept s₀ (State.waitCancel s t) := by
  unfold State.waitCancel
  repeat' first | (with_reducible first | apply State.observeSync_kept | apply State.giveResult_kept | apply State.logEvent_kept | apply State.free_kept) | split | (with_reducible apply_assumption -exfalso -symm)

theorem execWaitCancel_kept {s₀ : State} {t : Thread} {s : State} (hK : Kept s₀ s) :
    KeptOut s₀ (execWaitCancel t s) := by
  unfold execWaitCancel
  with_reducible repeat' first | assumption | apply State.waitCancel_kept | apply Kept.out

theorem execSyncBadCmd_kept {s₀ : State} {path : CwPath} {_word : BitVec 16} {value : BitVec 32} {s : State} (hK : Kept s₀ s) :
    KeptOut s₀ (execSyncBadCmd path _word value s) := by
  unfold execSyncBadCmd
  with_reducible repeat' first | assumption | apply State.denyCw_kept | apply State.send_kept | apply State.bump_kept | apply Kept.out | apply Kept.ite

theorem execSyncWordUe_kept {s₀ : State} {word : BitVec 16} {s : State} (hK : Kept s₀ s) :
    KeptOut s₀ (execSyncWordUe word s) := by
  unfold execSyncWordUe
  with_reducible repeat' first | intro _ | assumption | apply State.bump_kept | apply State.setSyncWord_kept | apply State.finishWait_kept | apply State.event_kept | apply State.observeSync_kept | apply Kept.out | apply Kept.ite | apply Kept.foldl

theorem State.ownerReset_kept {s₀ s : State} {a : Agent} (hK : Kept s₀ s) :
    Kept s₀ (State.ownerReset s a) := by
  unfold State.ownerReset
  with_reducible repeat' first | intro _ | assumption | apply State.setSyncWord_kept | apply State.finishWait_kept | apply Kept.foldl

theorem State.ownerResetWrite_kept {s₀ s : State} {agent : Agent} {v : Nat} (hK : Kept s₀ s) :
    Kept s₀ (State.ownerResetWrite s agent v).2 := by
  unfold State.ownerResetWrite
  repeat' first | (with_reducible first | assumption | apply State.ownerReset_kept) | split

theorem execSyncOwnerReset_kept {s₀ : State} {agent : Agent} {value : BitVec 8} {s : State} (hK : Kept s₀ s) :
    KeptOut s₀ (execSyncOwnerReset agent value s) := by
  unfold execSyncOwnerReset
  with_reducible repeat' first | intro _ | assumption | apply State.odRow_kept | apply State.ownerResetWrite_kept | apply Kept.out

theorem State.classWait_kept {s₀ s : State} {idle : List Thread} {who : Thread} (hK : Kept s₀ s) :
    Kept s₀ (State.classWait s idle who) := by
  unfold State.classWait
  repeat' first | (with_reducible first | intro _ | apply State.bump_kept | apply State.event_kept | apply State.countEvent_kept | apply Kept.foldl) | split | (with_reducible apply_assumption -exfalso -symm)

theorem execDeadlockScan_kept {s₀ : State} {idle : List Thread} {s : State} (hK : Kept s₀ s) :
    KeptOut s₀ (execDeadlockScan idle s) := by
  unfold execDeadlockScan
  with_reducible repeat' first | intro _ | assumption | apply State.classWait_kept | apply Kept.out | apply Kept.foldl

theorem execCoreGate_kept {s₀ : State} {core : Fin 20} {idle : BitVec 4} {highRank : Bool} {s : State} (hK : Kept s₀ s) :
    KeptOut s₀ (execCoreGate core idle highRank s) := by
  unfold execCoreGate
  with_reducible repeat' first | assumption | apply State.setCore_kept | apply Kept.out | apply Kept.ite

theorem State.coreFault_kept {s₀ s : State} {c : Fin 20} (hK : Kept s₀ s) :
    Kept s₀ (State.coreFault s c) := by
  unfold State.coreFault
  with_reducible repeat' first | assumption | apply State.bump_kept | apply State.setService_kept | apply State.setCore_kept | apply Kept.ite

theorem execSnapshotDeadline_kept {s₀ : State} {core : Fin 20} {s : State} (hK : Kept s₀ s) :
    KeptOut s₀ (execSnapshotDeadline core s) := by
  unfold execSnapshotDeadline
  with_reducible repeat' first | assumption | apply State.coreFault_kept | apply Kept.out | apply Kept.ite

theorem execDocentCoreFault_kept {s₀ : State} {core : Fin 20} {s : State} (hK : Kept s₀ s) :
    KeptOut s₀ (execDocentCoreFault core s) := by
  unfold execDocentCoreFault
  with_reducible repeat' first | assumption | apply State.coreFault_kept | apply Kept.out

theorem State.settleCore_kept {s₀ s : State} {phys : Nat} {fails : Bool} (hK : Kept s₀ s) :
    Kept s₀ (State.settleCore s phys fails) := by
  unfold State.settleCore
  with_reducible repeat' first | apply State.event_kept | apply State.retirePart_kept | apply State.bump_kept | apply State.odSet_kept | apply State.scoreTransient_kept | apply Kept.ite | apply_assumption -exfalso -symm

theorem State.remapCore_kept {s₀ s : State} {c : Fin 20} {phys : Nat} (hK : Kept s₀ s) :
    Kept s₀ (State.remapCore s c phys) := by
  unfold State.remapCore
  with_reducible repeat' first | assumption | apply State.releaseHeld_kept | apply State.setCore_kept

theorem State.settlePinned_kept {s₀ s : State} {phys : Nat} {fails : Bool} (hK : Kept s₀ s) :
    Kept s₀ (State.settlePinned s phys fails) := by
  unfold State.settlePinned
  with_reducible repeat' first | apply State.settleCore_kept | apply State.pinClean_kept | apply State.odSet_kept | apply Kept.ite | apply_assumption -exfalso -symm

theorem State.pinCore_kept {s₀ s : State} {phys : Nat} {bad : List (BitVec 16)} (hK : Kept s₀ s) :
    Kept s₀ (State.pinCore s phys bad) := by
  unfold State.pinCore
  repeat' first | (with_reducible first | apply State.settlePinned_kept | apply State.odSet_kept | apply Kept.cond) | split | (with_reducible apply_assumption -exfalso -symm)

theorem execDocentRepair_kept {s₀ : State} {core : Fin 20} {fails : Bool} {lightest : Fin 20} {s : State} (hK : Kept s₀ s) :
    KeptOut s₀ (execDocentRepair core fails lightest s) := by
  unfold execDocentRepair
  repeat' first | (with_reducible first | apply State.remapCore_kept | apply State.odSet_kept | apply State.settlePinned_kept | apply State.settleCore_kept | apply State.pinClean_kept | apply State.event_kept | apply Kept.out | apply Kept.ite) | split | (with_reducible apply_assumption -exfalso -symm)

theorem State.coreBoundary_kept {s₀ s : State} {late : List (BitVec 5)} {c : Fin 20} (hK : Kept s₀ s) :
    Kept s₀ (State.coreBoundary s late c) := by
  unfold State.coreBoundary
  with_reducible repeat' first | assumption | apply State.setCore_kept | apply State.releaseHeld_kept | apply State.bump_kept | apply State.runStalled_kept | apply Kept.ite

theorem State.snapshotCores_kept {s₀ s : State} {late : List (BitVec 5)} (hK : Kept s₀ s) :
    Kept s₀ (State.snapshotCores s late) := by
  unfold State.snapshotCores
  with_reducible repeat' first | intro _ | apply State.coreBoundary_kept | apply State.wake_kept | apply Kept.foldl | apply_assumption -exfalso -symm

theorem State.setMbox_kept {s₀ s : State} {ch : Channel} {f : Mailbox → Mailbox} (hK : Kept s₀ s) :
    Kept s₀ (State.setMbox s ch f) := by
  unfold State.setMbox
  repeat' first | (with_reducible apply_assumption -exfalso -symm)

theorem State.mboxAccess_kept {s₀ s : State} {path : CwPath} {ch : Channel} {offset : Nat} {size : Nat} {f : State → State} (hf : ∀ x0, Kept s₀ x0 → Kept s₀ (f x0)) (hK : Kept s₀ s) :
    Kept s₀ (State.mboxAccess s path ch offset size f) := by
  unfold State.mboxAccess
  with_reducible repeat' first | assumption | apply State.denyCw_kept | apply State.send_kept | apply hf | apply Kept.ite

theorem State.mboxIntr_kept {s₀ s : State} {ch : Channel} (hK : Kept s₀ s) :
    Kept s₀ (State.mboxIntr s ch) := by
  unfold State.mboxIntr
  with_reducible repeat' first | assumption | apply State.intr_kept | apply State.setMbox_kept | apply Kept.ite

theorem State.mboxSeqErr_kept {s₀ s : State} {ch : Channel} (hK : Kept s₀ s) :
    Kept s₀ (State.mboxSeqErr s ch) := by
  unfold State.mboxSeqErr
  with_reducible repeat' first | assumption | apply State.raise_kept | apply State.setMbox_kept | apply State.bump_kept

theorem State.ackH2e_kept {s₀ s : State} {ch : Channel} {seq : Nat} {code : Nat} (hK : Kept s₀ s) :
    Kept s₀ (State.ackH2e s ch seq code) := by
  unfold State.ackH2e
  with_reducible repeat' first | assumption | apply State.setMbox_kept | apply State.raise_kept | apply State.mboxIntr_kept | apply Kept.ite

theorem State.ringMessage_kept {s₀ s : State} {ch : Channel} {sender : Nat} {corrupt : Bool} (hK : Kept s₀ s) :
    Kept s₀ (State.ringMessage s ch sender corrupt) := by
  unfold State.ringMessage
  with_reducible repeat' first | assumption | apply State.setMbox_kept | apply State.ackH2e_kept | apply State.bump_kept | apply State.send_kept | apply State.total_kept | apply Kept.ite

theorem State.ringH2e_kept {s₀ s : State} {ch : Channel} {agent : Nat} {value : BitVec 32} {corrupt : Bool} (hK : Kept s₀ s) :
    Kept s₀ (State.ringH2e s ch agent value corrupt) := by
  unfold State.ringH2e
  with_reducible repeat' first | assumption | apply State.setMbox_kept | apply State.setSched_kept | apply State.mboxSeqErr_kept | apply State.ringMessage_kept | apply Kept.ite

theorem execH2eDoorbell_kept {s₀ : State} {path : CwPath} {ch : Channel} {size : BitVec 8} {value : BitVec 32} {corrupt : Bool} {s : State} (hK : Kept s₀ s) :
    KeptOut s₀ (execH2eDoorbell path ch size value corrupt s) := by
  unfold execH2eDoorbell
  with_reducible repeat' first | intro _ | assumption | apply State.mboxAccess_kept | apply State.ringH2e_kept | apply State.wakeUp_kept | apply Kept.out

theorem State.writeH2e_kept {s₀ s : State} {ch : Channel} {agent : Nat} {offset : Nat} {value : BitVec 32} (hK : Kept s₀ s) :
    Kept s₀ (State.writeH2e s ch agent offset value) := by
  unfold State.writeH2e
  with_reducible repeat' first | assumption | apply State.mboxSeqErr_kept | apply State.setMbox_kept | apply Kept.ite

theorem execH2eMsg_kept {s₀ : State} {path : CwPath} {ch : Channel} {offset : BitVec 8} {size : BitVec 8} {value : BitVec 32} {s : State} (hK : Kept s₀ s) :
    KeptOut s₀ (execH2eMsg path ch offset size value s) := by
  unfold execH2eMsg
  with_reducible repeat' first | intro _ | assumption | apply State.mboxAccess_kept | apply State.writeH2e_kept | apply Kept.out

theorem execMboxAck_kept {s₀ : State} {ch : Channel} {seq : BitVec 16} {code : BitVec 16} {s : State} (hK : Kept s₀ s) :
    KeptOut s₀ (execMboxAck ch seq code s) := by
  unfold execMboxAck
  with_reducible repeat' first | assumption | apply State.ackH2e_kept | apply State.setMbox_kept | apply State.bump_kept | apply Kept.out | apply Kept.ite

theorem execE2hSend_kept {s₀ : State} {ch : Channel} {msg : Option Bytes} {bits : BitVec 32} {s : State} (hK : Kept s₀ s) :
    KeptOut s₀ (execE2hSend ch msg bits s) := by
  unfold execE2hSend
  repeat' first | (with_reducible first | assumption | apply State.ringE2h_kept | apply State.setMbox_kept | apply Kept.out) | split

theorem execE2hAck_kept {s₀ : State} {path : CwPath} {ch : Channel} {size : BitVec 8} {value : BitVec 32} {s : State} (hK : Kept s₀ s) :
    KeptOut s₀ (execE2hAck path ch size value s) := by
  unfold execE2hAck
  with_reducible repeat' first | intro _ | assumption | apply State.mboxAccess_kept | apply State.setMbox_kept | apply Kept.out | apply Kept.ite

theorem execMboxTimeout_kept {s₀ : State} {ch : Channel} {e2h : Bool} {s : State} (hK : Kept s₀ s) :
    KeptOut s₀ (execMboxTimeout ch e2h s) := by
  unfold execMboxTimeout
  repeat' first | (with_reducible first | assumption | apply State.setMbox_kept | apply State.bump_kept | apply State.send_kept | apply State.raise_kept | apply State.ackH2e_kept | apply Kept.out | apply Kept.ite) | split

theorem State.takeBells_kept {s₀ s : State} {l : List (Fin 16 × BitVec 32)} (hK : Kept s₀ s) :
    Kept s₀ (State.takeBells s l) := by
  unfold State.takeBells
  with_reducible repeat' first | intro _ | assumption | apply State.setMbox_kept | apply Kept.foldl

end Sys2Proof.Machine
end

