-- ==== Sys2Proof/Laws/KeptUnits.lean ====
section
/-!
SUPPORT. `Kept` of the units: Madder, UPDATE, Woad, the Gallery and the basis of collectives: one lemma for each operation.
-/
namespace Sys2Proof.Machine

theorem State.genLoad_kept {s₀ s : State} {image : Bytes} (hK : Kept s₀ s) :
    Kept s₀ (State.genLoad s image).2 := by
  unfold State.genLoad
  repeat' first | (with_reducible first | assumption | apply State.setMadder_kept) | split

theorem State.genRecall_kept {s₀ s : State} {image : Bytes} (hK : Kept s₀ s) :
    Kept s₀ (State.genRecall s image).2 := by
  unfold State.genRecall
  repeat' first | (with_reducible first | assumption | apply State.setMadder_kept) | split

theorem State.genWrite_kept {s₀ s : State} {a : Agent} {key : Nat} {image : Bytes} {f : State → Nat × State} (hf : ∀ x0, Kept s₀ x0 → Kept s₀ (f x0).2) (hK : Kept s₀ s) :
    Kept s₀ (State.genWrite s a key image f).2 := by
  unfold State.genWrite
  repeat' first | (with_reducible first | assumption | apply State.odWriteWith_kept | apply State.bump_kept | apply hf) | split | (with_reducible refine Kept.of_snd (by assumption) ?_)

theorem execMadderGenLoad_kept {s₀ : State} {agent : Agent} {image : Bytes} {s : State} (hK : Kept s₀ s) :
    KeptOut s₀ (execMadderGenLoad agent image s) := by
  unfold execMadderGenLoad
  with_reducible repeat' first | intro _ | assumption | apply State.genWrite_kept | apply State.genLoad_kept | apply State.send_kept | apply Kept.out

theorem execMadderGenRecall_kept {s₀ : State} {agent : Agent} {image : Bytes} {s : State} (hK : Kept s₀ s) :
    KeptOut s₀ (execMadderGenRecall agent image s) := by
  unfold execMadderGenRecall
  with_reducible repeat' first | intro _ | assumption | apply State.genWrite_kept | apply State.genRecall_kept | apply State.send_kept | apply Kept.out

theorem State.swapGens_kept {s₀ s : State} (hK : Kept s₀ s) :
    Kept s₀ (State.swapGens s) := by
  unfold State.swapGens
  repeat' first | (with_reducible first | assumption | apply State.setMadder_kept | apply State.bump_kept) | split

theorem execGenSwap_kept {s₀ s : State} (hK : Kept s₀ s) :
    KeptOut s₀ (execGenSwap s) := by
  unfold execGenSwap
  with_reducible repeat' first | assumption | apply State.swapGens_kept | apply Kept.out

theorem State.takeHist_kept {s₀ s : State} (hK : Kept s₀ s) :
    Kept s₀ (State.takeHist s).2 := by
  unfold State.takeHist
  with_reducible repeat' first | assumption | apply State.setMadder_kept

theorem execHist_kept {s₀ : State} {agent : Agent} {s : State} (hK : Kept s₀ s) :
    KeptOut s₀ (execHist agent s) := by
  unfold execHist
  with_reducible repeat' first | assumption | apply State.send_kept | apply State.odRefuse_kept | apply State.takeHist_kept | apply Kept.out | apply Kept.ite

theorem State.verifyCover_kept {s₀ s : State} (hK : Kept s₀ s) :
    Kept s₀ (State.verifyCover s) := by
  unfold State.verifyCover
  with_reducible repeat' first | assumption | apply State.odSet_kept | apply State.event_kept | apply Kept.ite

theorem State.retireCoder_kept {s₀ s : State} {dec : Bool} {lane : Nat} (hK : Kept s₀ s) :
    Kept s₀ (State.retireCoder s dec lane) := by
  unfold State.retireCoder
  with_reducible repeat' first | assumption | apply State.event_kept | apply State.retirePart_kept | apply State.bump_kept | apply State.setMadder_kept | apply State.odSet_kept | apply State.verifyCover_kept | apply Kept.ite

theorem execCoderLaneTest_kept {s₀ : State} {fails : Bool} {s : State} (hK : Kept s₀ s) :
    KeptOut s₀ (execCoderLaneTest fails s) := by
  unfold execCoderLaneTest
  repeat' first | (with_reducible first | assumption | apply State.setMadder_kept | apply State.retireCoder_kept | apply State.scoreTransient_kept | apply Kept.out | apply Kept.ite) | split

theorem State.madderBoundary_kept {s₀ s : State} {spares : List Nat} (hK : Kept s₀ s) :
    Kept s₀ (State.madderBoundary s spares) := by
  unfold State.madderBoundary
  with_reducible repeat' first | intro _ | assumption | apply State.setMadder_kept | apply State.retireCoder_kept | apply State.event_kept | apply State.scoreTransient_kept | apply Kept.foldl

theorem State.lengthMismatch_kept {s₀ s : State} {t : Task} {detail : Nat} {result : Nat} (hK : Kept s₀ s) :
    Kept s₀ (State.lengthMismatch s t detail result) := by
  unfold State.lengthMismatch
  with_reducible repeat' first | assumption | apply State.complete_kept | apply State.bump_kept

theorem State.failCheck_kept {s₀ s : State} {t : Task} {x : Nat × Nat × Nat × Nat} (hK : Kept s₀ s) :
    Kept s₀ (State.failCheck s t x) := by
  unfold State.failCheck
  with_reducible repeat' first | assumption | apply State.lengthMismatch_kept | apply State.complete_kept | apply Kept.ite

theorem execUpdate_kept {s₀ : State} {task : Nat} {s : State} (hK : Kept s₀ s) :
    KeptOut s₀ (execUpdate task s) := by
  unfold execUpdate
  repeat' first | (with_reducible first | intro _ | assumption | apply State.whenReady_kept | apply State.complete_kept | apply State.malformed_kept | apply State.failCheck_kept | apply State.fail_kept | apply State.start_kept | apply Kept.out) | split

theorem State.settleLanes_kept {s₀ s : State} (hK : Kept s₀ s) :
    Kept s₀ (State.settleLanes s) := by
  unfold State.settleLanes
  with_reducible repeat' first | assumption | apply State.odSet_kept | apply State.odSetP_kept | apply State.event_kept | apply Kept.ite

theorem State.retireLane_kept {s₀ s : State} {lane : Nat} (hK : Kept s₀ s) :
    Kept s₀ (State.retireLane s lane) := by
  unfold State.retireLane
  with_reducible repeat' first | assumption | apply State.setUpdate_kept | apply State.settleLanes_kept | apply State.retirePart_kept | apply State.bump_kept | apply Kept.ite

theorem State.faultSlice_kept {s₀ s : State} {task : Nat} {free : Bool} (hK : Kept s₀ s) :
    Kept s₀ (State.faultSlice s task free) := by
  unfold State.faultSlice
  with_reducible repeat' first | assumption | apply State.setTask_kept

theorem State.faultFor_kept {s₀ s : State} {task : Nat} {cause : Repair} (hK : Kept s₀ s) :
    Kept s₀ (State.faultFor s task cause) := by
  unfold State.faultFor
  with_reducible repeat' first | assumption | apply State.setTask_kept | apply State.faultSlice_kept

theorem execLaneRepair_kept {s₀ : State} {activeFails : Bool} {shadowFails : Bool} {s : State} (hK : Kept s₀ s) :
    KeptOut s₀ (execLaneRepair activeFails shadowFails s) := by
  unfold execLaneRepair
  repeat' first | (with_reducible first | assumption | apply State.setUpdate_kept | apply State.event_kept | apply State.scoreTransient_kept | apply State.bump_kept | apply State.retireLane_kept | apply Kept.out | apply Kept.ite) | split

theorem execKernelImageSwitch_kept {s₀ s : State} (hK : Kept s₀ s) :
    KeptOut s₀ (execKernelImageSwitch s) := by
  unfold execKernelImageSwitch
  repeat' first | (with_reducible first | assumption | apply State.setUpdate_kept | apply State.setWoad_kept | apply Kept.out) | split

theorem State.addTally_kept {s₀ s : State} {task : Nat} {written : Nat} {nonfinite : Nat} {saturated : Nat} {amax : Nat} (hK : Kept s₀ s) :
    Kept s₀ (State.addTally s task written nonfinite saturated amax) := by
  unfold State.addTally
  with_reducible repeat' first | assumption | apply State.setUpdate_kept

theorem State.dropTally_kept {s₀ s : State} {task : Nat} (hK : Kept s₀ s) :
    Kept s₀ (State.dropTally s task) := by
  unfold State.dropTally
  with_reducible repeat' first | assumption | apply State.setUpdate_kept

theorem State.commitTally_kept {s₀ s : State} {t : Task} (hK : Kept s₀ s) :
    Kept s₀ (State.commitTally s t) := by
  unfold State.commitTally
  repeat' first | (with_reducible first | assumption | apply State.dropTally_kept | apply State.setUpdate_kept | apply State.total_kept | apply State.addFault_kept) | split

theorem State.dropLaneWork_kept {s₀ s : State} {task : Nat} (hK : Kept s₀ s) :
    Kept s₀ (State.dropLaneWork s task) := by
  unfold State.dropLaneWork
  with_reducible repeat' first | assumption | apply State.setUpdate_kept

theorem execWoadCompress_kept {s₀ : State} {task : Nat} {s : State} (hK : Kept s₀ s) :
    KeptOut s₀ (execWoadCompress task s) := by
  unfold execWoadCompress
  repeat' first | (with_reducible first | intro _ | assumption | apply State.whenReady_kept | apply State.malformed_kept | apply State.failCheck_kept | apply State.fail_kept | apply State.bump_kept | apply State.setWoad_kept | apply State.start_kept | apply State.setTask_kept | apply Kept.out) | split

theorem State.setFactorSet_kept {s₀ s : State} {f : FactorSet} (hK : Kept s₀ s) :
    Kept s₀ (State.setFactorSet s f) := by
  unfold State.setFactorSet
  with_reducible repeat' first | assumption | apply State.setWoad_kept

theorem State.dropFactorSets_kept {s₀ s : State} {p : FactorSet → Bool} (hK : Kept s₀ s) :
    Kept s₀ (State.dropFactorSets s p) := by
  unfold State.dropFactorSets
  with_reducible repeat' first | assumption | apply State.setWoad_kept

theorem State.startPhase_kept {s₀ s : State} {t : Task} (hK : Kept s₀ s) :
    Kept s₀ (State.startPhase s t) := by
  unfold State.startPhase
  repeat' first | (with_reducible first | assumption | apply State.setFactorSet_kept | apply Kept.ite) | split

theorem State.endPhase_kept {s₀ s : State} {t : Task} {ok : Bool} (hK : Kept s₀ s) :
    Kept s₀ (State.endPhase s t ok) := by
  unfold State.endPhase
  repeat' first | (with_reducible first | assumption | apply State.dropFactorSets_kept | apply State.setFactorSet_kept | apply State.setWoad_kept) | split

theorem State.evictCache_kept {s₀ s : State} {need : Nat} {n : Nat} (h : Kept s₀ s) : Kept s₀ (State.evictCache s need n) := by
  induction n generalizing s with
  | zero => exact h
  | succ k ih =>
    unfold State.evictCache
    repeat' (first | (with_reducible assumption) | (with_reducible apply ih) | (with_reducible (first | apply State.bump_kept | apply State.setWoad_kept | apply Kept.ite)) | split)

theorem State.openResidency_kept {s₀ s : State} {key : Nat × Option Nat × Nat} {ncols : Nat} {r : Nat} (hK : Kept s₀ s) :
    Kept s₀ (State.openResidency s key ncols r).1 := by
  unfold State.openResidency
  repeat' first | (with_reducible first | assumption | apply State.evictCache_kept | apply State.setWoad_kept) | (extract_lets +onlyGivenNames z; first | (refine (fun hz : Kept s₀ z => ?_) ?_; clear_value z; revert z; intro _ _; rotate_left; unfold z; clear z; rotate_right) | (clear_value z; revert z; intro _)) | split

theorem State.setResidency_kept {s₀ s : State} {key : Nat × Option Nat × Nat} {f : Residency → Residency} (hK : Kept s₀ s) :
    Kept s₀ (State.setResidency s key f) := by
  unfold State.setResidency
  with_reducible repeat' first | assumption | apply State.setWoad_kept

theorem State.closeResidency_kept {s₀ s : State} {key : Nat × Option Nat × Nat} (hK : Kept s₀ s) :
    Kept s₀ (State.closeResidency s key) := by
  unfold State.closeResidency
  with_reducible repeat' first | assumption | apply State.setWoad_kept

theorem execFactorCacheUe_kept {s₀ : State} {job : JobId} {set : FactorName} {s : State} (hK : Kept s₀ s) :
    KeptOut s₀ (execFactorCacheUe job set s) := by
  unfold execFactorCacheUe
  repeat' first | (with_reducible first | intro _ | assumption | apply State.bump_kept | apply State.faultSlice_kept | apply State.closeResidency_kept | apply State.setResidency_kept | apply State.setTask_kept | apply State.event_kept | apply Kept.out | apply Kept.foldl) | (extract_lets +onlyGivenNames z; first | (refine (fun hz : Kept s₀ z => ?_) ?_; clear_value z; revert z; intro _ _; rotate_left; unfold z; clear z; rotate_right) | (clear_value z; revert z; intro _)) | split

theorem execArrayCheckFail_kept {s₀ : State} {residue : Bool} {s : State} (hK : Kept s₀ s) :
    KeptOut s₀ (execArrayCheckFail residue s) := by
  unfold execArrayCheckFail
  with_reducible repeat' first | intro _ | assumption | apply State.bump_kept | apply State.faultFor_kept | apply State.setWoad_kept | apply Kept.out | apply Kept.ite | apply Kept.foldl

theorem State.retireRow_kept {s₀ s : State} {row : Nat} (hK : Kept s₀ s) :
    Kept s₀ (State.retireRow s row) := by
  unfold State.retireRow
  with_reducible repeat' first | assumption | apply State.setWoad_kept | apply State.odSet_kept | apply State.retirePart_kept | apply State.bump_kept | apply State.event_kept

theorem State.retireCol_kept {s₀ s : State} {col : Nat} (hK : Kept s₀ s) :
    Kept s₀ (State.retireCol s col) := by
  unfold State.retireCol
  with_reducible repeat' first | assumption | apply State.setWoad_kept | apply State.odSet_kept | apply State.retirePart_kept | apply State.bump_kept | apply State.event_kept | apply Kept.ite

theorem execArrayRepair_kept {s₀ : State} {badRows : List (Fin 130)} {badCols : List (Fin 130)} {s : State} (hK : Kept s₀ s) :
    KeptOut s₀ (execArrayRepair badRows badCols s) := by
  unfold execArrayRepair
  repeat' first | (with_reducible first | assumption | apply State.setWoad_kept | apply State.event_kept | apply State.retireCol_kept | apply State.retireRow_kept | apply Kept.out | apply Kept.ite | apply Kept.foldl) | split

theorem State.takeSpace_kept {s₀ s : State} {d : Space} (hK : Kept s₀ s) :
    Kept s₀ (State.takeSpace s d) := by
  unfold State.takeSpace
  with_reducible repeat' first | assumption | apply State.setGallery_kept

theorem State.tookSince_kept {s₀ s : State} {before : State} (hK : Kept s₀ s) (hK1 : Kept s₀ before) :
    Kept s₀ (State.tookSince s before) := by
  unfold State.tookSince
  with_reducible repeat' first | assumption | apply State.takeSpace_kept

theorem State.waitSpace_kept {s₀ s : State} (hK : Kept s₀ s) :
    Kept s₀ (State.waitSpace s) := by
  unfold State.waitSpace
  with_reducible repeat' first | assumption | apply State.setGallery_kept

theorem State.oversize_kept {s₀ s : State} {region : Nat} {units : Nat} (hK : Kept s₀ s) :
    Kept s₀ (State.oversize s region units) := by
  unfold State.oversize
  with_reducible repeat' first | assumption | apply State.countEvent_kept

theorem State.recordRemap_kept {s₀ s : State} {kind : Nat} {channel : Nat} {row : Nat} {spare : Nat} (hK : Kept s₀ s) :
    Kept s₀ (State.recordRemap s kind channel row spare) := by
  unfold State.recordRemap
  with_reducible repeat' first | assumption | apply State.event_kept | apply State.bump_kept | apply State.setGallery_kept | apply Kept.ite

theorem State.setXlate_kept {s₀ s : State} {channel : Nat} {row : Nat} {secondary : Bool} {spare : Nat} (hK : Kept s₀ s) :
    Kept s₀ (State.setXlate s channel row secondary spare) := by
  unfold State.setXlate
  with_reducible repeat' first | assumption | apply State.setGallery_kept

theorem State.queueRemap_kept {s₀ s : State} {channel : Nat} {row : Nat} {bad : List Nat} (hK : Kept s₀ s) :
    Kept s₀ (State.queueRemap s channel row bad) := by
  unfold State.queueRemap
  with_reducible repeat' first | assumption | apply State.setGallery_kept | apply Kept.ite

theorem State.trackRow_kept {s₀ s : State} {channel : Nat} {row : Nat} {n : Nat} (hK : Kept s₀ s) :
    Kept s₀ (State.trackRow s channel row n) := by
  unfold State.trackRow
  with_reducible repeat' first | assumption | apply State.setGallery_kept | apply State.queueRemap_kept | apply State.scored_kept | apply Kept.ite

theorem State.setRemap_kept {s₀ s : State} {channel : Nat} {row : Nat} {f : RemapJob → RemapJob} (hK : Kept s₀ s) :
    Kept s₀ (State.setRemap s channel row f) := by
  unfold State.setRemap
  with_reducible repeat' first | assumption | apply State.setGallery_kept

theorem State.dropRemap_kept {s₀ s : State} {channel : Nat} {row : Nat} (hK : Kept s₀ s) :
    Kept s₀ (State.dropRemap s channel row) := by
  unfold State.dropRemap
  with_reducible repeat' first | assumption | apply State.setGallery_kept

theorem State.copyRow_kept {s₀ s : State} {j : RemapJob} {secondary : Bool} {spare : Nat} {readback : Bool} (hK : Kept s₀ s) :
    Kept s₀ (State.copyRow s j secondary spare readback) := by
  unfold State.copyRow
  with_reducible repeat' first | assumption | apply State.setGallery_kept | apply State.setRemap_kept | apply Kept.ite

theorem State.writeRemap_kept {s₀ s : State} {j : RemapJob} (hK : Kept s₀ s) :
    Kept s₀ (State.writeRemap s j) := by
  unfold State.writeRemap
  with_reducible repeat' first | assumption | apply State.recordRemap_kept | apply State.setRemap_kept | apply State.scored_kept | apply State.bump_kept | apply Kept.ite

theorem State.galleryBoundary_kept {s₀ s : State} (hK : Kept s₀ s) :
    Kept s₀ (State.galleryBoundary s) := by
  unfold State.galleryBoundary
  with_reducible repeat' first | intro _ | assumption | apply State.dropRemap_kept | apply State.setXlate_kept | apply State.setGallery_kept | apply State.total_kept | apply Kept.ite | apply Kept.foldl

theorem State.shrinkRegion_kept {s₀ s : State} {region : Nat} (hK : Kept s₀ s) :
    Kept s₀ (State.shrinkRegion s region) := by
  unfold State.shrinkRegion
  repeat' first | (with_reducible first | assumption | apply State.odSetP_kept) | split

theorem State.loadRemap_kept {s₀ s : State} {bad : List (BitVec 12 × Bool)} (hK : Kept s₀ s) :
    Kept s₀ (State.loadRemap s bad) := by
  unfold State.loadRemap
  with_reducible repeat' first | assumption | apply State.event_kept | apply State.bumpBy_kept | apply State.setGallery_kept | apply State.odSet_kept | apply Kept.ite

theorem State.rebuildRow_kept {s₀ s : State} {bad : List (Nat × Bool × Nat)} {r : Nat × Nat} (hK : Kept s₀ s) :
    Kept s₀ (State.rebuildRow s bad r) := by
  unfold State.rebuildRow
  repeat' first | (with_reducible first | assumption | apply State.setGallery_kept | apply State.recordRemap_kept | apply State.setXlate_kept | apply State.bump_kept | apply State.event_kept) | split

theorem State.rebuildRemap_kept {s₀ s : State} {rows : List (Nat × Nat)} {bad : List (Nat × Bool × Nat)} (hK : Kept s₀ s) :
    Kept s₀ (State.rebuildRemap s rows bad) := by
  unfold State.rebuildRemap
  with_reducible repeat' first | intro _ | assumption | apply State.setGallery_kept | apply State.rebuildRow_kept | apply State.odSet_kept | apply Kept.foldl

theorem State.setGroup_kept {s₀ s : State} {id : Nat} {f : Group → Group} (hK : Kept s₀ s) :
    Kept s₀ (State.setGroup s id f) := by
  unfold State.setGroup
  repeat' first | (with_reducible assumption) | (with_reducible refine Kept.groupsTo (fun h => ?_) ?_; first | (simpa only [mapIf, List.length_map] using h) | (exact Nat.le_trans (List.length_filter_le _ _) h))

theorem State.setColl_kept {s₀ s : State} {group : Nat} {seq : Nat} {f : Coll → Coll} (hK : Kept s₀ s) :
    Kept s₀ (State.setColl s group seq f) := by
  unfold State.setColl
  with_reducible repeat' first | assumption | apply State.setColls_kept | rfl

theorem State.collSend_kept {s₀ s : State} {c : Coll} {g : Group} {dst : Nat} {m : CollMsg} (hK : Kept s₀ s) :
    Kept s₀ (State.collSend s c g dst m) := by
  unfold State.collSend
  repeat' first | (with_reducible first | assumption | apply State.seal_kept | apply State.offer_kept) | (extract_lets +onlyGivenNames z; clear_value z; revert z; intro _) | split | (with_reducible refine Kept.of_snd (by assumption) ?_)

theorem State.collFlood_kept {s₀ s : State} {c : Coll} {g : Group} {m : CollMsg} (hK : Kept s₀ s) :
    Kept s₀ (State.collFlood s c g m) := by
  unfold State.collFlood
  with_reducible repeat' first | intro _ | assumption | apply State.collSend_kept | apply Kept.foldl

theorem State.abortCollAt_kept {s₀ s : State} {c : Coll} {reason : Nat} {frame : Nat} (hK : Kept s₀ s) :
    Kept s₀ (State.abortCollAt s c reason frame) := by
  unfold State.abortCollAt
  repeat' first | (with_reducible first | assumption | apply State.bump_kept | apply State.collFlood_kept | apply State.setColl_kept) | split

theorem State.abortColl_kept {s₀ s : State} {c : Coll} {reason : Nat} (hK : Kept s₀ s) :
    Kept s₀ (State.abortColl s c reason) := by
  unfold State.abortColl
  with_reducible repeat' first | assumption | apply State.abortCollAt_kept

theorem State.abortColls_kept {s₀ s : State} {p : Coll → Bool} {reason : Nat} {frame : Nat} (hK : Kept s₀ s) :
    Kept s₀ (State.abortColls s p reason frame) := by
  unfold State.abortColls
  with_reducible repeat' first | intro _ | assumption | apply State.abortCollAt_kept | apply Kept.foldl

theorem State.abortLost_kept {s₀ s : State} {engine : Nat} {frame : Nat} (hK : Kept s₀ s) :
    Kept s₀ (State.abortLost s engine frame) := by
  unfold State.abortLost
  with_reducible repeat' first | assumption | apply State.abortColls_kept

end Sys2Proof.Machine
end

