-- ==== Sys2Proof/Laws/KeptWeld.lean ====
section
/-!
SUPPORT. `Kept` of Weld, the Ledger, mirrors, the Vault and restores: one lemma for each operation.
-/
namespace Sys2Proof.Machine

theorem State.weldTo_kept {s₀ s : State} {j : JobId} {dst : Nat} {seq : Nat} {type : Nat} {step : Nat} {aux : Nat} {payload : Bytes} (hK : Kept s₀ s) :
    Kept s₀ (State.weldTo s j dst seq type step aux payload) := by
  unfold State.weldTo
  repeat' first | (with_reducible first | assumption | apply State.seal_kept | apply State.setWeld_kept | apply State.offer_kept) | (extract_lets +onlyGivenNames z; clear_value z; revert z; intro _) | split | (with_reducible refine Kept.of_snd (by assumption) ?_)

theorem State.weldSend_kept {s₀ s : State} {j : JobId} {type : Nat} {step : Nat} {aux : Nat} {payload : Bytes} (hK : Kept s₀ s) :
    Kept s₀ (State.weldSend s j type step aux payload) := by
  unfold State.weldSend
  with_reducible repeat' first | assumption | apply State.setWeld_kept | apply State.weldTo_kept | apply State.takeSpace_kept | apply Kept.ite

theorem State.shadowSend_kept {s₀ s : State} {j : JobId} {type : Nat} {step : Nat} {aux : Nat} {payload : Bytes} (hK : Kept s₀ s) :
    Kept s₀ (State.shadowSend s j type step aux payload) := by
  unfold State.shadowSend
  with_reducible repeat' first | assumption | apply State.setWeld_kept | apply State.weldTo_kept | apply Kept.ite

theorem State.pairSend_kept {s₀ s : State} {j : JobId} {dst : Nat} {type : Nat} {aux : Nat} {payload : Bytes} (hK : Kept s₀ s) :
    Kept s₀ (State.pairSend s j dst type aux payload) := by
  unfold State.pairSend
  with_reducible repeat' first | assumption | apply State.setWeld_kept | apply State.offer_kept

theorem State.weldMalformed_kept {s₀ s : State} {j : JobId} (hK : Kept s₀ s) :
    Kept s₀ (State.weldMalformed s j) := by
  unfold State.weldMalformed
  with_reducible repeat' first | assumption | apply State.countEvent_kept

theorem State.askLost_kept {s₀ s : State} {j : JobId} (hK : Kept s₀ s) :
    Kept s₀ (State.askLost s j) := by
  unfold State.askLost
  with_reducible repeat' first | intro _ | assumption | apply State.setWeld_kept | apply State.askCopies_kept | apply State.markStale_kept | apply Kept.foldl

theorem State.loseRecord_kept {s₀ s : State} {j : JobId} {step : Nat} {reason : Nat} (hK : Kept s₀ s) :
    Kept s₀ (State.loseRecord s j step reason) := by
  unfold State.loseRecord
  repeat' first | (with_reducible first | intro _ | assumption | apply State.bump_kept | apply State.setWeld_kept | apply State.markStale_kept | apply State.weldSend_kept | apply State.askLost_kept | apply State.event_kept | apply Kept.foldl) | split

theorem State.seqGap_kept {s₀ s : State} {j : JobId} (hK : Kept s₀ s) :
    Kept s₀ (State.seqGap s j) := by
  unfold State.seqGap
  with_reducible repeat' first | intro _ | assumption | apply State.loseRecord_kept | apply State.setWeld_kept | apply State.askCopies_kept | apply Kept.foldl

theorem State.takeSeq_kept {s₀ s : State} {j : JobId} {h : BitVec 256} (hK : Kept s₀ s) :
    Kept s₀ (State.takeSeq s j h).1 := by
  unfold State.takeSeq
  repeat' first | (with_reducible first | assumption | apply State.bump_kept | apply State.seqGap_kept | apply State.setWeld_kept) | (extract_lets +onlyGivenNames z; first | (refine (fun hz : Kept s₀ z => ?_) ?_; clear_value z; revert z; intro _ _; rotate_left; unfold z; clear z; rotate_right) | (clear_value z; revert z; intro _)) | split

theorem State.weldIn_kept {s₀ s : State} {h : BitVec 256} {type : Nat} {size : Nat} {tagOk : Bool} {record : Bool} {f : JobId → State → State} (hf : ∀ x0 x1, Kept s₀ x1 → Kept s₀ (f x0 x1)) (hK : Kept s₀ s) :
    Kept s₀ (State.weldIn s h type size tagOk record f) := by
  unfold State.weldIn
  with_reducible repeat' first | assumption | apply State.weldMalformed_kept | apply State.tagFail_kept | apply State.setWeld_kept | apply State.takeSeq_kept | apply hf | apply Kept.ite

theorem State.learnGroup_kept {s₀ s : State} {j : JobId} {g : SpanGroup} (hK : Kept s₀ s) :
    Kept s₀ (State.learnGroup s j g) := by
  unfold State.learnGroup
  with_reducible repeat' first | assumption | apply State.setWeld_kept | apply Kept.ite

theorem execWeldBind_kept {s₀ : State} {task : Nat} {s : State} (hK : Kept s₀ s) :
    KeptOut s₀ (execWeldBind task s) := by
  unfold execWeldBind
  repeat' first | (with_reducible first | intro _ | assumption | apply State.whenReady_kept | apply State.malformed_kept | apply State.complete_kept | apply State.setWeld_kept | apply Kept.out | apply Kept.ite) | split

theorem State.pairKey_kept {s₀ s : State} {j : JobId} (hK : Kept s₀ s) :
    Kept s₀ (State.pairKey s j).2 := by
  unfold State.pairKey
  repeat' first | (with_reducible first | assumption | apply State.poolKey_kept) | split | (with_reducible refine Kept.of_snd (by assumption) ?_)

theorem State.sendPair_kept {s₀ s : State} {j : JobId} {dst : Nat} {type : Nat} {aux : Nat} {modeReq : Nat} (hK : Kept s₀ s) :
    Kept s₀ (State.sendPair s j dst type aux modeReq) := by
  unfold State.sendPair
  repeat' first | (with_reducible first | assumption | apply State.pairKey_kept | apply State.pairSend_kept) | split | (with_reducible refine Kept.of_snd (by assumption) ?_)

theorem State.authGood_kept {s₀ s : State} {j : JobId} {hdr : BitVec 256} {b : BitVec 1024} (hK : Kept s₀ s) :
    Kept s₀ (State.authGood s j hdr b).2 := by
  unfold State.authGood
  repeat' first | (with_reducible first | assumption | apply State.pairKey_kept | apply State.bump_kept) | split | (with_reducible refine Kept.of_snd (by assumption) ?_)

theorem State.pairFail_kept {s₀ s : State} {j : JobId} {status : Nat} {detail : Nat} {detail2 : Nat} (hK : Kept s₀ s) :
    Kept s₀ (State.pairFail s j status detail detail2) := by
  unfold State.pairFail
  repeat' first | (with_reducible first | assumption | apply State.setWeld_kept | apply State.setCurator_kept | apply State.complete_kept) | (extract_lets +onlyGivenNames z; first | (refine (fun hz : Kept s₀ z => ?_) ?_; clear_value z; revert z; intro _ _; rotate_left; unfold z; clear z; rotate_right) | (clear_value z; revert z; intro _)) | split

theorem State.pairRefused_kept {s₀ s : State} {j : JobId} {reason : Nat} {cls : Nat} (hK : Kept s₀ s) :
    Kept s₀ (State.pairRefused s j reason cls) := by
  unfold State.pairRefused
  with_reducible repeat' first | assumption | apply State.setService_kept | apply State.bump_kept | apply State.pairFail_kept | apply Kept.ite

theorem State.sendRefuse_kept {s₀ s : State} {j : JobId} {dst : Nat} {reason : Nat} (hK : Kept s₀ s) :
    Kept s₀ (State.sendRefuse s j dst reason) := by
  unfold State.sendRefuse
  with_reducible repeat' first | assumption | apply State.pairSend_kept

theorem State.enterPaired_kept {s₀ s : State} {j : JobId} {cls : Nat} {mode : Nat} (hK : Kept s₀ s) :
    Kept s₀ (State.enterPaired s j cls mode) := by
  unfold State.enterPaired
  repeat' first | (with_reducible first | assumption | apply State.setWeld_kept | apply State.setVault_kept | apply State.setService_kept | apply State.setCurator_kept | apply State.writeRecord_kept | apply State.weldSend_kept | apply State.complete_kept) | (extract_lets +onlyGivenNames z; first | (refine (fun hz : Kept s₀ z => ?_) ?_; clear_value z; revert z; intro _ _; rotate_left; unfold z; clear z; rotate_right) | (clear_value z; revert z; intro _)) | split

theorem State.answerOffer_kept {s₀ s : State} {j : JobId} {src : Nat} {b : BitVec 1024} {authOk : Bool} (hK : Kept s₀ s) :
    Kept s₀ (State.answerOffer s j src b authOk) := by
  unfold State.answerOffer
  repeat' first | (with_reducible first | assumption | apply State.pairRefused_kept | apply State.sendRefuse_kept | apply State.setWeld_kept | apply State.sendPair_kept) | split

theorem State.startOffer_kept {s₀ s : State} {j : JobId} {partner : Nat} {asked : Nat} {task : Option Nat} (hK : Kept s₀ s) :
    Kept s₀ (State.startOffer s j partner asked task) := by
  unfold State.startOffer
  with_reducible repeat' first | assumption | apply State.setWeld_kept | apply State.sendPair_kept

theorem execWeldPair_kept {s₀ : State} {task : Nat} {s : State} (hK : Kept s₀ s) :
    KeptOut s₀ (execWeldPair task s) := by
  unfold execWeldPair
  repeat' first | (with_reducible first | intro _ | assumption | apply State.whenReady_kept | apply State.malformed_kept | apply State.complete_kept | apply State.start_kept | apply State.setWeld_kept | apply State.answerOffer_kept | apply State.startOffer_kept | apply Kept.out | apply Kept.ite) | split

theorem execPairOffer_kept {s₀ : State} {hdr : BitVec 256} {fields : BitVec 768} {auth : BitVec 256} {s : State} (hK : Kept s₀ s) :
    KeptOut s₀ (execPairOffer hdr fields auth s) := by
  unfold execPairOffer
  with_reducible repeat' first | assumption | apply State.weldMalformed_kept | apply State.authGood_kept | apply State.answerOffer_kept | apply State.setWeld_kept | apply State.sendRefuse_kept | apply Kept.out | apply Kept.ite

theorem execPairAccept_kept {s₀ : State} {hdr : BitVec 256} {fields : BitVec 768} {auth : BitVec 256} {s : State} (hK : Kept s₀ s) :
    KeptOut s₀ (execPairAccept hdr fields auth s) := by
  unfold execPairAccept
  repeat' first | (with_reducible first | assumption | apply State.weldMalformed_kept | apply State.authGood_kept | apply State.pairRefused_kept | apply State.sendRefuse_kept | apply State.enterPaired_kept | apply State.pairSend_kept | apply Kept.out) | (extract_lets +onlyGivenNames z; clear_value z; revert z; intro _) | split | (with_reducible refine Kept.of_snd (by assumption) ?_)

theorem execPairConfirm_kept {s₀ : State} {hdr : BitVec 256} {s : State} (hK : Kept s₀ s) :
    KeptOut s₀ (execPairConfirm hdr s) := by
  unfold execPairConfirm
  with_reducible repeat' first | assumption | apply State.weldMalformed_kept | apply State.enterPaired_kept | apply Kept.out | apply Kept.ite

theorem execPairRefuse_kept {s₀ : State} {hdr : BitVec 256} {s : State} (hK : Kept s₀ s) :
    KeptOut s₀ (execPairRefuse hdr s) := by
  unfold execPairRefuse
  with_reducible repeat' first | assumption | apply State.weldMalformed_kept | apply State.pairRefused_kept | apply Kept.out | apply Kept.ite

theorem execPairOfferRepeat_kept {s₀ : State} {job : JobId} {s : State} (hK : Kept s₀ s) :
    KeptOut s₀ (execPairOfferRepeat job s) := by
  unfold execPairOfferRepeat
  repeat' first | (with_reducible first | assumption | apply State.sendPair_kept | apply State.setWeld_kept | apply Kept.out) | (extract_lets +onlyGivenNames z; clear_value z; revert z; intro _) | split

theorem execPairTimeout_kept {s₀ : State} {job : JobId} {s : State} (hK : Kept s₀ s) :
    KeptOut s₀ (execPairTimeout job s) := by
  unfold execPairTimeout
  repeat' first | (with_reducible first | assumption | apply State.pairFail_kept | apply Kept.out) | (extract_lets +onlyGivenNames z; clear_value z; revert z; intro _) | split

theorem execAutoPair_kept {s₀ : State} {job : JobId} {s : State} (hK : Kept s₀ s) :
    KeptOut s₀ (execAutoPair job s) := by
  unfold execAutoPair
  with_reducible repeat' first | assumption | apply State.startOffer_kept | apply Kept.out | apply Kept.ite

theorem State.endPair_kept {s₀ s : State} {j : JobId} {close : Bool} (hK : Kept s₀ s) :
    Kept s₀ (State.endPair s j close) := by
  unfold State.endPair
  repeat' first | (with_reducible first | intro _ | assumption | apply State.pairSend_kept | apply State.setWeld_kept | apply State.complete_kept | apply Kept.ite | apply Kept.foldl) | split

theorem execPairClose_kept {s₀ : State} {hdr : BitVec 256} {s : State} (hK : Kept s₀ s) :
    KeptOut s₀ (execPairClose hdr s) := by
  unfold execPairClose
  with_reducible repeat' first | assumption | apply State.weldMalformed_kept | apply State.endPair_kept | apply Kept.out | apply Kept.ite

theorem execWeldUnpair_kept {s₀ : State} {task : Nat} {s : State} (hK : Kept s₀ s) :
    KeptOut s₀ (execWeldUnpair task s) := by
  unfold execWeldUnpair
  with_reducible repeat' first | intro _ | assumption | apply State.whenReady_kept | apply State.complete_kept | apply State.endPair_kept | apply Kept.out | apply Kept.ite

theorem State.setOut_kept {s₀ s : State} {j : JobId} {step : Nat} {f : OutRecord → OutRecord} (hK : Kept s₀ s) :
    Kept s₀ (State.setOut s j step f) := by
  unfold State.setOut
  with_reducible repeat' first | assumption | apply State.setWeld_kept

theorem State.withOut_kept {s₀ s : State} {j : JobId} {step : Nat} (hK : Kept s₀ s) :
    Kept s₀ (State.withOut s j step) := by
  unfold State.withOut
  with_reducible repeat' first | assumption | apply State.setWeld_kept | apply Kept.ite

theorem State.joinRecord_kept {s₀ s : State} {t : Task} (hK : Kept s₀ s) :
    Kept s₀ (State.joinRecord s t) := by
  unfold State.joinRecord
  with_reducible repeat' first | assumption | apply State.setTask_kept | apply State.setOut_kept | apply State.withOut_kept | apply Kept.ite

theorem State.closeRecord_kept {s₀ s : State} {j : JobId} {step : Nat} {task : Option Nat} (hK : Kept s₀ s) :
    Kept s₀ (State.closeRecord s j step task) := by
  unfold State.closeRecord
  with_reducible repeat' first | assumption | apply State.setWeld_kept | apply State.setOut_kept | apply State.withOut_kept

theorem State.stageData_kept {s₀ s : State} {j : JobId} {step : Nat} {entry : Nat} {index : Nat} {payload : Bytes} (hK : Kept s₀ s) :
    Kept s₀ (State.stageData s j step entry index payload) := by
  unfold State.stageData
  with_reducible repeat' first | assumption | apply State.takeSpace_kept | apply State.setOut_kept | apply Kept.ite

theorem State.stageQhat_kept {s₀ s : State} {j : JobId} {r : OutRecord} (hK : Kept s₀ s) :
    Kept s₀ (State.stageQhat s j r) := by
  unfold State.stageQhat
  with_reducible repeat' first | intro _ | assumption | apply State.stageData_kept | apply Kept.ite | apply Kept.foldl

theorem State.sendOpen_kept {s₀ s : State} {j : JobId} {r : OutRecord} (hK : Kept s₀ s) :
    Kept s₀ (State.sendOpen s j r) := by
  unfold State.sendOpen
  with_reducible repeat' first | assumption | apply State.setOut_kept | apply State.shadowSend_kept | apply State.weldSend_kept

theorem State.sendData_kept {s₀ s : State} {j : JobId} {step : Nat} {m : StagedMsg} (hK : Kept s₀ s) :
    Kept s₀ (State.sendData s j step m) := by
  unfold State.sendData
  with_reducible repeat' first | assumption | apply State.setOut_kept | apply State.shadowSend_kept | apply State.weldSend_kept

theorem State.sendTrailer_kept {s₀ s : State} {j : JobId} {step : Nat} (hK : Kept s₀ s) :
    Kept s₀ (State.sendTrailer s j step) := by
  unfold State.sendTrailer
  with_reducible repeat' first | intro _ | assumption | apply State.shadowSend_kept | apply State.weldSend_kept | apply State.setOut_kept | apply Kept.foldl

theorem State.pumpRecord_kept {s₀ s : State} {j : JobId} {step : Nat} (hK : Kept s₀ s) :
    Kept s₀ (State.pumpRecord s j step) := by
  unfold State.pumpRecord
  repeat' first | (with_reducible first | intro _ | assumption | apply State.stageQhat_kept | apply State.sendData_kept | apply State.sendTrailer_kept | apply Kept.ite | apply Kept.foldl) | split

theorem State.pumpRecords_kept {s₀ s : State} {j : JobId} (hK : Kept s₀ s) :
    Kept s₀ (State.pumpRecords s j) := by
  unfold State.pumpRecords
  with_reducible repeat' first | intro _ | assumption | apply State.sendOpen_kept | apply State.pumpRecord_kept | apply Kept.ite | apply Kept.foldl

theorem execLedgerSend_kept {s₀ : State} {task : Nat} {s : State} (hK : Kept s₀ s) :
    KeptOut s₀ (execLedgerSend task s) := by
  unfold execLedgerSend
  repeat' first | (with_reducible first | intro _ | assumption | apply State.whenReady_kept | apply State.complete_kept | apply State.withOut_kept | apply State.lengthMismatch_kept | apply State.pumpRecord_kept | apply State.sendOpen_kept | apply State.setOut_kept | apply State.start_kept | apply Kept.out | apply Kept.ite) | (extract_lets +onlyGivenNames z; refine (fun hz : Kept s₀ z => ?_) ?_; clear_value z; revert z; intro _ _; rotate_left; unfold z; clear z; rotate_right) | split

theorem execLedgerAck_kept {s₀ : State} {hdr : BitVec 256} {tagOk : Bool} {s : State} (hK : Kept s₀ s) :
    KeptOut s₀ (execLedgerAck hdr tagOk s) := by
  unfold execLedgerAck
  repeat' first | (with_reducible first | intro _ | assumption | apply State.weldIn_kept | apply State.setOut_kept | apply State.complete_kept | apply Kept.out) | (extract_lets +onlyGivenNames z; first | (refine (fun hz : Kept s₀ z => ?_) ?_; clear_value z; revert z; intro _ _; rotate_left; unfold z; clear z; rotate_right) | (clear_value z; revert z; intro _)) | split

theorem execLedgerNak_kept {s₀ : State} {hdr : BitVec 256} {tagOk : Bool} {s : State} (hK : Kept s₀ s) :
    KeptOut s₀ (execLedgerNak hdr tagOk s) := by
  unfold execLedgerNak
  repeat' first | (with_reducible first | intro _ | assumption | apply State.weldMalformed_kept | apply State.weldIn_kept | apply State.bump_kept | apply State.setOut_kept | apply State.setWeld_kept | apply State.complete_kept | apply Kept.out) | (extract_lets +onlyGivenNames z; first | (refine (fun hz : Kept s₀ z => ?_) ?_; clear_value z; revert z; intro _ _; rotate_left; unfold z; clear z; rotate_right) | (clear_value z; revert z; intro _)) | split

theorem State.coverAck_kept {s₀ s : State} {j : JobId} {upTo : Nat} (hK : Kept s₀ s) :
    Kept s₀ (State.coverAck s j upTo) := by
  unfold State.coverAck
  with_reducible repeat' first | assumption | apply State.setWeld_kept

theorem execWeldAck_kept {s₀ : State} {hdr : BitVec 256} {tagOk : Bool} {s : State} (hK : Kept s₀ s) :
    KeptOut s₀ (execWeldAck hdr tagOk s) := by
  unfold execWeldAck
  with_reducible repeat' first | intro _ | assumption | apply State.weldIn_kept | apply State.coverAck_kept | apply Kept.out

theorem State.sendAck_kept {s₀ s : State} {j : JobId} (hK : Kept s₀ s) :
    Kept s₀ (State.sendAck s j) := by
  unfold State.sendAck
  with_reducible repeat' first | assumption | apply State.weldSend_kept

theorem State.ackFrame_kept {s₀ s : State} {j : JobId} (hK : Kept s₀ s) :
    Kept s₀ (State.ackFrame s j) := by
  unfold State.ackFrame
  with_reducible repeat' first | assumption | apply State.setWeld_kept | apply State.sendAck_kept | apply Kept.ite

theorem execWeldHeartbeat_kept {s₀ : State} {job : JobId} {s : State} (hK : Kept s₀ s) :
    KeptOut s₀ (execWeldHeartbeat job s) := by
  unfold execWeldHeartbeat
  with_reducible repeat' first | assumption | apply State.sendAck_kept | apply Kept.out | apply Kept.ite

theorem State.learnGroups_kept {s₀ s : State} {j : JobId} {es : List (BitVec 1024)} (hK : Kept s₀ s) :
    Kept s₀ (State.learnGroups s j es) := by
  unfold State.learnGroups
  with_reducible repeat' first | intro _ | assumption | apply State.learnGroup_kept | apply Kept.foldl

theorem execRecordOpen_kept {s₀ : State} {hdr : BitVec 256} {rec : BitVec 512} {entries : List (BitVec 1024)} {tagOk : Bool} {s : State} (hK : Kept s₀ s) :
    KeptOut s₀ (execRecordOpen hdr rec entries tagOk s) := by
  unfold execRecordOpen
  with_reducible repeat' first | intro _ | assumption | apply State.waitSpace_kept | apply State.weldIn_kept | apply State.loseRecord_kept | apply State.bump_kept | apply State.oversize_kept | apply State.setWeld_kept | apply State.learnGroups_kept | apply State.takeSpace_kept | apply Kept.out | apply Kept.ite

theorem State.setIn_kept {s₀ s : State} {j : JobId} {step : Nat} {f : InRecord → InRecord} (hK : Kept s₀ s) :
    Kept s₀ (State.setIn s j step f) := by
  unfold State.setIn
  with_reducible repeat' first | assumption | apply State.setWeld_kept

theorem execRecordData_kept {s₀ : State} {hdr : BitVec 256} {payload : Bytes} {tagOk : Bool} {s : State} (hK : Kept s₀ s) :
    KeptOut s₀ (execRecordData hdr payload tagOk s) := by
  unfold execRecordData
  repeat' first | (with_reducible first | intro _ | assumption | apply State.weldIn_kept | apply State.loseRecord_kept | apply State.bump_kept | apply State.setIn_kept | apply Kept.out | apply Kept.ite) | split

theorem execRecordTrailer_kept {s₀ : State} {hdr : BitVec 256} {digests : List (BitVec 320)} {tagOk : Bool} {s : State} (hK : Kept s₀ s) :
    KeptOut s₀ (execRecordTrailer hdr digests tagOk s) := by
  unfold execRecordTrailer
  repeat' first | (with_reducible first | intro _ | assumption | apply State.weldIn_kept | apply State.loseRecord_kept | apply State.setIn_kept | apply State.weldSend_kept | apply Kept.out | apply Kept.ite) | split

theorem State.losePartner_kept {s₀ s : State} {j : JobId} {frame : Nat} (hK : Kept s₀ s) :
    Kept s₀ (State.losePartner s j frame) := by
  unfold State.losePartner
  repeat' first | (with_reducible first | intro _ | assumption | apply State.bump_kept | apply State.setWeld_kept | apply State.complete_kept | apply State.event_kept | apply State.abortLost_kept | apply Kept.ite | apply Kept.foldl) | (extract_lets +onlyGivenNames z; refine (fun hz : Kept s₀ z => ?_) ?_; clear_value z; revert z; intro _ _; rotate_left; unfold z; clear z; rotate_right) | split

theorem execPartnerLost_kept {s₀ : State} {job : JobId} {s : State} (hK : Kept s₀ s) :
    KeptOut s₀ (execPartnerLost job s) := by
  unfold execPartnerLost
  with_reducible repeat' first | assumption | apply State.losePartner_kept | apply Kept.out | apply Kept.ite

theorem State.settleSpare_kept {s₀ s : State} (hK : Kept s₀ s) :
    Kept s₀ (State.settleSpare s) := by
  unfold State.settleSpare
  repeat' first | (with_reducible first | assumption | apply State.setVault_kept | apply Kept.ite) | split

theorem execMirrorApply_kept {s₀ : State} {task : Nat} {s : State} (hK : Kept s₀ s) :
    KeptOut s₀ (execMirrorApply task s) := by
  unfold execMirrorApply
  repeat' first | (with_reducible first | intro _ | assumption | apply State.whenReady_kept | apply State.malformed_kept | apply State.bump_kept | apply State.failCheck_kept | apply State.fail_kept | apply State.setWeld_kept | apply State.start_kept | apply Kept.out) | split

theorem State.requestCopies_kept {s₀ s : State} {j : JobId} {spans : List (Nat × Nat)} (hK : Kept s₀ s) :
    Kept s₀ (State.requestCopies s j spans) := by
  unfold State.requestCopies
  with_reducible repeat' first | assumption | apply State.weldSend_kept | apply Kept.ite

theorem State.sendAsks_kept {s₀ s : State} {j : JobId} (hK : Kept s₀ s) :
    Kept s₀ (State.sendAsks s j) := by
  unfold State.sendAsks
  with_reducible repeat' first | assumption | apply State.setWeld_kept | apply State.requestCopies_kept

theorem State.compareRecord_kept {s₀ s : State} {j : JobId} {r : InRecord} (hK : Kept s₀ s) :
    Kept s₀ (State.compareRecord s j r) := by
  unfold State.compareRecord
  with_reducible repeat' first | intro _ | assumption | apply State.setVault_kept | apply State.bumpBy_kept | apply State.markStale_kept | apply State.event_kept | apply State.setUpdate_kept | apply State.setWeld_kept | apply State.setWoad_kept | apply State.total_kept | apply State.weldSend_kept | apply State.requestCopies_kept | apply State.settleSpare_kept | apply Kept.ite | apply Kept.foldl

theorem execMirrorDigestCompare_kept {s₀ : State} {job : JobId} {step : BitVec 64} {s : State} (hK : Kept s₀ s) :
    KeptOut s₀ (execMirrorDigestCompare job step s) := by
  unfold execMirrorDigestCompare
  repeat' first | (with_reducible first | assumption | apply State.compareRecord_kept | apply Kept.out) | (extract_lets +onlyGivenNames z; clear_value z; revert z; intro _) | split

theorem execMirrorConfirm_kept {s₀ : State} {hdr : BitVec 256} {spans : List (BitVec 64)} {tagOk : Bool} {s : State} (hK : Kept s₀ s) :
    KeptOut s₀ (execMirrorConfirm hdr spans tagOk s) := by
  unfold execMirrorConfirm
  with_reducible repeat' first | intro _ | assumption | apply State.weldIn_kept | apply State.setJob_kept | apply State.setWeld_kept | apply Kept.out | apply Kept.ite

theorem State.learnOut_kept {s₀ s : State} {j : JobId} {g : SpanGroup} (hK : Kept s₀ s) :
    Kept s₀ (State.learnOut s j g) := by
  unfold State.learnOut
  with_reducible repeat' first | assumption | apply State.setWeld_kept | apply Kept.ite

theorem State.noteSpanWrite_kept {s₀ s : State} {t : Task} {first : Nat} {last : Nat} (hK : Kept s₀ s) :
    Kept s₀ (State.noteSpanWrite s t first last) := by
  unfold State.noteSpanWrite
  with_reducible repeat' first | assumption | apply State.learnOut_kept | apply State.setWeld_kept

theorem execCopyRequest_kept {s₀ : State} {hdr : BitVec 256} {spans : List (BitVec 64)} {tagOk : Bool} {s : State} (hK : Kept s₀ s) :
    KeptOut s₀ (execCopyRequest hdr spans tagOk s) := by
  unfold execCopyRequest
  with_reducible repeat' first | intro _ | assumption | apply State.weldIn_kept | apply State.learnOut_kept | apply State.setWeld_kept | apply Kept.out | apply Kept.ite | apply Kept.foldl

theorem State.sendCopy_kept {s₀ s : State} {j : JobId} {x : OutSpan} {stamp : Nat} {leaves : List (Nat × Nat × Bytes)} (hK : Kept s₀ s) :
    Kept s₀ (State.sendCopy s j x stamp leaves) := by
  unfold State.sendCopy
  with_reducible repeat' first | intro _ | assumption | apply State.waitSpace_kept | apply State.weldSend_kept | apply State.setWeld_kept | apply State.total_kept | apply Kept.ite | apply Kept.foldl

theorem State.tapCopies_kept {s₀ s : State} {j : JobId} {step : Nat} (hK : Kept s₀ s) :
    Kept s₀ (State.tapCopies s j step) := by
  unfold State.tapCopies
  repeat' first | (with_reducible first | intro _ | assumption | apply State.sendCopy_kept | apply Kept.ite | apply Kept.foldl) | split

theorem State.startCopyReads_kept {s₀ s : State} {j : JobId} (hK : Kept s₀ s) :
    Kept s₀ (State.startCopyReads s j) := by
  unfold State.startCopyReads
  repeat' first | (with_reducible first | intro _ | assumption | apply State.takeUnits_kept | apply State.setSched_kept | apply State.setWeld_kept | apply State.startRead_kept | apply Kept.foldl) | (extract_lets +onlyGivenNames z; first | (refine (fun hz : Kept s₀ z => ?_) ?_; clear_value z; revert z; intro _ _; rotate_left; unfold z; clear z; rotate_right) | (clear_value z; revert z; intro _)) | split | (with_reducible refine Kept.of_some (by assumption) ?_)

theorem State.finishCopyReads_kept {s₀ s : State} {j : JobId} (hK : Kept s₀ s) :
    Kept s₀ (State.finishCopyReads s j) := by
  unfold State.finishCopyReads
  repeat' first | (with_reducible first | intro _ | assumption | apply State.freeBufs_kept | apply State.setWeld_kept | apply State.sendCopy_kept | apply Kept.foldl) | (extract_lets +onlyGivenNames z; first | (refine (fun hz : Kept s₀ z => ?_) ?_; clear_value z; revert z; intro _ _; rotate_left; unfold z; clear z; rotate_right) | (clear_value z; revert z; intro _)) | split

theorem State.discardCopies_kept {s₀ s : State} {j : JobId} {bad : HeldCopy → Bool} (hK : Kept s₀ s) :
    Kept s₀ (State.discardCopies s j bad) := by
  unfold State.discardCopies
  with_reducible repeat' first | assumption | apply State.bumpBy_kept | apply State.askCopies_kept | apply State.setWeld_kept | apply Kept.ite

theorem State.installed_kept {s₀ s : State} {j : JobId} {c : HeldCopy} (hK : Kept s₀ s) :
    Kept s₀ (State.installed s j c) := by
  unfold State.installed
  repeat' first | (with_reducible first | intro _ | assumption | apply State.setWeld_kept | apply State.setIn_kept | apply State.complete_kept | apply State.settleSpare_kept | apply Kept.foldl) | split

theorem State.startInstall_kept {s₀ s : State} {j : JobId} {c : HeldCopy} (hK : Kept s₀ s) :
    Kept s₀ (State.startInstall s j c) := by
  unfold State.startInstall
  repeat' first | (with_reducible first | intro _ | assumption | apply State.openRange_kept | apply State.takeUnits_kept | apply State.writeRange_kept | apply State.setWeld_kept | apply Kept.foldl) | (extract_lets +onlyGivenNames z; clear_value z; revert z; intro _) | split | (with_reducible refine Kept.of_some (by assumption) ?_)

theorem State.pumpCopies_kept {s₀ s : State} {j : JobId} (hK : Kept s₀ s) :
    Kept s₀ (State.pumpCopies s j) := by
  unfold State.pumpCopies
  repeat' first | (with_reducible first | intro _ | assumption | apply State.installed_kept | apply State.discardCopies_kept | apply State.setWeld_kept | apply State.startInstall_kept | apply Kept.foldl) | split

theorem execCopyLeaf_kept {s₀ : State} {hdr : BitVec 256} {payload : Bytes} {tagOk : Bool} {s : State} (hK : Kept s₀ s) :
    KeptOut s₀ (execCopyLeaf hdr payload tagOk s) := by
  unfold execCopyLeaf
  with_reducible repeat' first | intro _ | assumption | apply State.waitSpace_kept | apply State.weldIn_kept | apply State.setWeld_kept | apply State.pumpCopies_kept | apply State.tookSince_kept | apply Kept.out | apply Kept.ite | apply Kept.foldl

theorem execCopyModeApply_kept {s₀ : State} {job : JobId} {step : BitVec 64} {s : State} (hK : Kept s₀ s) :
    KeptOut s₀ (execCopyModeApply job step s) := by
  unfold execCopyModeApply
  repeat' first | (with_reducible first | intro _ | assumption | apply State.markStale_kept | apply State.setIn_kept | apply State.pumpCopies_kept | apply State.askCopies_kept | apply Kept.out | apply Kept.ite | apply Kept.foldl) | (extract_lets +onlyGivenNames z; clear_value z; revert z; intro _) | split

theorem execWeldResync_kept {s₀ : State} {task : Nat} {s : State} (hK : Kept s₀ s) :
    KeptOut s₀ (execWeldResync task s) := by
  unfold execWeldResync
  repeat' first | (with_reducible first | intro _ | assumption | apply State.whenReady_kept | apply State.complete_kept | apply State.markStale_kept | apply State.weldSend_kept | apply State.requestCopies_kept | apply State.setWeld_kept | apply State.start_kept | apply Kept.out | apply Kept.ite | apply Kept.foldl) | split

theorem State.settleRollback_kept {s₀ s : State} {j : JobId} (hK : Kept s₀ s) :
    Kept s₀ (State.settleRollback s j) := by
  unfold State.settleRollback
  repeat' first | (with_reducible first | assumption | apply State.setWeld_kept | apply State.complete_kept) | (extract_lets +onlyGivenNames z; refine (fun hz : Kept s₀ z => ?_) ?_; clear_value z; revert z; intro _ _; rotate_left; unfold z; clear z; rotate_right) | split

theorem execWeldRollback_kept {s₀ : State} {task : Nat} {s : State} (hK : Kept s₀ s) :
    KeptOut s₀ (execWeldRollback task s) := by
  unfold execWeldRollback
  repeat' first | (with_reducible first | intro _ | assumption | apply State.whenReady_kept | apply State.complete_kept | apply State.weldSend_kept | apply State.settleRollback_kept | apply State.setWeld_kept | apply State.start_kept | apply Kept.out | apply Kept.ite) | split

theorem execRollbackRequest_kept {s₀ : State} {hdr : BitVec 256} {spans : List (BitVec 64)} {tagOk : Bool} {s : State} (hK : Kept s₀ s) :
    KeptOut s₀ (execRollbackRequest hdr spans tagOk s) := by
  unfold execRollbackRequest
  with_reducible repeat' first | intro _ | assumption | apply State.weldIn_kept | apply State.setVault_kept | apply Kept.out

theorem State.weldVerdict_kept {s₀ s : State} {j : JobId} {good : Bool} (hK : Kept s₀ s) :
    Kept s₀ (State.weldVerdict s j good) := by
  unfold State.weldVerdict
  with_reducible repeat' first | assumption | apply State.askLost_kept | apply State.setWeld_kept | apply State.discardCopies_kept | apply Kept.ite

theorem State.objKey_kept {s₀ s : State} {j : JobId} {kind : Nat} {number : Nat} {shard : Nat} (hK : Kept s₀ s) :
    Kept s₀ (State.objKey s j kind number shard).2 := by
  unfold State.objKey
  repeat' first | (with_reducible first | assumption | apply State.poolKey_kept) | split

theorem State.storedObject_kept {s₀ s : State} {j : JobId} {number : Nat} {shard : Nat} {kind : Nat} {index : Nat} {entry : Bytes} {plain : Bytes} (hK : Kept s₀ s) :
    Kept s₀ (State.storedObject s j number shard kind index entry plain).2 := by
  unfold State.storedObject
  repeat' first | (with_reducible first | assumption | apply State.objKey_kept | apply State.takeUse_kept) | split | (with_reducible refine Kept.of_snd (by assumption) ?_)

theorem State.openObject_kept {s₀ s : State} {j : JobId} {object : Bytes} (hK : Kept s₀ s) :
    Kept s₀ (State.openObject s j object).2 := by
  unfold State.openObject
  repeat' first | (with_reducible first | assumption | apply State.objKey_kept) | (extract_lets +onlyGivenNames z; clear_value z; revert z; intro _) | split | (with_reducible refine Kept.of_snd (by assumption) ?_)

theorem State.vaultTx_kept {s₀ s : State} {r : VaultReq} (hK : Kept s₀ s) :
    Kept s₀ (State.vaultTx s r) := by
  unfold State.vaultTx
  repeat' first | (with_reducible first | assumption | apply State.seal_kept | apply State.offer_kept) | (extract_lets +onlyGivenNames z; clear_value z; revert z; intro _) | split | (with_reducible refine Kept.of_snd (by assumption) ?_)

theorem State.vaultSend_kept {s₀ s : State} {type : Nat} {name : BitVec 256} {payload : Bytes} {owner : VaultOwner} {target : Nat} {retries : Nat} {tried : List Nat} (hK : Kept s₀ s) :
    Kept s₀ (State.vaultSend s type name payload owner target retries tried) := by
  unfold State.vaultSend
  with_reducible repeat' first | assumption | apply State.vaultTx_kept | apply State.setVault_kept

theorem State.vaultFail_kept {s₀ s : State} {owner : VaultOwner} {name : BitVec 256} (hK : Kept s₀ s) :
    Kept s₀ (State.vaultFail s owner name) := by
  unfold State.vaultFail
  with_reducible repeat' first | assumption | apply State.event_kept | apply State.setVault_kept

theorem State.vaultAsk_kept {s₀ s : State} {type : Nat} {name : BitVec 256} {payload : Bytes} {owner : VaultOwner} {first : optParam (Option Nat) none} (hK : Kept s₀ s) :
    Kept s₀ (State.vaultAsk s type name payload owner first) := by
  unfold State.vaultAsk
  repeat' first | (with_reducible first | assumption | apply State.vaultSend_kept | apply State.vaultFail_kept) | (extract_lets +onlyGivenNames z; clear_value z; revert z; intro _) | split

theorem State.vaultAskName_kept {s₀ s : State} {type : Nat} {name : BitVec 256} {owner : VaultOwner} {first : optParam (Option Nat) none} (hK : Kept s₀ s) :
    Kept s₀ (State.vaultAskName s type name owner first) := by
  unfold State.vaultAskName
  with_reducible repeat' first | assumption | apply State.vaultAsk_kept

theorem State.dropVaultReq_kept {s₀ s : State} {id : Nat} (hK : Kept s₀ s) :
    Kept s₀ (State.dropVaultReq s id) := by
  unfold State.dropVaultReq
  with_reducible repeat' first | assumption | apply State.setVault_kept

theorem State.vaultMoveOn_kept {s₀ s : State} {r : VaultReq} (hK : Kept s₀ s) :
    Kept s₀ (State.vaultMoveOn s r) := by
  unfold State.vaultMoveOn
  repeat' first | (with_reducible first | assumption | apply State.dropVaultReq_kept | apply State.vaultSend_kept | apply State.bump_kept | apply State.vaultFail_kept) | (extract_lets +onlyGivenNames z; first | (refine (fun hz : Kept s₀ z => ?_) ?_; clear_value z; revert z; intro _ _; rotate_left; unfold z; clear z; rotate_right) | (clear_value z; revert z; intro _)) | split

theorem State.vaultRetry_kept {s₀ s : State} {r : VaultReq} (hK : Kept s₀ s) :
    Kept s₀ (State.vaultRetry s r) := by
  unfold State.vaultRetry
  with_reducible repeat' first | assumption | apply State.bump_kept | apply State.vaultSend_kept | apply State.dropVaultReq_kept | apply State.vaultMoveOn_kept | apply Kept.ite

theorem State.vaultMalformed_kept {s₀ s : State} (hK : Kept s₀ s) :
    Kept s₀ (State.vaultMalformed s) := by
  unfold State.vaultMalformed
  with_reducible repeat' first | assumption | apply State.countEvent_kept

theorem State.vaultIn_kept {s₀ s : State} {h : BitVec 256} {type : Nat} {asked : Nat} {size : Nat} {name : BitVec 256} {tagOk : Bool} {f : VaultReq → State → State} (hf : ∀ x0 x1, Kept s₀ x1 → Kept s₀ (f x0 x1)) (hK : Kept s₀ s) :
    Kept s₀ (State.vaultIn s h type asked size name tagOk f) := by
  unfold State.vaultIn
  repeat' first | (with_reducible first | assumption | apply State.vaultMalformed_kept | apply State.tagFail_kept | apply State.dropVaultReq_kept | apply hf) | split

theorem State.setAcc_kept {s₀ s : State} {job : Nat} {id : Nat} {f : Accession → Accession} (hK : Kept s₀ s) :
    Kept s₀ (State.setAcc s job id f) := by
  unfold State.setAcc
  with_reducible repeat' first | assumption | apply State.setVault_kept

theorem execAccOpen_kept {s₀ : State} {task : Nat} {s : State} (hK : Kept s₀ s) :
    KeptOut s₀ (execAccOpen task s) := by
  unfold execAccOpen
  with_reducible repeat' first | intro _ | assumption | apply State.whenReady_kept | apply State.complete_kept | apply State.setVault_kept | apply Kept.out | apply Kept.ite

theorem State.noteTensors_kept {s₀ s : State} {t : Task} (hK : Kept s₀ s) :
    Kept s₀ (State.noteTensors s t) := by
  unfold State.noteTensors
  with_reducible repeat' first | intro _ | assumption | apply State.setVault_kept | apply Kept.foldl

theorem State.dropEgress_kept {s₀ s : State} {ids : List Nat} (hK : Kept s₀ s) :
    Kept s₀ (State.dropEgress s ids) := by
  unfold State.dropEgress
  with_reducible repeat' first | assumption | apply State.setVault_kept

theorem State.setLeaves_kept {s₀ s : State} {job : Nat} {id : Nat} {p : BandLeaf → Bool} {f : BandLeaf → BandLeaf} (hK : Kept s₀ s) :
    Kept s₀ (State.setLeaves s job id p f) := by
  unfold State.setLeaves
  with_reducible repeat' first | assumption | apply State.setAcc_kept

theorem State.loseLeaves_kept {s₀ s : State} {job : Nat} {id : Nat} {p : BandLeaf → Bool} (hK : Kept s₀ s) :
    Kept s₀ (State.loseLeaves s job id p) := by
  unfold State.loseLeaves
  with_reducible repeat' first | assumption | apply State.dropEgress_kept | apply State.setLeaves_kept | apply State.setMadder_kept

theorem State.settleCapture_kept {s₀ s : State} {task : Nat} (hK : Kept s₀ s) :
    Kept s₀ (State.settleCapture s task) := by
  unfold State.settleCapture
  repeat' first | (with_reducible first | assumption | apply State.complete_kept | apply Kept.ite) | split

theorem execCaptureBand_kept {s₀ : State} {task : Nat} {s : State} (hK : Kept s₀ s) :
    KeptOut s₀ (execCaptureBand task s) := by
  unfold execCaptureBand
  repeat' first | (with_reducible first | intro _ | assumption | apply State.whenReady_kept | apply State.complete_kept | apply State.setVault_kept | apply State.start_kept | apply Kept.out) | split

theorem State.setTap_kept {s₀ s : State} {task : Nat} {f : CaptureTap → CaptureTap} (hK : Kept s₀ s) :
    Kept s₀ (State.setTap s task f) := by
  unfold State.setTap
  with_reducible repeat' first | assumption | apply State.setVault_kept

theorem State.deferTap_kept {s₀ s : State} {x : CaptureTap} {step : Nat} (hK : Kept s₀ s) :
    Kept s₀ (State.deferTap s x step) := by
  unfold State.deferTap
  repeat' first | (with_reducible first | assumption | apply State.setTap_kept | apply State.setVault_kept | apply State.complete_kept) | (extract_lets +onlyGivenNames z; refine (fun hz : Kept s₀ z => ?_) ?_; clear_value z; revert z; intro _ _; rotate_left; unfold z; clear z; rotate_right) | split

theorem State.rideTap_kept {s₀ s : State} {t : Task} {x : CaptureTap} (hK : Kept s₀ s) :
    Kept s₀ (State.rideTap s t x) := by
  unfold State.rideTap
  repeat' first | (with_reducible first | assumption | apply State.setVault_kept | apply State.setTap_kept | apply State.setAcc_kept) | split

theorem State.armTaps_kept {s₀ s : State} {t : Task} (hK : Kept s₀ s) :
    Kept s₀ (State.armTaps s t) := by
  unfold State.armTaps
  repeat' first | (with_reducible first | intro _ | assumption | apply State.waitSpace_kept | apply State.complete_kept | apply State.deferTap_kept | apply State.rideTap_kept | apply Kept.foldl) | split

theorem State.tapRead_kept {s₀ s : State} {task : Nat} {hid : Nat} {elem : Nat} {bytes : Bytes} (hK : Kept s₀ s) :
    Kept s₀ (State.tapRead s task hid elem bytes) := by
  unfold State.tapRead
  with_reducible repeat' first | assumption | apply State.setVault_kept

theorem State.tapPoison_kept {s₀ s : State} {task : Nat} {hid : Nat} {leaf : Nat} (hK : Kept s₀ s) :
    Kept s₀ (State.tapPoison s task hid leaf) := by
  unfold State.tapPoison
  with_reducible repeat' first | assumption | apply State.setVault_kept

theorem State.captureLeaf_kept {s₀ s : State} {t : Task} {x : CaptureTap} {h : Holding} {leaf : Nat} {raw : Bytes} {bad : Bool} (hK : Kept s₀ s) :
    Kept s₀ (State.captureLeaf s t x h leaf raw bad) := by
  unfold State.captureLeaf
  repeat' first | (with_reducible first | assumption | apply State.setAcc_kept | apply State.setTap_kept | apply State.dropEgress_kept | apply State.setVault_kept | apply State.setMadder_kept) | split

theorem State.tapCommit_kept {s₀ s : State} {t : Task} (hK : Kept s₀ s) :
    Kept s₀ (State.tapCommit s t) := by
  unfold State.tapCommit
  repeat' first | (with_reducible first | intro _ | assumption | apply State.captureLeaf_kept | apply State.settleCapture_kept | apply State.setVault_kept | apply Kept.ite | apply Kept.foldl) | split

theorem State.captureBoundary_kept {s₀ s : State} (hK : Kept s₀ s) :
    Kept s₀ (State.captureBoundary s) := by
  unfold State.captureBoundary
  repeat' first | (with_reducible first | intro _ | assumption | apply State.dropTaps_kept | apply State.complete_kept | apply State.deferTap_kept | apply State.dropEgress_kept | apply Kept.foldl) | split

theorem State.drain_kept {s₀ s : State} (hK : Kept s₀ s) :
    Kept s₀ (State.drain s) := by
  unfold State.drain
  repeat' first | (with_reducible first | intro _ | assumption | apply State.takeUnits_kept | apply State.setVault_kept | apply State.vaultAsk_kept | apply Kept.foldl) | split | (with_reducible refine Kept.of_some (by assumption) ?_)

theorem State.bandCoded_kept {s₀ s : State} {e : EncLeaf} {task : Nat} {leaf : Nat} (hK : Kept s₀ s) :
    Kept s₀ (State.bandCoded s e task leaf) := by
  unfold State.bandCoded
  repeat' first | (with_reducible first | assumption | apply State.settleCapture_kept | apply State.loseLeaves_kept | apply State.storedObject_kept | apply State.setAcc_kept | apply State.setLeaves_kept | apply State.setVault_kept | apply State.drain_kept | apply State.total_kept | apply Kept.ite) | (extract_lets +onlyGivenNames z; clear_value z; revert z; intro _) | split | (with_reducible refine Kept.of_snd (by assumption) ?_)

theorem State.bandLost_kept {s₀ s : State} {task : Nat} {leaf : Nat} {block : Nat} (hK : Kept s₀ s) :
    Kept s₀ (State.bandLost s task leaf block) := by
  unfold State.bandLost
  repeat' first | (with_reducible first | assumption | apply State.settleCapture_kept | apply State.setTask_kept | apply State.loseLeaves_kept) | split

theorem State.discardBands_kept {s₀ s : State} {j : JobId} {k : Nat} (hK : Kept s₀ s) :
    Kept s₀ (State.discardBands s j k) := by
  unfold State.discardBands
  with_reducible repeat' first | intro _ | assumption | apply State.bumpBy_kept | apply State.loseLeaves_kept | apply State.setAcc_kept | apply State.vaultAskName_kept | apply State.event_kept | apply Kept.ite | apply Kept.foldl

theorem State.setDurable_kept {s₀ s : State} {j : JobId} {d : Nat} (hK : Kept s₀ s) :
    Kept s₀ (State.setDurable s j d) := by
  unfold State.setDurable
  with_reducible repeat' first | assumption | apply State.writeRecord_kept | apply State.setJob_kept

theorem State.openHead_kept {s₀ s : State} {j : JobId} {lineage : Nat} {step : Nat} (hK : Kept s₀ s) :
    Kept s₀ (State.openHead s j lineage step) := by
  unfold State.openHead
  with_reducible repeat' first | assumption | apply State.setJob_kept | apply State.writeRecord_kept

theorem State.policyD_kept {s₀ s : State} {j : JobId} (hK : Kept s₀ s) :
    Kept s₀ (State.policyD s j) := by
  unfold State.policyD
  with_reducible repeat' first | assumption | apply State.setDurable_kept | apply Kept.ite

theorem State.advanceD_kept {s₀ s : State} {j : JobId} {n : Nat} (h : Kept s₀ s) : Kept s₀ (State.advanceD s j n) := by
  induction n generalizing s with
  | zero => exact h
  | succ k ih =>
    unfold State.advanceD
    repeat' (first | (with_reducible assumption) | (with_reducible apply ih) | (with_reducible (first | apply State.setVault_kept | apply State.setDurable_kept | apply Kept.ite)) | (extract_lets +onlyGivenNames z; clear_value z) | split)

theorem State.markVault_kept {s₀ s : State} {j : JobId} (hK : Kept s₀ s) :
    Kept s₀ (State.markVault s j) := by
  unfold State.markVault
  with_reducible repeat' first | assumption | apply State.setWeld_kept

theorem State.loseVaultRecord_kept {s₀ s : State} {j : JobId} {k : Nat} (hK : Kept s₀ s) :
    Kept s₀ (State.loseVaultRecord s j k) := by
  unfold State.loseVaultRecord
  with_reducible repeat' first | intro _ | assumption | apply State.dropEgress_kept | apply State.setVault_kept | apply State.setOut_kept | apply State.bumpBy_kept | apply State.loseLeaves_kept | apply State.event_kept | apply Kept.foldl

theorem State.dropStepDigests_kept {s₀ s : State} {j : JobId} {step : Nat} (hK : Kept s₀ s) :
    Kept s₀ (State.dropStepDigests s j step) := by
  unfold State.dropStepDigests
  with_reducible repeat' first | assumption | apply State.setUpdate_kept

theorem State.moveRecord_kept {s₀ s : State} {j : JobId} {r : OutRecord} (hK : Kept s₀ s) :
    Kept s₀ (State.moveRecord s j r) := by
  unfold State.moveRecord
  repeat' first | (with_reducible first | intro _ | assumption | apply State.stageQhat_kept | apply State.loseVaultRecord_kept | apply State.oversize_kept | apply State.waitSpace_kept | apply State.setVault_kept | apply State.storedObject_kept | apply State.drain_kept | apply State.dropStepDigests_kept | apply State.setOut_kept | apply Kept.ite | apply Kept.foldl) | split | (with_reducible refine Kept.of_snd (by assumption) ?_)

theorem State.moveRecords_kept {s₀ s : State} {j : JobId} (hK : Kept s₀ s) :
    Kept s₀ (State.moveRecords s j) := by
  unfold State.moveRecords
  with_reducible repeat' first | intro _ | assumption | apply State.markVault_kept | apply State.moveRecord_kept | apply State.setWeld_kept | apply State.dropStepDigests_kept | apply Kept.foldl

theorem State.sealPut_kept {s₀ s : State} {a : Accession} {task : Nat} {number : Nat} {shard : Nat} {kind : Nat} {index : Nat} {plain : Bytes} {owner : VaultOwner} (hK : Kept s₀ s) :
    Kept s₀ (State.sealPut s a task number shard kind index plain owner) := by
  unfold State.sealPut
  repeat' first | (with_reducible first | assumption | apply State.storedObject_kept | apply State.vaultAsk_kept | apply State.complete_kept) | split | (with_reducible refine Kept.of_snd (by assumption) ?_)

theorem State.sealMove_kept {s₀ s : State} {a : Accession} (hK : Kept s₀ s) :
    Kept s₀ (State.sealMove s a) := by
  unfold State.sealMove
  repeat' first | (with_reducible first | intro _ | assumption | apply State.setAcc_kept | apply State.sealPut_kept | apply State.vaultAskName_kept | apply Kept.foldl) | split

theorem State.sealMoves_kept {s₀ s : State}  {n : Nat} (h : Kept s₀ s) : Kept s₀ (State.sealMoves s  n) := by
  induction n generalizing s with
  | zero => exact h
  | succ k ih =>
    unfold State.sealMoves
    refine ih (Kept.foldl (fun s a h => ?_) h)
    repeat' (first | (with_reducible assumption) | (with_reducible apply State.sealMove_kept) | split)

theorem State.sealDone_kept {s₀ s : State} {a : Accession} {task : Nat} {target : Nat} (hK : Kept s₀ s) :
    Kept s₀ (State.sealDone s a task target) := by
  unfold State.sealDone
  repeat' first | (with_reducible first | assumption | apply State.setAcc_kept | apply State.writeRecord_kept | apply State.setJob_kept | apply State.setDurable_kept | apply State.advanceD_kept | apply State.complete_kept) | (extract_lets +onlyGivenNames z; first | (refine (fun hz : Kept s₀ z => ?_) ?_; clear_value z; revert z; intro _ _; rotate_left; unfold z; clear z; rotate_right) | (clear_value z; revert z; intro _)) | split

theorem State.objectAcked_kept {s₀ s : State} {id : Nat} {target : Nat} (hK : Kept s₀ s) :
    Kept s₀ (State.objectAcked s id target) := by
  unfold State.objectAcked
  repeat' first | (with_reducible first | assumption | apply State.dropEgress_kept | apply State.setLeaves_kept | apply State.setVault_kept | apply State.total_kept | apply State.advanceD_kept | apply Kept.ite) | split

theorem State.objectLost_kept {s₀ s : State} {id : Nat} (hK : Kept s₀ s) :
    Kept s₀ (State.objectLost s id) := by
  unfold State.objectLost
  repeat' first | (with_reducible first | assumption | apply State.loseLeaves_kept | apply State.dropEgress_kept | apply State.loseVaultRecord_kept) | split

theorem State.restoreSend_kept {s₀ s : State} {j : JobId} {dst : Nat} {type : Nat} {step : Nat} {aux : Nat} {payload : Bytes} (hK : Kept s₀ s) :
    Kept s₀ (State.restoreSend s j dst type step aux payload) := by
  unfold State.restoreSend
  repeat' first | (with_reducible first | assumption | apply State.seal_kept | apply State.offer_kept) | (extract_lets +onlyGivenNames z; clear_value z; revert z; intro _) | split | (with_reducible refine Kept.of_snd (by assumption) ?_)

theorem State.restoreIn_kept {s₀ s : State} {h : BitVec 256} {type : Nat} {size : Nat} {limit : Nat} {tagOk : Bool} {f : JobId → State → State} (hf : ∀ x0 x1, Kept s₀ x1 → Kept s₀ (f x0 x1)) (hK : Kept s₀ s) :
    Kept s₀ (State.restoreIn s h type size limit tagOk f) := by
  unfold State.restoreIn
  with_reducible repeat' first | assumption | apply State.weldMalformed_kept | apply State.tagFail_kept | apply hf | apply Kept.ite

theorem State.askRestore_kept {s₀ s : State} {j : JobId} {server : Nat} {fill : Nat} {urgent : Bool} {l : List (Nat × Nat × Nat)} (hK : Kept s₀ s) :
    Kept s₀ (State.askRestore s j server fill urgent l) := by
  unfold State.askRestore
  with_reducible repeat' first | assumption | apply State.restoreSend_kept

theorem State.spareSpans_kept {s₀ s : State} {j : JobId} (hK : Kept s₀ s) :
    Kept s₀ (State.spareSpans s j) := by
  unfold State.spareSpans
  with_reducible repeat' first | assumption | apply State.setWeld_kept | apply Kept.ite

theorem State.settleFilled_kept {s₀ s : State} {j : JobId} {step : Nat} (hK : Kept s₀ s) :
    Kept s₀ (State.settleFilled s j step) := by
  unfold State.settleFilled
  with_reducible repeat' first | assumption | apply State.spareSpans_kept | apply State.settleSpare_kept | apply State.setWeld_kept

theorem State.noteFill_kept {s₀ s : State} {j : JobId} {h : Holding} {step : Nat} {leaves : List Nat} {checked : List Nat} (hK : Kept s₀ s) :
    Kept s₀ (State.noteFill s j h step leaves checked) := by
  unfold State.noteFill
  with_reducible repeat' first | assumption | apply State.setVault_kept | apply State.setWeld_kept | apply State.settleFilled_kept | apply Kept.ite

theorem State.setRestore_kept {s₀ s : State} {task : Nat} {f : RestoreRun → RestoreRun} (hK : Kept s₀ s) :
    Kept s₀ (State.setRestore s task f) := by
  unfold State.setRestore
  with_reducible repeat' first | assumption | apply State.setVault_kept

theorem State.setWant_kept {s₀ s : State} {task : Nat} {i : Nat} {f : WantedLeaf → WantedLeaf} (hK : Kept s₀ s) :
    Kept s₀ (State.setWant s task i f) := by
  unfold State.setWant
  with_reducible repeat' first | assumption | apply State.setRestore_kept

theorem State.dropRestore_kept {s₀ s : State} {task : Nat} (hK : Kept s₀ s) :
    Kept s₀ (State.dropRestore s task) := by
  unfold State.dropRestore
  with_reducible repeat' first | assumption | apply State.setVault_kept | apply State.dropReqs_kept

theorem State.restoreWrite_kept {s₀ s : State} {task : Nat} {key : Nat} {h : Holding} {off : Nat} {bs : Bytes} (hK : Kept s₀ s) :
    Kept s₀ (State.restoreWrite s task key h off bs).1 := by
  unfold State.restoreWrite
  repeat' first | (with_reducible first | assumption | apply State.openRange_kept | apply State.takeBulk_kept | apply State.writeRange_kept) | split | (with_reducible first | refine Kept.of_fst (by assumption) ?_ | refine Kept.of_some (by assumption) ?_)

theorem State.settleMirror_kept {s₀ s : State} {task : Nat} (hK : Kept s₀ s) :
    Kept s₀ (State.settleMirror s task) := by
  unfold State.settleMirror
  repeat' first | (with_reducible first | assumption | apply State.dropRestore_kept | apply State.noteFill_kept | apply State.complete_kept | apply Kept.ite) | split

theorem execRestoreMirror_kept {s₀ : State} {task : Nat} {s : State} (hK : Kept s₀ s) :
    KeptOut s₀ (execRestoreMirror task s) := by
  unfold execRestoreMirror
  repeat' first | (with_reducible first | intro _ | assumption | apply State.whenReady_kept | apply State.malformed_kept | apply State.complete_kept | apply State.lengthMismatch_kept | apply State.setVault_kept | apply State.start_kept | apply State.settleMirror_kept | apply State.askRestore_kept | apply Kept.out | apply Kept.ite) | split

theorem State.mirrorMissing_kept {s₀ s : State} {task : Nat} {i : Nat} {reason : Nat} (hK : Kept s₀ s) :
    Kept s₀ (State.mirrorMissing s task i reason) := by
  unfold State.mirrorMissing
  with_reducible repeat' first | assumption | apply State.setRestore_kept | apply State.setWant_kept

theorem State.mirrorAgain_kept {s₀ s : State} {task : Nat} {i : Nat} (hK : Kept s₀ s) :
    Kept s₀ (State.mirrorAgain s task i) := by
  unfold State.mirrorAgain
  repeat' first | (with_reducible first | assumption | apply State.mirrorMissing_kept | apply State.setWant_kept | apply State.setRestore_kept | apply State.askRestore_kept) | split

theorem State.rollbackMissing_kept {s₀ s : State} {j : JobId} {hid : Nat} {leaf : Nat} (hK : Kept s₀ s) :
    Kept s₀ (State.rollbackMissing s j hid leaf) := by
  unfold State.rollbackMissing
  with_reducible repeat' first | assumption | apply State.settleRollback_kept | apply State.setWeld_kept

theorem State.rollbackAgain_kept {s₀ s : State} {j : JobId} {hid : Nat} {leaf : Nat} (hK : Kept s₀ s) :
    Kept s₀ (State.rollbackAgain s j hid leaf) := by
  unfold State.rollbackAgain
  repeat' first | (with_reducible first | assumption | apply State.rollbackMissing_kept | apply State.setWeld_kept | apply State.weldSend_kept) | split

theorem State.rollbackWritten_kept {s₀ s : State} {j : JobId} {hid : Nat} {leaf : Nat} (hK : Kept s₀ s) :
    Kept s₀ (State.rollbackWritten s j hid leaf) := by
  unfold State.rollbackWritten
  repeat' first | (with_reducible first | assumption | apply State.settleRollback_kept | apply State.setWeld_kept) | split

theorem State.leafFailed_kept {s₀ s : State} {o : QOwner} (hK : Kept s₀ s) :
    Kept s₀ (State.leafFailed s o) := by
  unfold State.leafFailed
  repeat' first | (with_reducible first | assumption | apply State.bump_kept | apply State.settleMirror_kept | apply State.mirrorAgain_kept | apply State.rollbackAgain_kept) | split

theorem State.heardServer_kept {s₀ s : State} {src : Nat} (hK : Kept s₀ s) :
    Kept s₀ (State.heardServer s src) := by
  unfold State.heardServer
  with_reducible repeat' first | assumption | apply State.setVault_kept

theorem State.quarantineLeaf_kept {s₀ s : State} {o : QOwner} {coded : Bytes} {digest : Nat} (hK : Kept s₀ s) :
    Kept s₀ (State.quarantineLeaf s o coded digest) := by
  unfold State.quarantineLeaf
  repeat' first | (with_reducible first | assumption | apply State.setVault_kept | apply State.takeSpace_kept | apply State.setWant_kept) | split

theorem State.countArrived_kept {s₀ s : State} {o : QOwner} (hK : Kept s₀ s) :
    Kept s₀ (State.countArrived s o) := by
  unfold State.countArrived
  repeat' first | (with_reducible first | assumption | apply State.setRestore_kept | apply State.setWeld_kept) | split

theorem execRestoreLeaf_kept {s₀ : State} {hdr : BitVec 256} {digest : BitVec 256} {coded : Bytes} {tagOk : Bool} {s : State} (hK : Kept s₀ s) :
    KeptOut s₀ (execRestoreLeaf hdr digest coded tagOk s) := by
  unfold execRestoreLeaf
  repeat' first | (with_reducible first | intro _ | assumption | apply State.waitSpace_kept | apply State.restoreIn_kept | apply State.leafFailed_kept | apply State.countArrived_kept | apply State.heardServer_kept | apply State.quarantineLeaf_kept | apply Kept.out | apply Kept.ite) | split

theorem execRestoreMissing_kept {s₀ : State} {hdr : BitVec 256} {tagOk : Bool} {s : State} (hK : Kept s₀ s) :
    KeptOut s₀ (execRestoreMissing hdr tagOk s) := by
  unfold execRestoreMissing
  repeat' first | (with_reducible first | intro _ | assumption | apply State.weldMalformed_kept | apply State.restoreIn_kept | apply State.heardServer_kept | apply State.settleMirror_kept | apply State.mirrorMissing_kept | apply State.rollbackMissing_kept | apply Kept.out | apply Kept.ite) | (extract_lets +onlyGivenNames z; refine (fun hz : Kept s₀ z => ?_) ?_; clear_value z; revert z; intro _ _; rotate_left; unfold z; clear z; rotate_right) | split

theorem execRestoreDone_kept {s₀ : State} {hdr : BitVec 256} {sent : BitVec 32} {missing : BitVec 32} {tagOk : Bool} {s : State} (hK : Kept s₀ s) :
    KeptOut s₀ (execRestoreDone hdr sent missing tagOk s) := by
  unfold execRestoreDone
  repeat' first | (with_reducible first | intro _ | assumption | apply State.restoreIn_kept | apply State.heardServer_kept | apply State.setRestore_kept | apply State.settleMirror_kept | apply State.mirrorAgain_kept | apply State.setWeld_kept | apply State.rollbackAgain_kept | apply Kept.out | apply Kept.foldl) | (extract_lets +onlyGivenNames z; first | (refine (fun hz : Kept s₀ z => ?_) ?_; clear_value z; revert z; intro _ _; rotate_left; unfold z; clear z; rotate_right) | (clear_value z; revert z; intro _)) | split

theorem execRestoreReplyTimeout_kept {s₀ : State} {task : Nat} {s : State} (hK : Kept s₀ s) :
    KeptOut s₀ (execRestoreReplyTimeout task s) := by
  unfold execRestoreReplyTimeout
  repeat' first | (with_reducible first | assumption | apply State.setRestore_kept | apply State.settleMirror_kept | apply Kept.out) | split

theorem execRestoreReq_kept {s₀ : State} {hdr : BitVec 256} {requests : List (BitVec 128)} {tagOk : Bool} {s : State} (hK : Kept s₀ s) :
    KeptOut s₀ (execRestoreReq hdr requests tagOk s) := by
  unfold execRestoreReq
  with_reducible repeat' first | intro _ | assumption | apply State.restoreIn_kept | apply State.setVault_kept | apply Kept.out

theorem State.setServe_kept {s₀ s : State} {id : Nat} {f : ServeReq → ServeReq} (hK : Kept s₀ s) :
    Kept s₀ (State.setServe s id f) := by
  unfold State.setServe
  with_reducible repeat' first | assumption | apply State.setVault_kept

theorem State.serveNext_kept {s₀ s : State} {id : Nat} {missing : Bool} (hK : Kept s₀ s) :
    Kept s₀ (State.serveNext s id missing) := by
  unfold State.serveNext
  repeat' first | (with_reducible first | assumption | apply State.setServe_kept | apply State.setVault_kept | apply State.restoreSend_kept) | (extract_lets +onlyGivenNames z; refine (fun hz : Kept s₀ z => ?_) ?_; clear_value z; revert z; intro _ _; rotate_left; unfold z; clear z; rotate_right) | split

theorem State.serveMissing_kept {s₀ s : State} {r : ServeReq} {reason : Nat} (hK : Kept s₀ s) :
    Kept s₀ (State.serveMissing s r reason) := by
  unfold State.serveMissing
  repeat' first | (with_reducible first | assumption | apply State.serveNext_kept | apply State.restoreSend_kept) | split

theorem execRestoreServe_kept {s₀ : State} {request : Nat} {s : State} (hK : Kept s₀ s) :
    KeptOut s₀ (execRestoreServe request s) := by
  unfold execRestoreServe
  repeat' first | (with_reducible first | assumption | apply State.serveNext_kept | apply State.serveMissing_kept | apply State.takeUnits_kept | apply State.setSched_kept | apply State.startRead_kept | apply State.setServe_kept | apply State.freeBufs_kept | apply State.setVault_kept | apply State.setMadder_kept | apply KeptOpt.none | apply Kept.out | apply Kept.ite) | split | (with_reducible refine Kept.of_some (by assumption) ?_)

theorem State.serveCoded_kept {s₀ s : State} {e : EncLeaf} {id : Nat} (hK : Kept s₀ s) :
    Kept s₀ (State.serveCoded s e id) := by
  unfold State.serveCoded
  repeat' first | (with_reducible first | assumption | apply State.restoreSend_kept | apply State.serveNext_kept | apply State.total_kept) | split

theorem State.serveLost_kept {s₀ s : State} {id : Nat} (hK : Kept s₀ s) :
    Kept s₀ (State.serveLost s id) := by
  unfold State.serveLost
  repeat' first | (with_reducible first | assumption | apply State.serveMissing_kept) | split

theorem execSpareShadow_kept {s₀ : State} {task : Nat} {s : State} (hK : Kept s₀ s) :
    KeptOut s₀ (execSpareShadow task s) := by
  unfold execSpareShadow
  with_reducible repeat' first | intro _ | assumption | apply State.whenReady_kept | apply State.complete_kept | apply State.setVault_kept | apply State.setWeld_kept | apply State.spareSpans_kept | apply State.settleSpare_kept | apply Kept.out | apply Kept.ite

theorem execSparePromote_kept {s₀ : State} {task : Nat} {s : State} (hK : Kept s₀ s) :
    KeptOut s₀ (execSparePromote task s) := by
  unfold execSparePromote
  with_reducible repeat' first | intro _ | assumption | apply State.whenReady_kept | apply State.complete_kept | apply State.setCarrier_kept | apply State.setWeld_kept | apply State.writeRecord_kept | apply State.setJob_kept | apply State.setVault_kept | apply Kept.out | apply Kept.ite

theorem execShadowSource_kept {s₀ : State} {task : Nat} {s : State} (hK : Kept s₀ s) :
    KeptOut s₀ (execShadowSource task s) := by
  unfold execShadowSource
  with_reducible repeat' first | intro _ | assumption | apply State.whenReady_kept | apply State.complete_kept | apply State.setWeld_kept | apply Kept.out

theorem State.closeSpare_kept {s₀ s : State} {j : JobId} (hK : Kept s₀ s) :
    Kept s₀ (State.closeSpare s j) := by
  unfold State.closeSpare
  with_reducible repeat' first | assumption | apply State.setVault_kept | apply State.setMadder_kept | apply Kept.ite

theorem State.askLeaf_kept {s₀ s : State} {t : Task} {i : Nat} {w : WantedLeaf} (hK : Kept s₀ s) :
    Kept s₀ (State.askLeaf s t i w) := by
  unfold State.askLeaf
  repeat' first | (with_reducible first | assumption | apply State.setWant_kept | apply State.waitSpace_kept | apply State.openObject_kept | apply State.bump_kept | apply State.quarantineLeaf_kept | apply State.vaultAskName_kept) | (extract_lets +onlyGivenNames z; first | (refine (fun hz : Kept s₀ z => ?_) ?_; clear_value z; revert z; intro _ _; rotate_left; unfold z; clear z; rotate_right) | (clear_value z; revert z; intro _)) | split | (with_reducible refine Kept.of_snd (by assumption) ?_)

theorem State.askBatch_kept {s₀ s : State} {t : Task} {r : RestoreRun} (hK : Kept s₀ s) :
    Kept s₀ (State.askBatch s t r) := by
  unfold State.askBatch
  with_reducible repeat' first | intro _ | assumption | apply State.askLeaf_kept | apply Kept.foldl

theorem State.askObject_kept {s₀ s : State} {t : Task} {shard : Nat} {step : Nat} {index : Nat} (hK : Kept s₀ s) :
    Kept s₀ (State.askObject s t shard step index) := by
  unfold State.askObject
  with_reducible repeat' first | assumption | apply State.setRestore_kept | apply State.vaultAskName_kept

theorem State.loseRestoreRecord_kept {s₀ s : State} {task : Nat} {shard : Nat} {step : Nat} (hK : Kept s₀ s) :
    Kept s₀ (State.loseRestoreRecord s task shard step) := by
  unfold State.loseRestoreRecord
  with_reducible repeat' first | assumption | apply State.setRestore_kept | apply State.setVault_kept

theorem State.writeTarget_kept {s₀ s : State} {task : Nat} {h : Holding} {l : List (Nat × Nat)} (hK : Kept s₀ s) :
    Kept s₀ (State.writeTarget s task h l) := by
  unfold State.writeTarget
  with_reducible repeat' first | intro _ | assumption | apply State.holdRange_kept | apply Kept.foldl

theorem State.writeSlice_kept {s₀ s : State} {task : Nat} {h : Holding} {l : List (Nat × Nat)} (hK : Kept s₀ s) :
    Kept s₀ (State.writeSlice s task h l) := by
  unfold State.writeSlice
  with_reducible repeat' first | intro _ | assumption | apply State.writeRange_kept | apply Kept.foldl

theorem State.takeLeaf_kept {s₀ s : State} {task : Nat} {i : Nat} {raw : Bytes} (hK : Kept s₀ s) :
    Kept s₀ (State.takeLeaf s task i raw) := by
  unfold State.takeLeaf
  repeat' first | (with_reducible first | assumption | apply State.setRestore_kept | apply State.setWant_kept) | split

theorem State.writeCaptured_kept {s₀ s : State} {t : Task} {r : RestoreRun} (hK : Kept s₀ s) :
    Kept s₀ (State.writeCaptured s t r) := by
  unfold State.writeCaptured
  repeat' first | (with_reducible first | intro _ | assumption | apply State.setWoad_kept | apply State.writeTarget_kept | apply Kept.foldl) | split

theorem State.finishVault_kept {s₀ s : State} {t : Task} {r : RestoreRun} (hK : Kept s₀ s) :
    Kept s₀ (State.finishVault s t r) := by
  unfold State.finishVault
  with_reducible repeat' first | intro _ | assumption | apply State.total_kept | apply State.dropRestore_kept | apply State.noteFill_kept | apply State.complete_kept | apply Kept.ite | apply Kept.foldl

theorem State.vaultMove_kept {s₀ s : State} {t : Task} {r : RestoreRun} (hK : Kept s₀ s) :
    Kept s₀ (State.vaultMove s t r) := by
  unfold State.vaultMove
  repeat' first | (with_reducible first | intro _ | assumption | apply State.askBatch_kept | apply State.setRestore_kept | apply State.askObject_kept | apply State.loseRestoreRecord_kept | apply State.bumpBy_kept | apply State.complete_kept | apply State.dropRestore_kept | apply State.openRange_kept | apply State.writeCaptured_kept | apply State.finishVault_kept | apply Kept.foldl) | split

theorem State.pumpVault_kept {s₀ s : State} {task : Nat} {n : Nat} (h : Kept s₀ s) : Kept s₀ (State.pumpVault s task n) := by
  induction n generalizing s with
  | zero => exact h
  | succ k ih =>
    unfold State.pumpVault
    repeat' first | (with_reducible intro _) | (with_reducible (first | apply State.genWrite_kept | apply State.genRecall_kept | apply State.setRestore_kept | apply State.askLeaf_kept | apply State.vaultMove_kept)) | (with_reducible apply Kept.foldl) | (extract_lets +onlyGivenNames z; first | (refine (fun hz : Kept s₀ z => ?_) ?_; clear_value z; revert z; intro _ _; rotate_left; unfold z; clear z; rotate_right) | (clear_value z; revert z; intro _)) | split | (with_reducible apply_assumption -exfalso -symm)

theorem execRestoreVault_kept {s₀ : State} {task : Nat} {s : State} (hK : Kept s₀ s) :
    KeptOut s₀ (execRestoreVault task s) := by
  unfold execRestoreVault
  repeat' first | (with_reducible first | intro _ | assumption | apply State.whenReady_kept | apply State.malformed_kept | apply State.lengthMismatch_kept | apply State.complete_kept | apply State.setVault_kept | apply State.start_kept | apply State.startRead_kept | apply Kept.out) | split

theorem State.objectIn_kept {s₀ s : State} {task : Nat} {shard : Nat} {step : Nat} {index : Nat} {bytes : Bytes} (hK : Kept s₀ s) :
    Kept s₀ (State.objectIn s task shard step index bytes) := by
  unfold State.objectIn
  repeat' first | (with_reducible first | intro _ | assumption | apply State.setRestore_kept | apply State.loseRestoreRecord_kept | apply State.askObject_kept | apply State.bump_kept | apply Kept.foldl) | (extract_lets +onlyGivenNames z; first | (refine (fun hz : Kept s₀ z => ?_) ?_; clear_value z; revert z; intro _ _; rotate_left; unfold z; clear z; rotate_right) | (clear_value z; revert z; intro _)) | split

theorem State.objectFailed_kept {s₀ s : State} {task : Nat} {shard : Nat} {step : Nat} {index : Nat} (hK : Kept s₀ s) :
    Kept s₀ (State.objectFailed s task shard step index) := by
  unfold State.objectFailed
  repeat' first | (with_reducible first | assumption | apply State.bump_kept | apply State.setRestore_kept | apply State.vaultAskName_kept | apply State.loseRestoreRecord_kept | apply Kept.ite) | (extract_lets +onlyGivenNames z; refine (fun hz : Kept s₀ z => ?_) ?_; clear_value z; revert z; intro _ _; rotate_left; unfold z; clear z; rotate_right) | split

theorem State.vaultLeafFailed_kept {s₀ s : State} {task : Nat} {i : Nat} (hK : Kept s₀ s) :
    Kept s₀ (State.vaultLeafFailed s task i) := by
  unfold State.vaultLeafFailed
  repeat' first | (with_reducible first | assumption | apply State.bump_kept | apply State.setWant_kept | apply State.askLeaf_kept) | (extract_lets +onlyGivenNames z; refine (fun hz : Kept s₀ z => ?_) ?_; clear_value z; revert z; intro _ _; rotate_left; unfold z; clear z; rotate_right) | split

theorem State.wantGeneration_kept {s₀ s : State} {task : Nat} {i : Nat} {gen : Nat} (hK : Kept s₀ s) :
    Kept s₀ (State.wantGeneration s task i gen) := by
  unfold State.wantGeneration
  repeat' first | (with_reducible first | assumption | apply State.setWant_kept | apply State.vaultAskName_kept | apply Kept.ite) | (extract_lets +onlyGivenNames z; refine (fun hz : Kept s₀ z => ?_) ?_; clear_value z; revert z; intro _ _; rotate_left; unfold z; clear z; rotate_right) | split

theorem State.rollSlice_kept {s₀ s : State} {t : Task} {r : RestoreRun} {x : RollItem} {n : Nat} (hK : Kept s₀ s) :
    Kept s₀ (State.rollSlice s t r x n) := by
  unfold State.rollSlice
  repeat' first | (with_reducible first | intro _ | assumption | apply State.bumpBy_kept | apply State.writeSlice_kept | apply State.setRestore_kept | apply Kept.foldl) | split

theorem State.rollEnd_kept {s₀ s : State} {t : Task} {r : RestoreRun} (hK : Kept s₀ s) :
    Kept s₀ (State.rollEnd s t r) := by
  unfold State.rollEnd
  with_reducible repeat' first | assumption | apply State.bumpBy_kept | apply State.total_kept | apply State.pumpVault_kept | apply State.setRestore_kept

theorem execRollForward_kept {s₀ : State} {task : Nat} {s : State} (hK : Kept s₀ s) :
    KeptOut s₀ (execRollForward task s) := by
  unfold execRollForward
  repeat' first | (with_reducible first | assumption | apply State.openRange_kept | apply State.rollEnd_kept | apply State.takeUnits_kept | apply State.rollSlice_kept | apply Kept.out | apply Kept.ite) | split | (with_reducible refine Kept.of_some (by assumption) ?_)

theorem State.setFetch_kept {s₀ s : State} {task : Nat} {f : FetchRun → FetchRun} (hK : Kept s₀ s) :
    Kept s₀ (State.setFetch s task f) := by
  unfold State.setFetch
  with_reducible repeat' first | assumption | apply State.setVault_kept

theorem State.dropVaultWork_kept {s₀ s : State} {task : Nat} (hK : Kept s₀ s) :
    Kept s₀ (State.dropVaultWork s task) := by
  unfold State.dropVaultWork
  with_reducible repeat' first | assumption | apply State.setVault_kept

theorem State.askPart_kept {s₀ s : State} {t : Task} {acc : Nat} {part : Nat} {first : Option Nat} (hK : Kept s₀ s) :
    Kept s₀ (State.askPart s t acc part first) := by
  unfold State.askPart
  with_reducible repeat' first | assumption | apply State.vaultAskName_kept

theorem execCatalogueFetch_kept {s₀ : State} {task : Nat} {s : State} (hK : Kept s₀ s) :
    KeptOut s₀ (execCatalogueFetch task s) := by
  unfold execCatalogueFetch
  repeat' first | (with_reducible first | intro _ | assumption | apply State.whenReady_kept | apply State.complete_kept | apply State.setVault_kept | apply State.start_kept | apply State.askPart_kept | apply Kept.out) | (extract_lets +onlyGivenNames z; first | (refine (fun hz : Kept s₀ z => ?_) ?_; clear_value z; revert z; intro _ _; rotate_left; unfold z; clear z; rotate_right) | (clear_value z; revert z; intro _)) | split

theorem State.fetchBad_kept {s₀ s : State} {task : Nat} {part : Nat} (hK : Kept s₀ s) :
    Kept s₀ (State.fetchBad s task part) := by
  unfold State.fetchBad
  repeat' first | (with_reducible first | assumption | apply State.complete_kept | apply State.dropVaultWork_kept) | split

theorem State.fetchDone_kept {s₀ s : State} {t : Task} (hK : Kept s₀ s) :
    Kept s₀ (State.fetchDone s t) := by
  unfold State.fetchDone
  repeat' first | (with_reducible first | assumption | apply State.lengthMismatch_kept | apply State.dropVaultWork_kept | apply State.complete_kept) | split

theorem State.fetchWrite_kept {s₀ s : State} {t : Task} {r : FetchRun} (hK : Kept s₀ s) :
    Kept s₀ (State.fetchWrite s t r) := by
  unfold State.fetchWrite
  repeat' first | (with_reducible first | assumption | apply State.complete_kept | apply State.dropVaultWork_kept | apply State.openRange_kept | apply State.setFetch_kept | apply State.fetchDone_kept | apply State.writeRange_kept | apply Kept.ite) | split

theorem State.pumpFetches_kept {s₀ s : State} (hK : Kept s₀ s) :
    Kept s₀ (State.pumpFetches s) := by
  unfold State.pumpFetches
  repeat' first | (with_reducible first | intro _ | assumption | apply State.fetchWrite_kept | apply Kept.foldl) | split

theorem State.partIn_kept {s₀ s : State} {task : Nat} {part : Nat} {target : Nat} {plain : Bytes} (hK : Kept s₀ s) :
    Kept s₀ (State.partIn s task part target plain) := by
  unfold State.partIn
  repeat' first | (with_reducible first | assumption | apply State.fetchBad_kept | apply State.setFetch_kept | apply State.askPart_kept | apply State.fetchWrite_kept | apply Kept.ite) | split

theorem State.deaccNext_kept {s₀ s : State} {task : Nat} (hK : Kept s₀ s) :
    Kept s₀ (State.deaccNext s task) := by
  unfold State.deaccNext
  repeat' first | (with_reducible first | assumption | apply State.vaultAskName_kept | apply State.dropVaultWork_kept | apply State.complete_kept | apply State.setAcc_kept | apply State.bump_kept) | split

theorem State.deaccStep_kept {s₀ s : State} {task : Nat} {failed : Bool} (hK : Kept s₀ s) :
    Kept s₀ (State.deaccStep s task failed) := by
  unfold State.deaccStep
  with_reducible repeat' first | assumption | apply State.deaccNext_kept | apply State.setVault_kept

theorem execDeaccession_kept {s₀ : State} {task : Nat} {s : State} (hK : Kept s₀ s) :
    KeptOut s₀ (execDeaccession task s) := by
  unfold execDeaccession
  repeat' first | (with_reducible first | intro _ | assumption | apply State.whenReady_kept | apply State.complete_kept | apply State.deaccNext_kept | apply State.setVault_kept | apply State.start_kept | apply Kept.out | apply Kept.ite) | split

theorem State.catalogueChecked_kept {s₀ s : State} {j : JobId} {ok : Bool} (hK : Kept s₀ s) :
    Kept s₀ (State.catalogueChecked s j ok) := by
  unfold State.catalogueChecked
  with_reducible repeat' first | assumption | apply State.setCurator_kept | apply State.countEvent_kept | apply Kept.ite

theorem State.ownerFailed_kept {s₀ s : State} {o : VaultOwner} (hK : Kept s₀ s) :
    Kept s₀ (State.ownerFailed s o) := by
  unfold State.ownerFailed
  repeat' first | (with_reducible first | intro _ | apply State.complete_kept | apply State.objectLost_kept | apply State.deaccStep_kept | apply State.fetchBad_kept | apply State.pumpVault_kept | apply State.catalogueChecked_kept) | (extract_lets +onlyGivenNames z; refine (fun hz : ∀ a, Kept s₀ (z a) => ?_) ?_; clear_value z; revert z; intro _ _; rotate_left; unfold z; clear z; try dsimp -zeta only; rotate_right) | split | (with_reducible apply_assumption -exfalso -symm)

theorem State.tellFailed_kept {s₀ s : State}  {n : Nat} (h : Kept s₀ s) : Kept s₀ (State.tellFailed s  n) := by
  induction n generalizing s with
  | zero => exact h
  | succ k ih =>
    unfold State.tellFailed
    repeat' (first | (with_reducible assumption) | (with_reducible apply ih) | (with_reducible (first | apply State.setVault_kept | apply State.ownerFailed_kept)) | split)

theorem State.settleVault_kept {s₀ s : State} (hK : Kept s₀ s) :
    Kept s₀ (State.settleVault s) := by
  unfold State.settleVault
  with_reducible repeat' first | assumption | apply State.sealMoves_kept | apply State.tellFailed_kept

theorem execAccSeal_kept {s₀ : State} {task : Nat} {s : State} (hK : Kept s₀ s) :
    KeptOut s₀ (execAccSeal task s) := by
  unfold execAccSeal
  repeat' first | (with_reducible first | intro _ | assumption | apply State.whenReady_kept | apply State.complete_kept | apply State.setAcc_kept | apply State.start_kept | apply State.settleVault_kept | apply Kept.out) | (extract_lets +onlyGivenNames z; first | (refine (fun hz : Kept s₀ z => ?_) ?_; clear_value z; revert z; intro _ _; rotate_left; unfold z; clear z; rotate_right) | (clear_value z; revert z; intro _)) | split

theorem execPutAck_kept {s₀ : State} {hdr : BitVec 256} {name : BitVec 256} {tagOk : Bool} {s : State} (hK : Kept s₀ s) :
    KeptOut s₀ (execPutAck hdr name tagOk s) := by
  unfold execPutAck
  repeat' first | (with_reducible first | intro _ | assumption | apply State.vaultIn_kept | apply State.objectAcked_kept | apply State.setVault_kept | apply State.settleVault_kept | apply Kept.out) | split

theorem execPutNak_kept {s₀ : State} {hdr : BitVec 256} {name : BitVec 256} {tagOk : Bool} {s : State} (hK : Kept s₀ s) :
    KeptOut s₀ (execPutNak hdr name tagOk s) := by
  unfold execPutNak
  with_reducible repeat' first | intro _ | assumption | apply State.vaultMalformed_kept | apply State.vaultIn_kept | apply State.settleVault_kept | apply State.vaultRetry_kept | apply State.vaultMoveOn_kept | apply Kept.out | apply Kept.ite

theorem State.objectGot_kept {s₀ s : State} {r : VaultReq} {plain : Bytes} (hK : Kept s₀ s) :
    Kept s₀ (State.objectGot s r plain) := by
  unfold State.objectGot
  repeat' first | (with_reducible first | assumption | apply State.quarantineLeaf_kept | apply State.pumpVault_kept | apply State.tookSince_kept | apply State.objectIn_kept | apply State.setRestore_kept | apply State.partIn_kept | apply State.catalogueChecked_kept) | split

theorem State.objectBad_kept {s₀ s : State} {r : VaultReq} (hK : Kept s₀ s) :
    Kept s₀ (State.objectBad s r) := by
  unfold State.objectBad
  repeat' first | (with_reducible first | assumption | apply State.pumpVault_kept | apply State.vaultLeafFailed_kept | apply State.objectFailed_kept | apply State.fetchBad_kept | apply State.ownerFailed_kept) | split

theorem execGetData_kept {s₀ : State} {hdr : BitVec 256} {stored : BitVec 512} {plain : Bytes} {tagOk : Bool} {objectTagOk : Bool} {s : State} (hK : Kept s₀ s) :
    KeptOut s₀ (execGetData hdr stored plain tagOk objectTagOk s) := by
  unfold execGetData
  repeat' first | (with_reducible first | intro _ | assumption | apply State.vaultMalformed_kept | apply State.waitSpace_kept | apply State.vaultIn_kept | apply State.settleVault_kept | apply State.objectGot_kept | apply State.objectBad_kept | apply State.tagFail_kept | apply Kept.out) | split

theorem execGetNak_kept {s₀ : State} {hdr : BitVec 256} {name : BitVec 256} {tagOk : Bool} {s : State} (hK : Kept s₀ s) :
    KeptOut s₀ (execGetNak hdr name tagOk s) := by
  unfold execGetNak
  with_reducible repeat' first | intro _ | assumption | apply State.vaultMalformed_kept | apply State.vaultIn_kept | apply State.settleVault_kept | apply State.ownerFailed_kept | apply State.vaultRetry_kept | apply State.vaultMoveOn_kept | apply Kept.out | apply Kept.ite

theorem execDeleteAck_kept {s₀ : State} {hdr : BitVec 256} {name : BitVec 256} {tagOk : Bool} {s : State} (hK : Kept s₀ s) :
    KeptOut s₀ (execDeleteAck hdr name tagOk s) := by
  unfold execDeleteAck
  repeat' first | (with_reducible first | intro _ | assumption | apply State.vaultIn_kept | apply State.settleVault_kept | apply State.deaccStep_kept | apply Kept.out) | split

theorem execCommitAck_kept {s₀ : State} {hdr : BitVec 256} {name : BitVec 256} {tagOk : Bool} {s : State} (hK : Kept s₀ s) :
    KeptOut s₀ (execCommitAck hdr name tagOk s) := by
  unfold execCommitAck
  repeat' first | (with_reducible first | intro _ | assumption | apply State.vaultIn_kept | apply State.settleVault_kept | apply State.sealDone_kept | apply Kept.out) | split

theorem execVaultReplyTimeout_kept {s₀ : State} {reqId : BitVec 64} {s : State} (hK : Kept s₀ s) :
    KeptOut s₀ (execVaultReplyTimeout reqId s) := by
  unfold execVaultReplyTimeout
  repeat' first | (with_reducible first | assumption | apply State.settleVault_kept | apply State.vaultRetry_kept | apply Kept.out) | split

theorem State.clearLane_kept {s₀ s : State} {t : Task} (hK : Kept s₀ s) :
    Kept s₀ (State.clearLane s t) := by
  unfold State.clearLane
  with_reducible repeat' first | assumption | apply State.dropLaneWork_kept | apply State.endIo_kept | apply State.dropReqs_kept | apply State.setDirty_kept | apply State.setWoad_kept

theorem State.endResidency_kept {s₀ s : State} {t : Task} {ok : Bool} (hK : Kept s₀ s) :
    Kept s₀ (State.endResidency s t ok) := by
  unfold State.endResidency
  repeat' first | (with_reducible first | assumption | apply State.setResidency_kept | apply State.closeResidency_kept) | split

theorem State.endLane_kept {s₀ s : State} {t : Task} {status : Nat} {detail : Nat} {detail2 : Nat} {result : Nat} (hK : Kept s₀ s) :
    Kept s₀ (State.endLane s t status detail detail2 result) := by
  unfold State.endLane
  with_reducible repeat' first | assumption | apply State.clearLane_kept | apply State.endResidency_kept | apply State.endPhase_kept | apply State.complete_kept | apply Kept.ite

theorem State.poisonLeaf_kept {s₀ s : State} {t : Task} {hid : Nat} {leaf : Nat} {ranges : List (Nat × Nat)} (hK : Kept s₀ s) :
    Kept s₀ (State.poisonLeaf s t hid leaf ranges) := by
  unfold State.poisonLeaf
  repeat' first | (with_reducible first | intro _ | assumption | apply State.bump_kept | apply State.setUpdate_kept | apply State.setTask_kept | apply State.addFault_kept | apply State.askCopies_kept | apply State.markStale_kept | apply Kept.ite | apply Kept.foldl) | split

theorem State.poisonRead_kept {s₀ s : State} {t : Task} {hid : Nat} {leaf : Nat} (hK : Kept s₀ s) :
    Kept s₀ (State.poisonRead s t hid leaf) := by
  unfold State.poisonRead
  repeat' first | (with_reducible first | assumption | apply State.poisonLeaf_kept) | split

theorem State.dropStream_kept {s₀ s : State} {t : Task} {hid : Nat} {addr : Nat} {row : Option (BitVec 35)} (hK : Kept s₀ s) :
    Kept s₀ (State.dropStream s t hid addr row) := by
  unfold State.dropStream
  repeat' first | (with_reducible first | assumption | apply State.poisonLeaf_kept | apply State.setUpdate_kept | apply State.faultFor_kept | apply State.faultSlice_kept | apply State.setRemap_kept | apply State.mrd_kept) | (extract_lets +onlyGivenNames z; first | (refine (fun hz : Kept s₀ z => ?_) ?_; clear_value z; revert z; intro _ _; rotate_left; unfold z; clear z; rotate_right) | (clear_value z; revert z; intro _)) | split

theorem State.refetch_kept {s₀ s : State} {l : List Refetch} (hK : Kept s₀ s) :
    Kept s₀ (State.refetch s l) := by
  unfold State.refetch
  repeat' first | (with_reducible first | intro _ | assumption | apply State.setGallery_kept | apply State.mrd_kept | apply Kept.foldl) | split

theorem State.loseOwn_kept {s₀ s : State} {j : JobId} {step : Nat} (hK : Kept s₀ s) :
    Kept s₀ (State.loseOwn s j step) := by
  unfold State.loseOwn
  repeat' first | (with_reducible first | assumption | apply State.bump_kept | apply State.setOut_kept | apply State.setWeld_kept | apply State.loseVaultRecord_kept | apply State.complete_kept) | (extract_lets +onlyGivenNames z; first | (refine (fun hz : Kept s₀ z => ?_) ?_; clear_value z; revert z; intro _ _; rotate_left; unfold z; clear z; rotate_right) | (clear_value z; revert z; intro _)) | split

theorem State.stageAgain_kept {s₀ s : State} {j : JobId} {step : Nat} {hid : Nat} {addr : Nat} (hK : Kept s₀ s) :
    Kept s₀ (State.stageAgain s j step hid addr) := by
  unfold State.stageAgain
  repeat' first | (with_reducible first | assumption | apply State.mrd_kept | apply State.event_kept | apply State.loseOwn_kept) | split

theorem State.dropVictim_kept {s₀ s : State} {v : UeVictim} {row : Option (BitVec 35)} (hK : Kept s₀ s) :
    Kept s₀ (State.dropVictim s v row) := by
  unfold State.dropVictim
  repeat' first | (with_reducible first | assumption | apply State.dropStream_kept | apply State.endLane_kept | apply State.addFault_kept | apply State.faultSlice_kept | apply State.stageAgain_kept | apply State.loseOwn_kept | apply State.loseRecord_kept | apply State.bump_kept | apply State.setVault_kept | apply State.pumpVault_kept | apply State.vaultLeafFailed_kept | apply State.leafFailed_kept | apply State.objectLost_kept) | split

theorem State.storageError_kept {s₀ s : State} {addr : BitVec 35} {v : UeVictim} (hK : Kept s₀ s) :
    Kept s₀ (State.storageError s addr v) := by
  unfold State.storageError
  with_reducible repeat' first | assumption | apply State.scored_kept | apply State.bump_kept | apply State.settleVault_kept | apply State.dropVictim_kept | apply State.queueRemap_kept

theorem State.poisonedWord_kept {s₀ s : State} {addr : BitVec 35} {v : UeVictim} (hK : Kept s₀ s) :
    Kept s₀ (State.poisonedWord s addr v) := by
  unfold State.poisonedWord
  with_reducible repeat' first | assumption | apply State.setGallery_kept | apply State.bump_kept | apply State.settleVault_kept | apply State.dropVictim_kept | apply Kept.ite

theorem State.badWord_kept {s₀ s : State} {addr : BitVec 35} {reads : WordReads} {v : UeVictim} (hK : Kept s₀ s) :
    Kept s₀ (State.badWord s addr reads v) := by
  unfold State.badWord
  repeat' first | (with_reducible first | assumption | apply State.poisonedWord_kept | apply State.total_kept | apply State.bump_kept | apply State.storageError_kept) | split

theorem execGalleryUe_kept {s₀ : State} {addr : BitVec 35} {reads : WordReads} {victim : UeVictim} {s : State} (hK : Kept s₀ s) :
    KeptOut s₀ (execGalleryUe addr reads victim s) := by
  unfold execGalleryUe
  with_reducible repeat' first | assumption | apply State.badWord_kept | apply Kept.out | apply Kept.ite

theorem State.scrubWord_kept {s₀ s : State} {channel : Nat} {row : Nat} {word : BitVec 11} {read : BitVec 39} (hK : Kept s₀ s) :
    Kept s₀ (State.scrubWord s channel row word read) := by
  unfold State.scrubWord
  with_reducible repeat' first | assumption | apply State.trackRow_kept | apply State.total_kept | apply Kept.ite

theorem State.scrubWords_kept {s₀ s : State} {channel : Nat} {row : Nat} {corrected : List (BitVec 11 × BitVec 39)} {bad : List ScrubFault} (hK : Kept s₀ s) :
    Kept s₀ (State.scrubWords s channel row corrected bad) := by
  unfold State.scrubWords
  with_reducible repeat' first | intro _ | assumption | apply State.badWord_kept | apply State.scrubWord_kept | apply Kept.foldl

theorem execScrubRow_kept {s₀ : State} {corrected : List (BitVec 11 × BitVec 39)} {bad : List ScrubFault} {s : State} (hK : Kept s₀ s) :
    KeptOut s₀ (execScrubRow corrected bad s) := by
  unfold execScrubRow
  with_reducible repeat' first | assumption | apply State.scrubWords_kept | apply State.setGallery_kept | apply State.bump_kept | apply Kept.out | apply Kept.ite

theorem State.retireSlot_kept {s₀ s : State} {j : RemapJob} {region : Nat} {objects : List UeVictim} {slot : Nat} (hK : Kept s₀ s) :
    Kept s₀ (State.retireSlot s j region objects slot) := by
  unfold State.retireSlot
  with_reducible repeat' first | intro _ | assumption | apply State.bump_kept | apply State.setGallery_kept | apply State.dropVictim_kept | apply State.shrinkRegion_kept | apply State.recordRemap_kept | apply State.event_kept | apply State.scored_kept | apply State.settleVault_kept | apply State.refetch_kept | apply State.dropRemap_kept | apply Kept.ite | apply Kept.foldl

theorem execRowRemap_kept {s₀ : State} {die : BitVec 2} {readback : Bool} {region : BitVec 3} {contents : SlotContents} {s : State} (hK : Kept s₀ s) :
    KeptOut s₀ (execRowRemap die readback region contents s) := by
  unfold execRowRemap
  repeat' first | (with_reducible first | assumption | apply State.refetch_kept | apply State.writeRemap_kept | apply State.copyRow_kept | apply State.retireSlot_kept | apply Kept.out) | split

end Sys2Proof.Machine
end

