-- ==== Sys2Proof/Laws/KeptWork.lean ====
section
/-!
SUPPORT. `Kept` of collectives, the coder, issue, the planner and the queues: one lemma for each operation.
-/
namespace Sys2Proof.Machine

theorem State.setPart_kept {s₀ s : State} {c : Coll} {phase : Nat} {index : Nat} {f : CollPart → CollPart} (hK : Kept s₀ s) :
    Kept s₀ (State.setPart s c phase index f) := by
  unfold State.setPart
  with_reducible repeat' first | assumption | apply State.setColl_kept

theorem State.sendPart_kept {s₀ s : State} {c : Coll} {g : Group} {dst : Nat} {type : Nat} {p : CollPart} {es : List (Nat × Nat)} (hK : Kept s₀ s) :
    Kept s₀ (State.sendPart s c g dst type p es) := by
  unfold State.sendPart
  with_reducible repeat' first | assumption | apply State.collSend_kept

theorem State.passPart_kept {s₀ s : State} {c : Coll} {g : Group} {next : Nat} {p : CollPart} {es : List (Nat × Nat)} (hK : Kept s₀ s) :
    Kept s₀ (State.passPart s c g next p es) := by
  unfold State.passPart
  with_reducible repeat' first | assumption | apply State.setPart_kept | apply State.abortColl_kept | apply State.sendPart_kept | apply Kept.ite

theorem State.movePart_kept {s₀ s : State} {group seq phase index : Nat} {n : Nat} (h : Kept s₀ s) : Kept s₀ (State.movePart s group seq phase index n) := by
  induction n generalizing s with
  | zero => exact h
  | succ k ih =>
    unfold State.movePart
    repeat' first | (with_reducible (first | apply State.setPart_kept | apply State.sendPart_kept | apply State.setColl_kept | apply State.passPart_kept)) | (with_reducible apply Kept.ite) | split | (with_reducible apply_assumption -exfalso -symm)

theorem State.moveParts_kept {s₀ s : State} {group : Nat} {seq : Nat} {phase : Nat} (hK : Kept s₀ s) :
    Kept s₀ (State.moveParts s group seq phase) := by
  unfold State.moveParts
  repeat' first | (with_reducible first | intro _ | assumption | apply State.movePart_kept | apply Kept.foldl) | split

theorem State.agree_kept {s₀ s : State} {c : Coll} {g : Group} {lo : Nat} {hi : Nat} (hK : Kept s₀ s) :
    Kept s₀ (State.agree s c g lo hi) := by
  unfold State.agree
  with_reducible repeat' first | assumption | apply State.setColl_kept | apply State.collFlood_kept

theorem State.beginReduce_kept {s₀ s : State} {group : Nat} {seq : Nat} (hK : Kept s₀ s) :
    Kept s₀ (State.beginReduce s group seq) := by
  unfold State.beginReduce
  repeat' first | (with_reducible first | assumption | apply State.setColl_kept) | split

theorem State.sendOut_kept {s₀ s : State} {c : Coll} {g : Group} {ps : List (Nat × List (Nat × Nat))} (hK : Kept s₀ s) :
    Kept s₀ (State.sendOut s c g ps) := by
  unfold State.sendOut
  with_reducible repeat' first | intro _ | assumption | apply State.collSend_kept | apply Kept.foldl

theorem State.decide__kept {s₀ s : State} {group : Nat} {seq : Nat} (hK : Kept s₀ s) :
    Kept s₀ (State.decide_ s group seq) := by
  unfold State.decide_
  repeat' first | (with_reducible first | assumption | apply State.setColl_kept | apply State.collFlood_kept | apply State.sendOut_kept | apply Kept.ite) | split

theorem State.settleColl_kept {s₀ s : State} {group : Nat} {seq : Nat} (hK : Kept s₀ s) :
    Kept s₀ (State.settleColl s group seq) := by
  unfold State.settleColl
  repeat' first | (with_reducible first | assumption | apply State.moveParts_kept | apply State.agree_kept | apply State.decide__kept | apply State.beginReduce_kept) | split

theorem State.serveGroup_kept {s₀ s : State} {group : Nat} (hK : Kept s₀ s) :
    Kept s₀ (State.serveGroup s group) := by
  unfold State.serveGroup
  repeat' first | (with_reducible first | assumption | apply State.settleColl_kept) | split

theorem State.dropColl_kept {s₀ s : State} {c : Coll} (hK : Kept s₀ s) :
    Kept s₀ (State.dropColl s c) := by
  unfold State.dropColl
  with_reducible repeat' first | assumption | apply State.serveGroup_kept | apply State.endIo_kept | apply State.setColls_kept | rfl

theorem State.endColl_kept {s₀ s : State} {c : Coll} {status : Nat} {detail : Nat} {detail2 : Nat} {result : Nat} (hK : Kept s₀ s) :
    Kept s₀ (State.endColl s c status detail detail2 result) := by
  unfold State.endColl
  repeat' first | (with_reducible first | assumption | apply State.dropColl_kept | apply State.complete_kept) | (extract_lets +onlyGivenNames z; refine (fun hz : Kept s₀ z => ?_) ?_; clear_value z; revert z; intro _ _; rotate_left; unfold z; clear z; rotate_right) | split

theorem State.collDone_kept {s₀ s : State} {c : Coll} (hK : Kept s₀ s) :
    Kept s₀ (State.collDone s c) := by
  unfold State.collDone
  repeat' first | (with_reducible first | assumption | apply State.dropColl_kept | apply State.lengthMismatch_kept | apply State.endColl_kept) | split

theorem State.finishColl_kept {s₀ s : State} {group : Nat} {seq : Nat} (hK : Kept s₀ s) :
    Kept s₀ (State.finishColl s group seq) := by
  unfold State.finishColl
  repeat' first | (with_reducible first | assumption | apply State.dropColl_kept | apply State.collDone_kept | apply State.openRange_kept | apply State.writeRange_kept | apply State.setColl_kept | apply Kept.ite) | split

theorem State.collWritten_kept {s₀ s : State} {task : Nat} (hK : Kept s₀ s) :
    Kept s₀ (State.collWritten s task) := by
  unfold State.collWritten
  repeat' first | (with_reducible first | assumption | apply State.collDone_kept | apply Kept.ite) | split

theorem State.pumpColls_kept {s₀ s : State} (hK : Kept s₀ s) :
    Kept s₀ (State.pumpColls s) := by
  unfold State.pumpColls
  with_reducible repeat' first | intro _ | assumption | apply State.finishColl_kept | apply Kept.foldl

theorem State.collMalformed_kept {s₀ s : State} {h : BitVec 512} (hK : Kept s₀ s) :
    Kept s₀ (State.collMalformed s h) := by
  unfold State.collMalformed
  with_reducible repeat' first | assumption | apply State.countEvent_kept

theorem State.residue_kept {s₀ s : State} {obs : ResidueObs} (hK : Kept s₀ s) :
    Kept s₀ (State.residue s obs) := by
  unfold State.residue
  repeat' first | (with_reducible first | assumption | apply State.event_kept | apply State.bump_kept | apply State.bumpBy_kept | apply State.coreFault_kept) | split

theorem State.takeData_kept {s₀ s : State} {c : Coll} {g : Group} {h : BitVec 512} {payload : Bytes} {obs : ResidueObs} (hK : Kept s₀ s) :
    Kept s₀ (State.takeData s c g h payload obs) := by
  unfold State.takeData
  with_reducible repeat' first | assumption | apply State.agree_kept | apply State.setColl_kept | apply State.sendOut_kept | apply State.residue_kept | apply Kept.ite

theorem State.takeAbort_kept {s₀ s : State} {c : Coll} {g : Group} {h : BitVec 512} (hK : Kept s₀ s) :
    Kept s₀ (State.takeAbort s c g h) := by
  unfold State.takeAbort
  with_reducible repeat' first | assumption | apply State.setColl_kept | apply State.collFlood_kept | apply Kept.ite

theorem State.takeGrace_kept {s₀ s : State} {c : Coll} {g : Group} {h : BitVec 512} (hK : Kept s₀ s) :
    Kept s₀ (State.takeGrace s c g h) := by
  unfold State.takeGrace
  with_reducible repeat' first | assumption | apply State.bump_kept | apply State.collFlood_kept | apply State.setColl_kept | apply Kept.ite

theorem State.takeResult_kept {s₀ s : State} {c : Coll} {g : Group} {h : BitVec 512} {payload : Bytes} (hK : Kept s₀ s) :
    Kept s₀ (State.takeResult s c g h payload) := by
  unfold State.takeResult
  with_reducible repeat' first | assumption | apply State.collFlood_kept | apply State.setColl_kept | apply Kept.ite

theorem State.takeSwitch_kept {s₀ s : State} {c : Coll} {g : Group} {h : BitVec 512} {payload : Bytes} (hK : Kept s₀ s) :
    Kept s₀ (State.takeSwitch s c g h payload) := by
  unfold State.takeSwitch
  repeat' first | (with_reducible first | assumption | apply State.setColl_kept | apply State.setPart_kept) | (extract_lets +onlyGivenNames z; first | (refine (fun hz : Kept s₀ z => ?_) ?_; clear_value z; revert z; intro _ _; rotate_left; unfold z; clear z; rotate_right) | (clear_value z; revert z; intro _)) | split

theorem State.fallBack_kept {s₀ s : State} {c : Coll} {p : CollPart} (hK : Kept s₀ s) :
    Kept s₀ (State.fallBack s c p) := by
  unfold State.fallBack
  with_reducible repeat' first | assumption | apply State.bump_kept | apply State.setPart_kept

theorem State.takeRefuse_kept {s₀ s : State} {c : Coll} {h : BitVec 512} (hK : Kept s₀ s) :
    Kept s₀ (State.takeRefuse s c h) := by
  unfold State.takeRefuse
  repeat' first | (with_reducible first | assumption | apply State.fallBack_kept) | split

theorem State.collTake_kept {s₀ s : State} {c : Coll} {g : Group} {h : BitVec 512} {payload : Bytes} {obs : ResidueObs} (hK : Kept s₀ s) :
    Kept s₀ (State.collTake s c g h payload obs) := by
  unfold State.collTake
  repeat' first | (with_reducible first | assumption | apply State.abortColl_kept | apply State.bump_kept | apply State.setColl_kept | apply State.takeData_kept | apply State.takeAbort_kept | apply State.takeGrace_kept | apply State.takeSwitch_kept | apply State.takeRefuse_kept | apply State.takeResult_kept | apply State.finishColl_kept | apply State.settleColl_kept) | split

theorem State.collHold_kept {s₀ s : State} {h : BitVec 512} {payload : Bytes} (hK : Kept s₀ s) :
    Kept s₀ (State.collHold s h payload) := by
  unfold State.collHold
  with_reducible repeat' first | assumption | apply State.setColls_kept | apply Kept.ite | rfl

theorem State.collMsg_kept {s₀ s : State} {h : BitVec 512} {payload : Bytes} {obs : ResidueObs} (hK : Kept s₀ s) :
    Kept s₀ (State.collMsg s h payload obs) := by
  unfold State.collMsg
  repeat' first | (with_reducible first | assumption | apply State.collMalformed_kept | apply State.collHold_kept | apply State.bump_kept | apply State.collTake_kept) | split

theorem State.collRow_kept {s₀ s : State} {type : Nat} {h : BitVec 512} {payload : Bytes} {tagOk : Bool} {obs : ResidueObs} (hK : Kept s₀ s) :
    Kept s₀ (State.collRow s type h payload tagOk obs) := by
  unfold State.collRow
  with_reducible repeat' first | assumption | apply State.collMalformed_kept | apply State.tagFail_kept | apply State.collMsg_kept | apply Kept.ite

theorem execCollData_kept {s₀ : State} {hdr : BitVec 512} {payload : Bytes} {tagOk : Bool} {obs : ResidueObs} {s : State} (hK : Kept s₀ s) :
    KeptOut s₀ (execCollData hdr payload tagOk obs s) := by
  unfold execCollData
  with_reducible repeat' first | assumption | apply State.collRow_kept | apply Kept.out

theorem execCollAbort_kept {s₀ : State} {hdr : BitVec 512} {tagOk : Bool} {s : State} (hK : Kept s₀ s) :
    KeptOut s₀ (execCollAbort hdr tagOk s) := by
  unfold execCollAbort
  with_reducible repeat' first | assumption | apply State.collRow_kept | apply Kept.out

theorem execCollGrace_kept {s₀ : State} {hdr : BitVec 512} {tagOk : Bool} {s : State} (hK : Kept s₀ s) :
    KeptOut s₀ (execCollGrace hdr tagOk s) := by
  unfold execCollGrace
  with_reducible repeat' first | assumption | apply State.collRow_kept | apply Kept.out

theorem execCollResult_kept {s₀ : State} {hdr : BitVec 512} {payload : Bytes} {tagOk : Bool} {s : State} (hK : Kept s₀ s) :
    KeptOut s₀ (execCollResult hdr payload tagOk s) := by
  unfold execCollResult
  with_reducible repeat' first | assumption | apply State.collRow_kept | apply Kept.out

theorem execSwResult_kept {s₀ : State} {hdr : BitVec 512} {payload : Bytes} {tagOk : Bool} {s : State} (hK : Kept s₀ s) :
    KeptOut s₀ (execSwResult hdr payload tagOk s) := by
  unfold execSwResult
  with_reducible repeat' first | assumption | apply State.collRow_kept | apply Kept.out

theorem execSwRefuse_kept {s₀ : State} {hdr : BitVec 512} {tagOk : Bool} {s : State} (hK : Kept s₀ s) :
    KeptOut s₀ (execSwRefuse hdr tagOk s) := by
  unfold execSwRefuse
  with_reducible repeat' first | assumption | apply State.collRow_kept | apply Kept.out

theorem execFused_kept {s₀ : State} {hdr : BitVec 512} {parts : List FusedPart} {exact : Bool} {tagOk : Bool} {s : State} (hK : Kept s₀ s) :
    KeptOut s₀ (execFused hdr parts exact tagOk s) := by
  unfold execFused
  with_reducible repeat' first | intro _ | assumption | apply State.collMalformed_kept | apply State.tagFail_kept | apply State.collMsg_kept | apply Kept.out | apply Kept.ite | apply Kept.foldl

theorem execSwitchWait_kept {s₀ : State} {group : BitVec 16} {seq : BitVec 32} {s : State} (hK : Kept s₀ s) :
    KeptOut s₀ (execSwitchWait group seq s) := by
  unfold execSwitchWait
  repeat' first | (with_reducible first | intro _ | assumption | apply State.settleColl_kept | apply State.fallBack_kept | apply Kept.out | apply Kept.ite | apply Kept.foldl) | split

theorem execDestUnreach_kept {s₀ : State} {port : Port} {engines : List (BitVec 32)} {s : State} (hK : Kept s₀ s) :
    KeptOut s₀ (execDestUnreach port engines s) := by
  unfold execDestUnreach
  with_reducible repeat' first | assumption | apply State.setPort_kept | apply State.reroute_kept | apply State.abortColls_kept | apply Kept.out | apply Kept.ite

theorem State.postColl_kept {s₀ s : State} {t : Task} {g : Group} {c : Coll} (hK : Kept s₀ s) :
    Kept s₀ (State.postColl s t g c) := by
  unfold State.postColl
  with_reducible repeat' first | intro _ | assumption | apply State.setGroup_kept | apply State.setColls_kept | apply State.collMsg_kept | apply State.settleColl_kept | apply Kept.foldl | rfl

theorem State.contribute_kept {s₀ s : State} {task : Nat} {es : List (Nat × Nat)} (hK : Kept s₀ s) :
    Kept s₀ (State.contribute s task es) := by
  unfold State.contribute
  repeat' first | (with_reducible first | assumption | apply State.settleColl_kept | apply State.setColl_kept) | split

theorem execVerdict_kept {s₀ : State} {task : Nat} {s : State} (hK : Kept s₀ s) :
    KeptOut s₀ (execVerdict task s) := by
  unfold execVerdict
  repeat' first | (with_reducible first | intro _ | assumption | apply State.whenReady_kept | apply State.complete_kept | apply State.postColl_kept | apply State.start_kept | apply Kept.out) | (extract_lets +onlyGivenNames z; clear_value z; revert z; intro _) | split

theorem execFingerprintContribute_kept {s₀ : State} {task : Nat} {s : State} (hK : Kept s₀ s) :
    KeptOut s₀ (execFingerprintContribute task s) := by
  unfold execFingerprintContribute
  repeat' first | (with_reducible first | assumption | apply State.contribute_kept | apply Kept.out) | split

theorem State.collSourceRead_kept {s₀ s : State} {t : Task} (hK : Kept s₀ s) :
    Kept s₀ (State.collSourceRead s t) := by
  unfold State.collSourceRead
  repeat' first | (with_reducible first | assumption | apply State.contribute_kept | apply State.freeBufs_kept) | split

theorem State.startColl_kept {s₀ s : State} {t : Task} {kind : Nat} (hK : Kept s₀ s) :
    Kept s₀ (State.startColl s t kind) := by
  unfold State.startColl
  repeat' first | (with_reducible first | assumption | apply State.malformed_kept | apply State.complete_kept | apply State.lengthMismatch_kept | apply State.fail_kept | apply State.postColl_kept | apply State.start_kept | apply State.contribute_kept | apply State.collSourceRead_kept | apply State.startRead_kept) | (extract_lets +onlyGivenNames z; first | (refine (fun hz : Kept s₀ z => ?_) ?_; clear_value z; revert z; intro _ _; rotate_left; unfold z; clear z; rotate_right) | (clear_value z; revert z; intro _)) | split

theorem execReduce_kept {s₀ : State} {task : Nat} {s : State} (hK : Kept s₀ s) :
    KeptOut s₀ (execReduce task s) := by
  unfold execReduce
  with_reducible repeat' first | intro _ | assumption | apply State.whenReady_kept | apply State.startColl_kept | apply Kept.out

theorem execBroadcast_kept {s₀ : State} {task : Nat} {s : State} (hK : Kept s₀ s) :
    KeptOut s₀ (execBroadcast task s) := by
  unfold execBroadcast
  with_reducible repeat' first | intro _ | assumption | apply State.whenReady_kept | apply State.startColl_kept | apply Kept.out

theorem execAllreduce_kept {s₀ : State} {task : Nat} {s : State} (hK : Kept s₀ s) :
    KeptOut s₀ (execAllreduce task s) := by
  unfold execAllreduce
  with_reducible repeat' first | intro _ | assumption | apply State.whenReady_kept | apply State.startColl_kept | apply Kept.out

theorem State.collFault_kept {s₀ s : State} {t : Task} {status : Nat} {detail : Nat} {detail2 : Nat} (hK : Kept s₀ s) :
    Kept s₀ (State.collFault s t status detail detail2) := by
  unfold State.collFault
  repeat' first | (with_reducible first | assumption | apply State.abortColl_kept | apply State.endColl_kept) | split

theorem State.applyGood_kept {s₀ s : State} {j : JobId} {n : Nat} (hK : Kept s₀ s) :
    Kept s₀ (State.applyGood s j n) := by
  unfold State.applyGood
  with_reducible repeat' first | assumption | apply State.setJob_kept | apply State.writeRecord_kept | apply State.setColls_kept | apply State.observeSync_kept | apply State.weldVerdict_kept | apply State.settleVault_kept | apply State.moveRecords_kept | rfl

theorem State.applyBad_kept {s₀ s : State} {j : JobId} {n : Nat} {reason : Nat} (hK : Kept s₀ s) :
    Kept s₀ (State.applyBad s j n reason) := by
  unfold State.applyBad
  with_reducible repeat' first | intro _ | assumption | apply State.setJob_kept | apply State.setColls_kept | apply State.weldVerdict_kept | apply State.discardBands_kept | apply State.setWeld_kept | apply State.dropStepDigests_kept | apply State.settleVault_kept | apply State.event_kept | apply Kept.foldl | rfl

theorem State.commitVerdict_kept {s₀ s : State} {j : JobId} {n : Nat} {good : Bool} {reason : Nat} (hK : Kept s₀ s) :
    Kept s₀ (State.commitVerdict s j n good reason) := by
  unfold State.commitVerdict
  with_reducible repeat' first | assumption | apply State.applyBad_kept | apply State.bump_kept | apply State.applyGood_kept | apply State.setColls_kept | apply Kept.ite | rfl

theorem execHeldVerdictApply_kept {s₀ : State} {job : JobId} {s : State} (hK : Kept s₀ s) :
    KeptOut s₀ (execHeldVerdictApply job s) := by
  unfold execHeldVerdictApply
  with_reducible repeat' first | assumption | apply State.applyGood_kept | apply Kept.out | apply Kept.ite

theorem State.commitAbort_kept {s₀ s : State} {c : Coll} {a : HeldAbort} (hK : Kept s₀ s) :
    Kept s₀ (State.commitAbort s c a) := by
  unfold State.commitAbort
  repeat' first | (with_reducible first | assumption | apply State.commitVerdict_kept | apply State.endColl_kept) | split

theorem State.commitResult_kept {s₀ s : State} {c : Coll} {r : HeldResult} (hK : Kept s₀ s) :
    Kept s₀ (State.commitResult s c r) := by
  unfold State.commitResult
  with_reducible repeat' first | assumption | apply State.commitVerdict_kept | apply State.bump_kept | apply State.free_kept | apply State.endColl_kept | apply State.finishColl_kept | apply State.serveGroup_kept | apply State.setColl_kept | apply Kept.ite

theorem State.readTable_kept {s₀ s : State} {t : Task} (hK : Kept s₀ s) :
    Kept s₀ (State.readTable s t) := by
  unfold State.readTable
  repeat' first | (with_reducible first | assumption | apply State.fail_kept | apply State.startRead_kept | apply State.start_kept | apply State.complete_kept) | split

theorem execGroupJoin_kept {s₀ : State} {task : Nat} {s : State} (hK : Kept s₀ s) :
    KeptOut s₀ (execGroupJoin task s) := by
  unfold execGroupJoin
  with_reducible repeat' first | intro _ | assumption | apply State.whenReady_kept | apply State.malformed_kept | apply State.complete_kept | apply State.readTable_kept | apply Kept.out | apply Kept.ite

theorem execGroupReform_kept {s₀ : State} {task : Nat} {s : State} (hK : Kept s₀ s) :
    KeptOut s₀ (execGroupReform task s) := by
  unfold execGroupReform
  repeat' first | (with_reducible first | intro _ | assumption | apply State.whenReady_kept | apply State.malformed_kept | apply State.complete_kept | apply State.setGroup_kept | apply State.abortColls_kept | apply State.readTable_kept | apply Kept.out | apply Kept.ite) | split

theorem execGroupLeave_kept {s₀ : State} {task : Nat} {s : State} (hK : Kept s₀ s) :
    KeptOut s₀ (execGroupLeave task s) := by
  unfold execGroupLeave
  repeat' first | (with_reducible first | intro _ | assumption) | (with_reducible refine Kept.groupsTo (fun h => ?_) ?_; first | (simpa only [mapIf, List.length_map] using h) | (exact Nat.le_trans (List.length_filter_le _ _) h)) | (with_reducible first | apply State.whenReady_kept | apply State.complete_kept | apply State.abortColls_kept | apply State.setGroup_kept | apply State.odSet_kept | apply State.start_kept | apply Kept.out) | (extract_lets +onlyGivenNames z; first | (refine (fun hz : Kept s₀ z => ?_) ?_; clear_value z; revert z; intro _ _; rotate_left; unfold z; clear z; rotate_right) | (clear_value z; revert z; intro _)) | split

theorem State.takeGroup_kept {s₀ s : State} {g : Group} (hg : (s.colls.groups.filter (fun x => x.id != g.id)).length < 8)
    (h : Kept s₀ s) : Kept s₀ (s.takeGroup g) := by
  unfold State.takeGroup
  refine Kept.foldl (fun s m h => State.collMsg_kept h) (State.setColls_kept rfl (State.odSet_kept (Kept.groupsTo (fun _ => ?_) h)))
  simp only [List.length_append, List.length_cons, List.length_nil]
  omega

theorem State.moveGroup_kept {s₀ s : State} {t : Task} (hK : Kept s₀ s) :
    Kept s₀ (State.moveGroup s t) := by
  unfold State.moveGroup
  repeat' first | (with_reducible assumption) | (with_reducible refine State.takeGroup_kept (by omega) ?_) | (with_reducible refine Kept.groupsTo (fun h => ?_) ?_; first | (simpa only [mapIf, List.length_map] using h) | (exact Nat.le_trans (List.length_filter_le _ _) h)) | (with_reducible first | apply State.complete_kept | apply State.odSet_kept | apply State.endIo_kept | apply State.setGroup_kept) | (extract_lets +onlyGivenNames z; first | (refine (fun hz : Kept s₀ z => ?_) ?_; clear_value z; revert z; intro _ _; rotate_left; unfold z; clear z; rotate_right) | (clear_value z; revert z; intro _)) | split

theorem State.pumpGroups_kept {s₀ s : State} (hK : Kept s₀ s) :
    Kept s₀ (State.pumpGroups s) := by
  unfold State.pumpGroups
  with_reducible repeat' first | assumption | apply State.moveGroup_kept | apply Kept.foldl

theorem execCollDeadline_kept {s₀ : State} {group : BitVec 16} {seq : BitVec 32} {s : State} (hK : Kept s₀ s) :
    KeptOut s₀ (execCollDeadline group seq s) := by
  unfold execCollDeadline
  repeat' first | (with_reducible first | assumption | apply State.endColl_kept | apply State.bump_kept | apply State.abortCollAt_kept | apply Kept.out) | split

theorem execCollCommit_kept {s₀ : State} {group : BitVec 16} {seq : BitVec 32} {s : State} (hK : Kept s₀ s) :
    KeptOut s₀ (execCollCommit group seq s) := by
  unfold execCollCommit
  repeat' first | (with_reducible first | assumption | apply State.pumpGroups_kept | apply State.commitResult_kept | apply State.commitAbort_kept | apply Kept.out) | split

theorem State.setEnc_kept {s₀ s : State} {id : Nat} {f : EncLeaf → EncLeaf} (hK : Kept s₀ s) :
    Kept s₀ (State.setEnc s id f) := by
  unfold State.setEnc
  with_reducible repeat' first | assumption | apply State.setMadder_kept

theorem State.dropEnc_kept {s₀ s : State} {id : Nat} (hK : Kept s₀ s) :
    Kept s₀ (State.dropEnc s id) := by
  unfold State.dropEnc
  with_reducible repeat' first | assumption | apply State.setMadder_kept

theorem State.countBlock_kept {s₀ s : State} {e : EncLeaf} {raw : Bytes} (hK : Kept s₀ s) :
    Kept s₀ (State.countBlock s e raw) := by
  unfold State.countBlock
  with_reducible repeat' first | assumption | apply State.setMadder_kept

theorem State.emitBlock_kept {s₀ s : State} {e : EncLeaf} {raw : Bytes} (hK : Kept s₀ s) :
    Kept s₀ (State.emitBlock s e raw) := by
  unfold State.emitBlock
  repeat' first | (with_reducible first | assumption | apply State.total_kept | apply State.countBlock_kept | apply State.dropEnc_kept | apply State.settleVault_kept | apply State.bandCoded_kept | apply State.serveCoded_kept | apply State.setEnc_kept | apply Kept.ite) | split

theorem State.loseEnc_kept {s₀ s : State} {e : EncLeaf} {raw : Bytes} (hK : Kept s₀ s) :
    Kept s₀ (State.loseEnc s e raw) := by
  unfold State.loseEnc
  repeat' first | (with_reducible first | assumption | apply State.dropEnc_kept | apply State.bump_kept | apply State.countBlock_kept | apply State.settleVault_kept | apply State.bandLost_kept | apply State.serveLost_kept) | split

theorem State.verifyMismatch_kept {s₀ s : State} {emitter : Nat} {verifier : Nat} {emitterFails : Bool} {verifierFails : Bool} (hK : Kept s₀ s) :
    Kept s₀ (State.verifyMismatch s emitter verifier emitterFails verifierFails) := by
  unfold State.verifyMismatch
  with_reducible repeat' first | assumption | apply State.bump_kept | apply State.setMadder_kept | apply State.event_kept | apply State.scoreTransient_kept | apply Kept.ite

theorem State.passTurn_kept {s₀ s : State} {lane : Nat} (hK : Kept s₀ s) :
    Kept s₀ (State.passTurn s lane) := by
  unfold State.passTurn
  with_reducible repeat' first | assumption | apply State.setMadder_kept | apply Kept.ite

theorem execEncodeBlock_kept {s₀ : State} {leaf : Nat} {lane : BitVec 6} {obs : EncObs} {s : State} (hK : Kept s₀ s) :
    KeptOut s₀ (execEncodeBlock leaf lane obs s) := by
  unfold execEncodeBlock
  repeat' first | (with_reducible first | assumption | apply State.loseEnc_kept | apply State.passTurn_kept | apply State.emitBlock_kept | apply State.verifyMismatch_kept | apply Kept.out) | split

theorem State.dropQ_kept {s₀ s : State} {id : Nat} (hK : Kept s₀ s) :
    Kept s₀ (State.dropQ s id) := by
  unfold State.dropQ
  with_reducible repeat' first | assumption | apply State.setVault_kept

theorem State.failQ_kept {s₀ s : State} {q : QLeaf} (hK : Kept s₀ s) :
    Kept s₀ (State.failQ s q) := by
  unfold State.failQ
  repeat' first | (with_reducible first | assumption | apply State.dropQ_kept | apply State.pumpVault_kept | apply State.vaultLeafFailed_kept | apply State.leafFailed_kept) | split

theorem State.reportQ_kept {s₀ s : State} {q : QLeaf} {code : Nat} {detail : Nat} {detail2 : Nat} (hK : Kept s₀ s) :
    Kept s₀ (State.reportQ s q code detail detail2) := by
  unfold State.reportQ
  repeat' first | (with_reducible first | assumption | apply State.setWant_kept | apply State.setWeld_kept) | split

theorem State.rejectQ_kept {s₀ s : State} {q : QLeaf} (hK : Kept s₀ s) :
    Kept s₀ (State.rejectQ s q) := by
  unfold State.rejectQ
  repeat' first | (with_reducible first | assumption | apply State.bump_kept | apply State.dropQ_kept | apply State.pumpVault_kept | apply State.setWant_kept | apply State.settleMirror_kept | apply State.mirrorMissing_kept | apply State.rollbackMissing_kept) | split

theorem State.absentQ_kept {s₀ s : State} {q : QLeaf} {gen : Nat} (hK : Kept s₀ s) :
    Kept s₀ (State.absentQ s q gen) := by
  unfold State.absentQ
  repeat' first | (with_reducible first | assumption | apply State.pumpVault_kept | apply State.wantGeneration_kept | apply State.dropQ_kept | apply State.rejectQ_kept) | split

theorem State.badLeaf_kept {s₀ s : State} {q : QLeaf} {code : Nat} {detail : Nat} {detail2 : Nat} (hK : Kept s₀ s) :
    Kept s₀ (State.badLeaf s q code detail detail2) := by
  unfold State.badLeaf
  with_reducible repeat' first | assumption | apply State.reportQ_kept | apply State.rejectQ_kept | apply State.bump_kept | apply State.absentQ_kept | apply State.failQ_kept | apply Kept.ite

theorem State.placeQ_kept {s₀ s : State} {q : QLeaf} {raw : Bytes} (hK : Kept s₀ s) :
    Kept s₀ (State.placeQ s q raw) := by
  unfold State.placeQ
  repeat' first | (with_reducible first | assumption | apply State.pumpVault_kept | apply State.takeLeaf_kept | apply State.dropQ_kept | apply State.failQ_kept | apply State.restoreWrite_kept) | split | (with_reducible refine Kept.of_fst (by assumption) ?_)

theorem execDecodeLeaf_kept {s₀ : State} {leaf : Nat} {lane : BitVec 6} {laneError : Bool} {s : State} (hK : Kept s₀ s) :
    KeptOut s₀ (execDecodeLeaf leaf lane laneError s) := by
  unfold execDecodeLeaf
  repeat' first | (with_reducible first | assumption | apply State.takeUnits_kept | apply State.setMadder_kept | apply State.bump_kept | apply State.placeQ_kept | apply State.failQ_kept | apply State.badLeaf_kept | apply Kept.out) | split | (with_reducible refine Kept.of_some (by assumption) ?_)

theorem State.restoreWritten_kept {s₀ s : State} {task : Nat} {key : Nat} (hK : Kept s₀ s) :
    Kept s₀ (State.restoreWritten s task key) := by
  unfold State.restoreWritten
  repeat' first | (with_reducible first | assumption | apply State.settleMirror_kept | apply State.setWant_kept | apply State.pumpVault_kept | apply State.rollbackWritten_kept) | split

theorem State.seePieces_kept {s₀ s : State} {t : Task} {rows : List Nat} (hK : Kept s₀ s) :
    Kept s₀ (State.seePieces s t rows) := by
  unfold State.seePieces
  repeat' first | (with_reducible first | assumption | apply State.setWoad_kept) | split

theorem State.fillBuf_kept {s₀ s : State} {task : Nat} {hid : Nat} {leaf : Nat} {cells : List (Nat × Byte)} (hK : Kept s₀ s) :
    Kept s₀ (State.fillBuf s task hid leaf cells) := by
  unfold State.fillBuf
  with_reducible repeat' first | assumption | apply State.setUpdate_kept

theorem State.fetchBlock_kept {s₀ s : State} {t : Task} {x : FetchBlock} (hK : Kept s₀ s) :
    Kept s₀ (State.fetchBlock s t x) := by
  unfold State.fetchBlock
  repeat' first | (with_reducible first | intro _ | assumption | apply State.setUpdate_kept | apply State.mrd_kept | apply State.bump_kept | apply State.fillBuf_kept | apply Kept.ite | apply Kept.foldl) | split

theorem State.payBlocks_kept {s₀ s : State} {l : List FetchBlock} (hK : Kept s₀ s) :
    Kept s₀ (State.payBlocks s l).1 := by
  unfold State.payBlocks
  with_reducible repeat' first | assumption | apply State.setCarrier_kept

theorem State.fetchRange_kept {s₀ s : State} {t : Task} {a : Nat} {b : Nat} {ok : FetchBlock → Bool} (hK : Kept s₀ s) :
    Kept s₀ (State.fetchRange s t a b ok) := by
  unfold State.fetchRange
  with_reducible repeat' first | intro _ | assumption | apply State.payBlocks_kept | apply State.fetchBlock_kept | apply Kept.foldl

theorem State.openGroup_kept {s₀ s : State} {t : Task} {a : Nat} {b : Nat} (hK : Kept s₀ s) :
    Kept s₀ (State.openGroup s t a b) := by
  unfold State.openGroup
  with_reducible repeat' first | assumption | apply State.setUpdate_kept | apply State.fetchRange_kept

theorem State.startGroup_kept {s₀ s : State} {t : Task} {a : Nat} (hK : Kept s₀ s) :
    Kept s₀ (State.startGroup s t a) := by
  unfold State.startGroup
  repeat' first | (with_reducible first | assumption | apply State.xlatFault_kept | apply State.faultSlice_kept | apply State.waitSpace_kept | apply State.total_kept | apply State.openGroup_kept | apply State.chargeAhead_kept | apply Kept.ite) | (extract_lets +onlyGivenNames z; clear_value z; revert z; intro _) | split | (with_reducible refine Kept.of_some (by assumption) ?_)

theorem execFetchGroupStart_kept {s₀ : State} {task : Nat} {s : State} (hK : Kept s₀ s) :
    KeptOut s₀ (execFetchGroupStart task s) := by
  unfold execFetchGroupStart
  repeat' first | (with_reducible first | assumption | apply State.seePieces_kept | apply State.fetchRange_kept | apply State.startGroup_kept | apply Kept.out | apply Kept.ite) | split

theorem State.startSide_kept {s₀ s : State} {t : Task} {h : Holding} {es : List Nat} (hK : Kept s₀ s) :
    Kept s₀ (State.startSide s t h es) := by
  unfold State.startSide
  repeat' first | (with_reducible first | intro _ | assumption | apply State.setUpdate_kept | apply State.xlatFault_kept | apply State.payBlocks_kept | apply State.fetchBlock_kept | apply Kept.foldl) | (extract_lets +onlyGivenNames z; first | (refine (fun hz : Kept s₀ z => ?_) ?_; clear_value z; revert z; intro _ _; rotate_left; unfold z; clear z; rotate_right) | (clear_value z; revert z; intro _)) | split

theorem State.writeElems_kept {s₀ s : State} {key : Nat} {h : Holding} {es : List (Nat × Bytes)} (hK : Kept s₀ s) :
    Kept s₀ (State.writeElems s key h es) := by
  unfold State.writeElems
  with_reducible repeat' first | intro _ | assumption | apply State.setDirty_kept | apply State.mwr_kept | apply Kept.foldl

theorem State.digestElem_kept {s₀ s : State} {t : Task} {h : Holding} {e : Nat} {bs : Bytes} {ahead : Bool} (hK : Kept s₀ s) :
    Kept s₀ (State.digestElem s t h e bs ahead) := by
  unfold State.digestElem
  with_reducible repeat' first | assumption | apply State.setUpdate_kept

theorem State.digestPoison_kept {s₀ s : State} {t : Task} {h : Holding} {e : Nat} (hK : Kept s₀ s) :
    Kept s₀ (State.digestPoison s t h e) := by
  unfold State.digestPoison
  with_reducible repeat' first | assumption | apply State.setUpdate_kept

theorem State.tapBytes_kept {s₀ s : State} {t : Task} {h : Holding} {e : Nat} {bs : Bytes} (hK : Kept s₀ s) :
    Kept s₀ (State.tapBytes s t h e bs) := by
  unfold State.tapBytes
  with_reducible repeat' first | assumption | apply State.setUpdate_kept

theorem State.tapElem_kept {s₀ s : State} {t : Task} {e : Nat} (hK : Kept s₀ s) :
    Kept s₀ (State.tapElem s t e) := by
  unfold State.tapElem
  repeat' first | (with_reducible first | intro _ | assumption | apply State.tapPoison_kept | apply State.tapRead_kept | apply State.tapBytes_kept | apply Kept.ite | apply Kept.foldl) | split

theorem State.setStats_kept {s₀ s : State} {task : Nat} {f : AdaStats → AdaStats} (hK : Kept s₀ s) :
    Kept s₀ (State.setStats s task f) := by
  unfold State.setStats
  with_reducible repeat' first | assumption | apply State.setUpdate_kept

theorem State.issueLanes_kept {s₀ s : State} {t : Task} {a : Nat} {b : Nat} {ahead : Bool} (hK : Kept s₀ s) :
    Kept s₀ (State.issueLanes s t a b ahead) := by
  unfold State.issueLanes
  repeat' first | (with_reducible first | intro _ | assumption | apply State.tapElem_kept | apply State.writeElems_kept | apply State.digestElem_kept | apply State.digestPoison_kept | apply State.addTally_kept | apply State.setStats_kept | apply State.bumpBy_kept | apply Kept.foldl) | split

theorem State.issuedMore_kept {s₀ s : State} {task : Nat} {n : Nat} (hK : Kept s₀ s) :
    Kept s₀ (State.issuedMore s task n) := by
  unfold State.issuedMore
  with_reducible repeat' first | assumption | apply State.setTask_kept

theorem State.starved_kept {s₀ s : State} (hK : Kept s₀ s) :
    Kept s₀ (State.starved s) := by
  unfold State.starved
  with_reducible repeat' first | assumption | apply State.total_kept

theorem State.sliceXlat_kept {s₀ s : State} {t : Task} {x : Nat × Nat} (hK : Kept s₀ s) :
    Kept s₀ (State.sliceXlat s t x) := by
  unfold State.sliceXlat
  with_reducible repeat' first | assumption | apply State.xlatFault_kept | apply State.faultSlice_kept | apply Kept.ite

theorem State.issueGroup_kept {s₀ s : State} {t : Task} {x : Slice} (hK : Kept s₀ s) :
    Kept s₀ (State.issueGroup s t x) := by
  unfold State.issueGroup
  repeat' first | (with_reducible first | assumption | apply State.sliceXlat_kept | apply State.issuedMore_kept | apply State.issueLanes_kept | apply State.starved_kept) | (extract_lets +onlyGivenNames z; clear_value z; revert z; intro _) | split

theorem State.tapStats_kept {s₀ s : State} {t : Task} {h : Holding} (hK : Kept s₀ s) :
    Kept s₀ (State.tapStats s t h) := by
  unfold State.tapStats
  with_reducible repeat' first | intro _ | assumption | apply State.tapPoison_kept | apply State.tapRead_kept | apply Kept.ite | apply Kept.foldl

theorem State.putStats_kept {s₀ s : State} {t : Task} {h : Holding} {vs : List (Nat × Nat)} {bad : List Nat} (hK : Kept s₀ s) :
    Kept s₀ (State.putStats s t h vs bad) := by
  unfold State.putStats
  with_reducible repeat' first | intro _ | assumption | apply State.digestPoison_kept | apply State.digestElem_kept | apply State.writeElems_kept | apply Kept.ite | apply Kept.foldl

theorem State.setNewStats_kept {s₀ s : State} {t : Task} {hr : Holding} {hc : Holding} {r : List (Nat × Nat)} {c : List (Nat × Nat)} {badRows : List Nat} {badCols : List Nat} (hK : Kept s₀ s) :
    Kept s₀ (State.setNewStats s t hr hc r c badRows badCols) := by
  unfold State.setNewStats
  with_reducible repeat' first | assumption | apply State.freeMore_kept | apply State.setStats_kept | apply Kept.ite

theorem State.issueStats_kept {s₀ s : State} {t : Task} (hK : Kept s₀ s) :
    Kept s₀ (State.issueStats s t) := by
  unfold State.issueStats
  repeat' first | (with_reducible first | assumption | apply State.sliceXlat_kept | apply State.starved_kept | apply State.tapStats_kept | apply State.putStats_kept | apply State.issuedMore_kept | apply State.setNewStats_kept) | split

theorem State.issueProject_kept {s₀ s : State} {t : Task} {x : Slice} (hK : Kept s₀ s) :
    Kept s₀ (State.issueProject s t x) := by
  unfold State.issueProject
  repeat' first | (with_reducible first | intro _ | assumption | apply State.sliceXlat_kept | apply State.starved_kept | apply State.tapElem_kept | apply State.setResidency_kept | apply State.writeElems_kept | apply State.issuedMore_kept | apply Kept.ite | apply Kept.foldl) | split

theorem State.issueGramSchmidt_kept {s₀ s : State} {t : Task} {x : Slice} {run : WoadRun} (hK : Kept s₀ s) :
    Kept s₀ (State.issueGramSchmidt s t x run) := by
  unfold State.issueGramSchmidt
  repeat' first | (with_reducible first | assumption | apply State.setTask_kept | apply State.starved_kept | apply State.sliceXlat_kept | apply State.setResidency_kept | apply State.setWoad_kept | apply State.writeElems_kept | apply Kept.ite) | split

theorem State.issueRow_kept {s₀ s : State} {t : Task} {x : Slice} (hK : Kept s₀ s) :
    Kept s₀ (State.issueRow s t x) := by
  unfold State.issueRow
  repeat' first | (with_reducible first | assumption | apply State.sliceXlat_kept | apply State.starved_kept | apply State.issuedMore_kept | apply State.writeElems_kept) | (extract_lets +onlyGivenNames z; first | (refine (fun hz : Kept s₀ z => ?_) ?_; clear_value z; revert z; intro _ _; rotate_left; unfold z; clear z; rotate_right) | (clear_value z; revert z; intro _)) | split

theorem execLaneGroupIssue_kept {s₀ : State} {task : Nat} {s : State} (hK : Kept s₀ s) :
    KeptOut s₀ (execLaneGroupIssue task s) := by
  unfold execLaneGroupIssue
  repeat' first | (with_reducible first | assumption | apply State.issueGramSchmidt_kept | apply State.issueProject_kept | apply State.issueRow_kept | apply State.issueStats_kept | apply State.issueGroup_kept | apply Kept.out) | split

theorem State.beginLane_kept {s₀ s : State} {t : Task} (hK : Kept s₀ s) :
    Kept s₀ (State.beginLane s t) := by
  unfold State.beginLane
  with_reducible repeat' first | assumption | apply State.armTaps_kept | apply State.setTask_kept | apply State.setWoad_kept | apply State.startPhase_kept | apply Kept.ite

theorem execRunIn_kept {s₀ s : State} (hK : Kept s₀ s) :
    KeptOut s₀ (execRunIn s) := by
  unfold execRunIn
  repeat' first | (with_reducible first | assumption | apply State.setTask_kept | apply State.issueLanes_kept | apply State.beginLane_kept | apply Kept.out) | (extract_lets +onlyGivenNames z; clear_value z; revert z; intro _) | split

theorem State.dropRunIn_kept {s₀ s : State} {t : Task} (hK : Kept s₀ s) :
    Kept s₀ (State.dropRunIn s t) := by
  unfold State.dropRunIn
  with_reducible repeat' first | assumption | apply State.dirtyKept_kept | apply State.dropReqs_kept | apply State.dropTally_kept | apply State.setUpdate_kept | apply State.setStats_kept | apply State.setTask_kept

theorem State.discardSlice_kept {s₀ s : State} {t : Task} {x : Slice} (hK : Kept s₀ s) :
    Kept s₀ (State.discardSlice s t x) := by
  unfold State.discardSlice
  repeat' first | (with_reducible first | assumption | apply State.dirtyKept_kept | apply State.dropReqs_kept | apply State.dropTally_kept | apply State.dropRunIn_kept | apply State.setUpdate_kept | apply State.setStats_kept | apply State.setResidency_kept | apply State.setWoad_kept | apply State.setTask_kept) | split

theorem State.rollbackSlice_kept {s₀ s : State} {t : Task} {x : Slice} (hK : Kept s₀ s) :
    Kept s₀ (State.rollbackSlice s t x) := by
  unfold State.rollbackSlice
  repeat' first | (with_reducible first | assumption | apply State.bump_kept | apply State.discardSlice_kept | apply State.setTask_kept | apply State.endLane_kept | apply Kept.ite) | split

theorem State.rollbackRunIn_kept {s₀ s : State} {t : Task} {free : Bool} {cause : Option Repair} (hK : Kept s₀ s) :
    Kept s₀ (State.rollbackRunIn s t free cause) := by
  unfold State.rollbackRunIn
  repeat' first | (with_reducible first | assumption | apply State.bump_kept | apply State.dropRunIn_kept | apply State.setTask_kept | apply State.endLane_kept | apply Kept.ite) | split

theorem execShadowMismatch_kept {s₀ : State} {task : Nat} {logical : BitVec 7} {second : Bool} {s : State} (hK : Kept s₀ s) :
    KeptOut s₀ (execShadowMismatch task logical second s) := by
  unfold execShadowMismatch
  repeat' first | (with_reducible first | assumption | apply State.bump_kept | apply State.setUpdate_kept | apply State.rollbackRunIn_kept | apply State.faultFor_kept | apply Kept.out | apply Kept.ite) | split

theorem State.stageGradient_kept {s₀ s : State} {t : Task} (hK : Kept s₀ s) :
    Kept s₀ (State.stageGradient s t) := by
  unfold State.stageGradient
  repeat' first | (with_reducible first | intro _ | assumption | apply State.stageData_kept | apply Kept.foldl) | split

theorem State.stageFactors_kept {s₀ s : State} {t : Task} (hK : Kept s₀ s) :
    Kept s₀ (State.stageFactors s t) := by
  unfold State.stageFactors
  repeat' first | (with_reducible first | intro _ | assumption | apply State.stageData_kept | apply Kept.foldl) | split

theorem State.nextPass_kept {s₀ s : State} {t : Task} (hK : Kept s₀ s) :
    Kept s₀ (State.nextPass s t) := by
  unfold State.nextPass
  with_reducible repeat' first | assumption | apply State.freeBufs_kept | apply State.setTask_kept | apply State.setStats_kept | apply Kept.ite

theorem State.noteLevel_kept {s₀ s : State} {t : Task} (hK : Kept s₀ s) :
    Kept s₀ (State.noteLevel s t) := by
  unfold State.noteLevel
  with_reducible repeat' first | assumption | apply State.setOut_kept

theorem State.finishLane_kept {s₀ s : State} {t : Task} (hK : Kept s₀ s) :
    Kept s₀ (State.finishLane s t) := by
  unfold State.finishLane
  repeat' first | (with_reducible first | assumption | apply State.nextPass_kept | apply State.endLane_kept | apply State.noteLevel_kept | apply State.stageFactors_kept) | split

theorem State.freeLeaves_kept {s₀ s : State} {t : Task} (hK : Kept s₀ s) :
    Kept s₀ (State.freeLeaves s t) := by
  unfold State.freeLeaves
  with_reducible repeat' first | assumption | apply State.setUpdate_kept

theorem State.commitOps_kept {s₀ s : State} {t : Task} {x : Slice} (hK : Kept s₀ s) :
    Kept s₀ (State.commitOps s t x) := by
  unfold State.commitOps
  repeat' first | (with_reducible first | assumption | apply State.setWoad_kept | apply State.setResidency_kept | apply State.setUpdate_kept | apply State.bumpBy_kept) | (extract_lets +onlyGivenNames z; first | (refine (fun hz : Kept s₀ z => ?_) ?_; clear_value z; revert z; intro _ _; rotate_left; unfold z; clear z; rotate_right) | (clear_value z; revert z; intro _)) | split

theorem State.commitSlice_kept {s₀ s : State} {t : Task} {x : Slice} (hK : Kept s₀ s) :
    Kept s₀ (State.commitSlice s t x) := by
  unfold State.commitSlice
  repeat' first | (with_reducible first | assumption | apply State.bump_kept | apply State.total_kept | apply State.setUpdate_kept | apply State.setDirty_kept | apply State.tapCommit_kept | apply State.commitTally_kept | apply State.noteSpanWrite_kept | apply State.commitOps_kept | apply State.stageGradient_kept | apply State.setResidency_kept | apply State.setWoad_kept | apply State.setStats_kept | apply State.setTask_kept | apply State.endLane_kept | apply State.freeLeaves_kept | apply State.finishLane_kept) | (extract_lets +onlyGivenNames z; first | (refine (fun hz : Kept s₀ z => ?_) ?_; clear_value z; revert z; intro _ _; rotate_left; unfold z; clear z; rotate_right) | (clear_value z; revert z; intro _)) | split

theorem State.closeSlice_kept {s₀ s : State} {t : Task} {x : Slice} (hK : Kept s₀ s) :
    Kept s₀ (State.closeSlice s t x) := by
  unfold State.closeSlice
  with_reducible repeat' first | assumption | apply State.discardSlice_kept | apply State.rollbackSlice_kept | apply State.bump_kept | apply State.commitSlice_kept | apply Kept.ite

theorem State.settleCancels_kept {s₀ s : State} (hK : Kept s₀ s) :
    Kept s₀ (State.settleCancels s) := by
  unfold State.settleCancels
  with_reducible repeat' first | intro _ | assumption | apply State.complete_kept | apply Kept.ite | apply Kept.foldl

theorem State.dropOwnDigests_kept {s₀ s : State} {t : Task} (hK : Kept s₀ s) :
    Kept s₀ (State.dropOwnDigests s t) := by
  unfold State.dropOwnDigests
  with_reducible repeat' first | assumption | apply State.setUpdate_kept

theorem State.endStopped_kept {s₀ s : State} {t : Task} (hK : Kept s₀ s) :
    Kept s₀ (State.endStopped s t) := by
  unfold State.endStopped
  repeat' first | (with_reducible first | assumption | apply State.endLane_kept | apply State.bump_kept | apply State.dropOwnDigests_kept) | split

theorem State.closeSlices_kept {s₀ s : State} (hK : Kept s₀ s) :
    Kept s₀ (State.closeSlices s) := by
  unfold State.closeSlices
  repeat' first | (with_reducible first | intro _ | assumption | apply State.closeSlice_kept | apply State.endStopped_kept | apply State.settleCancels_kept | apply Kept.foldl) | split

theorem State.grant_kept {s₀ s : State} {l : List (Work × Units)} {cap : Units} (hK : Kept s₀ s) :
    Kept s₀ (State.grant s l cap).1 := by
  unfold State.grant
  with_reducible repeat' first | assumption | apply State.setCarrier_kept

theorem State.loadQhat_kept {s₀ s : State} {t : Task} {key : Nat × Option Nat × Nat} (hK : Kept s₀ s) :
    Kept s₀ (State.loadQhat s t key).1 := by
  unfold State.loadQhat
  repeat' first | (with_reducible first | assumption | apply State.setResidency_kept | apply State.setUpdate_kept | apply State.startSide_kept) | (extract_lets +onlyGivenNames z; first | (refine (fun hz : Kept s₀ z => ?_) ?_; clear_value z; revert z; intro _ _; rotate_left; unfold z; clear z; rotate_right) | (clear_value z; revert z; intro _)) | split

theorem State.prepCache_kept {s₀ s : State} {t : Task} (hK : Kept s₀ s) :
    Kept s₀ (State.prepCache s t).1 := by
  unfold State.prepCache
  repeat' first | (with_reducible first | assumption | apply State.closeResidency_kept | apply State.openResidency_kept | apply State.loadQhat_kept | apply State.startSide_kept | apply Kept.ite_fst) | split

theorem State.prepStats_kept {s₀ s : State} {t : Task} (hK : Kept s₀ s) :
    Kept s₀ (State.prepStats s t).1 := by
  unfold State.prepStats
  repeat' first | (with_reducible first | assumption | apply State.setTask_kept | apply State.oversize_kept | apply State.waitSpace_kept | apply State.setUpdate_kept) | (extract_lets +onlyGivenNames z; clear_value z; revert z; intro _) | split

theorem State.adoptRunIn_kept {s₀ s : State} {t : Task} (hK : Kept s₀ s) :
    Kept s₀ (State.adoptRunIn s t) := by
  unfold State.adoptRunIn
  with_reducible repeat' first | assumption | apply State.setCarrier_kept | apply State.setUpdate_kept | apply State.setStats_kept | apply State.setTask_kept

theorem State.refillBufs_kept {s₀ s : State} {t : Task} (hK : Kept s₀ s) :
    Kept s₀ (State.refillBufs s t) := by
  unfold State.refillBufs
  repeat' first | (with_reducible first | intro _ | assumption | apply State.fetchBlock_kept | apply Kept.foldl) | split

theorem State.grantLane_kept {s₀ s : State} {t : Task} (hK : Kept s₀ s) :
    KeptOpt s₀ (State.grantLane s t) := by
  unfold State.grantLane
  repeat' first | (with_reducible first | assumption | apply State.setResidency_kept | apply State.setCarrier_kept | apply State.setTask_kept | apply State.adoptRunIn_kept | apply KeptOpt.some | apply KeptOpt.none | apply KeptOpt.ite) | split

theorem State.prepStatsRead_kept {s₀ s : State} {t : Task} (hK : Kept s₀ s) :
    Kept s₀ (State.prepStatsRead s t).1 := by
  unfold State.prepStatsRead
  repeat' first | (with_reducible first | assumption | apply State.startSide_kept) | split

theorem State.planLane_kept {s₀ s : State} {t : Task} (hK : Kept s₀ s) :
    Kept s₀ (State.planLane s t).1 := by
  unfold State.planLane
  repeat' first | (with_reducible intro _) | (with_reducible apply KeptOpt.bind) | (with_reducible first | apply State.prepCache_kept | apply State.prepStats_kept | apply State.prepStatsRead_kept | apply State.waitSpace_kept | apply State.beginLane_kept | apply State.grantLane_kept | apply State.refillBufs_kept | apply Kept.ite_fst) | (extract_lets +onlyGivenNames z; first | (refine (fun hz : Kept s₀ z => ?_) ?_; clear_value z; revert z; intro _ _; rotate_left; unfold z; clear z; rotate_right) | (refine (fun hz : ∀ x, Kept s₀ x → Kept s₀ (z x) => ?_) ?_; clear_value z; revert z; intro _ _; rotate_left; unfold z; clear z; try dsimp -zeta only; rotate_right)) | split | (with_reducible first | refine Kept.of_some (by assumption) ?_ | apply_assumption -exfalso -symm)

theorem State.endUnreadable_kept {s₀ s : State} {t : Task} (hK : Kept s₀ s) :
    Kept s₀ (State.endUnreadable s t) := by
  unfold State.endUnreadable
  repeat' first | (with_reducible first | assumption | apply State.endLane_kept) | split

theorem State.planLanes_kept {s₀ s : State} {served : Bool} (hK : Kept s₀ s) :
    Kept s₀ (State.planLanes s served).1 := by
  unfold State.planLanes
  repeat' first | (with_reducible first | intro _ | assumption | apply State.endUnreadable_kept | apply State.planLane_kept | apply State.dropRunIn_kept | apply Kept.foldl | apply Kept.foldl_fst) | split

theorem State.graceFor_kept {s₀ s : State} {t : Task} {hot : Units} {cool : Units} {rank4 : Bool} (hK : Kept s₀ s) :
    Kept s₀ (State.graceFor s t hot cool rank4) := by
  unfold State.graceFor
  repeat' first | (with_reducible first | assumption | apply State.setColls_kept | apply State.bump_kept | apply State.setColl_kept | apply State.collFlood_kept | apply Kept.ite | rfl) | split

theorem State.sendGraces_kept {s₀ s : State} {hot : Units} {cool : Units} {rank4 : Bool} (hK : Kept s₀ s) :
    Kept s₀ (State.sendGraces s hot cool rank4) := by
  unfold State.sendGraces
  with_reducible repeat' first | intro _ | assumption | apply State.graceFor_kept | apply Kept.foldl

theorem State.throttleChange_kept {s₀ s : State} (hK : Kept s₀ s) :
    Kept s₀ (State.throttleChange s) := by
  unfold State.throttleChange
  with_reducible repeat' first | assumption | apply State.setCarrier_kept | apply State.raise_kept | apply State.countEvent_kept | apply Kept.ite

theorem State.planBulk_kept {s₀ s : State} {cls : Nat} {total : Units} (hK : Kept s₀ s) :
    Kept s₀ (State.planBulk s cls total) := by
  unfold State.planBulk
  with_reducible repeat' first | assumption | apply State.grant_kept | apply State.setCarrier_kept

theorem State.planFrame_kept {s₀ s : State} (hK : Kept s₀ s) :
    Kept s₀ (State.planFrame s) := by
  unfold State.planFrame
  with_reducible repeat' first | assumption | apply State.throttleChange_kept | apply State.odSet_kept | apply State.setCarrier_kept | apply State.grant_kept | apply State.sendGraces_kept | apply State.planLanes_kept | apply State.total_kept | apply State.planBulk_kept | apply Kept.ite

theorem State.fetchNext_kept {s₀ s : State} {q : Nat} (hK : Kept s₀ s) :
    Kept s₀ (State.fetchNext s q) := by
  unfold State.fetchNext
  repeat' first | (with_reducible first | assumption | apply State.mrd_kept | apply Kept.ite) | split

theorem State.retryPair_kept {s₀ s : State} {q : Nat} (hK : Kept s₀ s) :
    Kept s₀ (State.retryPair s q) := by
  unfold State.retryPair
  repeat' first | (with_reducible first | assumption | apply State.setQp_kept | apply State.mwr_kept | apply State.cqPump_kept | apply State.fetchNext_kept) | split

theorem State.ringFailed_kept {s₀ s : State} {q : Nat} {slot : Nat} {status : Nat} {read : Bool} (hK : Kept s₀ s) :
    Kept s₀ (State.ringFailed s q slot status read) := by
  unfold State.ringFailed
  with_reducible repeat' first | assumption | apply State.setQp_kept | apply State.countEvent_kept | apply State.raise_kept

theorem State.recordRead_kept {s₀ s : State} {q : Nat} {slot : Nat} {bytes : Bytes} (hK : Kept s₀ s) :
    Kept s₀ (State.recordRead s q slot bytes) := by
  unfold State.recordRead
  with_reducible repeat' first | assumption | apply State.setQp_kept

theorem State.entryWritten_kept {s₀ s : State} {q : Nat} (hK : Kept s₀ s) :
    Kept s₀ (State.entryWritten s q) := by
  unfold State.entryWritten
  repeat' first | (with_reducible first | assumption | apply State.setQp_kept | apply State.intr_kept | apply State.cqPump_kept | apply Kept.foldl) | split

theorem State.pairAccess_kept {s₀ s : State} {path : CwPath} {q : Nat} {f : State → QueuePair → State} (hf : ∀ x0 x1, Kept s₀ x0 → Kept s₀ (f x0 x1)) (hK : Kept s₀ s) :
    Kept s₀ (State.pairAccess s path q f) := by
  unfold State.pairAccess
  repeat' first | (with_reducible first | assumption | apply State.denyCw_kept | apply State.send_kept | apply hf) | split

theorem State.badIndex_kept {s₀ s : State} {q : Nat} (hK : Kept s₀ s) :
    Kept s₀ (State.badIndex s q) := by
  unfold State.badIndex
  with_reducible repeat' first | assumption | apply State.raise_kept | apply State.setQp_kept | apply State.bump_kept

theorem State.writeTail_kept {s₀ s : State} {p : QueuePair} {value : Nat} (hK : Kept s₀ s) :
    Kept s₀ (State.writeTail s p value) := by
  unfold State.writeTail
  with_reducible repeat' first | assumption | apply State.wakeUp_kept | apply State.badIndex_kept | apply State.setSched_kept | apply State.setQp_kept | apply State.retryPair_kept | apply Kept.ite

theorem State.writeHead_kept {s₀ s : State} {p : QueuePair} {value : Nat} (hK : Kept s₀ s) :
    Kept s₀ (State.writeHead s p value) := by
  unfold State.writeHead
  with_reducible repeat' first | assumption | apply State.badIndex_kept | apply State.retryPair_kept | apply State.setQp_kept | apply Kept.ite

theorem execSqTail_kept {s₀ : State} {path : CwPath} {q : BitVec 6} {value : BitVec 32} {s : State} (hK : Kept s₀ s) :
    KeptOut s₀ (execSqTail path q value s) := by
  unfold execSqTail
  with_reducible repeat' first | intro _ | assumption | apply State.pairAccess_kept | apply State.writeTail_kept | apply Kept.out

theorem execCqHead_kept {s₀ : State} {path : CwPath} {q : BitVec 6} {value : BitVec 32} {s : State} (hK : Kept s₀ s) :
    KeptOut s₀ (execCqHead path q value s) := by
  unfold execCqHead
  with_reducible repeat' first | intro _ | assumption | apply State.pairAccess_kept | apply State.writeHead_kept | apply Kept.out

theorem State.createPair_kept {s₀ s : State} {a : Agent} {value : Bytes} (hK : Kept s₀ s) :
    Kept s₀ (State.createPair s a value).2 := by
  unfold State.createPair
  repeat' first | (with_reducible first | assumption | apply State.setSched_kept) | (extract_lets +onlyGivenNames z; clear_value z; revert z; intro _) | split

theorem execQpCreate_kept {s₀ : State} {agent : Agent} {value : Bytes} {s : State} (hK : Kept s₀ s) :
    KeptOut s₀ (execQpCreate agent value s) := by
  unfold execQpCreate
  with_reducible repeat' first | intro _ | assumption | apply State.odRow_kept | apply State.createPair_kept | apply Kept.out

theorem State.pairsBoundary_kept {s₀ s : State} (hK : Kept s₀ s) :
    Kept s₀ (State.pairsBoundary s) := by
  unfold State.pairsBoundary
  with_reducible repeat' first | assumption | apply State.setSched_kept

theorem State.dropWork_kept {s₀ s : State} {t : Task} (hK : Kept s₀ s) :
    Kept s₀ (State.dropWork s t) := by
  unfold State.dropWork
  with_reducible repeat' first | assumption | apply State.endIo_kept | apply State.setCarrier_kept | apply State.dropRestore_kept | apply State.dropVaultWork_kept | apply State.setWeld_kept | apply State.setVault_kept | apply State.setGroup_kept | apply State.setSec_kept | apply Kept.ite

theorem State.alarmTask_kept {s₀ s : State} {t : Task} (hK : Kept s₀ s) :
    Kept s₀ (State.alarmTask s t) := by
  unfold State.alarmTask
  repeat' first | (with_reducible first | assumption | apply State.endColl_kept | apply State.pairFail_kept | apply State.complete_kept | apply State.dropWork_kept) | split

theorem State.alarmTasks_kept {s₀ s : State} (hK : Kept s₀ s) :
    Kept s₀ (State.alarmTasks s) := by
  unfold State.alarmTasks
  with_reducible repeat' first | intro _ | assumption | apply State.alarmTask_kept | apply Kept.ite | apply Kept.foldl

theorem State.badFingerprint_kept {s₀ s : State} {t : Task} (hK : Kept s₀ s) :
    Kept s₀ (State.badFingerprint s t) := by
  unfold State.badFingerprint
  repeat' first | (with_reducible first | assumption | apply State.postColl_kept | apply State.contribute_kept) | split

theorem State.cancelOne_kept {s₀ s : State} {t : Task} {by_ : Option Task} (hK : Kept s₀ s) :
    Kept s₀ (State.cancelOne s t by_) := by
  unfold State.cancelOne
  repeat' first | (with_reducible first | assumption | apply State.setTask_kept | apply State.complete_kept | apply State.bump_kept | apply State.badFingerprint_kept | apply State.endLane_kept | apply State.abortColl_kept | apply State.pairFail_kept | apply State.dropWork_kept | apply Kept.ite) | (extract_lets +onlyGivenNames z; refine (fun hz : Kept s₀ z => ?_) ?_; clear_value z; revert z; intro _ _; rotate_left; unfold z; clear z; rotate_right) | split

theorem State.cancelAll_kept {s₀ s : State} {ts : List Task} {by_ : Option Task} (hK : Kept s₀ s) :
    Kept s₀ (State.cancelAll s ts by_) := by
  unfold State.cancelAll
  with_reducible repeat' first | intro _ | assumption | apply State.setTask_kept | apply State.cancelOne_kept | apply Kept.ite | apply Kept.foldl

theorem State.runCancel_kept {s₀ s : State} {t : Task} {targets : List Task} (hK : Kept s₀ s) :
    Kept s₀ (State.runCancel s t targets) := by
  unfold State.runCancel
  with_reducible repeat' first | assumption | apply State.cancelAll_kept | apply State.setTask_kept | apply State.settleCancels_kept

theorem execCancel_kept {s₀ : State} {task : Nat} {s : State} (hK : Kept s₀ s) :
    KeptOut s₀ (execCancel task s) := by
  unfold execCancel
  repeat' first | (with_reducible first | intro _ | assumption | apply State.whenReady_kept | apply State.complete_kept | apply State.runCancel_kept | apply Kept.out | apply Kept.ite) | split

theorem State.destroyPair_kept {s₀ s : State} {a : Agent} {q : Nat} (hK : Kept s₀ s) :
    Kept s₀ (State.destroyPair s a q).2 := by
  unfold State.destroyPair
  repeat' first | (with_reducible first | assumption | apply State.setSched_kept | apply State.setQp_kept | apply State.dropReqs_kept | apply State.cancelAll_kept) | split

theorem State.destroyWrite_kept {s₀ s : State} {a : Agent} {q : Nat} (hK : Kept s₀ s) :
    Kept s₀ (State.destroyWrite s a q).2 := by
  unfold State.destroyWrite
  repeat' first | (with_reducible first | assumption | apply State.destroyPair_kept) | split

theorem execQpDestroy_kept {s₀ : State} {agent : Agent} {q : BitVec 8} {s : State} (hK : Kept s₀ s) :
    KeptOut s₀ (execQpDestroy agent q s) := by
  unfold execQpDestroy
  with_reducible repeat' first | intro _ | assumption | apply State.odRow_kept | apply State.destroyWrite_kept | apply Kept.out

theorem execQpRemove_kept {s₀ : State} {q : BitVec 6} {s : State} (hK : Kept s₀ s) :
    KeptOut s₀ (execQpRemove q s) := by
  unfold execQpRemove
  repeat' first | (with_reducible first | assumption | apply State.setSched_kept | apply Kept.out) | split

theorem State.refuseRecord_kept {s₀ s : State} {p : QueuePair} {r : BitVec 1024} {status : Nat} (hK : Kept s₀ s) :
    Kept s₀ (State.refuseRecord s p r status) := by
  unfold State.refuseRecord
  with_reducible repeat' first | assumption | apply State.putEntry_kept | apply State.setSched_kept

theorem State.noteAdmission_kept {s₀ s : State} {t : Task} (hK : Kept s₀ s) :
    Kept s₀ (State.noteAdmission s t) := by
  unfold State.noteAdmission
  with_reducible repeat' first | assumption | apply State.setSched_kept | apply State.joinRecord_kept | apply State.closeRecord_kept | apply State.setColls_kept | apply State.observeSync_kept | apply State.noteTensors_kept | apply Kept.ite | rfl

theorem State.admitRecord_kept {s₀ s : State} {p : QueuePair} {r : BitVec 1024} (hK : Kept s₀ s) :
    Kept s₀ (State.admitRecord s p r) := by
  unfold State.admitRecord
  repeat' first | (with_reducible first | assumption | apply State.refuseRecord_kept | apply State.bump_kept | apply State.setSched_kept | apply State.setTag_kept | apply State.complete_kept | apply State.noteAdmission_kept) | (extract_lets +onlyGivenNames z; first | (refine (fun hz : Kept s₀ z => ?_) ?_; clear_value z; revert z; intro _ _; rotate_left; unfold z; clear z; rotate_right) | (clear_value z; revert z; intro _)) | split

theorem execTaskAdmit_kept {s₀ s : State} (hK : Kept s₀ s) :
    KeptOut s₀ (execTaskAdmit s) := by
  unfold execTaskAdmit
  repeat' first | (with_reducible first | assumption | apply State.setSched_kept | apply State.setQp_kept | apply State.fetchNext_kept | apply State.admitRecord_kept | apply Kept.out) | split

theorem execNop_kept {s₀ : State} {task : Nat} {s : State} (hK : Kept s₀ s) :
    KeptOut s₀ (execNop task s) := by
  unfold execNop
  with_reducible repeat' first | intro _ | assumption | apply State.whenReady_kept | apply State.complete_kept | apply Kept.out

theorem execJobOpen_kept {s₀ : State} {task : Nat} {s : State} (hK : Kept s₀ s) :
    KeptOut s₀ (execJobOpen task s) := by
  unfold execJobOpen
  repeat' first | (with_reducible first | intro _ | assumption | apply State.whenReady_kept | apply State.complete_kept | apply State.setJob_kept | apply State.openHead_kept | apply State.stepEffect_kept | apply State.setWeld_kept | apply Kept.out | apply Kept.ite | apply Kept.foldl) | split

theorem State.releaseHolding_kept {s₀ s : State} {hid : Nat} (hK : Kept s₀ s) :
    Kept s₀ (State.releaseHolding s hid) := by
  unfold State.releaseHolding
  repeat' first | (with_reducible apply_assumption -exfalso -symm)

theorem execReleaseHolding_kept {s₀ : State} {task : Nat} {s : State} (hK : Kept s₀ s) :
    KeptOut s₀ (execReleaseHolding task s) := by
  unfold execReleaseHolding
  repeat' first | (with_reducible first | intro _ | assumption | apply State.whenReady_kept | apply State.complete_kept | apply State.releaseHolding_kept | apply Kept.out) | (extract_lets +onlyGivenNames z; clear_value z; revert z; intro _) | split

theorem execJobClose_kept {s₀ : State} {task : Nat} {s : State} (hK : Kept s₀ s) :
    KeptOut s₀ (execJobClose task s) := by
  unfold execJobClose
  with_reducible repeat' first | intro _ | assumption | apply State.whenReady_kept | apply State.abandonAcc_kept | apply State.dropFactorSets_kept | apply State.closeSpare_kept | apply State.endPair_kept | apply State.setWoad_kept | apply State.releaseHolding_kept | apply State.setUpdate_kept | apply State.setColls_kept | apply State.stepEffect_kept | apply State.setWeld_kept | apply State.settleVault_kept | apply State.complete_kept | apply State.setJob_kept | apply Kept.out | apply Kept.foldl | rfl

theorem State.readExtents_kept {s₀ s : State} {t : Task} {d : BitVec 512} (hK : Kept s₀ s) :
    Kept s₀ (State.readExtents s t d) := by
  unfold State.readExtents
  with_reducible repeat' first | intro _ | assumption | apply State.setUpdate_kept | apply State.readGranule_kept | apply State.mrd_kept | apply Kept.ite | apply Kept.foldl

theorem State.extentsRead_kept {s₀ s : State} {t : Task} (hK : Kept s₀ s) :
    Kept s₀ (State.extentsRead s t) := by
  unfold State.extentsRead
  repeat' first | (with_reducible first | assumption | apply State.setCarrier_kept | apply State.endIo_kept | apply State.complete_kept) | split

theorem execRegisterHolding_kept {s₀ : State} {task : Nat} {s : State} (hK : Kept s₀ s) :
    KeptOut s₀ (execRegisterHolding task s) := by
  unfold execRegisterHolding
  with_reducible repeat' first | intro _ | assumption | apply State.whenReady_kept | apply State.complete_kept | apply State.fail_kept | apply State.setCarrier_kept | apply State.start_kept | apply State.extentsRead_kept | apply State.readExtents_kept | apply Kept.out | apply Kept.ite

theorem State.refuseRegistering_kept {s₀ s : State} {t : Task} {status : Nat} (hK : Kept s₀ s) :
    Kept s₀ (State.refuseRegistering s t status) := by
  unfold State.refuseRegistering
  with_reducible repeat' first | assumption | apply State.complete_kept | apply State.dropWork_kept

theorem State.acceptMark_kept {s₀ s : State} {t : Task} {c : Nat} (hK : Kept s₀ s) :
    Kept s₀ (State.acceptMark s t c) := by
  unfold State.acceptMark
  with_reducible repeat' first | assumption | apply State.total_kept | apply State.policyD_kept | apply State.stepEffect_kept | apply State.setJob_kept | apply State.pumpRecords_kept | apply State.complete_kept | apply Kept.ite

theorem State.abandonTask_kept {s₀ s : State} {t : Task} (hK : Kept s₀ s) :
    Kept s₀ (State.abandonTask s t) := by
  unfold State.abandonTask
  repeat' first | (with_reducible first | assumption | apply State.setTask_kept | apply State.dropOwnDigests_kept | apply State.endLane_kept | apply State.setColl_kept | apply State.abortColl_kept | apply State.fail_kept | apply State.dropWork_kept) | split

theorem State.abandonSteps_kept {s₀ s : State} {mark : Task} (hK : Kept s₀ s) :
    Kept s₀ (State.abandonSteps s mark) := by
  unfold State.abandonSteps
  with_reducible repeat' first | intro _ | assumption | apply State.setTask_kept | apply State.abandonTask_kept | apply Kept.ite | apply Kept.foldl

theorem State.forgetSteps_kept {s₀ s : State} {mark : Task} (hK : Kept s₀ s) :
    Kept s₀ (State.forgetSteps s mark) := by
  unfold State.forgetSteps
  with_reducible repeat' first | assumption | apply State.setColls_kept | apply State.setUpdate_kept | apply State.setWeld_kept | rfl

theorem execStepMark_kept {s₀ : State} {task : Nat} {s : State} (hK : Kept s₀ s) :
    KeptOut s₀ (execStepMark task s) := by
  unfold execStepMark
  with_reducible repeat' first | intro _ | assumption | apply State.whenReady_kept | apply State.complete_kept | apply State.acceptMark_kept | apply State.setJob_kept | apply State.forgetSteps_kept | apply State.abandonSteps_kept | apply Kept.out | apply Kept.ite

theorem execSelftest_kept {s₀ : State} {task : Nat} {s : State} (hK : Kept s₀ s) :
    KeptOut s₀ (execSelftest task s) := by
  unfold execSelftest
  with_reducible repeat' first | intro _ | assumption | apply State.whenReady_kept | apply State.setSched_kept | apply State.start_kept | apply Kept.out

theorem State.enterPower_kept {s₀ s : State} {p : PowerState} {count : OdRef} (hK : Kept s₀ s) :
    Kept s₀ (State.enterPower s p count) := by
  unfold State.enterPower
  with_reducible repeat' first | assumption | apply State.setSched_kept | apply State.bump_kept | apply State.enterHoldover_kept | apply Kept.ite

theorem execIdleFrameLimit_kept {s₀ s : State} (hK : Kept s₀ s) :
    KeptOut s₀ (execIdleFrameLimit s) := by
  unfold execIdleFrameLimit
  repeat' first | (with_reducible first | assumption | apply State.enterPower_kept | apply Kept.out | apply Kept.ite) | split

theorem execWakeEvent_kept {s₀ : State} {cause : WakeEvent} {s : State} (hK : Kept s₀ s) :
    KeptOut s₀ (execWakeEvent cause s) := by
  unfold execWakeEvent
  repeat' first | (with_reducible first | assumption | apply State.wakeUp_kept | apply Kept.out) | split

theorem execPowerExitDone_kept {s₀ s : State} (hK : Kept s₀ s) :
    KeptOut s₀ (execPowerExitDone s) := by
  unfold execPowerExitDone
  with_reducible repeat' first | assumption | apply State.observeSync_kept | apply State.setSched_kept | apply Kept.out | apply Kept.ite

theorem execPowerStateLimit_kept {s₀ : State} {agent : Agent} {value : BitVec 8} {s : State} (hK : Kept s₀ s) :
    KeptOut s₀ (execPowerStateLimit agent value s) := by
  unfold execPowerStateLimit
  with_reducible repeat' first | assumption | apply State.odRow_kept | apply acceptSetting_kept | apply Kept.out

end Sys2Proof.Machine
end

