-- ==== Sys2Proof/Laws/KeptRest.lean ====
section
/-!
SUPPORT. `Kept` of service, Curator, field side, carrier, dictionary paths, window and frame tick: one lemma for each operation.
-/
namespace Sys2Proof.Machine

theorem State.raiseSvn_kept {s₀ s : State} {k : Nat} {v : Nat} (hK : Kept s₀ s) :
    Kept s₀ (State.raiseSvn s k v) := by
  unfold State.raiseSvn
  with_reducible repeat' first | assumption | apply State.setBattery_kept | apply Kept.ite | rfl

theorem State.svnWrite_kept {s₀ s : State} {k : Nat} {v : Nat} {authenticated : Bool} (hK : Kept s₀ s) :
    Kept s₀ (State.svnWrite s k v authenticated).2 := by
  unfold State.svnWrite
  repeat' first | (with_reducible first | assumption | apply State.raiseSvn_kept) | split

theorem execSvnWrite_kept {s₀ : State} {agent : Agent} {sub : BitVec 8} {value : BitVec 32} {authenticated : Bool} {s : State} (hK : Kept s₀ s) :
    KeptOut s₀ (execSvnWrite agent sub value authenticated s) := by
  unfold execSvnWrite
  with_reducible repeat' first | intro _ | assumption | apply State.odRow_kept | apply State.svnWrite_kept | apply Kept.out | apply Kept.ite

theorem State.planPipe_kept {s₀ s : State} {pipe : Nat} (hK : Kept s₀ s) :
    Kept s₀ (State.planPipe s pipe) := by
  unfold State.planPipe
  repeat' first | (with_reducible first | assumption | apply State.retirePipe_kept | apply State.setSec_kept | apply State.retirePart_kept | apply State.bump_kept) | split

theorem State.planCore_kept {s₀ s : State} {phys : Nat} (hK : Kept s₀ s) :
    Kept s₀ (State.planCore s phys) := by
  unfold State.planCore
  repeat' first | (with_reducible first | apply State.settleCore_kept | apply State.odSet_kept | apply State.remapCore_kept) | split | (with_reducible apply_assumption -exfalso -symm)

theorem State.planRetire_kept {s₀ s : State} {cls : Nat} {i : Nat} (hK : Kept s₀ s) :
    Kept s₀ (State.planRetire s cls i) := by
  unfold State.planRetire
  repeat' first | (with_reducible first | assumption | apply State.retireLane_kept | apply State.retireRow_kept | apply State.retireCol_kept | apply State.retireCoder_kept | apply State.planPipe_kept | apply State.planCore_kept | apply State.send_kept | apply State.setPort_kept | apply State.retirePart_kept | apply State.planRetrain_kept) | split

theorem execPredictiveRetire_kept {s₀ : State} {part : BitVec 16} {s : State} (hK : Kept s₀ s) :
    KeptOut s₀ (execPredictiveRetire part s) := by
  unfold execPredictiveRetire
  with_reducible repeat' first | assumption | apply State.event_kept | apply State.setService_kept | apply State.countEvent_kept | apply State.planRetire_kept | apply Kept.out | apply Kept.ite

theorem State.armKernels_kept {s₀ s : State} {b : Option Bundle} (hK : Kept s₀ s) :
    Kept s₀ (State.armKernels s b) := by
  unfold State.armKernels
  with_reducible repeat' first | assumption | apply State.setWoad_kept | apply State.setUpdate_kept

theorem State.refuseImage_kept {s₀ s : State} (hK : Kept s₀ s) :
    Kept s₀ (State.refuseImage s).2 := by
  unfold State.refuseImage
  with_reducible repeat' first | assumption | apply State.bump_kept

theorem State.bundleLoad_kept {s₀ s : State} {b : Bundle} (hK : Kept s₀ s) :
    Kept s₀ (State.bundleLoad s b).2 := by
  unfold State.bundleLoad
  repeat' first | (with_reducible first | assumption | apply State.refuseImage_kept | apply State.armKernels_kept | apply State.setService_kept) | split

theorem State.imageWrite_kept {s₀ s : State} {a : Agent} {key : Nat} {bytes : Bytes} {f : State → Nat × State} (hf : ∀ x0, Kept s₀ x0 → Kept s₀ (f x0).2) (hK : Kept s₀ s) :
    Kept s₀ (State.imageWrite s a key bytes f).2 := by
  unfold State.imageWrite
  repeat' first | (with_reducible first | assumption | apply State.odRefuse_kept | apply State.wakeUp_kept | apply hf) | (extract_lets +onlyGivenNames z; clear_value z; revert z; intro _) | split | (with_reducible refine Kept.of_snd (by assumption) ?_)

theorem State.imageRow_kept {s₀ s : State} {a : Agent} {key : Nat} {f : State → Nat × State} (hf : ∀ x0, Kept s₀ x0 → Kept s₀ (f x0).2) (hK : Kept s₀ s) :
    Kept s₀ (State.imageRow s a key f) := by
  unfold State.imageRow
  with_reducible repeat' first | assumption | apply State.imageWrite_kept | apply State.send_kept

theorem execDocentBundleLoad_kept {s₀ : State} {agent : Agent} {bundle : Bundle} {s : State} (hK : Kept s₀ s) :
    KeptOut s₀ (execDocentBundleLoad agent bundle s) := by
  unfold execDocentBundleLoad
  with_reducible repeat' first | intro _ | assumption | apply State.imageRow_kept | apply State.bundleLoad_kept | apply Kept.out

theorem State.bundleStage_kept {s₀ s : State} {b : Bundle} (hK : Kept s₀ s) :
    Kept s₀ (State.bundleStage s b).2 := by
  unfold State.bundleStage
  repeat' first | (with_reducible first | assumption | apply State.refuseImage_kept | apply State.setService_kept) | split

theorem execBundleStage_kept {s₀ : State} {agent : Agent} {bundle : Bundle} {s : State} (hK : Kept s₀ s) :
    KeptOut s₀ (execBundleStage agent bundle s) := by
  unfold execBundleStage
  with_reducible repeat' first | intro _ | assumption | apply State.imageRow_kept | apply State.bundleStage_kept | apply Kept.out

theorem State.bundleActivate_kept {s₀ s : State} {v : Nat} (hK : Kept s₀ s) :
    Kept s₀ (State.bundleActivate s v).2 := by
  unfold State.bundleActivate
  repeat' first | (with_reducible first | assumption | apply State.setService_kept) | (extract_lets +onlyGivenNames z; clear_value z; revert z; intro _) | split

theorem execBundleActivate_kept {s₀ : State} {agent : Agent} {value : BitVec 32} {s : State} (hK : Kept s₀ s) :
    KeptOut s₀ (execBundleActivate agent value s) := by
  unfold execBundleActivate
  with_reducible repeat' first | intro _ | assumption | apply State.odRow_kept | apply State.bundleActivate_kept | apply Kept.out

theorem execBundleSwitch_kept {s₀ s : State} (hK : Kept s₀ s) :
    KeptOut s₀ (execBundleSwitch s) := by
  unfold execBundleSwitch
  repeat' first | (with_reducible first | assumption | apply State.armKernels_kept | apply State.setService_kept | apply Kept.out) | split

theorem execActivateWaitTimeout_kept {s₀ s : State} (hK : Kept s₀ s) :
    KeptOut s₀ (execActivateWaitTimeout s) := by
  unfold execActivateWaitTimeout
  repeat' first | (with_reducible first | assumption | apply State.countEvent_kept | apply State.setService_kept | apply Kept.out) | split

theorem execBundleTrialFail_kept {s₀ : State} {missed : Bool} {s : State} (hK : Kept s₀ s) :
    KeptOut s₀ (execBundleTrialFail missed s) := by
  unfold execBundleTrialFail
  with_reducible repeat' first | apply State.countEvent_kept | apply Kept.out | apply Kept.ite | apply_assumption -exfalso -symm

theorem State.commitBundle_kept {s₀ s : State} (hK : Kept s₀ s) :
    Kept s₀ (State.commitBundle s) := by
  unfold State.commitBundle
  repeat' first | (with_reducible first | assumption | apply State.raiseSvn_kept | apply State.setService_kept) | split

theorem State.bundleCommit_kept {s₀ s : State} {v : Nat} (hK : Kept s₀ s) :
    Kept s₀ (State.bundleCommit s v).2 := by
  unfold State.bundleCommit
  repeat' first | (with_reducible first | assumption | apply State.setService_kept | apply State.commitBundle_kept) | split

theorem execBundleCommit_kept {s₀ : State} {agent : Agent} {value : BitVec 8} {s : State} (hK : Kept s₀ s) :
    KeptOut s₀ (execBundleCommit agent value s) := by
  unfold execBundleCommit
  with_reducible repeat' first | intro _ | assumption | apply State.odRow_kept | apply State.bundleCommit_kept | apply Kept.out

theorem execTrialEnd_kept {s₀ s : State} (hK : Kept s₀ s) :
    KeptOut s₀ (execTrialEnd s) := by
  unfold execTrialEnd
  with_reducible repeat' first | assumption | apply State.commitBundle_kept | apply Kept.out | apply Kept.ite

theorem State.bootSlot_kept {s₀ s : State} (h : Kept s₀ s) : Kept s₀ s.bootSlot.2 := by
  unfold State.bootSlot
  generalize s.bootOrder = l
  induction l generalizing s with
  | nil => exact h
  | cons k l ih =>
    simp only [List.foldr_cons]
    split
    · split
      · exact h
      · exact ih (State.bump_kept h)
    · exact ih h

theorem State.imageLoad_kept {s₀ s : State} {i : CuratorImage} (hK : Kept s₀ s) :
    Kept s₀ (State.imageLoad s i).2 := by
  unfold State.imageLoad
  repeat' first | (with_reducible first | assumption | apply State.refuseImage_kept | apply State.setBattery_kept | rfl) | split

theorem execCuratorImageLoad_kept {s₀ : State} {agent : Agent} {image : CuratorImage} {s : State} (hK : Kept s₀ s) :
    KeptOut s₀ (execCuratorImageLoad agent image s) := by
  unfold execCuratorImageLoad
  with_reducible repeat' first | intro _ | assumption | apply State.imageRow_kept | apply State.imageLoad_kept | apply Kept.out

theorem State.curatorActivate_kept {s₀ s : State} {slot : Nat} (hK : Kept s₀ s) :
    Kept s₀ (State.curatorActivate s slot).2 := by
  unfold State.curatorActivate
  repeat' first | (with_reducible first | assumption | apply State.setCurator_kept) | (extract_lets +onlyGivenNames z; clear_value z; revert z; intro _) | split

theorem execCuratorActivate_kept {s₀ : State} {agent : Agent} {value : BitVec 8} {s : State} (hK : Kept s₀ s) :
    KeptOut s₀ (execCuratorActivate agent value s) := by
  unfold execCuratorActivate
  with_reducible repeat' first | intro _ | assumption | apply State.odRow_kept | apply State.curatorActivate_kept | apply Kept.out

theorem State.restartCurator_kept {s₀ s : State} {slot : Nat} {trial : Option Nat} (hK : Kept s₀ s) :
    Kept s₀ (State.restartCurator s slot trial) := by
  unfold State.restartCurator
  with_reducible repeat' first | assumption | apply State.setCurator_kept

theorem execCuratorRestart_kept {s₀ s : State} (hK : Kept s₀ s) :
    KeptOut s₀ (execCuratorRestart s) := by
  unfold execCuratorRestart
  repeat' first | (with_reducible first | assumption | apply State.restartCurator_kept | apply Kept.out) | split

theorem execCuratorTrialFail_kept {s₀ s : State} (hK : Kept s₀ s) :
    KeptOut s₀ (execCuratorTrialFail s) := by
  unfold execCuratorTrialFail
  with_reducible repeat' first | assumption | apply State.bootSlot_kept | apply State.countEvent_kept | apply State.restartCurator_kept | apply Kept.out | apply Kept.ite

theorem State.curatorCommit_kept {s₀ s : State} {v : Nat} (hK : Kept s₀ s) :
    Kept s₀ (State.curatorCommit s v).2 := by
  unfold State.curatorCommit
  repeat' first | (with_reducible first | assumption | apply State.raiseSvn_kept | apply State.setBattery_kept | apply State.setCurator_kept | rfl) | split

theorem execCuratorCommit_kept {s₀ : State} {agent : Agent} {value : BitVec 8} {s : State} (hK : Kept s₀ s) :
    KeptOut s₀ (execCuratorCommit agent value s) := by
  unfold execCuratorCommit
  with_reducible repeat' first | intro _ | assumption | apply State.odRow_kept | apply State.curatorCommit_kept | apply Kept.out

theorem State.resumeCurator_kept {s₀ s : State} (hK : Kept s₀ s) :
    Kept s₀ (State.resumeCurator s) := by
  unfold State.resumeCurator
  repeat' first | (with_reducible first | intro _ | assumption | apply State.setBattery_kept | apply State.setCurator_kept | apply Kept.foldl | rfl) | split

/-- A state whose parts are formed anew. -/
theorem Kept.gen {s₀ s e : State} (hp : s.pending = e.pending) (ho : s.outbox = e.outbox) (hf : s.freeCtr = e.freeCtr)
    (hk : s₀.formed → e.formed → s.formed) (h : Kept s₀ e) : Kept s₀ s :=
  ⟨⟨hp.trans h.1.1, ho ▸ h.1.2.1, hf ▸ h.1.2.2⟩, fun f => hk f (h.2 f)⟩

theorem Kept.storeBoth {s₀ s : State} {p : Nat × Nat → Bool} (h : Kept s₀ s) :
    Kept s₀ (State.setBattery { s with od := s.battery.store.filter p } fun b => { b with store := s.battery.store.filter p }) :=
  Kept.gen (e := s) rfl rfl rfl (fun _ f => ⟨f.1, filter_sorted _ f.2.2.1, filter_sorted _ f.2.2.1, f.2.2.2⟩) h

theorem Kept.odFromStore {s₀ s : State} (h : Kept s₀ s) : Kept s₀ { s with od := s.battery.store } :=
  Kept.gen (e := s) rfl rfl rfl (fun _ f => ⟨f.1, f.2.2.1, f.2.2⟩) h

theorem Kept.newTime {s₀ s : State} {t : TimeUnit} (ht : t.cycle < 160000) (h : Kept s₀ s) : Kept s₀ { s with time := t } :=
  Kept.gen (e := s) rfl rfl rfl (fun _ f => ⟨ht, f.2⟩) h

theorem Kept.storeFilter {s₀ s : State} {p : Nat × Nat → Bool} (h : Kept s₀ s) :
    Kept s₀ (s.setBattery fun b => { b with store := s.od.filter p }) :=
  Kept.gen (e := s) rfl rfl rfl (fun _ f => ⟨f.1, f.2.1, filter_sorted _ f.2.1, f.2.2.2⟩) h

theorem State.resetBattery_kept {s₀ s : State} (h : Kept s₀ s) : Kept s₀ s.resetBattery :=
  Kept.gen (e := s) rfl rfl rfl (fun _ f => ⟨f.1, List.Pairwise.nil, List.Pairwise.nil, f.2.2.2⟩) h

theorem foldl_assocSet_sorted {α : Type} {l m : List (Nat × α)} (h : (m.map (·.1)).Pairwise (· < ·)) :
    ((l.foldl (fun m p => assocSet m p.1 p.2) m).map (·.1)).Pairwise (· < ·) := by
  induction l generalizing m with
  | nil => exact h
  | cons p l ih => exact ih (assocSet_sorted _ _ h)

theorem State.reloadScores_kept {s₀ s : State} (hK : Kept s₀ s) :
    Kept s₀ (State.reloadScores s) := by
  unfold State.reloadScores
  with_reducible repeat' first | assumption | apply State.startAllPins_kept | apply State.setService_kept

theorem State.settleMaps_kept {s₀ s : State} (hK : Kept s₀ s) :
    Kept s₀ (State.settleMaps s) := by
  unfold State.settleMaps
  with_reducible repeat' first | assumption | apply State.odSet_kept | apply State.odSetP_kept

theorem State.loseMain_kept {s₀ s : State} (h : Kept s₀ s) : Kept s₀ s.loseMain := by
  unfold State.loseMain
  extract_lets ports cores od s1 s2 s3 s4 s5 s6 s7
  have h1 : Kept s₀ s1 := Kept.ite (State.enterHoldover_kept h) h
  have h2 : Kept s₀ s2 := Kept.gen (e := s1) rfl rfl rfl (fun f g =>
    ⟨g.1, foldl_assocSet_sorted (filter_sorted _ (h.2 f).2.1), g.2.2.1, g.2.2.2.1, g.2.2.2.2.1, Nat.zero_le _, List.Pairwise.nil, nofun⟩) h1
  exact State.settleMaps_kept (State.reloadScores_kept (State.setCurator_kept (State.setService_kept (State.setDict_kept rfl rfl
    (State.setSec_kept (State.setTime_kept rfl h2))))))

theorem State.dropMain_kept {s₀ s : State} (hK : Kept s₀ s) :
    Kept s₀ (State.dropMain s) := by
  unfold State.dropMain
  with_reducible repeat' first | assumption | apply State.loseMain_kept | apply State.setCurator_kept | apply Kept.ite

theorem execMainPowerLoss_kept {s₀ s : State} (hK : Kept s₀ s) :
    KeptOut s₀ (execMainPowerLoss s) := by
  unfold execMainPowerLoss
  with_reducible repeat' first | assumption | apply State.dropMain_kept | apply Kept.out

theorem execAonPowerLoss_kept {s₀ s : State} (h : Kept s₀ s) : KeptOut s₀ (execAonPowerLoss s) := by
  unfold execAonPowerLoss
  extract_lets secs valid s1 s2
  have h1 : Kept s₀ s1 := State.loseMain_kept h
  clear_value s1
  have h2 : Kept s₀ s2 := State.setBattery_kept rfl h1
  exact Kept.out (Kept.gen (e := s2) rfl rfl rfl (fun _ f =>
    ⟨by show 0 < 160000; decide, f.2.2.1, f.2.2.1, Nat.zero_le _, Nat.zero_le _, f.2.2.2.2.2⟩) h2)

theorem execVbatLow_kept {s₀ s : State} (hK : Kept s₀ s) :
    KeptOut s₀ (execVbatLow s) := by
  unfold execVbatLow
  with_reducible repeat' first | assumption | apply State.countEvent_kept | apply Kept.out | apply Kept.ite

theorem State.markStage_kept {s₀ s : State} {st : Stage} (hK : Kept s₀ s) :
    Kept s₀ (State.markStage s st) := by
  unfold State.markStage
  with_reducible repeat' first | assumption | apply State.setCurator_kept

theorem State.enterB_kept {s₀ s : State} (hK : Kept s₀ s) :
    Kept s₀ (State.enterB s) := by
  unfold State.enterB
  with_reducible repeat' first | assumption | apply State.markStage_kept | apply State.linkEnableEffect_kept

theorem State.checkHead_kept {s₀ s : State} {j : JobId} (hK : Kept s₀ s) :
    Kept s₀ (State.checkHead s j) := by
  unfold State.checkHead
  with_reducible repeat' first | assumption | apply State.setCurator_kept | apply State.catalogueChecked_kept | apply State.vaultAskName_kept | apply Kept.ite

theorem State.enterC_kept {s₀ s : State} (hK : Kept s₀ s) :
    Kept s₀ (State.enterC s) := by
  unfold State.enterC
  with_reducible repeat' first | assumption | apply State.setCurator_kept | apply State.markStage_kept | apply State.settleVault_kept | apply State.checkHead_kept | apply Kept.foldl

theorem State.advance_kept {s₀ s : State} {st : Stage} (hK : Kept s₀ s) :
    Kept s₀ (State.advance s st) := by
  unfold State.advance
  repeat' first | (with_reducible first | assumption | apply State.setCurator_kept | apply State.enterB_kept | apply State.enterC_kept | apply State.observeSync_kept | apply State.markStage_kept) | split

theorem State.latchUnmet_kept {s₀ s : State} (hK : Kept s₀ s) :
    Kept s₀ (State.latchUnmet s) := by
  unfold State.latchUnmet
  with_reducible repeat' first | assumption | apply State.setCurator_kept | apply State.event_kept | apply Kept.ite

theorem execStageC_kept {s₀ s : State} (hK : Kept s₀ s) :
    KeptOut s₀ (execStageC s) := by
  unfold execStageC
  with_reducible repeat' first | assumption | apply State.advance_kept | apply State.latchUnmet_kept | apply Kept.out | apply Kept.ite

theorem execStageCDeadline_kept {s₀ s : State} (hK : Kept s₀ s) :
    KeptOut s₀ (execStageCDeadline s) := by
  unfold execStageCDeadline
  with_reducible repeat' first | assumption | apply State.observeSync_kept | apply State.setCurator_kept | apply State.latchUnmet_kept | apply State.advance_kept | apply Kept.out | apply Kept.ite

theorem execStageD_kept {s₀ s : State} (hK : Kept s₀ s) :
    KeptOut s₀ (execStageD s) := by
  unfold execStageD
  with_reducible repeat' first | assumption | apply State.advance_kept | apply Kept.out | apply Kept.ite

theorem execHoldRelease_kept {s₀ s : State} (hK : Kept s₀ s) :
    KeptOut s₀ (execHoldRelease s) := by
  unfold execHoldRelease
  repeat' first | (with_reducible first | assumption | apply State.advance_kept | apply Kept.out) | split

theorem State.sendConfig_kept {s₀ s : State} (hK : Kept s₀ s) :
    Kept s₀ (State.sendConfig s) := by
  unfold State.sendConfig
  with_reducible repeat' first | assumption | apply State.barrierDown_kept

theorem State.loseRegion_kept {s₀ s : State} {r : Region} (hK : Kept s₀ s) :
    Kept s₀ (State.loseRegion s r) := by
  unfold State.loseRegion
  repeat' first | (with_reducible assumption) | (with_reducible apply Kept.storeBoth) | (with_reducible first | apply State.raiseAlarm_kept | apply State.setBattery_kept | apply State.odSetP_kept | apply State.setService_kept | apply State.drawIvEpoch_kept | apply State.countEvent_kept | rfl) | split

theorem State.loadKept_kept {s₀ s : State} {bad : List (BitVec 6 × Bool)} {i : Nat} (hK : Kept s₀ s) :
    Kept s₀ (State.loadKept s bad i) := by
  unfold State.loadKept
  repeat' first | (with_reducible first | assumption | apply State.loadSlot_kept | apply State.raiseAlarm_kept) | (extract_lets +onlyGivenNames z; clear_value z; revert z; intro _) | split

theorem execStageA_kept {s₀ : State} {obs : StageAObs} {s : State} (hK : Kept s₀ s) :
    KeptOut s₀ (execStageA obs s) := by
  unfold execStageA
  repeat' first | (with_reducible intro _) | (with_reducible apply Kept.odFromStore) | (with_reducible refine Kept.newTime (by show 0 < 160000; omega) ?_) | (with_reducible first | apply State.resetBattery_kept | apply State.free_kept | apply State.setCurator_kept | apply State.loseRegion_kept | apply State.raiseAlarm_kept | apply State.loadKept_kept | apply State.deriveTransport_kept | apply State.drawIvEpoch_kept | apply State.bootSlot_kept | apply State.sendConfig_kept | apply State.settleMaps_kept | apply State.reloadScores_kept | apply Kept.out | apply Kept.dite | apply Kept.cond | apply Kept.foldl | apply Kept.foldl_snd | apply Kept.foldl_fst | apply Kept.ite_snd | apply Kept.ite_fst | rfl) | (extract_lets +onlyGivenNames z; first | (refine (fun hz : Kept s₀ z => ?_) ?_; clear_value z; revert z; intro _ _; rotate_left; unfold z; clear z; rotate_right) | (refine (fun hz : ∀ x, Kept s₀ x → Kept s₀ (z x) => ?_) ?_; clear_value z; revert z; intro _ _; rotate_left; unfold z; clear z; try dsimp -zeta only; rotate_right) | (refine (fun hz : ∀ x a, Kept s₀ x → Kept s₀ (z x a) => ?_) ?_; clear_value z; revert z; intro _ _; rotate_left; unfold z; clear z; try dsimp -zeta only; rotate_right) | (refine (fun hz : ∀ x a b, Kept s₀ x → Kept s₀ (z x a b) => ?_) ?_; clear_value z; revert z; intro _ _; rotate_left; unfold z; clear z; try dsimp -zeta only; rotate_right) | (refine (fun hz : ∀ a x, Kept s₀ x → Kept s₀ (z a x) => ?_) ?_; clear_value z; revert z; intro _ _; rotate_left; unfold z; clear z; try dsimp -zeta only; rotate_right) | (refine (fun hz : ∀ a, Kept s₀ (z a) => ?_) ?_; clear_value z; revert z; intro _ _; rotate_left; unfold z; clear z; try dsimp -zeta only; rotate_right) | (refine (fun hz : ∀ a b, Kept s₀ (z a b) => ?_) ?_; clear_value z; revert z; intro _ _; rotate_left; unfold z; clear z; try dsimp -zeta only; rotate_right) | (refine (fun hz : ∀ a, Kept s₀ (z a).2 => ?_) ?_; clear_value z; revert z; intro _ _; rotate_left; unfold z; clear z; try dsimp -zeta only; rotate_right) | (have _hz : _ × State := z; clear _hz; revert z; intro _) | (have _hz : State × _ := z; clear _hz; revert z; intro _) | (have _hz : Option State := z; clear _hz; revert z; intro _) | (have _hz : Battery := z; clear _hz; revert z; intro _) | (have _hz : Dictionary := z; clear _hz; revert z; intro _) | (have _hz : Colls := z; clear _hz; revert z; intro _) | (have _hz : TimeUnit := z; clear _hz; revert z; intro _) | (clear_value z; revert z; intro _) | (revert z; intro _)) | split | (with_reducible first | refine Kept.of_snd (by assumption) ?_ | refine Kept.of_fst (by assumption) ?_ | refine Kept.of_some (by assumption) ?_ | apply_assumption -exfalso -symm) | dsimp -zeta only | exact rfl | (with_reducible refine Kept.mk rfl rfl rfl rfl rfl rfl rfl rfl rfl rfl ?_)

theorem State.raiseMain_kept {s₀ s : State} (hK : Kept s₀ s) :
    Kept s₀ (State.raiseMain s) := by
  unfold State.raiseMain
  with_reducible repeat' first | assumption | apply State.setBattery_kept | apply State.setCurator_kept | rfl

theorem execMainPowerGood_kept {s₀ s : State} (hK : Kept s₀ s) :
    KeptOut s₀ (execMainPowerGood s) := by
  unfold execMainPowerGood
  with_reducible repeat' first | assumption | apply State.raiseMain_kept | apply Kept.out | apply Kept.ite

theorem State.retireSparePart_kept {s₀ s : State} {cls : Nat} {i : Nat} (hK : Kept s₀ s) :
    Kept s₀ (State.retireSparePart s cls i) := by
  unfold State.retireSparePart
  with_reducible repeat' first | assumption | apply State.retirePart_kept | apply State.setPort_kept | apply Kept.ite

theorem State.retireTested_kept {s₀ s : State} {part : Nat} {row : Nat} (hK : Kept s₀ s) :
    Kept s₀ (State.retireTested s part row) := by
  unfold State.retireTested
  with_reducible repeat' first | assumption | apply State.queueRemap_kept | apply State.planRetire_kept | apply State.retireSparePart_kept | apply State.scoreTransient_kept | apply Kept.ite

theorem execStageB_kept {s₀ : State} {obs : StageBObs} {s : State} (hK : Kept s₀ s) :
    KeptOut s₀ (execStageB obs s) := by
  unfold execStageB
  with_reducible repeat' first | intro _ | assumption | apply State.rebuildRemap_kept | apply State.bumpBy_kept | apply State.retireTested_kept | apply State.loadRemap_kept | apply State.advance_kept | apply Kept.out | apply Kept.ite | apply Kept.foldl

theorem State.startHold_kept {s₀ s : State} {v : Nat} (hK : Kept s₀ s) :
    Kept s₀ (State.startHold s v).2 := by
  unfold State.startHold
  with_reducible repeat' first | assumption | apply State.setBattery_kept | rfl

theorem execStartHold_kept {s₀ : State} {agent : Agent} {value : BitVec 8} {s : State} (hK : Kept s₀ s) :
    KeptOut s₀ (execStartHold agent value s) := by
  unfold execStartHold
  with_reducible repeat' first | intro _ | assumption | apply State.odRow_kept | apply State.startHold_kept | apply Kept.out

theorem State.rederive_kept {s₀ s : State} (hK : Kept s₀ s) :
    Kept s₀ (State.rederive s) := by
  unfold State.rederive
  with_reducible repeat' first | assumption | apply State.deriveRoot_kept | apply Kept.ite

theorem State.setEngineId_kept {s₀ s : State} {v : Nat} (hK : Kept s₀ s) :
    Kept s₀ (State.setEngineId s v).2 := by
  unfold State.setEngineId
  repeat' first | (with_reducible first | intro _ | assumption | apply State.setBattery_kept | apply State.rederive_kept | apply State.enterTraining_kept | apply State.linkEnableEffect_kept | apply Kept.ite | apply Kept.foldl | rfl) | split

theorem execEngineId_kept {s₀ : State} {agent : Agent} {value : BitVec 32} {s : State} (hK : Kept s₀ s) :
    KeptOut s₀ (execEngineId agent value s) := by
  unfold execEngineId
  with_reducible repeat' first | intro _ | assumption | apply State.odRow_kept | apply State.setEngineId_kept | apply Kept.out

theorem State.setHelper_kept {s₀ s : State} {bs : Bytes} {matches_ : Bool} (hK : Kept s₀ s) :
    Kept s₀ (State.setHelper s bs matches_).2 := by
  unfold State.setHelper
  repeat' first | (with_reducible first | assumption | apply State.rederive_kept | apply State.setBattery_kept | rfl) | split

theorem execPufHelper_kept {s₀ : State} {agent : Agent} {value : Bytes} {matches_ : Bool} {s : State} (hK : Kept s₀ s) :
    KeptOut s₀ (execPufHelper agent value matches_ s) := by
  unfold execPufHelper
  with_reducible repeat' first | intro _ | assumption | apply State.odRow_kept | apply State.setHelper_kept | apply Kept.out

theorem execPCounterStore_kept {s₀ s : State} (hK : Kept s₀ s) :
    KeptOut s₀ (execPCounterStore s) := by
  unfold execPCounterStore
  repeat' first | (with_reducible assumption) | (with_reducible apply Kept.storeFilter) | (with_reducible first | apply Kept.out | apply Kept.ite)

theorem State.barrierUp_kept {s₀ s : State} {h : BitVec 64} {payload : Bytes} {crcOk : Bool} {type : Nat} {f : State → State} (hf : ∀ x0, Kept s₀ x0 → Kept s₀ (f x0)) (hK : Kept s₀ s) :
    Kept s₀ (State.barrierUp s h payload crcOk type f) := by
  unfold State.barrierUp
  with_reducible repeat' first | assumption | apply State.setCurator_kept | apply State.bump_kept | apply hf | apply Kept.ite

theorem State.setField_kept {s₀ s : State} {f : FieldSide → FieldSide} (hK : Kept s₀ s) :
    Kept s₀ (State.setField s f) := by
  unfold State.setField
  with_reducible repeat' first | assumption | apply State.setCurator_kept

theorem State.barrierFar_kept {s₀ s : State} {h : BitVec 64} {payload : Bytes} {crcOk : Bool} {type : Nat} {f : State → State} (hf : ∀ x0, Kept s₀ x0 → Kept s₀ (f x0)) (hK : Kept s₀ s) :
    Kept s₀ (State.barrierFar s h payload crcOk type f) := by
  unfold State.barrierFar
  with_reducible repeat' first | assumption | apply State.setField_kept | apply hf | apply Kept.ite

theorem State.fieldSend_kept {s₀ s : State} {type : Nat} {payload : Bytes} (hK : Kept s₀ s) :
    Kept s₀ (State.fieldSend s type payload) := by
  unfold State.fieldSend
  with_reducible repeat' first | assumption | apply State.setField_kept | apply State.send_kept

theorem execPodlPowerUp_kept {s₀ s : State} (hK : Kept s₀ s) :
    KeptOut s₀ (execPodlPowerUp s) := by
  unfold execPodlPowerUp
  with_reducible repeat' first | assumption | apply State.setField_kept | apply Kept.out | apply Kept.ite

theorem execPodlPowerLoss_kept {s₀ s : State} (hK : Kept s₀ s) :
    KeptOut s₀ (execPodlPowerLoss s) := by
  unfold execPodlPowerLoss
  with_reducible repeat' first | assumption | apply State.setField_kept | apply Kept.out

theorem execFieldFrame_kept {s₀ : State} {dst : BitVec 48} {src : BitVec 48} {etherType : BitVec 16} {payload : Bytes} {fcsOk : Bool} {s : State} (hK : Kept s₀ s) :
    KeptOut s₀ (execFieldFrame dst src etherType payload fcsOk s) := by
  unfold execFieldFrame
  with_reducible repeat' first | assumption | apply State.setField_kept | apply State.fieldSend_kept | apply Kept.out | apply Kept.ite

theorem execCFrame_kept {s₀ : State} {hdr : BitVec 64} {payload : Bytes} {crcOk : Bool} {s : State} (hK : Kept s₀ s) :
    KeptOut s₀ (execCFrame hdr payload crcOk s) := by
  unfold execCFrame
  with_reducible repeat' first | intro _ | assumption | apply State.barrierFar_kept | apply State.setField_kept | apply Kept.out

theorem execCConfig_kept {s₀ : State} {hdr : BitVec 64} {payload : Bytes} {crcOk : Bool} {s : State} (hK : Kept s₀ s) :
    KeptOut s₀ (execCConfig hdr payload crcOk s) := by
  unfold execCConfig
  with_reducible repeat' first | intro _ | assumption | apply State.barrierFar_kept | apply State.setField_kept | apply Kept.out

theorem execCHeartbeat_kept {s₀ : State} {hdr : BitVec 64} {crcOk : Bool} {s : State} (hK : Kept s₀ s) :
    KeptOut s₀ (execCHeartbeat hdr crcOk s) := by
  unfold execCHeartbeat
  with_reducible repeat' first | intro _ | assumption | apply State.barrierFar_kept | apply State.setField_kept | apply Kept.out

theorem execHeartbeatLoss_kept {s₀ s : State} (hK : Kept s₀ s) :
    KeptOut s₀ (execHeartbeatLoss s) := by
  unfold execHeartbeatLoss
  with_reducible repeat' first | assumption | apply State.setField_kept | apply Kept.out | apply Kept.ite

theorem State.drainField_kept {s₀ s : State} (hK : Kept s₀ s) :
    Kept s₀ (State.drainField s) := by
  unfold State.drainField
  with_reducible repeat' first | intro _ | assumption | apply State.setField_kept | apply State.send_kept | apply Kept.ite | apply Kept.foldl

theorem State.beatBarrier_kept {s₀ s : State} (hK : Kept s₀ s) :
    Kept s₀ (State.beatBarrier s) := by
  unfold State.beatBarrier
  with_reducible repeat' first | assumption | apply State.barrierDown_kept | apply State.free_kept | apply State.fieldSend_kept | apply Kept.ite

theorem execFFrame_kept {s₀ : State} {hdr : BitVec 64} {payload : Bytes} {crcOk : Bool} {s : State} (hK : Kept s₀ s) :
    KeptOut s₀ (execFFrame hdr payload crcOk s) := by
  unfold execFFrame
  repeat' first | (with_reducible first | intro _ | assumption | apply State.barrierUp_kept | apply State.setDict_kept | apply State.bump_kept | apply Kept.out | rfl) | split

theorem execFStatus_kept {s₀ : State} {hdr : BitVec 64} {payload : Bytes} {crcOk : Bool} {s : State} (hK : Kept s₀ s) :
    KeptOut s₀ (execFStatus hdr payload crcOk s) := by
  unfold execFStatus
  with_reducible repeat' first | intro _ | assumption | apply State.barrierUp_kept | apply State.setCurator_kept | apply State.sendConfig_kept | apply Kept.out | apply Kept.ite

theorem execFStatusTimeout_kept {s₀ s : State} (hK : Kept s₀ s) :
    KeptOut s₀ (execFStatusTimeout s) := by
  unfold execFStatusTimeout
  with_reducible repeat' first | assumption | apply State.bump_kept | apply State.setCurator_kept | apply State.event_kept | apply Kept.out | apply Kept.ite

theorem execDieThermalClass_kept {s₀ : State} {part : ThermalPart} {celsius : Int} {s : State} (hK : Kept s₀ s) :
    KeptOut s₀ (execDieThermalClass part celsius s) := by
  unfold execDieThermalClass
  with_reducible repeat' first | apply Kept.out | apply_assumption -exfalso -symm

theorem execThermalShutdown_kept {s₀ : State} {part : ThermalPart} {celsius : Int} {s : State} (hK : Kept s₀ s) :
    KeptOut s₀ (execThermalShutdown part celsius s) := by
  unfold execThermalShutdown
  repeat' first | (with_reducible first | apply State.dropMain_kept | apply State.bump_kept | apply State.event_kept | apply Kept.out) | (extract_lets +onlyGivenNames z; refine (fun hz : Kept s₀ z => ?_) ?_; clear_value z; revert z; intro _ _; rotate_left; unfold z; clear z; rotate_right) | split | (with_reducible apply_assumption -exfalso -symm)

theorem execThermalRestart_kept {s₀ : State} {part : ThermalPart} {celsius : Int} {vinMain : Bool} {s : State} (hK : Kept s₀ s) :
    KeptOut s₀ (execThermalRestart part celsius vinMain s) := by
  unfold execThermalRestart
  repeat' first | (with_reducible first | apply Kept.out | apply Kept.ite) | split | (with_reducible apply_assumption -exfalso -symm)

theorem execTapInstruction_kept {s₀ : State} {i : TapInstr} {s : State} (hK : Kept s₀ s) :
    KeptOut s₀ (execTapInstruction i s) := by
  unfold execTapInstruction
  repeat' first | (with_reducible first | apply State.bump_kept | apply State.send_kept | apply Kept.out) | split | (with_reducible apply_assumption -exfalso -symm)

theorem State.d2dMalformed_kept {s₀ s : State} (hK : Kept s₀ s) :
    Kept s₀ (State.d2dMalformed s) := by
  unfold State.d2dMalformed
  with_reducible repeat' first | assumption | apply State.countEvent_kept

theorem State.d2dIn_kept {s₀ s : State} {formed : Bool} {f : State → State} (hf : ∀ x0, Kept s₀ x0 → Kept s₀ (f x0)) (hK : Kept s₀ s) :
    Kept s₀ (State.d2dIn s formed f) := by
  unfold State.d2dIn
  with_reducible repeat' first | assumption | apply State.d2dMalformed_kept | apply hf | apply Kept.ite

theorem State.endReq_kept {s₀ s : State} {r : D2dReq} (hK : Kept s₀ s) :
    Kept s₀ (State.endReq s r) := by
  unfold State.endReq
  with_reducible repeat' first | assumption | apply State.setCarrier_kept

theorem State.writesDone_kept {s₀ s : State} {o : ReqOwner} (hK : Kept s₀ s) :
    Kept s₀ (State.writesDone s o) := by
  unfold State.writesDone
  repeat' first | (with_reducible first | assumption | apply State.setCarrier_kept | apply State.fetchDone_kept | apply State.collWritten_kept | apply State.restoreWritten_kept | apply State.pumpCopies_kept) | (extract_lets +onlyGivenNames z; refine (fun hz : Kept s₀ z => ?_) ?_; clear_value z; revert z; intro _ _; rotate_left; unfold z; clear z; rotate_right) | split

theorem State.readOn_kept {s₀ s : State} {o : ReqOwner} (hK : Kept s₀ s) :
    Kept s₀ (State.readOn s o) := by
  unfold State.readOn
  repeat' first | (with_reducible first | assumption | apply State.extentsRead_kept | apply State.pumpGroups_kept | apply State.collSourceRead_kept) | split

theorem State.readDone_kept {s₀ s : State} {o : ReqOwner} {cells : List (Nat × Byte)} (hK : Kept s₀ s) :
    Kept s₀ (State.readDone s o cells) := by
  unfold State.readDone
  repeat' first | (with_reducible first | assumption | apply State.fillBuf_kept | apply State.recordRead_kept | apply State.readOn_kept | apply State.fillTask_kept) | split

theorem State.failIo_kept {s₀ s : State} {task : Nat} {status : Nat} {detail : Nat} {detail2 : Nat} (hK : Kept s₀ s) :
    Kept s₀ (State.failIo s task status detail detail2) := by
  unfold State.failIo
  repeat' first | (with_reducible first | assumption | apply State.collFault_kept | apply State.complete_kept | apply State.dropWork_kept) | split

theorem State.sliceReadLost_kept {s₀ s : State} {r : D2dReq} {task : Nat} {hid : Nat} {leaf : Nat} {free : Bool} (hK : Kept s₀ s) :
    Kept s₀ (State.sliceReadLost s r task hid leaf free) := by
  unfold State.sliceReadLost
  repeat' first | (with_reducible first | assumption | apply State.setCarrier_kept | apply State.setUpdate_kept | apply State.faultSlice_kept) | (extract_lets +onlyGivenNames z; first | (refine (fun hz : Kept s₀ z => ?_) ?_; clear_value z; revert z; intro _ _; rotate_left; unfold z; clear z; rotate_right) | (clear_value z; revert z; intro _)) | split

theorem State.sliceWriteLost_kept {s₀ s : State} {key : Nat} {free : Bool} (hK : Kept s₀ s) :
    Kept s₀ (State.sliceWriteLost s key free) := by
  unfold State.sliceWriteLost
  repeat' first | (with_reducible first | assumption | apply State.faultSlice_kept | apply State.rollbackRunIn_kept) | split

theorem State.readAgain_kept {s₀ s : State} {o : ReqOwner} {task : Nat} {timeout : Bool} (hK : Kept s₀ s) :
    Kept s₀ (State.readAgain s o task timeout) := by
  unfold State.readAgain
  with_reducible repeat' first | assumption | apply State.setUpdate_kept | apply State.orphanReqs_kept

theorem State.writeAgain_kept {s₀ s : State} {o : ReqOwner} {timeout : Bool} (hK : Kept s₀ s) :
    Kept s₀ (State.writeAgain s o timeout) := by
  unfold State.writeAgain
  with_reducible repeat' first | assumption | apply State.setCarrier_kept | apply State.orphanReqs_kept

theorem State.copyLost_kept {s₀ s : State} {j : JobId} {master : Nat} {index : Nat} (hK : Kept s₀ s) :
    Kept s₀ (State.copyLost s j master index) := by
  unfold State.copyLost
  with_reducible repeat' first | assumption | apply State.discardCopies_kept | apply State.dropReqs_kept

theorem State.servePoison_kept {s₀ s : State} {xfer : Nat} (hK : Kept s₀ s) :
    Kept s₀ (State.servePoison s xfer) := by
  unfold State.servePoison
  with_reducible repeat' first | assumption | apply State.setUpdate_kept

theorem State.serveDenied_kept {s₀ s : State} {xfer : Nat} (hK : Kept s₀ s) :
    Kept s₀ (State.serveDenied s xfer) := by
  unfold State.serveDenied
  repeat' first | (with_reducible first | assumption | apply State.orphanReqs_kept | apply State.serveMissing_kept | apply State.freeBufs_kept | apply State.setUpdate_kept) | (extract_lets +onlyGivenNames z; refine (fun hz : Kept s₀ z => ?_) ?_; clear_value z; revert z; intro _ _; rotate_left; unfold z; clear z; rotate_right) | split

theorem State.reqXlat_kept {s₀ s : State} {r : D2dReq} (hK : Kept s₀ s) :
    Kept s₀ (State.reqXlat s r) := by
  unfold State.reqXlat
  repeat' first | (with_reducible first | apply State.xlatFault_kept | apply State.bump_kept | apply State.ringFailed_kept | apply State.sliceReadLost_kept | apply State.sliceWriteLost_kept | apply State.free_kept | apply State.refuseRegistering_kept | apply State.event_kept | apply State.readAgain_kept | apply State.writeAgain_kept | apply State.loseOwn_kept) | split | (with_reducible first | refine Kept.of_snd (by assumption) ?_ | apply_assumption -exfalso -symm)

theorem State.reqPoison_kept {s₀ s : State} {r : D2dReq} (hK : Kept s₀ s) :
    Kept s₀ (State.reqPoison s r) := by
  unfold State.reqPoison
  repeat' first | (with_reducible first | assumption | apply State.ringFailed_kept | apply State.fillBuf_kept | apply State.poisonRead_kept | apply State.bump_kept | apply State.refuseRegistering_kept | apply State.failIo_kept | apply State.servePoison_kept | apply State.loseOwn_kept) | (extract_lets +onlyGivenNames z; refine (fun hz : Kept s₀ z => ?_) ?_; clear_value z; revert z; intro _ _; rotate_left; unfold z; clear z; rotate_right) | split

theorem State.reqDenied_kept {s₀ s : State} {r : D2dReq} {status : Nat} (hK : Kept s₀ s) :
    Kept s₀ (State.reqDenied s r status) := by
  unfold State.reqDenied
  repeat' first | (with_reducible first | intro _ | apply State.ringFailed_kept | apply State.fillBuf_kept | apply State.bump_kept | apply State.refuseRegistering_kept | apply State.failIo_kept | apply State.serveDenied_kept | apply State.copyLost_kept | apply State.loseOwn_kept) | (extract_lets +onlyGivenNames z; first | (refine (fun hz : Kept s₀ z => ?_) ?_; clear_value z; revert z; intro _ _; rotate_left; unfold z; clear z; rotate_right) | (refine (fun hz : ∀ x a, Kept s₀ x → Kept s₀ (z x a) => ?_) ?_; clear_value z; revert z; intro _ _; rotate_left; unfold z; clear z; try dsimp -zeta only; rotate_right) | (clear_value z; revert z; intro _)) | split | (with_reducible apply_assumption -exfalso -symm)

theorem State.reqFault_kept {s₀ s : State} {r : D2dReq} {status : Nat} (hK : Kept s₀ s) :
    Kept s₀ (State.reqFault s r status) := by
  unfold State.reqFault
  with_reducible repeat' first | assumption | apply State.reqXlat_kept | apply State.reqPoison_kept | apply State.reqDenied_kept | apply Kept.ite

theorem execMrdCpl_kept {s₀ : State} {hdr : BitVec 128} {payload : Bytes} {s : State} (hK : Kept s₀ s) :
    KeptOut s₀ (execMrdCpl hdr payload s) := by
  unfold execMrdCpl
  repeat' first | (with_reducible first | intro _ | apply State.d2dIn_kept | apply State.readDone_kept | apply State.reqFault_kept | apply Kept.out) | split | (with_reducible apply_assumption -exfalso -symm)

theorem execMwrCpl_kept {s₀ : State} {hdr : BitVec 128} {payload : Bytes} {s : State} (hK : Kept s₀ s) :
    KeptOut s₀ (execMwrCpl hdr payload s) := by
  unfold execMwrCpl
  repeat' first | (with_reducible first | intro _ | apply State.d2dIn_kept | apply State.reqFault_kept | apply State.entryWritten_kept | apply State.writesDone_kept | apply Kept.out) | split | (with_reducible apply_assumption -exfalso -symm)

theorem execD2dCplTimeout_kept {s₀ : State} {tag : BitVec 16} {s : State} (hK : Kept s₀ s) :
    KeptOut s₀ (execD2dCplTimeout tag s) := by
  unfold execD2dCplTimeout
  repeat' first | (with_reducible first | assumption | apply State.bump_kept | apply State.endReq_kept | apply State.failIo_kept | apply State.ringFailed_kept | apply State.free_kept | apply State.sliceReadLost_kept | apply State.sliceWriteLost_kept | apply State.readAgain_kept | apply State.writeAgain_kept | apply State.copyLost_kept | apply State.loseOwn_kept | apply Kept.out | apply Kept.ite) | split

theorem State.restartWrite_kept {s₀ s : State} {w : WriteXfer} (hK : Kept s₀ s) :
    Kept s₀ (State.restartWrite s w) := by
  unfold State.restartWrite
  repeat' first | (with_reducible first | assumption | apply State.setCarrier_kept | apply State.openRange_kept | apply State.issueWrites_kept | apply Kept.ite) | split

theorem State.restartRead_kept {s₀ s : State} {b : StreamBuf} (hK : Kept s₀ s) :
    Kept s₀ (State.restartRead s b) := by
  unfold State.restartRead
  repeat' first | (with_reducible first | assumption | apply State.setUpdate_kept | apply State.readOn_kept | apply State.readExtents_kept | apply State.startRead_kept | apply Kept.ite) | split

theorem State.restartIo_kept {s₀ s : State} (hK : Kept s₀ s) :
    Kept s₀ (State.restartIo s) := by
  unfold State.restartIo
  with_reducible repeat' first | assumption | apply State.restartWrite_kept | apply State.restartRead_kept | apply Kept.ite | apply Kept.foldl

theorem State.startHeldWrites_kept {s₀ s : State} (hK : Kept s₀ s) :
    Kept s₀ (State.startHeldWrites s) := by
  unfold State.startHeldWrites
  repeat' first | (with_reducible first | intro _ | assumption | apply State.takeUnits_kept | apply State.restartWrite_kept | apply Kept.foldl) | split | (with_reducible refine Kept.of_some (by assumption) ?_)

theorem State.extentWrite_kept {s₀ s : State} {a : Agent} {value : Bytes} (hK : Kept s₀ s) :
    Kept s₀ (State.extentWrite s a value).2 := by
  unfold State.extentWrite
  repeat' first | (with_reducible first | assumption | apply State.setCarrier_kept) | (extract_lets +onlyGivenNames z; clear_value z; revert z; intro _) | split

theorem execExtentUpdate_kept {s₀ : State} {agent : Agent} {value : Bytes} {s : State} (hK : Kept s₀ s) :
    KeptOut s₀ (execExtentUpdate agent value s) := by
  unfold execExtentUpdate
  with_reducible repeat' first | intro _ | assumption | apply State.odRow_kept | apply State.extentWrite_kept | apply Kept.out

theorem State.applyExtents_kept {s₀ s : State} (hK : Kept s₀ s) :
    Kept s₀ (State.applyExtents s) := by
  unfold State.applyExtents
  with_reducible repeat' first | assumption | apply State.setCarrier_kept

theorem execXlatWaitLimit_kept {s₀ : State} {holding : BitVec 12} {extent : BitVec 32} {s : State} (hK : Kept s₀ s) :
    KeptOut s₀ (execXlatWaitLimit holding extent s) := by
  unfold execXlatWaitLimit
  repeat' first | (with_reducible first | intro _ | assumption | apply State.raise_kept | apply State.setCarrier_kept | apply State.endLane_kept | apply State.failIo_kept | apply Kept.out | apply Kept.foldl) | (extract_lets +onlyGivenNames z; first | (refine (fun hz : Kept s₀ z => ?_) ?_; clear_value z; revert z; intro _ _; rotate_left; unfold z; clear z; rotate_right) | (clear_value z; revert z; intro _)) | split

theorem execD2dNop_kept {s₀ : State} {hdr : BitVec 128} {payload : Bytes} {s : State} (hK : Kept s₀ s) :
    KeptOut s₀ (execD2dNop hdr payload s) := by
  unfold execD2dNop
  with_reducible repeat' first | intro _ | apply State.d2dIn_kept | apply Kept.out | apply Kept.ite | apply_assumption -exfalso -symm

theorem execTimeReq_kept {s₀ : State} {hdr : BitVec 128} {payload : Bytes} {s : State} (hK : Kept s₀ s) :
    KeptOut s₀ (execTimeReq hdr payload s) := by
  unfold execTimeReq
  with_reducible repeat' first | intro _ | assumption | apply State.d2dIn_kept | apply State.sendTime_kept | apply State.setTime_kept | apply Kept.out | rfl

theorem execTherm_kept {s₀ : State} {hdr : BitVec 128} {payload : Bytes} {s : State} (hK : Kept s₀ s) :
    KeptOut s₀ (execTherm hdr payload s) := by
  unfold execTherm
  with_reducible repeat' first | intro _ | assumption | apply State.d2dIn_kept | apply State.setCarrier_kept | apply Kept.out

theorem execGrant_kept {s₀ : State} {hdr : BitVec 128} {payload : Bytes} {s : State} (hK : Kept s₀ s) :
    KeptOut s₀ (execGrant hdr payload s) := by
  unfold execGrant
  with_reducible repeat' first | intro _ | assumption | apply State.d2dIn_kept | apply State.setCarrier_kept | apply Kept.out

theorem execThermStale_kept {s₀ : State} {stack : BitVec 5} {s : State} (hK : Kept s₀ s) :
    KeptOut s₀ (execThermStale stack s) := by
  unfold execThermStale
  with_reducible repeat' first | assumption | apply State.countEvent_kept | apply State.setCarrier_kept | apply Kept.out | apply Kept.ite

theorem execMainbandTrained_kept {s₀ s : State} (hK : Kept s₀ s) :
    KeptOut s₀ (execMainbandTrained s) := by
  unfold execMainbandTrained
  with_reducible repeat' first | assumption | apply State.setCarrier_kept | apply Kept.out | apply Kept.ite

theorem State.endD2d_kept {s₀ s : State} (hK : Kept s₀ s) :
    Kept s₀ (State.endD2d s) := by
  unfold State.endD2d
  repeat' first | (with_reducible first | intro _ | assumption | apply State.endLane_kept | apply State.failIo_kept | apply Kept.foldl) | split

theorem execD2dLaneFail_kept {s₀ : State} {module : BitVec 4} {retire : Bool} {s : State} (hK : Kept s₀ s) :
    KeptOut s₀ (execD2dLaneFail module retire s) := by
  unfold execD2dLaneFail
  with_reducible repeat' first | intro _ | assumption | apply State.scored_kept | apply State.setCarrier_kept | apply State.odSet_kept | apply State.odSetP_kept | apply State.retirePart_kept | apply State.bump_kept | apply State.sliceWriteLost_kept | apply State.event_kept | apply State.raise_kept | apply State.endD2d_kept | apply Kept.out | apply Kept.ite | apply Kept.foldl

theorem State.drawPower_kept {s₀ s : State} (hK : Kept s₀ s) :
    Kept s₀ (State.drawPower s).2 := by
  unfold State.drawPower
  with_reducible repeat' first | intro _ | assumption | apply State.free_kept | apply Kept.foldl_snd

theorem State.odFetch_kept {s₀ s : State} {r : OdRow} {key : Nat} (hK : Kept s₀ s) :
    Kept s₀ (State.odFetch s r key).2 := by
  unfold State.odFetch
  repeat' first | (with_reducible first | assumption | apply State.takeHist_kept | apply State.drawPower_kept | apply State.drawCount_kept) | split

theorem State.odValue_kept {s₀ s : State} {key : Nat} (hK : Kept s₀ s) :
    Kept s₀ (State.odValue s key).2 := by
  unfold State.odValue
  repeat' first | (with_reducible first | assumption | apply State.odFetch_kept) | split

theorem State.odOwner_kept {s₀ : State} {a : Agent} {authenticated : Bool} {key : Nat} {bytes : Bytes} {obs : ActionObs} {s : State} (hK : Kept s₀ s) :
    Kept s₀ (State.odOwner a authenticated key bytes obs s).2 := by
  unfold State.odOwner
  with_reducible repeat' first | assumption | apply State.wrapLoad_kept | apply State.fieldAuthLoad_kept | apply State.alarmClear_kept | apply State.setEngineId_kept | apply State.setHelper_kept | apply State.startHold_kept | apply State.svnWrite_kept | apply State.bundleActivate_kept | apply State.bundleCommit_kept | apply State.curatorActivate_kept | apply State.curatorCommit_kept | apply State.recalibrate_kept | apply State.createPair_kept | apply State.destroyWrite_kept | apply State.extentWrite_kept | apply State.ownerResetWrite_kept | apply acceptSetting_kept | apply Kept.ite_snd

theorem State.odImage_kept {s₀ : State} {key : Nat} {obs : ActionObs} {s : State} (hK : Kept s₀ s) :
    Kept s₀ (State.odImage key obs s).2 := by
  unfold State.odImage
  repeat' first | (with_reducible first | assumption | apply State.imageLoad_kept | apply State.refuseImage_kept | apply State.bundleStage_kept | apply State.bundleLoad_kept) | split

theorem State.odWriteAny_kept {s₀ s : State} {a : Agent} {authenticated : Bool} {key : Nat} {bytes : Bytes} {obs : ActionObs} (hK : Kept s₀ s) :
    Kept s₀ (State.odWriteAny s a authenticated key bytes obs).2 := by
  unfold State.odWriteAny
  with_reducible repeat' first | intro _ | assumption | apply State.imageWrite_kept | apply State.odImage_kept | apply State.genWrite_kept | apply State.genLoad_kept | apply State.genRecall_kept | apply State.odWriteWith_kept | apply State.odOwner_kept | apply Kept.ite_snd

theorem State.entryEffect_kept {s₀ s : State} {key : Nat} (hK : Kept s₀ s) :
    Kept s₀ (State.entryEffect s key) := by
  unfold State.entryEffect
  with_reducible repeat' first | assumption | apply State.linkEnableEffect_kept | apply State.setTime_kept | apply State.sendConfig_kept | apply State.laneMapResetEffect_kept | apply Kept.ite | rfl

theorem State.writeEffect_kept {s₀ s : State} {key : Nat} (hK : Kept s₀ s) :
    Kept s₀ (State.writeEffect s key) := by
  unfold State.writeEffect
  with_reducible repeat' first | assumption | apply State.entryEffect_kept | apply State.setDict_kept | apply Kept.ite | rfl

theorem State.writeEffects_kept {s₀ s : State} (hK : Kept s₀ s) :
    Kept s₀ (State.writeEffects s) := by
  unfold State.writeEffects
  with_reducible repeat' first | assumption | apply State.writeEffect_kept | apply Kept.foldl

theorem execOdWriteEffect_kept {s₀ : State} {index : BitVec 16} {sub : BitVec 8} {s : State} (hK : Kept s₀ s) :
    KeptOut s₀ (execOdWriteEffect index sub s) := by
  unfold execOdWriteEffect
  with_reducible repeat' first | assumption | apply State.writeEffect_kept | apply Kept.out

theorem State.setBank_kept {s₀ s : State} {b : Host2} {f : OdBank → OdBank} (hK : Kept s₀ s) :
    Kept s₀ (State.setBank s b f) := by
  unfold State.setBank
  repeat' first | (with_reducible first | assumption | apply State.setDict_kept | rfl) | split

theorem State.bankEnd_kept {s₀ s : State} {b : Host2} {code : Nat} (hK : Kept s₀ s) :
    Kept s₀ (State.bankEnd s b code) := by
  unfold State.bankEnd
  with_reducible repeat' first | assumption | apply State.setBank_kept | apply State.raise_kept | apply State.intr_kept | apply Kept.ite

theorem State.bankRead_kept {s₀ s : State} {b : Host2} (hK : Kept s₀ s) :
    Kept s₀ (State.bankRead s b) := by
  unfold State.bankRead
  repeat' first | (with_reducible first | assumption | apply State.bankEnd_kept | apply State.odRefuse_kept | apply State.odValue_kept | apply State.setBank_kept | apply Kept.ite) | split

theorem State.bankPart_kept {s₀ s : State} {b : Host2} {t : Transfer} {obs : ActionObs} (hK : Kept s₀ s) :
    Kept s₀ (State.bankPart s b t obs) := by
  unfold State.bankPart
  with_reducible repeat' first | assumption | apply State.bankEnd_kept | apply State.setBank_kept | apply State.odRefuse_kept | apply State.odWriteAny_kept | apply Kept.ite

theorem State.bankWrite_kept {s₀ s : State} {b : Host2} {obs : ActionObs} (hK : Kept s₀ s) :
    Kept s₀ (State.bankWrite s b obs) := by
  unfold State.bankWrite
  repeat' first | (with_reducible first | assumption | apply State.setBank_kept | apply State.odRefuse_kept | apply State.bankPart_kept | apply State.bankEnd_kept | apply Kept.ite) | split

theorem State.bankCommand_kept {s₀ s : State} {b : Host2} {busy : Bool} {f : State → State} (hf : ∀ x0, Kept s₀ x0 → Kept s₀ (f x0)) (hK : Kept s₀ s) :
    Kept s₀ (State.bankCommand s b busy f) := by
  unfold State.bankCommand
  with_reducible repeat' first | assumption | apply State.raise_kept | apply State.setBank_kept | apply hf | apply Kept.ite

theorem State.internalRead_kept {s₀ s : State} {key : Nat} (hK : Kept s₀ s) :
    Kept s₀ (State.internalRead s key) := by
  unfold State.internalRead
  with_reducible repeat' first | assumption | apply State.send_kept | apply State.odRefuse_kept | apply State.odValue_kept | apply Kept.ite

theorem State.internalWrite_kept {s₀ s : State} {key : Nat} {value : Bytes} {obs : ActionObs} (hK : Kept s₀ s) :
    Kept s₀ (State.internalWrite s key value obs) := by
  unfold State.internalWrite
  with_reducible repeat' first | assumption | apply State.odWriteAny_kept | apply State.send_kept

theorem execOdRead_kept {s₀ : State} {path : OdPath} {busy : Bool} {s : State} (hK : Kept s₀ s) :
    KeptOut s₀ (execOdRead path busy s) := by
  unfold execOdRead
  repeat' first | (with_reducible first | intro _ | assumption | apply State.bankCommand_kept | apply State.bankRead_kept | apply State.internalRead_kept | apply Kept.out) | split

theorem execOdWrite_kept {s₀ : State} {path : OdPath} {busy : Bool} {obs : ActionObs} {s : State} (hK : Kept s₀ s) :
    KeptOut s₀ (execOdWrite path busy obs s) := by
  unfold execOdWrite
  repeat' first | (with_reducible first | intro _ | assumption | apply State.bankCommand_kept | apply State.bankWrite_kept | apply State.internalWrite_kept | apply Kept.out) | split

theorem State.bankCancel_kept {s₀ s : State} {b : Host2} (hK : Kept s₀ s) :
    Kept s₀ (State.bankCancel s b) := by
  unfold State.bankCancel
  with_reducible repeat' first | assumption | apply State.bankEnd_kept | apply State.setBank_kept

theorem execOdCancel_kept {s₀ : State} {bank : Host2} {busy : Bool} {s : State} (hK : Kept s₀ s) :
    KeptOut s₀ (execOdCancel bank busy s) := by
  unfold execOdCancel
  with_reducible repeat' first | intro _ | assumption | apply State.bankCommand_kept | apply State.bankCancel_kept | apply Kept.out

theorem State.bankIdle_kept {s₀ s : State} {b : Host2} (hK : Kept s₀ s) :
    Kept s₀ (State.bankIdle s b) := by
  unfold State.bankIdle
  repeat' first | (with_reducible first | assumption | apply State.setBank_kept | apply State.odRefuse_kept) | (extract_lets +onlyGivenNames z; first | (refine (fun hz : Kept s₀ z => ?_) ?_; clear_value z; revert z; intro _ _; rotate_left; unfold z; clear z; rotate_right) | (clear_value z; revert z; intro _)) | split

theorem State.phoazTake_kept {s₀ s : State} {f : PhoazFrame} {type : Nat} {k : State → State} (hk : ∀ x0, Kept s₀ x0 → Kept s₀ (k x0)) (hK : Kept s₀ s) :
    Kept s₀ (State.phoazTake s f type k) := by
  unfold State.phoazTake
  with_reducible repeat' first | assumption | apply State.setDict_kept | apply hk | apply Kept.ite | rfl

theorem State.phoazAnswer_kept {s₀ s : State} {f : PhoazFrame} {type : Nat} {flags : Nat} {param : Nat} {body : Bytes} (hK : Kept s₀ s) :
    Kept s₀ (State.phoazAnswer s f type flags param body) := by
  unfold State.phoazAnswer
  with_reducible repeat' first | assumption | apply State.phoaz_kept

theorem State.phoazAbortTo_kept {s₀ s : State} {f : PhoazFrame} {code : Nat} (hK : Kept s₀ s) :
    Kept s₀ (State.phoazAbortTo s f code) := by
  unfold State.phoazAbortTo
  with_reducible repeat' first | assumption | apply State.phoazAnswer_kept | apply State.bump_kept

theorem State.phoazRefuse_kept {s₀ s : State} {f : PhoazFrame} {code : Nat} (hK : Kept s₀ s) :
    Kept s₀ (State.phoazRefuse s f code) := by
  unfold State.phoazRefuse
  with_reducible repeat' first | assumption | apply State.phoazAbortTo_kept | apply State.odRefuse_kept

theorem State.phoazComplete_kept {s₀ s : State} {f : PhoazFrame} {type : Nat} {flags : Nat} {param : Nat} {body : Bytes} (hK : Kept s₀ s) :
    Kept s₀ (State.phoazComplete s f type flags param body) := by
  unfold State.phoazComplete
  with_reducible repeat' first | assumption | apply State.phoaz_kept | apply State.setDict_kept | rfl

theorem State.phoazAuth_kept {s₀ s : State} {f : PhoazFrame} {need : Bool} (hK : Kept s₀ s) :
    Kept s₀ (State.phoazAuth s f need).2 := by
  unfold State.phoazAuth
  repeat' first | (with_reducible first | assumption | apply State.bump_kept | apply State.odSetP_kept) | split

theorem State.phoazRequest_kept {s₀ s : State} {f : PhoazFrame} {type : Nat} {need : Bool} {act : State → State} (hact : ∀ x0, Kept s₀ x0 → Kept s₀ (act x0)) (hK : Kept s₀ s) :
    Kept s₀ (State.phoazRequest s f type need act) := by
  unfold State.phoazRequest
  repeat' first | (with_reducible first | intro _ | assumption | apply State.phoazTake_kept | apply State.phoazAuth_kept | apply State.phoazRefuse_kept | apply State.phoaz_kept | apply hact | apply Kept.ite) | split

theorem State.phoazRead_kept {s₀ s : State} {f : PhoazFrame} (hK : Kept s₀ s) :
    Kept s₀ (State.phoazRead s f) := by
  unfold State.phoazRead
  with_reducible repeat' first | assumption | apply State.phoazRefuse_kept | apply State.odValue_kept | apply State.phoazComplete_kept | apply State.setDict_kept | apply Kept.ite | rfl

theorem execReadReq_kept {s₀ : State} {f : PhoazText} {tag : BitVec 256} {s : State} (hK : Kept s₀ s) :
    KeptOut s₀ (execReadReq f tag s) := by
  unfold execReadReq
  with_reducible repeat' first | intro _ | assumption | apply State.phoazRequest_kept | apply State.phoazRead_kept | apply Kept.out

theorem State.phoazSegRead_kept {s₀ s : State} {f : PhoazFrame} (hK : Kept s₀ s) :
    Kept s₀ (State.phoazSegRead s f) := by
  unfold State.phoazSegRead
  repeat' first | (with_reducible first | assumption | apply State.phoazRefuse_kept | apply State.phoazComplete_kept | apply Kept.ite) | split

theorem execSegReadReq_kept {s₀ : State} {f : PhoazText} {tag : BitVec 256} {s : State} (hK : Kept s₀ s) :
    KeptOut s₀ (execSegReadReq f tag s) := by
  unfold execSegReadReq
  with_reducible repeat' first | intro _ | assumption | apply State.phoazRequest_kept | apply State.phoazSegRead_kept | apply Kept.out

theorem State.phoazStore_kept {s₀ s : State} {f : PhoazFrame} {value : Bytes} {obs : ActionObs} (hK : Kept s₀ s) :
    Kept s₀ (State.phoazStore s f value obs).2 := by
  unfold State.phoazStore
  with_reducible repeat' first | assumption | apply State.odWriteAny_kept

theorem State.phoazWrite_kept {s₀ s : State} {f : PhoazFrame} {obs : ActionObs} (hK : Kept s₀ s) :
    Kept s₀ (State.phoazWrite s f obs) := by
  unfold State.phoazWrite
  with_reducible repeat' first | assumption | apply State.phoazStore_kept | apply State.phoazAbortTo_kept | apply State.phoazComplete_kept | apply Kept.ite

theorem execWriteReq_kept {s₀ : State} {f : PhoazText} {tag : BitVec 256} {obs : ActionObs} {s : State} (hK : Kept s₀ s) :
    KeptOut s₀ (execWriteReq f tag obs s) := by
  unfold execWriteReq
  with_reducible repeat' first | intro _ | assumption | apply State.phoazRequest_kept | apply State.phoazWrite_kept | apply Kept.out

theorem State.phoazAbandon_kept {s₀ s : State} {t : Transfer} {code : Nat} (hK : Kept s₀ s) :
    Kept s₀ (State.phoazAbandon s t code) := by
  unfold State.phoazAbandon
  with_reducible repeat' first | assumption | apply State.bump_kept | apply State.odRefuse_kept | apply State.setDict_kept | apply State.phoaz_kept | rfl

theorem State.phoazInit_kept {s₀ s : State} {f : PhoazFrame} (hK : Kept s₀ s) :
    Kept s₀ (State.phoazInit s f) := by
  unfold State.phoazInit
  repeat' first | (with_reducible first | assumption | apply State.phoazRefuse_kept | apply State.phoazAbandon_kept | apply State.phoazComplete_kept | apply State.setDict_kept | apply Kept.ite | rfl) | split

theorem execSegWriteInit_kept {s₀ : State} {f : PhoazText} {tag : BitVec 256} {s : State} (hK : Kept s₀ s) :
    KeptOut s₀ (execSegWriteInit f tag s) := by
  unfold execSegWriteInit
  with_reducible repeat' first | intro _ | assumption | apply State.phoazRequest_kept | apply State.phoazInit_kept | apply Kept.out

theorem State.phoazNext_kept {s₀ s : State} {f : PhoazFrame} {t : Transfer} {n : Nat} {obs : ActionObs} (hK : Kept s₀ s) :
    Kept s₀ (State.phoazNext s f t n obs) := by
  unfold State.phoazNext
  with_reducible repeat' first | assumption | apply State.setDict_kept | apply State.phoazStore_kept | apply State.phoazAbortTo_kept | apply State.phoazComplete_kept | apply State.phoaz_kept | apply Kept.ite | rfl

theorem State.phoazSegment_kept {s₀ s : State} {f : PhoazFrame} {t : Transfer} {obs : ActionObs} (hK : Kept s₀ s) :
    Kept s₀ (State.phoazSegment s f t obs) := by
  unfold State.phoazSegment
  with_reducible repeat' first | assumption | apply State.phoazNext_kept | apply State.phoaz_kept | apply State.phoazRefuse_kept | apply State.setDict_kept | apply Kept.ite | rfl

theorem execSegWrite_kept {s₀ : State} {f : PhoazText} {tag : BitVec 256} {obs : ActionObs} {s : State} (hK : Kept s₀ s) :
    KeptOut s₀ (execSegWrite f tag obs s) := by
  unfold execSegWrite
  repeat' first | (with_reducible first | intro _ | assumption | apply State.phoazTake_kept | apply State.phoazAuth_kept | apply State.phoazRefuse_kept | apply State.phoazSegment_kept | apply State.phoaz_kept | apply Kept.out | apply Kept.ite) | split

theorem execSegIdleTimeout_kept {s₀ : State} {bank : Option Host2} {s : State} (hK : Kept s₀ s) :
    KeptOut s₀ (execSegIdleTimeout bank s) := by
  unfold execSegIdleTimeout
  repeat' first | (with_reducible first | assumption | apply State.bankIdle_kept | apply State.phoazAbandon_kept | apply Kept.out) | split

theorem execPhoazAbort_kept {s₀ : State} {f : PhoazFrame} {s : State} (hK : Kept s₀ s) :
    KeptOut s₀ (execPhoazAbort f s) := by
  unfold execPhoazAbort
  with_reducible repeat' first | intro _ | assumption | apply State.phoazTake_kept | apply Kept.out

theorem State.nextEvent_kept {s₀ s : State} (h : Kept s₀ s) : Kept s₀ s.nextEvent :=
  State.startEvent_kept (Kept.events (e := s) rfl rfl rfl rfl rfl id (fun k => by
    simp only [List.length_drop]; omega) rfl rfl rfl h)

theorem execEventAck_kept {s₀ : State} {f : PhoazFrame} {s : State} (hK : Kept s₀ s) :
    KeptOut s₀ (execEventAck f s) := by
  unfold execEventAck
  repeat' first | (with_reducible first | intro _ | assumption | apply State.phoazTake_kept | apply State.nextEvent_kept | apply Kept.out) | split

theorem execEventRetry_kept {s₀ s : State} (hK : Kept s₀ s) :
    KeptOut s₀ (execEventRetry s) := by
  unfold execEventRetry
  repeat' first | (with_reducible first | assumption | apply State.nextEvent_kept | apply State.setDict_kept | apply State.sendEvent_kept | apply State.bump_kept | apply Kept.out | rfl) | split

theorem execTimeSync_kept {s₀ : State} {f : PhoazFrame} {s : State} (hK : Kept s₀ s) :
    KeptOut s₀ (execTimeSync f s) := by
  unfold execTimeSync
  with_reducible repeat' first | intro _ | assumption | apply State.phoazTake_kept | apply State.setDict_kept | apply Kept.out | rfl

theorem State.publish_kept {s₀ s : State} {ns : Nat} (hK : Kept s₀ s) :
    Kept s₀ (State.publish s ns) := by
  unfold State.publish
  repeat' first | (with_reducible first | assumption | apply State.correct_kept | apply State.bump_kept | apply State.setTime_kept | rfl) | split

theorem State.rejectTime_kept {s₀ s : State} (hK : Kept s₀ s) :
    Kept s₀ (State.rejectTime s) := by
  unfold State.rejectTime
  with_reducible repeat' first | assumption | apply State.bump_kept

theorem State.timeFollow_kept {s₀ s : State} {f : PhoazFrame} (hK : Kept s₀ s) :
    Kept s₀ (State.timeFollow s f) := by
  unfold State.timeFollow
  repeat' first | (with_reducible first | assumption | apply State.phoazRefuse_kept | apply State.rejectTime_kept | apply State.publish_kept | apply State.setDict_kept | apply Kept.ite | rfl) | split

theorem execTimeFollow_kept {s₀ : State} {f : PhoazText} {tag : BitVec 256} {s : State} (hK : Kept s₀ s) :
    KeptOut s₀ (execTimeFollow f tag s) := by
  unfold execTimeFollow
  repeat' first | (with_reducible first | intro _ | assumption | apply State.phoazTake_kept | apply State.phoazAuth_kept | apply State.rejectTime_kept | apply State.phoazRefuse_kept | apply State.timeFollow_kept | apply Kept.out | apply Kept.ite) | split

theorem execDiscover_kept {s₀ : State} {f : PhoazFrame} {s : State} (hK : Kept s₀ s) :
    KeptOut s₀ (execDiscover f s) := by
  unfold execDiscover
  with_reducible repeat' first | intro _ | assumption | apply State.phoazTake_kept | apply State.setDict_kept | apply Kept.out | rfl

theorem execDiscoverRsp_kept {s₀ s : State} (hK : Kept s₀ s) :
    KeptOut s₀ (execDiscoverRsp s) := by
  unfold execDiscoverRsp
  with_reducible repeat' first | intro _ | assumption | apply State.setDict_kept | apply State.phoaz_kept | apply Kept.out | apply Kept.ite | apply Kept.foldl | rfl

theorem State.globalRead_kept {s₀ s : State} {off : Nat} (hK : Kept s₀ s) :
    Kept s₀ (State.globalRead s off).2 := by
  unfold State.globalRead
  with_reducible repeat' first | assumption | apply State.setTime_kept | apply Kept.ite_snd | rfl

theorem State.globalWrite_kept {s₀ s : State} {off : Nat} {v : Nat} (hK : Kept s₀ s) :
    Kept s₀ (State.globalWrite s off v) := by
  unfold State.globalWrite
  with_reducible repeat' first | assumption | apply State.setCarrier_kept | apply State.setTime_kept | apply Kept.ite | rfl

theorem State.pairWrite_kept {s₀ s : State} {q : Nat} {off : Nat} {v : Nat} (hK : Kept s₀ s) :
    Kept s₀ (State.pairWrite s q off v) := by
  unfold State.pairWrite
  repeat' first | (with_reducible first | assumption | apply State.writeTail_kept | apply State.writeHead_kept | apply State.setQp_kept) | split

theorem State.mboxWrite_kept {s₀ s : State} {path : CwPath} {ch : Channel} {off : Nat} {v : Nat} (hK : Kept s₀ s) :
    Kept s₀ (State.mboxWrite s path ch off v) := by
  unfold State.mboxWrite
  with_reducible repeat' first | assumption | apply State.writeH2e_kept | apply State.ringH2e_kept | apply State.wakeUp_kept | apply State.setMbox_kept | apply Kept.ite

theorem State.pageSeqErr_kept {s₀ s : State} {a : Agent} {off : Nat} (hK : Kept s₀ s) :
    Kept s₀ (State.pageSeqErr s a off) := by
  unfold State.pageSeqErr
  with_reducible repeat' first | assumption | apply State.cSeqErr_kept | apply State.dSeqErr_kept | apply Kept.ite

theorem Out.nextOr_kept {s₀ s : State} {o : Out} (ho : KeptOut s₀ o) (_h : Kept s₀ s) : Kept s₀ (Out.nextOr o s) := by
  obtain ⟨t, rfl, k⟩ := ho
  exact k

theorem State.cwPageRead_kept {s₀ s : State} {a : Agent} {off : Nat} {size : Nat} (hK : Kept s₀ s) :
    Kept s₀ (State.cwPageRead s a off size).2 := by
  unfold State.cwPageRead
  repeat' first | (with_reducible first | assumption | apply State.pageSeqErr_kept | apply State.cSeqErr_kept | apply State.setC_kept) | (extract_lets +onlyGivenNames z; clear_value z; revert z; intro _) | split

theorem State.cwPageWrite_kept {s₀ s : State} {a : Agent} {off : Nat} {size : Nat} {v : Nat} (hK : Kept s₀ s) :
    Kept s₀ (State.cwPageWrite s a off size v) := by
  unfold State.cwPageWrite
  with_reducible repeat' first | assumption | apply State.pageSeqErr_kept | apply Out.nextOr_kept | apply execCStart_kept | apply execCData_kept | apply execCLast_kept | apply execDStart_kept | apply execDData_kept | apply execDLast_kept | apply execDExport_kept | apply execDCompare_kept | apply execDImport_kept | apply State.pageWrite_kept | apply Kept.ite

theorem State.cwSync_kept {s₀ s : State} {path : CwPath} {word : Nat} {op : SyncOp} (hK : Kept s₀ s) :
    Kept s₀ (State.cwSync s path word op).2 := by
  unfold State.cwSync
  with_reducible repeat' first | assumption | apply State.syncEffect_kept | apply State.wake_kept

theorem State.cwSyncWrite_kept {s₀ s : State} {path : CwPath} {off : Nat} {size : Nat} {v : Nat} (hK : Kept s₀ s) :
    Kept s₀ (State.cwSyncWrite s path off size v) := by
  unfold State.cwSyncWrite
  with_reducible repeat' first | assumption | apply State.cwSync_kept | apply State.bump_kept | apply Kept.ite

theorem State.cwSyncRead_kept {s₀ s : State} {path : CwPath} {off : Nat} {size : Nat} (hK : Kept s₀ s) :
    Kept s₀ (State.cwSyncRead s path off size).2 := by
  unfold State.cwSyncRead
  repeat' first | (with_reducible first | assumption | apply State.cwSync_kept) | split

theorem readWide_kept {s₀ : State} {size : Nat} {off : Nat} {read : State → Nat → Nat × State} {s : State} (hread : ∀ x0 x1, Kept s₀ x0 → Kept s₀ (read x0 x1).2) (hK : Kept s₀ s) :
    Kept s₀ (readWide size off read s).2 := by
  unfold readWide
  repeat' first | (with_reducible first | assumption | apply hread) | split | (with_reducible refine Kept.of_snd (by assumption) ?_)

theorem writeWide_kept {s₀ : State} {size : Nat} {off : Nat} {v : Nat} {write : State → Nat → Nat → State} {s : State} (hwrite : ∀ x0 x1 x2, Kept s₀ x0 → Kept s₀ (write x0 x1 x2)) (hK : Kept s₀ s) :
    Kept s₀ (writeWide size off v write s) := by
  unfold writeWide
  with_reducible repeat' first | assumption | apply hwrite | apply Kept.ite

theorem State.windowRead_kept {s₀ s : State} {path : CwPath} {off : Nat} {size : Nat} (hK : Kept s₀ s) :
    Kept s₀ (State.windowRead s path off size).2 := by
  unfold State.windowRead
  repeat' first | (with_reducible first | intro _ | assumption | apply readWide_kept | apply State.globalRead_kept | apply State.cwPageRead_kept | apply State.cwSyncRead_kept) | split

theorem State.windowWrite_kept {s₀ s : State} {path : CwPath} {off : Nat} {size : Nat} {v : Nat} (hK : Kept s₀ s) :
    Kept s₀ (State.windowWrite s path off size v) := by
  unfold State.windowWrite
  repeat' first | (with_reducible first | intro _ | assumption | apply writeWide_kept | apply State.globalWrite_kept | apply State.setBank_kept | apply State.pairWrite_kept | apply State.mboxWrite_kept | apply State.cwPageWrite_kept | apply State.cwSyncWrite_kept) | split

theorem execCwRd_kept {s₀ : State} {path : CwPath} {offset : BitVec 24} {size : BitVec 8} {tag : BitVec 16} {s : State} (hK : Kept s₀ s) :
    KeptOut s₀ (execCwRd path offset size tag s) := by
  unfold execCwRd
  with_reducible repeat' first | assumption | apply State.denyCw_kept | apply State.send_kept | apply State.windowRead_kept | apply Kept.out | apply Kept.ite

theorem execRegisterWrite_kept {s₀ : State} {path : CwPath} {offset : BitVec 24} {size : BitVec 8} {tag : BitVec 16} {data : BitVec 64} {s : State} (hK : Kept s₀ s) :
    KeptOut s₀ (execRegisterWrite path offset size tag data s) := by
  unfold execRegisterWrite
  with_reducible repeat' first | assumption | apply State.denyCw_kept | apply State.send_kept | apply State.windowWrite_kept | apply Kept.out | apply Kept.ite

theorem State.endTest_kept {s₀ s : State} {r : SelfTest} (hK : Kept s₀ s) :
    Kept s₀ (State.endTest s r) := by
  unfold State.endTest
  repeat' first | (with_reducible first | assumption | apply State.setSched_kept | apply State.odSetP_kept | apply State.complete_kept | apply State.bump_kept) | (extract_lets +onlyGivenNames z; first | (refine (fun hz : Kept s₀ z => ?_) ?_; clear_value z; revert z; intro _ _; rotate_left; unfold z; clear z; rotate_right) | (clear_value z; revert z; intro _)) | split

theorem State.failStep_kept {s₀ s : State} {r : SelfTest} {item : Nat} {fail : Option (BitVec 16 × BitVec 15)} (hK : Kept s₀ s) :
    Kept s₀ (State.failStep s r item fail).1 := by
  unfold State.failStep
  repeat' first | (with_reducible first | assumption | apply State.retireTested_kept | apply State.bump_kept) | split

theorem State.closeTest_kept {s₀ s : State} {fail : Option (BitVec 16 × BitVec 15)} (hK : Kept s₀ s) :
    Kept s₀ (State.closeTest s fail) := by
  unfold State.closeTest
  repeat' first | (with_reducible first | assumption | apply State.failStep_kept | apply State.endTest_kept | apply State.setSched_kept | apply Kept.ite) | split

theorem State.openTest_kept {s₀ s : State} (hK : Kept s₀ s) :
    Kept s₀ (State.openTest s) := by
  unfold State.openTest
  repeat' first | (with_reducible first | assumption | apply State.setSched_kept) | split

theorem State.returnCredit_kept {s₀ s : State} {p : Port} {vc : Nat} (hK : Kept s₀ s) :
    Kept s₀ (State.returnCredit s p vc) := by
  unfold State.returnCredit
  with_reducible repeat' first | assumption | apply State.send_kept | apply State.setPort_kept | apply Kept.ite

theorem State.closePort_kept {s₀ s : State} {p : Port} (hK : Kept s₀ s) :
    Kept s₀ (State.closePort s p) := by
  unfold State.closePort
  with_reducible repeat' first | intro _ | assumption | apply State.transmitPort_kept | apply State.setPort_kept | apply State.total_kept | apply State.returnCredit_kept | apply Kept.ite | apply Kept.foldl

theorem State.transmit_kept {s₀ s : State} (hK : Kept s₀ s) :
    Kept s₀ (State.transmit s) := by
  unfold State.transmit
  with_reducible repeat' first | assumption | apply State.closePort_kept | apply Kept.foldl

theorem State.countIdle_kept {s₀ s : State} (hK : Kept s₀ s) :
    Kept s₀ (State.countIdle s) := by
  unfold State.countIdle
  with_reducible repeat' first | assumption | apply State.setSched_kept

theorem State.countPins_kept {s₀ s : State} (hK : Kept s₀ s) :
    Kept s₀ (State.countPins s) := by
  unfold State.countPins
  with_reducible repeat' first | assumption | apply State.setService_kept

theorem State.checkPins_kept {s₀ s : State} {bad : List (BitVec 16)} (hK : Kept s₀ s) :
    Kept s₀ (State.checkPins s bad) := by
  unfold State.checkPins
  with_reducible repeat' first | intro _ | assumption | apply State.startAllPins_kept | apply State.pinCore_kept | apply State.odSet_kept | apply Kept.ite | apply Kept.foldl

theorem State.slewFrame_kept {s₀ s : State} (hK : Kept s₀ s) :
    Kept s₀ (State.slewFrame s) := by
  unfold State.slewFrame
  with_reducible repeat' first | assumption | apply State.setTime_kept | rfl

theorem State.openFrame_kept {s₀ s : State} (h : Kept s₀ s) : Kept s₀ s.openFrame :=
  State.newCycle_kept (Kept.timeTo (fun _ => by show 0 < 160000; omega) h)

theorem State.tick_kept {s₀ s : State} (hK : Kept s₀ s) :
    Kept s₀ (State.tick s) := by
  unfold State.tick
  with_reducible repeat' first | assumption | apply State.send_kept | apply State.setTime_kept | apply Kept.ite | rfl

theorem State.jobsBoundary_kept {s₀ s : State} {closing : Bool} (hK : Kept s₀ s) :
    Kept s₀ (State.jobsBoundary s closing) := by
  unfold State.jobsBoundary
  with_reducible repeat' first | intro _ | assumption | apply State.moveRecords_kept | apply State.pumpRecords_kept | apply State.finishCopyReads_kept | apply State.tapCopies_kept | apply State.sendAsks_kept | apply State.pumpCopies_kept | apply State.ackFrame_kept | apply State.startCopyReads_kept | apply Kept.ite | apply Kept.foldl

theorem State.pumpAll_kept {s₀ s : State} (hK : Kept s₀ s) :
    Kept s₀ (State.pumpAll s) := by
  unfold State.pumpAll
  with_reducible repeat' first | intro _ | assumption | apply State.pumpVault_kept | apply State.drain_kept | apply State.settleVault_kept | apply State.pumpGroups_kept | apply State.pumpColls_kept | apply State.pumpFetches_kept | apply Kept.foldl

theorem State.closeRx_kept {s₀ s : State} (hK : Kept s₀ s) :
    Kept s₀ (State.closeRx s) := by
  unfold State.closeRx
  with_reducible repeat' first | assumption | apply State.setColls_kept | apply State.total_kept | apply Kept.ite | rfl

theorem State.closeFrame_kept {s₀ s : State} {obs : FrameObs} (hK : Kept s₀ s) :
    Kept s₀ (State.closeFrame s obs) := by
  unfold State.closeFrame
  with_reducible repeat' first | assumption | apply State.total_kept | apply State.alarmTasks_kept | apply State.closeTest_kept | apply State.closeSlices_kept | apply State.pumpAll_kept | apply State.captureBoundary_kept | apply State.jobsBoundary_kept | apply State.madderBoundary_kept | apply State.galleryBoundary_kept | apply State.closeRx_kept | apply State.transmit_kept | apply State.snapshotCores_kept | apply State.takeBells_kept | apply State.pairsBoundary_kept | apply State.countIdle_kept | apply State.countPins_kept

theorem State.newGrant_kept {s₀ s : State} (hK : Kept s₀ s) :
    Kept s₀ (State.newGrant s) := by
  unfold State.newGrant
  repeat' first | (with_reducible first | assumption | apply State.setCarrier_kept) | split

theorem State.rotate_kept {s₀ s : State} {was : State} (hK : Kept s₀ s) (hK1 : Kept s₀ was) :
    Kept s₀ (State.rotate s was) := by
  unfold State.rotate
  with_reducible repeat' first | assumption | apply State.setUpdate_kept | apply State.setWoad_kept

theorem State.beginFrame_kept {s₀ s : State} {was : State} {obs : FrameObs} (hK : Kept s₀ s) (hK1 : Kept s₀ was) :
    Kept s₀ (State.beginFrame s was obs) := by
  unfold State.beginFrame
  with_reducible repeat' first | assumption | apply State.swapGens_kept | apply State.rotate_kept | apply State.newGrant_kept | apply State.setService_kept | apply State.setCarrier_kept | apply State.tick_kept | apply State.startHeldWrites_kept | apply State.planFrame_kept | apply State.restartIo_kept | apply State.applyExtents_kept | apply State.pumpAll_kept | apply State.jobsBoundary_kept | apply State.checkPins_kept | apply State.openTest_kept | apply State.observeSync_kept | apply State.odSet_kept

theorem execFrameBoundary_kept {s₀ : State} {obs : FrameObs} {s : State} (hK : Kept s₀ s) :
    KeptOut s₀ (execFrameBoundary obs s) := by
  unfold execFrameBoundary
  with_reducible repeat' first | assumption | apply State.closeFrame_kept | apply State.writeEffects_kept | apply State.resumeCurator_kept | apply State.openFrame_kept | apply State.writeScores_kept | apply State.slewFrame_kept | apply State.beginFrame_kept | apply State.drainField_kept | apply State.beatBarrier_kept | apply Kept.out | apply Kept.ite

end Sys2Proof.Machine
end

