-- ==== Sys2Proof/Laws/KeptStep.lean ====
section
/-!
SUPPORT. What every command and every step keeps: no stop, the queue of commands, what was sent, and the form of the state.
-/
namespace Sys2Proof.Machine

/-- Every command goes on, and keeps what every operation keeps. -/
theorem exec_kept {s₀ s : State} (c : Instr) (h : Kept s₀ s) : KeptOut s₀ (exec c s) := by
  cases c
  case frameBoundary => exact execFrameBoundary_kept h
  case faultBudgetOverrun => exact execFaultBudgetOverrun_kept h
  case holdoverAlignExpiry => exact execHoldoverAlignExpiry_kept h
  case trimRefine => exact execTrimRefine_kept h
  case pps => exact execPps_kept h
  case frameExtLoRead => exact execFrameExtLoRead_kept h
  case timeNsLoRead => exact execTimeNsLoRead_kept h
  case sync => exact execSync_kept h
  case followUp => exact execFollowUp_kept h
  case announce => exact execAnnounce_kept h
  case pdelayReq => exact execPdelayReq_kept h
  case pdelayResp => exact execPdelayResp_kept h
  case pdelayRespFollowUp => exact execPdelayRespFollowUp_kept h
  case signaling => simp only [exec]; exact execSignaling_kept h
  case syncInterval => exact execSyncInterval_kept h
  case announceInterval => exact execAnnounceInterval_kept h
  case pdelayInterval => exact execPdelayInterval_kept h
  case announceTimeout => exact execAnnounceTimeout_kept h
  case mrdCpl => exact execMrdCpl_kept h
  case mwrCpl => exact execMwrCpl_kept h
  case d2dNop => exact execD2dNop_kept h
  case timeReq => exact execTimeReq_kept h
  case therm => exact execTherm_kept h
  case grant => exact execGrant_kept h
  case d2dCplTimeout => exact execD2dCplTimeout_kept h
  case xlatWaitLimit => exact execXlatWaitLimit_kept h
  case thermStale => exact execThermStale_kept h
  case d2dLaneFail => exact execD2dLaneFail_kept h
  case mainbandTrained => exact execMainbandTrained_kept h
  case extentUpdate => exact execExtentUpdate_kept h
  case registerWrite => exact execRegisterWrite_kept h
  case sqTail => exact execSqTail_kept h
  case cqHead => exact execCqHead_kept h
  case qpCreate => exact execQpCreate_kept h
  case qpDestroy => exact execQpDestroy_kept h
  case qpRemove => exact execQpRemove_kept h
  case taskAdmit => exact execTaskAdmit_kept h
  case nop => exact execNop_kept h
  case jobOpen => exact execJobOpen_kept h
  case jobClose => exact execJobClose_kept h
  case registerHolding => exact execRegisterHolding_kept h
  case releaseHolding => exact execReleaseHolding_kept h
  case cancel => exact execCancel_kept h
  case selftest => exact execSelftest_kept h
  case stepMark => exact execStepMark_kept h
  case update => exact execUpdate_kept h
  case woadCompress => exact execWoadCompress_kept h
  case ledgerSend => exact execLedgerSend_kept h
  case verdict => exact execVerdict_kept h
  case captureBand => exact execCaptureBand_kept h
  case mirrorApply => exact execMirrorApply_kept h
  case restoreVault => exact execRestoreVault_kept h
  case restoreMirror => exact execRestoreMirror_kept h
  case spareShadow => exact execSpareShadow_kept h
  case sparePromote => exact execSparePromote_kept h
  case shadowSource => exact execShadowSource_kept h
  case accOpen => exact execAccOpen_kept h
  case accSeal => exact execAccSeal_kept h
  case deaccession => exact execDeaccession_kept h
  case catalogueFetch => exact execCatalogueFetch_kept h
  case weldPair => exact execWeldPair_kept h
  case weldBind => exact execWeldBind_kept h
  case weldUnpair => exact execWeldUnpair_kept h
  case weldResync => exact execWeldResync_kept h
  case weldRollback => exact execWeldRollback_kept h
  case groupJoin => exact execGroupJoin_kept h
  case groupReform => exact execGroupReform_kept h
  case groupLeave => exact execGroupLeave_kept h
  case reduce => exact execReduce_kept h
  case broadcast => exact execBroadcast_kept h
  case allreduce => exact execAllreduce_kept h
  case keyDerive => exact execKeyDerive_kept h
  case keyUnwrap => exact execKeyUnwrap_kept h
  case keyErase => exact execKeyErase_kept h
  case keyRollover => exact execKeyRollover_kept h
  case keyRolloverSwitch => exact execKeyRolloverSwitch_kept h
  case idleFrameLimit => exact execIdleFrameLimit_kept h
  case wakeEvent => exact execWakeEvent_kept h
  case powerExitDone => exact execPowerExitDone_kept h
  case powerStateLimit => exact execPowerStateLimit_kept h
  case fetchGroupStart => exact execFetchGroupStart_kept h
  case laneGroupIssue => exact execLaneGroupIssue_kept h
  case runIn => exact execRunIn_kept h
  case shadowMismatch => exact execShadowMismatch_kept h
  case laneRepair => exact execLaneRepair_kept h
  case kernelImageSwitch => exact execKernelImageSwitch_kept h
  case factorCacheUe => exact execFactorCacheUe_kept h
  case arrayCheckFail => exact execArrayCheckFail_kept h
  case arrayRepair => exact execArrayRepair_kept h
  case encodeBlock => exact execEncodeBlock_kept h
  case decodeLeaf => exact execDecodeLeaf_kept h
  case coderLaneTest => exact execCoderLaneTest_kept h
  case madderGenLoad => exact execMadderGenLoad_kept h
  case madderGenRecall => exact execMadderGenRecall_kept h
  case genSwap => exact execGenSwap_kept h
  case hist => exact execHist_kept h
  case galleryUe => exact execGalleryUe_kept h
  case rowRemap => exact execRowRemap_kept h
  case scrubRow => exact execScrubRow_kept h
  case pairOffer => exact execPairOffer_kept h
  case pairAccept => exact execPairAccept_kept h
  case pairConfirm => exact execPairConfirm_kept h
  case pairRefuse => exact execPairRefuse_kept h
  case pairClose => exact execPairClose_kept h
  case pairOfferRepeat => exact execPairOfferRepeat_kept h
  case pairTimeout => exact execPairTimeout_kept h
  case autoPair => exact execAutoPair_kept h
  case recordOpen => exact execRecordOpen_kept h
  case recordData => exact execRecordData_kept h
  case recordTrailer => exact execRecordTrailer_kept h
  case ledgerAck => exact execLedgerAck_kept h
  case ledgerNak => exact execLedgerNak_kept h
  case mirrorConfirm => exact execMirrorConfirm_kept h
  case copyRequest => exact execCopyRequest_kept h
  case copyLeaf => exact execCopyLeaf_kept h
  case rollbackRequest => exact execRollbackRequest_kept h
  case weldAck => exact execWeldAck_kept h
  case weldHeartbeat => exact execWeldHeartbeat_kept h
  case partnerLost => exact execPartnerLost_kept h
  case mirrorDigestCompare => exact execMirrorDigestCompare_kept h
  case copyModeApply => exact execCopyModeApply_kept h
  case putAck => exact execPutAck_kept h
  case putNak => exact execPutNak_kept h
  case getData => exact execGetData_kept h
  case getNak => exact execGetNak_kept h
  case deleteAck => exact execDeleteAck_kept h
  case commitAck => exact execCommitAck_kept h
  case vaultReplyTimeout => exact execVaultReplyTimeout_kept h
  case restoreReq => exact execRestoreReq_kept h
  case restoreServe => exact execRestoreServe_kept h
  case restoreLeaf => exact execRestoreLeaf_kept h
  case restoreMissing => exact execRestoreMissing_kept h
  case restoreDone => simp only [exec]; exact execRestoreDone_kept h
  case restoreReplyTimeout => exact execRestoreReplyTimeout_kept h
  case rollForward => exact execRollForward_kept h
  case fingerprintContribute => exact execFingerprintContribute_kept h
  case collData => exact execCollData_kept h
  case collAbort => exact execCollAbort_kept h
  case collGrace => exact execCollGrace_kept h
  case collResult => exact execCollResult_kept h
  case fused => exact execFused_kept h
  case swResult => exact execSwResult_kept h
  case swRefuse => exact execSwRefuse_kept h
  case switchWait => exact execSwitchWait_kept h
  case collDeadline => exact execCollDeadline_kept h
  case collCommit => exact execCollCommit_kept h
  case heldVerdictApply => exact execHeldVerdictApply_kept h
  case linkEnable => exact execLinkEnable_kept h
  case signalDetect => exact execSignalDetect_kept h
  case trainingComplete => exact execTrainingComplete_kept h
  case trainingTimeout => exact execTrainingTimeout_kept h
  case linkFault => simp only [exec]; exact execLinkFault_kept h
  case fastRetrainDone => exact execFastRetrainDone_kept h
  case fastRetrainTimeout => exact execFastRetrainTimeout_kept h
  case init => exact execInit_kept h
  case resume => simp only [exec]; exact execResume_kept h
  case retryReq => exact execRetryReq_kept h
  case retryReqRepeat => exact execRetryReqRepeat_kept h
  case swapReq => exact execSwapReq_kept h
  case swapAck => exact execSwapAck_kept h
  case swapReqRepeat => exact execSwapReqRepeat_kept h
  case laneSwapPoint => exact execLaneSwapPoint_kept h
  case laneCeWindow => exact execLaneCeWindow_kept h
  case plannedRetrain => exact execPlannedRetrain_kept h
  case plannedRetrainStart => exact execPlannedRetrainStart_kept h
  case laserFail => exact execLaserFail_kept h
  case laserBiasLimit => exact execLaserBiasLimit_kept h
  case dataFlit => exact execDataFlit_kept h
  case idleFlit => exact execIdleFlit_kept h
  case destUnreach => exact execDestUnreach_kept h
  case unreachHoldExpiry => exact execUnreachHoldExpiry_kept h
  case bindingIdle => exact execBindingIdle_kept h
  case recalibratePort => exact execRecalibratePort_kept h
  case laneMapReset => exact execLaneMapReset_kept h
  case cipherMismatch => exact execCipherMismatch_kept h
  case cipherRepair => exact execCipherRepair_kept h
  case entropyTestFail => exact execEntropyTestFail_kept h
  case entropyRetest => exact execEntropyRetest_kept h
  case usageLoadSwitch => exact execUsageLoadSwitch_kept h
  case glitchTrip => simp only [exec]; exact execGlitchTrip_kept h
  case alarmClear => exact execAlarmClear_kept h
  case fieldAuthLoad => exact execFieldAuthLoad_kept h
  case wrapLoad => exact execWrapLoad_kept h
  case cStart => exact execCStart_kept h
  case cData => exact execCData_kept h
  case cLast => exact execCLast_kept h
  case cOut => exact execCOut_kept h
  case cipherMessageDone => exact execCipherMessageDone_kept h
  case dStart => exact execDStart_kept h
  case dData => exact execDData_kept h
  case dLast => exact execDLast_kept h
  case digestDone => exact execDigestDone_kept h
  case dCompare agent size low high => exact execDCompare_kept (high := high) h
  case dExport => exact execDExport_kept h
  case dImport agent size low high intact => exact execDImport_kept (high := high) h
  case pageSuspend => exact execPageSuspend_kept h
  case snapshotDeadline => exact execSnapshotDeadline_kept h
  case docentCoreFault => exact execDocentCoreFault_kept h
  case docentRepair => exact execDocentRepair_kept h
  case syncRead => exact execSyncRead_kept h
  case syncWrite => exact execSyncWrite_kept h
  case readFf => exact execReadFf_kept h
  case readFe => exact execReadFe_kept h
  case writeEf => exact execWriteEf_kept h
  case writeXf => exact execWriteXf_kept h
  case setEmpty => exact execSetEmpty_kept h
  case setFull => exact execSetFull_kept h
  case fetchAdd => exact execFetchAdd_kept h
  case cas => exact execCas_kept h
  case tallyAdd => exact execTallyAdd_kept h
  case tallySub => exact execTallySub_kept h
  case syncStatus => exact execSyncStatus_kept h
  case claim => exact execClaim_kept h
  case unclaim => exact execUnclaim_kept h
  case waitCancel => exact execWaitCancel_kept h
  case syncBadCmd => simp only [exec]; exact execSyncBadCmd_kept h
  case syncWordUe => exact execSyncWordUe_kept h
  case syncOwnerReset => exact execSyncOwnerReset_kept h
  case deadlockScan => exact execDeadlockScan_kept h
  case coreGate => exact execCoreGate_kept h
  case h2eDoorbell => exact execH2eDoorbell_kept h
  case h2eMsg => exact execH2eMsg_kept h
  case mboxAck => exact execMboxAck_kept h
  case e2hSend => exact execE2hSend_kept h
  case e2hAck => exact execE2hAck_kept h
  case mboxTimeout => exact execMboxTimeout_kept h
  case stageA => exact execStageA_kept h
  case mainPowerGood => exact execMainPowerGood_kept h
  case stageB => exact execStageB_kept h
  case stageC => exact execStageC_kept h
  case stageCDeadline => exact execStageCDeadline_kept h
  case stageD => exact execStageD_kept h
  case holdRelease => exact execHoldRelease_kept h
  case mainPowerLoss => exact execMainPowerLoss_kept h
  case aonPowerLoss => exact execAonPowerLoss_kept h
  case vbatLow => exact execVbatLow_kept h
  case startHold => exact execStartHold_kept h
  case engineId => exact execEngineId_kept h
  case pufHelper => exact execPufHelper_kept h
  case docentBundleLoad => exact execDocentBundleLoad_kept h
  case curatorImageLoad => exact execCuratorImageLoad_kept h
  case svnWrite => exact execSvnWrite_kept h
  case pCounterStore => exact execPCounterStore_kept h
  case fieldFrame => exact execFieldFrame_kept h
  case fFrame => exact execFFrame_kept h
  case fStatus => exact execFStatus_kept h
  case fStatusTimeout => exact execFStatusTimeout_kept h
  case cFrame => exact execCFrame_kept h
  case cConfig => exact execCConfig_kept h
  case cHeartbeat => exact execCHeartbeat_kept h
  case heartbeatLoss => exact execHeartbeatLoss_kept h
  case odRead => exact execOdRead_kept h
  case odWrite => exact execOdWrite_kept h
  case odCancel => exact execOdCancel_kept h
  case odWriteEffect => exact execOdWriteEffect_kept h
  case readReq => exact execReadReq_kept h
  case segReadReq => exact execSegReadReq_kept h
  case writeReq => exact execWriteReq_kept h
  case segWriteInit => exact execSegWriteInit_kept h
  case segWrite => exact execSegWrite_kept h
  case segIdleTimeout => exact execSegIdleTimeout_kept h
  case phoazAbort => exact execPhoazAbort_kept h
  case eventAck => exact execEventAck_kept h
  case eventRetry => exact execEventRetry_kept h
  case timeSync => exact execTimeSync_kept h
  case timeFollow => exact execTimeFollow_kept h
  case discover => exact execDiscover_kept h
  case discoverRsp => exact execDiscoverRsp_kept h
  case scoreHalving => exact execScoreHalving_kept h
  case pinEnd => exact execPinEnd_kept h
  case predictiveRetire => exact execPredictiveRetire_kept h
  case bundleStage => exact execBundleStage_kept h
  case bundleActivate => exact execBundleActivate_kept h
  case bundleSwitch => exact execBundleSwitch_kept h
  case activateWaitTimeout => exact execActivateWaitTimeout_kept h
  case bundleTrialFail => exact execBundleTrialFail_kept h
  case bundleCommit => exact execBundleCommit_kept h
  case trialEnd => exact execTrialEnd_kept h
  case curatorActivate => exact execCuratorActivate_kept h
  case curatorRestart => exact execCuratorRestart_kept h
  case curatorTrialFail => exact execCuratorTrialFail_kept h
  case curatorCommit => exact execCuratorCommit_kept h
  case ivEpochRedraw => exact execIvEpochRedraw_kept h
  case dieThermalClass => exact execDieThermalClass_kept h
  case thermalShutdown => exact execThermalShutdown_kept h
  case thermalRestart => exact execThermalRestart_kept h
  case tapInstruction => exact execTapInstruction_kept h
  case mgmtMessage => exact execMgmtMessage_kept h
  case cwRd => exact execCwRd_kept h
  case podlPowerUp => exact execPodlPowerUp_kept h
  case podlPowerLoss => exact execPodlPowerLoss_kept h

/-- A command on a state whose queue it has left: it answers a state with the same queue. -/
theorem exec_next (c : Instr) (s : State) : ∃ t, exec c s = .next t ∧ t.pending = s.pending ∧ s.outbox <:+ t.outbox ∧
    s.freeCtr ≤ t.freeCtr ∧ (s.formed → t.formed) := by
  obtain ⟨t, e, k⟩ := exec_kept c (Kept.refl s)
  exact ⟨t, e, k.1.1, k.1.2.1, k.1.2.2, k.2⟩

/-- An idle step keeps the same. -/
theorem idle_next (s : State) : s.idle.pending = s.pending ∧ s.outbox <:+ s.idle.outbox ∧ s.freeCtr ≤ s.idle.freeCtr ∧
    (s.formed → s.idle.formed) :=
  have k := State.idle_kept (Kept.refl s)
  ⟨k.1.1, k.1.2.1, k.1.2.2, k.2⟩

end Sys2Proof.Machine
end

