-- ==== Sys2Proof/Laws/State.lean ====
section
/-!
SUPPORT. The fields of State after each update, one lemma per field and update, true by definition; and the dictionary's values
and the sync words after a write.
-/
namespace Sys2Proof.Machine

@[simp] theorem State.time_setSched (s : State) (f : Sched → Sched) : (s.setSched f).time = s.time := rfl
@[simp] theorem State.carrier_setSched (s : State) (f : Sched → Sched) : (s.setSched f).carrier = s.carrier := rfl
@[simp] theorem State.sched_setSched (s : State) (f : Sched → Sched) : (s.setSched f).sched = f s.sched := rfl
@[simp] theorem State.jobs_setSched (s : State) (f : Sched → Sched) : (s.setSched f).jobs = s.jobs := rfl
@[simp] theorem State.update_setSched (s : State) (f : Sched → Sched) : (s.setSched f).update = s.update := rfl
@[simp] theorem State.woad_setSched (s : State) (f : Sched → Sched) : (s.setSched f).woad = s.woad := rfl
@[simp] theorem State.madder_setSched (s : State) (f : Sched → Sched) : (s.setSched f).madder = s.madder := rfl
@[simp] theorem State.gallery_setSched (s : State) (f : Sched → Sched) : (s.setSched f).gallery = s.gallery := rfl
@[simp] theorem State.welds_setSched (s : State) (f : Sched → Sched) : (s.setSched f).welds = s.welds := rfl
@[simp] theorem State.vault_setSched (s : State) (f : Sched → Sched) : (s.setSched f).vault = s.vault := rfl
@[simp] theorem State.colls_setSched (s : State) (f : Sched → Sched) : (s.setSched f).colls = s.colls := rfl
@[simp] theorem State.fabric_setSched (s : State) (f : Sched → Sched) : (s.setSched f).fabric = s.fabric := rfl
@[simp] theorem State.sec_setSched (s : State) (f : Sched → Sched) : (s.setSched f).sec = s.sec := rfl
@[simp] theorem State.docent_setSched (s : State) (f : Sched → Sched) : (s.setSched f).docent = s.docent := rfl
@[simp] theorem State.sync_setSched (s : State) (f : Sched → Sched) : (s.setSched f).sync = s.sync := rfl
@[simp] theorem State.mboxes_setSched (s : State) (f : Sched → Sched) : (s.setSched f).mboxes = s.mboxes := rfl
@[simp] theorem State.curator_setSched (s : State) (f : Sched → Sched) : (s.setSched f).curator = s.curator := rfl
@[simp] theorem State.battery_setSched (s : State) (f : Sched → Sched) : (s.setSched f).battery = s.battery := rfl
@[simp] theorem State.dict_setSched (s : State) (f : Sched → Sched) : (s.setSched f).dict = s.dict := rfl
@[simp] theorem State.service_setSched (s : State) (f : Sched → Sched) : (s.setSched f).service = s.service := rfl
@[simp] theorem State.elec_setSched (s : State) (f : Sched → Sched) : (s.setSched f).elec = s.elec := rfl
@[simp] theorem State.od_setSched (s : State) (f : Sched → Sched) : (s.setSched f).od = s.od := rfl
@[simp] theorem State.raised_setSched (s : State) (f : Sched → Sched) : (s.setSched f).raised = s.raised := rfl
@[simp] theorem State.pending_setSched (s : State) (f : Sched → Sched) : (s.setSched f).pending = s.pending := rfl
@[simp] theorem State.outbox_setSched (s : State) (f : Sched → Sched) : (s.setSched f).outbox = s.outbox := rfl
@[simp] theorem State.freeCtr_setSched (s : State) (f : Sched → Sched) : (s.setSched f).freeCtr = s.freeCtr := rfl
@[simp] theorem State.odGet_setSched (s : State) (f : Sched → Sched) (r : OdRef) : (s.setSched f).odGet r = s.odGet r := rfl

@[simp] theorem State.time_setCarrier (s : State) (f : Carrier → Carrier) : (s.setCarrier f).time = s.time := rfl
@[simp] theorem State.carrier_setCarrier (s : State) (f : Carrier → Carrier) : (s.setCarrier f).carrier = f s.carrier := rfl
@[simp] theorem State.sched_setCarrier (s : State) (f : Carrier → Carrier) : (s.setCarrier f).sched = s.sched := rfl
@[simp] theorem State.jobs_setCarrier (s : State) (f : Carrier → Carrier) : (s.setCarrier f).jobs = s.jobs := rfl
@[simp] theorem State.update_setCarrier (s : State) (f : Carrier → Carrier) : (s.setCarrier f).update = s.update := rfl
@[simp] theorem State.woad_setCarrier (s : State) (f : Carrier → Carrier) : (s.setCarrier f).woad = s.woad := rfl
@[simp] theorem State.madder_setCarrier (s : State) (f : Carrier → Carrier) : (s.setCarrier f).madder = s.madder := rfl
@[simp] theorem State.gallery_setCarrier (s : State) (f : Carrier → Carrier) : (s.setCarrier f).gallery = s.gallery := rfl
@[simp] theorem State.welds_setCarrier (s : State) (f : Carrier → Carrier) : (s.setCarrier f).welds = s.welds := rfl
@[simp] theorem State.vault_setCarrier (s : State) (f : Carrier → Carrier) : (s.setCarrier f).vault = s.vault := rfl
@[simp] theorem State.colls_setCarrier (s : State) (f : Carrier → Carrier) : (s.setCarrier f).colls = s.colls := rfl
@[simp] theorem State.fabric_setCarrier (s : State) (f : Carrier → Carrier) : (s.setCarrier f).fabric = s.fabric := rfl
@[simp] theorem State.sec_setCarrier (s : State) (f : Carrier → Carrier) : (s.setCarrier f).sec = s.sec := rfl
@[simp] theorem State.docent_setCarrier (s : State) (f : Carrier → Carrier) : (s.setCarrier f).docent = s.docent := rfl
@[simp] theorem State.sync_setCarrier (s : State) (f : Carrier → Carrier) : (s.setCarrier f).sync = s.sync := rfl
@[simp] theorem State.mboxes_setCarrier (s : State) (f : Carrier → Carrier) : (s.setCarrier f).mboxes = s.mboxes := rfl
@[simp] theorem State.curator_setCarrier (s : State) (f : Carrier → Carrier) : (s.setCarrier f).curator = s.curator := rfl
@[simp] theorem State.battery_setCarrier (s : State) (f : Carrier → Carrier) : (s.setCarrier f).battery = s.battery := rfl
@[simp] theorem State.dict_setCarrier (s : State) (f : Carrier → Carrier) : (s.setCarrier f).dict = s.dict := rfl
@[simp] theorem State.service_setCarrier (s : State) (f : Carrier → Carrier) : (s.setCarrier f).service = s.service := rfl
@[simp] theorem State.elec_setCarrier (s : State) (f : Carrier → Carrier) : (s.setCarrier f).elec = s.elec := rfl
@[simp] theorem State.od_setCarrier (s : State) (f : Carrier → Carrier) : (s.setCarrier f).od = s.od := rfl
@[simp] theorem State.raised_setCarrier (s : State) (f : Carrier → Carrier) : (s.setCarrier f).raised = s.raised := rfl
@[simp] theorem State.pending_setCarrier (s : State) (f : Carrier → Carrier) : (s.setCarrier f).pending = s.pending := rfl
@[simp] theorem State.outbox_setCarrier (s : State) (f : Carrier → Carrier) : (s.setCarrier f).outbox = s.outbox := rfl
@[simp] theorem State.freeCtr_setCarrier (s : State) (f : Carrier → Carrier) : (s.setCarrier f).freeCtr = s.freeCtr := rfl
@[simp] theorem State.odGet_setCarrier (s : State) (f : Carrier → Carrier) (r : OdRef) : (s.setCarrier f).odGet r = s.odGet r := rfl

@[simp] theorem State.time_setTime (s : State) (f : TimeUnit → TimeUnit) : (s.setTime f).time = f s.time := rfl
@[simp] theorem State.carrier_setTime (s : State) (f : TimeUnit → TimeUnit) : (s.setTime f).carrier = s.carrier := rfl
@[simp] theorem State.sched_setTime (s : State) (f : TimeUnit → TimeUnit) : (s.setTime f).sched = s.sched := rfl
@[simp] theorem State.jobs_setTime (s : State) (f : TimeUnit → TimeUnit) : (s.setTime f).jobs = s.jobs := rfl
@[simp] theorem State.update_setTime (s : State) (f : TimeUnit → TimeUnit) : (s.setTime f).update = s.update := rfl
@[simp] theorem State.woad_setTime (s : State) (f : TimeUnit → TimeUnit) : (s.setTime f).woad = s.woad := rfl
@[simp] theorem State.madder_setTime (s : State) (f : TimeUnit → TimeUnit) : (s.setTime f).madder = s.madder := rfl
@[simp] theorem State.gallery_setTime (s : State) (f : TimeUnit → TimeUnit) : (s.setTime f).gallery = s.gallery := rfl
@[simp] theorem State.welds_setTime (s : State) (f : TimeUnit → TimeUnit) : (s.setTime f).welds = s.welds := rfl
@[simp] theorem State.vault_setTime (s : State) (f : TimeUnit → TimeUnit) : (s.setTime f).vault = s.vault := rfl
@[simp] theorem State.colls_setTime (s : State) (f : TimeUnit → TimeUnit) : (s.setTime f).colls = s.colls := rfl
@[simp] theorem State.fabric_setTime (s : State) (f : TimeUnit → TimeUnit) : (s.setTime f).fabric = s.fabric := rfl
@[simp] theorem State.sec_setTime (s : State) (f : TimeUnit → TimeUnit) : (s.setTime f).sec = s.sec := rfl
@[simp] theorem State.docent_setTime (s : State) (f : TimeUnit → TimeUnit) : (s.setTime f).docent = s.docent := rfl
@[simp] theorem State.sync_setTime (s : State) (f : TimeUnit → TimeUnit) : (s.setTime f).sync = s.sync := rfl
@[simp] theorem State.mboxes_setTime (s : State) (f : TimeUnit → TimeUnit) : (s.setTime f).mboxes = s.mboxes := rfl
@[simp] theorem State.curator_setTime (s : State) (f : TimeUnit → TimeUnit) : (s.setTime f).curator = s.curator := rfl
@[simp] theorem State.battery_setTime (s : State) (f : TimeUnit → TimeUnit) : (s.setTime f).battery = s.battery := rfl
@[simp] theorem State.dict_setTime (s : State) (f : TimeUnit → TimeUnit) : (s.setTime f).dict = s.dict := rfl
@[simp] theorem State.service_setTime (s : State) (f : TimeUnit → TimeUnit) : (s.setTime f).service = s.service := rfl
@[simp] theorem State.elec_setTime (s : State) (f : TimeUnit → TimeUnit) : (s.setTime f).elec = s.elec := rfl
@[simp] theorem State.od_setTime (s : State) (f : TimeUnit → TimeUnit) : (s.setTime f).od = s.od := rfl
@[simp] theorem State.raised_setTime (s : State) (f : TimeUnit → TimeUnit) : (s.setTime f).raised = s.raised := rfl
@[simp] theorem State.pending_setTime (s : State) (f : TimeUnit → TimeUnit) : (s.setTime f).pending = s.pending := rfl
@[simp] theorem State.outbox_setTime (s : State) (f : TimeUnit → TimeUnit) : (s.setTime f).outbox = s.outbox := rfl
@[simp] theorem State.freeCtr_setTime (s : State) (f : TimeUnit → TimeUnit) : (s.setTime f).freeCtr = s.freeCtr := rfl
@[simp] theorem State.odGet_setTime (s : State) (f : TimeUnit → TimeUnit) (r : OdRef) : (s.setTime f).odGet r = s.odGet r := rfl

@[simp] theorem State.time_setUpdate (s : State) (f : UpdateUnit → UpdateUnit) : (s.setUpdate f).time = s.time := rfl
@[simp] theorem State.carrier_setUpdate (s : State) (f : UpdateUnit → UpdateUnit) : (s.setUpdate f).carrier = s.carrier := rfl
@[simp] theorem State.sched_setUpdate (s : State) (f : UpdateUnit → UpdateUnit) : (s.setUpdate f).sched = s.sched := rfl
@[simp] theorem State.jobs_setUpdate (s : State) (f : UpdateUnit → UpdateUnit) : (s.setUpdate f).jobs = s.jobs := rfl
@[simp] theorem State.update_setUpdate (s : State) (f : UpdateUnit → UpdateUnit) : (s.setUpdate f).update = f s.update := rfl
@[simp] theorem State.woad_setUpdate (s : State) (f : UpdateUnit → UpdateUnit) : (s.setUpdate f).woad = s.woad := rfl
@[simp] theorem State.madder_setUpdate (s : State) (f : UpdateUnit → UpdateUnit) : (s.setUpdate f).madder = s.madder := rfl
@[simp] theorem State.gallery_setUpdate (s : State) (f : UpdateUnit → UpdateUnit) : (s.setUpdate f).gallery = s.gallery := rfl
@[simp] theorem State.welds_setUpdate (s : State) (f : UpdateUnit → UpdateUnit) : (s.setUpdate f).welds = s.welds := rfl
@[simp] theorem State.vault_setUpdate (s : State) (f : UpdateUnit → UpdateUnit) : (s.setUpdate f).vault = s.vault := rfl
@[simp] theorem State.colls_setUpdate (s : State) (f : UpdateUnit → UpdateUnit) : (s.setUpdate f).colls = s.colls := rfl
@[simp] theorem State.fabric_setUpdate (s : State) (f : UpdateUnit → UpdateUnit) : (s.setUpdate f).fabric = s.fabric := rfl
@[simp] theorem State.sec_setUpdate (s : State) (f : UpdateUnit → UpdateUnit) : (s.setUpdate f).sec = s.sec := rfl
@[simp] theorem State.docent_setUpdate (s : State) (f : UpdateUnit → UpdateUnit) : (s.setUpdate f).docent = s.docent := rfl
@[simp] theorem State.sync_setUpdate (s : State) (f : UpdateUnit → UpdateUnit) : (s.setUpdate f).sync = s.sync := rfl
@[simp] theorem State.mboxes_setUpdate (s : State) (f : UpdateUnit → UpdateUnit) : (s.setUpdate f).mboxes = s.mboxes := rfl
@[simp] theorem State.curator_setUpdate (s : State) (f : UpdateUnit → UpdateUnit) : (s.setUpdate f).curator = s.curator := rfl
@[simp] theorem State.battery_setUpdate (s : State) (f : UpdateUnit → UpdateUnit) : (s.setUpdate f).battery = s.battery := rfl
@[simp] theorem State.dict_setUpdate (s : State) (f : UpdateUnit → UpdateUnit) : (s.setUpdate f).dict = s.dict := rfl
@[simp] theorem State.service_setUpdate (s : State) (f : UpdateUnit → UpdateUnit) : (s.setUpdate f).service = s.service := rfl
@[simp] theorem State.elec_setUpdate (s : State) (f : UpdateUnit → UpdateUnit) : (s.setUpdate f).elec = s.elec := rfl
@[simp] theorem State.od_setUpdate (s : State) (f : UpdateUnit → UpdateUnit) : (s.setUpdate f).od = s.od := rfl
@[simp] theorem State.raised_setUpdate (s : State) (f : UpdateUnit → UpdateUnit) : (s.setUpdate f).raised = s.raised := rfl
@[simp] theorem State.pending_setUpdate (s : State) (f : UpdateUnit → UpdateUnit) : (s.setUpdate f).pending = s.pending := rfl
@[simp] theorem State.outbox_setUpdate (s : State) (f : UpdateUnit → UpdateUnit) : (s.setUpdate f).outbox = s.outbox := rfl
@[simp] theorem State.freeCtr_setUpdate (s : State) (f : UpdateUnit → UpdateUnit) : (s.setUpdate f).freeCtr = s.freeCtr := rfl
@[simp] theorem State.odGet_setUpdate (s : State) (f : UpdateUnit → UpdateUnit) (r : OdRef) : (s.setUpdate f).odGet r = s.odGet r := rfl

@[simp] theorem State.time_setWoad (s : State) (f : Woad → Woad) : (s.setWoad f).time = s.time := rfl
@[simp] theorem State.carrier_setWoad (s : State) (f : Woad → Woad) : (s.setWoad f).carrier = s.carrier := rfl
@[simp] theorem State.sched_setWoad (s : State) (f : Woad → Woad) : (s.setWoad f).sched = s.sched := rfl
@[simp] theorem State.jobs_setWoad (s : State) (f : Woad → Woad) : (s.setWoad f).jobs = s.jobs := rfl
@[simp] theorem State.update_setWoad (s : State) (f : Woad → Woad) : (s.setWoad f).update = s.update := rfl
@[simp] theorem State.woad_setWoad (s : State) (f : Woad → Woad) : (s.setWoad f).woad = f s.woad := rfl
@[simp] theorem State.madder_setWoad (s : State) (f : Woad → Woad) : (s.setWoad f).madder = s.madder := rfl
@[simp] theorem State.gallery_setWoad (s : State) (f : Woad → Woad) : (s.setWoad f).gallery = s.gallery := rfl
@[simp] theorem State.welds_setWoad (s : State) (f : Woad → Woad) : (s.setWoad f).welds = s.welds := rfl
@[simp] theorem State.vault_setWoad (s : State) (f : Woad → Woad) : (s.setWoad f).vault = s.vault := rfl
@[simp] theorem State.colls_setWoad (s : State) (f : Woad → Woad) : (s.setWoad f).colls = s.colls := rfl
@[simp] theorem State.fabric_setWoad (s : State) (f : Woad → Woad) : (s.setWoad f).fabric = s.fabric := rfl
@[simp] theorem State.sec_setWoad (s : State) (f : Woad → Woad) : (s.setWoad f).sec = s.sec := rfl
@[simp] theorem State.docent_setWoad (s : State) (f : Woad → Woad) : (s.setWoad f).docent = s.docent := rfl
@[simp] theorem State.sync_setWoad (s : State) (f : Woad → Woad) : (s.setWoad f).sync = s.sync := rfl
@[simp] theorem State.mboxes_setWoad (s : State) (f : Woad → Woad) : (s.setWoad f).mboxes = s.mboxes := rfl
@[simp] theorem State.curator_setWoad (s : State) (f : Woad → Woad) : (s.setWoad f).curator = s.curator := rfl
@[simp] theorem State.battery_setWoad (s : State) (f : Woad → Woad) : (s.setWoad f).battery = s.battery := rfl
@[simp] theorem State.dict_setWoad (s : State) (f : Woad → Woad) : (s.setWoad f).dict = s.dict := rfl
@[simp] theorem State.service_setWoad (s : State) (f : Woad → Woad) : (s.setWoad f).service = s.service := rfl
@[simp] theorem State.elec_setWoad (s : State) (f : Woad → Woad) : (s.setWoad f).elec = s.elec := rfl
@[simp] theorem State.od_setWoad (s : State) (f : Woad → Woad) : (s.setWoad f).od = s.od := rfl
@[simp] theorem State.raised_setWoad (s : State) (f : Woad → Woad) : (s.setWoad f).raised = s.raised := rfl
@[simp] theorem State.pending_setWoad (s : State) (f : Woad → Woad) : (s.setWoad f).pending = s.pending := rfl
@[simp] theorem State.outbox_setWoad (s : State) (f : Woad → Woad) : (s.setWoad f).outbox = s.outbox := rfl
@[simp] theorem State.freeCtr_setWoad (s : State) (f : Woad → Woad) : (s.setWoad f).freeCtr = s.freeCtr := rfl
@[simp] theorem State.odGet_setWoad (s : State) (f : Woad → Woad) (r : OdRef) : (s.setWoad f).odGet r = s.odGet r := rfl

@[simp] theorem State.time_setMadder (s : State) (f : Madder → Madder) : (s.setMadder f).time = s.time := rfl
@[simp] theorem State.carrier_setMadder (s : State) (f : Madder → Madder) : (s.setMadder f).carrier = s.carrier := rfl
@[simp] theorem State.sched_setMadder (s : State) (f : Madder → Madder) : (s.setMadder f).sched = s.sched := rfl
@[simp] theorem State.jobs_setMadder (s : State) (f : Madder → Madder) : (s.setMadder f).jobs = s.jobs := rfl
@[simp] theorem State.update_setMadder (s : State) (f : Madder → Madder) : (s.setMadder f).update = s.update := rfl
@[simp] theorem State.woad_setMadder (s : State) (f : Madder → Madder) : (s.setMadder f).woad = s.woad := rfl
@[simp] theorem State.madder_setMadder (s : State) (f : Madder → Madder) : (s.setMadder f).madder = f s.madder := rfl
@[simp] theorem State.gallery_setMadder (s : State) (f : Madder → Madder) : (s.setMadder f).gallery = s.gallery := rfl
@[simp] theorem State.welds_setMadder (s : State) (f : Madder → Madder) : (s.setMadder f).welds = s.welds := rfl
@[simp] theorem State.vault_setMadder (s : State) (f : Madder → Madder) : (s.setMadder f).vault = s.vault := rfl
@[simp] theorem State.colls_setMadder (s : State) (f : Madder → Madder) : (s.setMadder f).colls = s.colls := rfl
@[simp] theorem State.fabric_setMadder (s : State) (f : Madder → Madder) : (s.setMadder f).fabric = s.fabric := rfl
@[simp] theorem State.sec_setMadder (s : State) (f : Madder → Madder) : (s.setMadder f).sec = s.sec := rfl
@[simp] theorem State.docent_setMadder (s : State) (f : Madder → Madder) : (s.setMadder f).docent = s.docent := rfl
@[simp] theorem State.sync_setMadder (s : State) (f : Madder → Madder) : (s.setMadder f).sync = s.sync := rfl
@[simp] theorem State.mboxes_setMadder (s : State) (f : Madder → Madder) : (s.setMadder f).mboxes = s.mboxes := rfl
@[simp] theorem State.curator_setMadder (s : State) (f : Madder → Madder) : (s.setMadder f).curator = s.curator := rfl
@[simp] theorem State.battery_setMadder (s : State) (f : Madder → Madder) : (s.setMadder f).battery = s.battery := rfl
@[simp] theorem State.dict_setMadder (s : State) (f : Madder → Madder) : (s.setMadder f).dict = s.dict := rfl
@[simp] theorem State.service_setMadder (s : State) (f : Madder → Madder) : (s.setMadder f).service = s.service := rfl
@[simp] theorem State.elec_setMadder (s : State) (f : Madder → Madder) : (s.setMadder f).elec = s.elec := rfl
@[simp] theorem State.od_setMadder (s : State) (f : Madder → Madder) : (s.setMadder f).od = s.od := rfl
@[simp] theorem State.raised_setMadder (s : State) (f : Madder → Madder) : (s.setMadder f).raised = s.raised := rfl
@[simp] theorem State.pending_setMadder (s : State) (f : Madder → Madder) : (s.setMadder f).pending = s.pending := rfl
@[simp] theorem State.outbox_setMadder (s : State) (f : Madder → Madder) : (s.setMadder f).outbox = s.outbox := rfl
@[simp] theorem State.freeCtr_setMadder (s : State) (f : Madder → Madder) : (s.setMadder f).freeCtr = s.freeCtr := rfl
@[simp] theorem State.odGet_setMadder (s : State) (f : Madder → Madder) (r : OdRef) : (s.setMadder f).odGet r = s.odGet r := rfl

@[simp] theorem State.time_setGallery (s : State) (f : Gallery → Gallery) : (s.setGallery f).time = s.time := rfl
@[simp] theorem State.carrier_setGallery (s : State) (f : Gallery → Gallery) : (s.setGallery f).carrier = s.carrier := rfl
@[simp] theorem State.sched_setGallery (s : State) (f : Gallery → Gallery) : (s.setGallery f).sched = s.sched := rfl
@[simp] theorem State.jobs_setGallery (s : State) (f : Gallery → Gallery) : (s.setGallery f).jobs = s.jobs := rfl
@[simp] theorem State.update_setGallery (s : State) (f : Gallery → Gallery) : (s.setGallery f).update = s.update := rfl
@[simp] theorem State.woad_setGallery (s : State) (f : Gallery → Gallery) : (s.setGallery f).woad = s.woad := rfl
@[simp] theorem State.madder_setGallery (s : State) (f : Gallery → Gallery) : (s.setGallery f).madder = s.madder := rfl
@[simp] theorem State.gallery_setGallery (s : State) (f : Gallery → Gallery) : (s.setGallery f).gallery = f s.gallery := rfl
@[simp] theorem State.welds_setGallery (s : State) (f : Gallery → Gallery) : (s.setGallery f).welds = s.welds := rfl
@[simp] theorem State.vault_setGallery (s : State) (f : Gallery → Gallery) : (s.setGallery f).vault = s.vault := rfl
@[simp] theorem State.colls_setGallery (s : State) (f : Gallery → Gallery) : (s.setGallery f).colls = s.colls := rfl
@[simp] theorem State.fabric_setGallery (s : State) (f : Gallery → Gallery) : (s.setGallery f).fabric = s.fabric := rfl
@[simp] theorem State.sec_setGallery (s : State) (f : Gallery → Gallery) : (s.setGallery f).sec = s.sec := rfl
@[simp] theorem State.docent_setGallery (s : State) (f : Gallery → Gallery) : (s.setGallery f).docent = s.docent := rfl
@[simp] theorem State.sync_setGallery (s : State) (f : Gallery → Gallery) : (s.setGallery f).sync = s.sync := rfl
@[simp] theorem State.mboxes_setGallery (s : State) (f : Gallery → Gallery) : (s.setGallery f).mboxes = s.mboxes := rfl
@[simp] theorem State.curator_setGallery (s : State) (f : Gallery → Gallery) : (s.setGallery f).curator = s.curator := rfl
@[simp] theorem State.battery_setGallery (s : State) (f : Gallery → Gallery) : (s.setGallery f).battery = s.battery := rfl
@[simp] theorem State.dict_setGallery (s : State) (f : Gallery → Gallery) : (s.setGallery f).dict = s.dict := rfl
@[simp] theorem State.service_setGallery (s : State) (f : Gallery → Gallery) : (s.setGallery f).service = s.service := rfl
@[simp] theorem State.elec_setGallery (s : State) (f : Gallery → Gallery) : (s.setGallery f).elec = s.elec := rfl
@[simp] theorem State.od_setGallery (s : State) (f : Gallery → Gallery) : (s.setGallery f).od = s.od := rfl
@[simp] theorem State.raised_setGallery (s : State) (f : Gallery → Gallery) : (s.setGallery f).raised = s.raised := rfl
@[simp] theorem State.pending_setGallery (s : State) (f : Gallery → Gallery) : (s.setGallery f).pending = s.pending := rfl
@[simp] theorem State.outbox_setGallery (s : State) (f : Gallery → Gallery) : (s.setGallery f).outbox = s.outbox := rfl
@[simp] theorem State.freeCtr_setGallery (s : State) (f : Gallery → Gallery) : (s.setGallery f).freeCtr = s.freeCtr := rfl
@[simp] theorem State.odGet_setGallery (s : State) (f : Gallery → Gallery) (r : OdRef) : (s.setGallery f).odGet r = s.odGet r := rfl

@[simp] theorem State.time_setVault (s : State) (f : Vault → Vault) : (s.setVault f).time = s.time := rfl
@[simp] theorem State.carrier_setVault (s : State) (f : Vault → Vault) : (s.setVault f).carrier = s.carrier := rfl
@[simp] theorem State.sched_setVault (s : State) (f : Vault → Vault) : (s.setVault f).sched = s.sched := rfl
@[simp] theorem State.jobs_setVault (s : State) (f : Vault → Vault) : (s.setVault f).jobs = s.jobs := rfl
@[simp] theorem State.update_setVault (s : State) (f : Vault → Vault) : (s.setVault f).update = s.update := rfl
@[simp] theorem State.woad_setVault (s : State) (f : Vault → Vault) : (s.setVault f).woad = s.woad := rfl
@[simp] theorem State.madder_setVault (s : State) (f : Vault → Vault) : (s.setVault f).madder = s.madder := rfl
@[simp] theorem State.gallery_setVault (s : State) (f : Vault → Vault) : (s.setVault f).gallery = s.gallery := rfl
@[simp] theorem State.welds_setVault (s : State) (f : Vault → Vault) : (s.setVault f).welds = s.welds := rfl
@[simp] theorem State.vault_setVault (s : State) (f : Vault → Vault) : (s.setVault f).vault = f s.vault := rfl
@[simp] theorem State.colls_setVault (s : State) (f : Vault → Vault) : (s.setVault f).colls = s.colls := rfl
@[simp] theorem State.fabric_setVault (s : State) (f : Vault → Vault) : (s.setVault f).fabric = s.fabric := rfl
@[simp] theorem State.sec_setVault (s : State) (f : Vault → Vault) : (s.setVault f).sec = s.sec := rfl
@[simp] theorem State.docent_setVault (s : State) (f : Vault → Vault) : (s.setVault f).docent = s.docent := rfl
@[simp] theorem State.sync_setVault (s : State) (f : Vault → Vault) : (s.setVault f).sync = s.sync := rfl
@[simp] theorem State.mboxes_setVault (s : State) (f : Vault → Vault) : (s.setVault f).mboxes = s.mboxes := rfl
@[simp] theorem State.curator_setVault (s : State) (f : Vault → Vault) : (s.setVault f).curator = s.curator := rfl
@[simp] theorem State.battery_setVault (s : State) (f : Vault → Vault) : (s.setVault f).battery = s.battery := rfl
@[simp] theorem State.dict_setVault (s : State) (f : Vault → Vault) : (s.setVault f).dict = s.dict := rfl
@[simp] theorem State.service_setVault (s : State) (f : Vault → Vault) : (s.setVault f).service = s.service := rfl
@[simp] theorem State.elec_setVault (s : State) (f : Vault → Vault) : (s.setVault f).elec = s.elec := rfl
@[simp] theorem State.od_setVault (s : State) (f : Vault → Vault) : (s.setVault f).od = s.od := rfl
@[simp] theorem State.raised_setVault (s : State) (f : Vault → Vault) : (s.setVault f).raised = s.raised := rfl
@[simp] theorem State.pending_setVault (s : State) (f : Vault → Vault) : (s.setVault f).pending = s.pending := rfl
@[simp] theorem State.outbox_setVault (s : State) (f : Vault → Vault) : (s.setVault f).outbox = s.outbox := rfl
@[simp] theorem State.freeCtr_setVault (s : State) (f : Vault → Vault) : (s.setVault f).freeCtr = s.freeCtr := rfl
@[simp] theorem State.odGet_setVault (s : State) (f : Vault → Vault) (r : OdRef) : (s.setVault f).odGet r = s.odGet r := rfl

@[simp] theorem State.time_setColls (s : State) (f : Colls → Colls) : (s.setColls f).time = s.time := rfl
@[simp] theorem State.carrier_setColls (s : State) (f : Colls → Colls) : (s.setColls f).carrier = s.carrier := rfl
@[simp] theorem State.sched_setColls (s : State) (f : Colls → Colls) : (s.setColls f).sched = s.sched := rfl
@[simp] theorem State.jobs_setColls (s : State) (f : Colls → Colls) : (s.setColls f).jobs = s.jobs := rfl
@[simp] theorem State.update_setColls (s : State) (f : Colls → Colls) : (s.setColls f).update = s.update := rfl
@[simp] theorem State.woad_setColls (s : State) (f : Colls → Colls) : (s.setColls f).woad = s.woad := rfl
@[simp] theorem State.madder_setColls (s : State) (f : Colls → Colls) : (s.setColls f).madder = s.madder := rfl
@[simp] theorem State.gallery_setColls (s : State) (f : Colls → Colls) : (s.setColls f).gallery = s.gallery := rfl
@[simp] theorem State.welds_setColls (s : State) (f : Colls → Colls) : (s.setColls f).welds = s.welds := rfl
@[simp] theorem State.vault_setColls (s : State) (f : Colls → Colls) : (s.setColls f).vault = s.vault := rfl
@[simp] theorem State.colls_setColls (s : State) (f : Colls → Colls) : (s.setColls f).colls = f s.colls := rfl
@[simp] theorem State.fabric_setColls (s : State) (f : Colls → Colls) : (s.setColls f).fabric = s.fabric := rfl
@[simp] theorem State.sec_setColls (s : State) (f : Colls → Colls) : (s.setColls f).sec = s.sec := rfl
@[simp] theorem State.docent_setColls (s : State) (f : Colls → Colls) : (s.setColls f).docent = s.docent := rfl
@[simp] theorem State.sync_setColls (s : State) (f : Colls → Colls) : (s.setColls f).sync = s.sync := rfl
@[simp] theorem State.mboxes_setColls (s : State) (f : Colls → Colls) : (s.setColls f).mboxes = s.mboxes := rfl
@[simp] theorem State.curator_setColls (s : State) (f : Colls → Colls) : (s.setColls f).curator = s.curator := rfl
@[simp] theorem State.battery_setColls (s : State) (f : Colls → Colls) : (s.setColls f).battery = s.battery := rfl
@[simp] theorem State.dict_setColls (s : State) (f : Colls → Colls) : (s.setColls f).dict = s.dict := rfl
@[simp] theorem State.service_setColls (s : State) (f : Colls → Colls) : (s.setColls f).service = s.service := rfl
@[simp] theorem State.elec_setColls (s : State) (f : Colls → Colls) : (s.setColls f).elec = s.elec := rfl
@[simp] theorem State.od_setColls (s : State) (f : Colls → Colls) : (s.setColls f).od = s.od := rfl
@[simp] theorem State.raised_setColls (s : State) (f : Colls → Colls) : (s.setColls f).raised = s.raised := rfl
@[simp] theorem State.pending_setColls (s : State) (f : Colls → Colls) : (s.setColls f).pending = s.pending := rfl
@[simp] theorem State.outbox_setColls (s : State) (f : Colls → Colls) : (s.setColls f).outbox = s.outbox := rfl
@[simp] theorem State.freeCtr_setColls (s : State) (f : Colls → Colls) : (s.setColls f).freeCtr = s.freeCtr := rfl
@[simp] theorem State.odGet_setColls (s : State) (f : Colls → Colls) (r : OdRef) : (s.setColls f).odGet r = s.odGet r := rfl

@[simp] theorem State.time_setFabric (s : State) (f : Fabric → Fabric) : (s.setFabric f).time = s.time := rfl
@[simp] theorem State.carrier_setFabric (s : State) (f : Fabric → Fabric) : (s.setFabric f).carrier = s.carrier := rfl
@[simp] theorem State.sched_setFabric (s : State) (f : Fabric → Fabric) : (s.setFabric f).sched = s.sched := rfl
@[simp] theorem State.jobs_setFabric (s : State) (f : Fabric → Fabric) : (s.setFabric f).jobs = s.jobs := rfl
@[simp] theorem State.update_setFabric (s : State) (f : Fabric → Fabric) : (s.setFabric f).update = s.update := rfl
@[simp] theorem State.woad_setFabric (s : State) (f : Fabric → Fabric) : (s.setFabric f).woad = s.woad := rfl
@[simp] theorem State.madder_setFabric (s : State) (f : Fabric → Fabric) : (s.setFabric f).madder = s.madder := rfl
@[simp] theorem State.gallery_setFabric (s : State) (f : Fabric → Fabric) : (s.setFabric f).gallery = s.gallery := rfl
@[simp] theorem State.welds_setFabric (s : State) (f : Fabric → Fabric) : (s.setFabric f).welds = s.welds := rfl
@[simp] theorem State.vault_setFabric (s : State) (f : Fabric → Fabric) : (s.setFabric f).vault = s.vault := rfl
@[simp] theorem State.colls_setFabric (s : State) (f : Fabric → Fabric) : (s.setFabric f).colls = s.colls := rfl
@[simp] theorem State.fabric_setFabric (s : State) (f : Fabric → Fabric) : (s.setFabric f).fabric = f s.fabric := rfl
@[simp] theorem State.sec_setFabric (s : State) (f : Fabric → Fabric) : (s.setFabric f).sec = s.sec := rfl
@[simp] theorem State.docent_setFabric (s : State) (f : Fabric → Fabric) : (s.setFabric f).docent = s.docent := rfl
@[simp] theorem State.sync_setFabric (s : State) (f : Fabric → Fabric) : (s.setFabric f).sync = s.sync := rfl
@[simp] theorem State.mboxes_setFabric (s : State) (f : Fabric → Fabric) : (s.setFabric f).mboxes = s.mboxes := rfl
@[simp] theorem State.curator_setFabric (s : State) (f : Fabric → Fabric) : (s.setFabric f).curator = s.curator := rfl
@[simp] theorem State.battery_setFabric (s : State) (f : Fabric → Fabric) : (s.setFabric f).battery = s.battery := rfl
@[simp] theorem State.dict_setFabric (s : State) (f : Fabric → Fabric) : (s.setFabric f).dict = s.dict := rfl
@[simp] theorem State.service_setFabric (s : State) (f : Fabric → Fabric) : (s.setFabric f).service = s.service := rfl
@[simp] theorem State.elec_setFabric (s : State) (f : Fabric → Fabric) : (s.setFabric f).elec = s.elec := rfl
@[simp] theorem State.od_setFabric (s : State) (f : Fabric → Fabric) : (s.setFabric f).od = s.od := rfl
@[simp] theorem State.raised_setFabric (s : State) (f : Fabric → Fabric) : (s.setFabric f).raised = s.raised := rfl
@[simp] theorem State.pending_setFabric (s : State) (f : Fabric → Fabric) : (s.setFabric f).pending = s.pending := rfl
@[simp] theorem State.outbox_setFabric (s : State) (f : Fabric → Fabric) : (s.setFabric f).outbox = s.outbox := rfl
@[simp] theorem State.freeCtr_setFabric (s : State) (f : Fabric → Fabric) : (s.setFabric f).freeCtr = s.freeCtr := rfl
@[simp] theorem State.odGet_setFabric (s : State) (f : Fabric → Fabric) (r : OdRef) : (s.setFabric f).odGet r = s.odGet r := rfl

@[simp] theorem State.time_setSec (s : State) (f : Security → Security) : (s.setSec f).time = s.time := rfl
@[simp] theorem State.carrier_setSec (s : State) (f : Security → Security) : (s.setSec f).carrier = s.carrier := rfl
@[simp] theorem State.sched_setSec (s : State) (f : Security → Security) : (s.setSec f).sched = s.sched := rfl
@[simp] theorem State.jobs_setSec (s : State) (f : Security → Security) : (s.setSec f).jobs = s.jobs := rfl
@[simp] theorem State.update_setSec (s : State) (f : Security → Security) : (s.setSec f).update = s.update := rfl
@[simp] theorem State.woad_setSec (s : State) (f : Security → Security) : (s.setSec f).woad = s.woad := rfl
@[simp] theorem State.madder_setSec (s : State) (f : Security → Security) : (s.setSec f).madder = s.madder := rfl
@[simp] theorem State.gallery_setSec (s : State) (f : Security → Security) : (s.setSec f).gallery = s.gallery := rfl
@[simp] theorem State.welds_setSec (s : State) (f : Security → Security) : (s.setSec f).welds = s.welds := rfl
@[simp] theorem State.vault_setSec (s : State) (f : Security → Security) : (s.setSec f).vault = s.vault := rfl
@[simp] theorem State.colls_setSec (s : State) (f : Security → Security) : (s.setSec f).colls = s.colls := rfl
@[simp] theorem State.fabric_setSec (s : State) (f : Security → Security) : (s.setSec f).fabric = s.fabric := rfl
@[simp] theorem State.sec_setSec (s : State) (f : Security → Security) : (s.setSec f).sec = f s.sec := rfl
@[simp] theorem State.docent_setSec (s : State) (f : Security → Security) : (s.setSec f).docent = s.docent := rfl
@[simp] theorem State.sync_setSec (s : State) (f : Security → Security) : (s.setSec f).sync = s.sync := rfl
@[simp] theorem State.mboxes_setSec (s : State) (f : Security → Security) : (s.setSec f).mboxes = s.mboxes := rfl
@[simp] theorem State.curator_setSec (s : State) (f : Security → Security) : (s.setSec f).curator = s.curator := rfl
@[simp] theorem State.battery_setSec (s : State) (f : Security → Security) : (s.setSec f).battery = s.battery := rfl
@[simp] theorem State.dict_setSec (s : State) (f : Security → Security) : (s.setSec f).dict = s.dict := rfl
@[simp] theorem State.service_setSec (s : State) (f : Security → Security) : (s.setSec f).service = s.service := rfl
@[simp] theorem State.elec_setSec (s : State) (f : Security → Security) : (s.setSec f).elec = s.elec := rfl
@[simp] theorem State.od_setSec (s : State) (f : Security → Security) : (s.setSec f).od = s.od := rfl
@[simp] theorem State.raised_setSec (s : State) (f : Security → Security) : (s.setSec f).raised = s.raised := rfl
@[simp] theorem State.pending_setSec (s : State) (f : Security → Security) : (s.setSec f).pending = s.pending := rfl
@[simp] theorem State.outbox_setSec (s : State) (f : Security → Security) : (s.setSec f).outbox = s.outbox := rfl
@[simp] theorem State.freeCtr_setSec (s : State) (f : Security → Security) : (s.setSec f).freeCtr = s.freeCtr := rfl
@[simp] theorem State.odGet_setSec (s : State) (f : Security → Security) (r : OdRef) : (s.setSec f).odGet r = s.odGet r := rfl

@[simp] theorem State.time_setDict (s : State) (f : Dictionary → Dictionary) : (s.setDict f).time = s.time := rfl
@[simp] theorem State.carrier_setDict (s : State) (f : Dictionary → Dictionary) : (s.setDict f).carrier = s.carrier := rfl
@[simp] theorem State.sched_setDict (s : State) (f : Dictionary → Dictionary) : (s.setDict f).sched = s.sched := rfl
@[simp] theorem State.jobs_setDict (s : State) (f : Dictionary → Dictionary) : (s.setDict f).jobs = s.jobs := rfl
@[simp] theorem State.update_setDict (s : State) (f : Dictionary → Dictionary) : (s.setDict f).update = s.update := rfl
@[simp] theorem State.woad_setDict (s : State) (f : Dictionary → Dictionary) : (s.setDict f).woad = s.woad := rfl
@[simp] theorem State.madder_setDict (s : State) (f : Dictionary → Dictionary) : (s.setDict f).madder = s.madder := rfl
@[simp] theorem State.gallery_setDict (s : State) (f : Dictionary → Dictionary) : (s.setDict f).gallery = s.gallery := rfl
@[simp] theorem State.welds_setDict (s : State) (f : Dictionary → Dictionary) : (s.setDict f).welds = s.welds := rfl
@[simp] theorem State.vault_setDict (s : State) (f : Dictionary → Dictionary) : (s.setDict f).vault = s.vault := rfl
@[simp] theorem State.colls_setDict (s : State) (f : Dictionary → Dictionary) : (s.setDict f).colls = s.colls := rfl
@[simp] theorem State.fabric_setDict (s : State) (f : Dictionary → Dictionary) : (s.setDict f).fabric = s.fabric := rfl
@[simp] theorem State.sec_setDict (s : State) (f : Dictionary → Dictionary) : (s.setDict f).sec = s.sec := rfl
@[simp] theorem State.docent_setDict (s : State) (f : Dictionary → Dictionary) : (s.setDict f).docent = s.docent := rfl
@[simp] theorem State.sync_setDict (s : State) (f : Dictionary → Dictionary) : (s.setDict f).sync = s.sync := rfl
@[simp] theorem State.mboxes_setDict (s : State) (f : Dictionary → Dictionary) : (s.setDict f).mboxes = s.mboxes := rfl
@[simp] theorem State.curator_setDict (s : State) (f : Dictionary → Dictionary) : (s.setDict f).curator = s.curator := rfl
@[simp] theorem State.battery_setDict (s : State) (f : Dictionary → Dictionary) : (s.setDict f).battery = s.battery := rfl
@[simp] theorem State.dict_setDict (s : State) (f : Dictionary → Dictionary) : (s.setDict f).dict = f s.dict := rfl
@[simp] theorem State.service_setDict (s : State) (f : Dictionary → Dictionary) : (s.setDict f).service = s.service := rfl
@[simp] theorem State.elec_setDict (s : State) (f : Dictionary → Dictionary) : (s.setDict f).elec = s.elec := rfl
@[simp] theorem State.od_setDict (s : State) (f : Dictionary → Dictionary) : (s.setDict f).od = s.od := rfl
@[simp] theorem State.raised_setDict (s : State) (f : Dictionary → Dictionary) : (s.setDict f).raised = s.raised := rfl
@[simp] theorem State.pending_setDict (s : State) (f : Dictionary → Dictionary) : (s.setDict f).pending = s.pending := rfl
@[simp] theorem State.outbox_setDict (s : State) (f : Dictionary → Dictionary) : (s.setDict f).outbox = s.outbox := rfl
@[simp] theorem State.freeCtr_setDict (s : State) (f : Dictionary → Dictionary) : (s.setDict f).freeCtr = s.freeCtr := rfl
@[simp] theorem State.odGet_setDict (s : State) (f : Dictionary → Dictionary) (r : OdRef) : (s.setDict f).odGet r = s.odGet r := rfl

@[simp] theorem State.time_setCurator (s : State) (f : Curator → Curator) : (s.setCurator f).time = s.time := rfl
@[simp] theorem State.carrier_setCurator (s : State) (f : Curator → Curator) : (s.setCurator f).carrier = s.carrier := rfl
@[simp] theorem State.sched_setCurator (s : State) (f : Curator → Curator) : (s.setCurator f).sched = s.sched := rfl
@[simp] theorem State.jobs_setCurator (s : State) (f : Curator → Curator) : (s.setCurator f).jobs = s.jobs := rfl
@[simp] theorem State.update_setCurator (s : State) (f : Curator → Curator) : (s.setCurator f).update = s.update := rfl
@[simp] theorem State.woad_setCurator (s : State) (f : Curator → Curator) : (s.setCurator f).woad = s.woad := rfl
@[simp] theorem State.madder_setCurator (s : State) (f : Curator → Curator) : (s.setCurator f).madder = s.madder := rfl
@[simp] theorem State.gallery_setCurator (s : State) (f : Curator → Curator) : (s.setCurator f).gallery = s.gallery := rfl
@[simp] theorem State.welds_setCurator (s : State) (f : Curator → Curator) : (s.setCurator f).welds = s.welds := rfl
@[simp] theorem State.vault_setCurator (s : State) (f : Curator → Curator) : (s.setCurator f).vault = s.vault := rfl
@[simp] theorem State.colls_setCurator (s : State) (f : Curator → Curator) : (s.setCurator f).colls = s.colls := rfl
@[simp] theorem State.fabric_setCurator (s : State) (f : Curator → Curator) : (s.setCurator f).fabric = s.fabric := rfl
@[simp] theorem State.sec_setCurator (s : State) (f : Curator → Curator) : (s.setCurator f).sec = s.sec := rfl
@[simp] theorem State.docent_setCurator (s : State) (f : Curator → Curator) : (s.setCurator f).docent = s.docent := rfl
@[simp] theorem State.sync_setCurator (s : State) (f : Curator → Curator) : (s.setCurator f).sync = s.sync := rfl
@[simp] theorem State.mboxes_setCurator (s : State) (f : Curator → Curator) : (s.setCurator f).mboxes = s.mboxes := rfl
@[simp] theorem State.curator_setCurator (s : State) (f : Curator → Curator) : (s.setCurator f).curator = f s.curator := rfl
@[simp] theorem State.battery_setCurator (s : State) (f : Curator → Curator) : (s.setCurator f).battery = s.battery := rfl
@[simp] theorem State.dict_setCurator (s : State) (f : Curator → Curator) : (s.setCurator f).dict = s.dict := rfl
@[simp] theorem State.service_setCurator (s : State) (f : Curator → Curator) : (s.setCurator f).service = s.service := rfl
@[simp] theorem State.elec_setCurator (s : State) (f : Curator → Curator) : (s.setCurator f).elec = s.elec := rfl
@[simp] theorem State.od_setCurator (s : State) (f : Curator → Curator) : (s.setCurator f).od = s.od := rfl
@[simp] theorem State.raised_setCurator (s : State) (f : Curator → Curator) : (s.setCurator f).raised = s.raised := rfl
@[simp] theorem State.pending_setCurator (s : State) (f : Curator → Curator) : (s.setCurator f).pending = s.pending := rfl
@[simp] theorem State.outbox_setCurator (s : State) (f : Curator → Curator) : (s.setCurator f).outbox = s.outbox := rfl
@[simp] theorem State.freeCtr_setCurator (s : State) (f : Curator → Curator) : (s.setCurator f).freeCtr = s.freeCtr := rfl
@[simp] theorem State.odGet_setCurator (s : State) (f : Curator → Curator) (r : OdRef) : (s.setCurator f).odGet r = s.odGet r := rfl

@[simp] theorem State.time_setBattery (s : State) (f : Battery → Battery) : (s.setBattery f).time = s.time := rfl
@[simp] theorem State.carrier_setBattery (s : State) (f : Battery → Battery) : (s.setBattery f).carrier = s.carrier := rfl
@[simp] theorem State.sched_setBattery (s : State) (f : Battery → Battery) : (s.setBattery f).sched = s.sched := rfl
@[simp] theorem State.jobs_setBattery (s : State) (f : Battery → Battery) : (s.setBattery f).jobs = s.jobs := rfl
@[simp] theorem State.update_setBattery (s : State) (f : Battery → Battery) : (s.setBattery f).update = s.update := rfl
@[simp] theorem State.woad_setBattery (s : State) (f : Battery → Battery) : (s.setBattery f).woad = s.woad := rfl
@[simp] theorem State.madder_setBattery (s : State) (f : Battery → Battery) : (s.setBattery f).madder = s.madder := rfl
@[simp] theorem State.gallery_setBattery (s : State) (f : Battery → Battery) : (s.setBattery f).gallery = s.gallery := rfl
@[simp] theorem State.welds_setBattery (s : State) (f : Battery → Battery) : (s.setBattery f).welds = s.welds := rfl
@[simp] theorem State.vault_setBattery (s : State) (f : Battery → Battery) : (s.setBattery f).vault = s.vault := rfl
@[simp] theorem State.colls_setBattery (s : State) (f : Battery → Battery) : (s.setBattery f).colls = s.colls := rfl
@[simp] theorem State.fabric_setBattery (s : State) (f : Battery → Battery) : (s.setBattery f).fabric = s.fabric := rfl
@[simp] theorem State.sec_setBattery (s : State) (f : Battery → Battery) : (s.setBattery f).sec = s.sec := rfl
@[simp] theorem State.docent_setBattery (s : State) (f : Battery → Battery) : (s.setBattery f).docent = s.docent := rfl
@[simp] theorem State.sync_setBattery (s : State) (f : Battery → Battery) : (s.setBattery f).sync = s.sync := rfl
@[simp] theorem State.mboxes_setBattery (s : State) (f : Battery → Battery) : (s.setBattery f).mboxes = s.mboxes := rfl
@[simp] theorem State.curator_setBattery (s : State) (f : Battery → Battery) : (s.setBattery f).curator = s.curator := rfl
@[simp] theorem State.battery_setBattery (s : State) (f : Battery → Battery) : (s.setBattery f).battery = f s.battery := rfl
@[simp] theorem State.dict_setBattery (s : State) (f : Battery → Battery) : (s.setBattery f).dict = s.dict := rfl
@[simp] theorem State.service_setBattery (s : State) (f : Battery → Battery) : (s.setBattery f).service = s.service := rfl
@[simp] theorem State.elec_setBattery (s : State) (f : Battery → Battery) : (s.setBattery f).elec = s.elec := rfl
@[simp] theorem State.od_setBattery (s : State) (f : Battery → Battery) : (s.setBattery f).od = s.od := rfl
@[simp] theorem State.raised_setBattery (s : State) (f : Battery → Battery) : (s.setBattery f).raised = s.raised := rfl
@[simp] theorem State.pending_setBattery (s : State) (f : Battery → Battery) : (s.setBattery f).pending = s.pending := rfl
@[simp] theorem State.outbox_setBattery (s : State) (f : Battery → Battery) : (s.setBattery f).outbox = s.outbox := rfl
@[simp] theorem State.freeCtr_setBattery (s : State) (f : Battery → Battery) : (s.setBattery f).freeCtr = s.freeCtr := rfl
@[simp] theorem State.odGet_setBattery (s : State) (f : Battery → Battery) (r : OdRef) : (s.setBattery f).odGet r = s.odGet r := rfl

@[simp] theorem State.time_setService (s : State) (f : Service → Service) : (s.setService f).time = s.time := rfl
@[simp] theorem State.carrier_setService (s : State) (f : Service → Service) : (s.setService f).carrier = s.carrier := rfl
@[simp] theorem State.sched_setService (s : State) (f : Service → Service) : (s.setService f).sched = s.sched := rfl
@[simp] theorem State.jobs_setService (s : State) (f : Service → Service) : (s.setService f).jobs = s.jobs := rfl
@[simp] theorem State.update_setService (s : State) (f : Service → Service) : (s.setService f).update = s.update := rfl
@[simp] theorem State.woad_setService (s : State) (f : Service → Service) : (s.setService f).woad = s.woad := rfl
@[simp] theorem State.madder_setService (s : State) (f : Service → Service) : (s.setService f).madder = s.madder := rfl
@[simp] theorem State.gallery_setService (s : State) (f : Service → Service) : (s.setService f).gallery = s.gallery := rfl
@[simp] theorem State.welds_setService (s : State) (f : Service → Service) : (s.setService f).welds = s.welds := rfl
@[simp] theorem State.vault_setService (s : State) (f : Service → Service) : (s.setService f).vault = s.vault := rfl
@[simp] theorem State.colls_setService (s : State) (f : Service → Service) : (s.setService f).colls = s.colls := rfl
@[simp] theorem State.fabric_setService (s : State) (f : Service → Service) : (s.setService f).fabric = s.fabric := rfl
@[simp] theorem State.sec_setService (s : State) (f : Service → Service) : (s.setService f).sec = s.sec := rfl
@[simp] theorem State.docent_setService (s : State) (f : Service → Service) : (s.setService f).docent = s.docent := rfl
@[simp] theorem State.sync_setService (s : State) (f : Service → Service) : (s.setService f).sync = s.sync := rfl
@[simp] theorem State.mboxes_setService (s : State) (f : Service → Service) : (s.setService f).mboxes = s.mboxes := rfl
@[simp] theorem State.curator_setService (s : State) (f : Service → Service) : (s.setService f).curator = s.curator := rfl
@[simp] theorem State.battery_setService (s : State) (f : Service → Service) : (s.setService f).battery = s.battery := rfl
@[simp] theorem State.dict_setService (s : State) (f : Service → Service) : (s.setService f).dict = s.dict := rfl
@[simp] theorem State.service_setService (s : State) (f : Service → Service) : (s.setService f).service = f s.service := rfl
@[simp] theorem State.elec_setService (s : State) (f : Service → Service) : (s.setService f).elec = s.elec := rfl
@[simp] theorem State.od_setService (s : State) (f : Service → Service) : (s.setService f).od = s.od := rfl
@[simp] theorem State.raised_setService (s : State) (f : Service → Service) : (s.setService f).raised = s.raised := rfl
@[simp] theorem State.pending_setService (s : State) (f : Service → Service) : (s.setService f).pending = s.pending := rfl
@[simp] theorem State.outbox_setService (s : State) (f : Service → Service) : (s.setService f).outbox = s.outbox := rfl
@[simp] theorem State.freeCtr_setService (s : State) (f : Service → Service) : (s.setService f).freeCtr = s.freeCtr := rfl
@[simp] theorem State.odGet_setService (s : State) (f : Service → Service) (r : OdRef) : (s.setService f).odGet r = s.odGet r := rfl

@[simp] theorem State.time_send (s : State) (m : OutMsg) : (s.send m).time = s.time := rfl
@[simp] theorem State.carrier_send (s : State) (m : OutMsg) : (s.send m).carrier = s.carrier := rfl
@[simp] theorem State.sched_send (s : State) (m : OutMsg) : (s.send m).sched = s.sched := rfl
@[simp] theorem State.jobs_send (s : State) (m : OutMsg) : (s.send m).jobs = s.jobs := rfl
@[simp] theorem State.update_send (s : State) (m : OutMsg) : (s.send m).update = s.update := rfl
@[simp] theorem State.woad_send (s : State) (m : OutMsg) : (s.send m).woad = s.woad := rfl
@[simp] theorem State.madder_send (s : State) (m : OutMsg) : (s.send m).madder = s.madder := rfl
@[simp] theorem State.gallery_send (s : State) (m : OutMsg) : (s.send m).gallery = s.gallery := rfl
@[simp] theorem State.welds_send (s : State) (m : OutMsg) : (s.send m).welds = s.welds := rfl
@[simp] theorem State.vault_send (s : State) (m : OutMsg) : (s.send m).vault = s.vault := rfl
@[simp] theorem State.colls_send (s : State) (m : OutMsg) : (s.send m).colls = s.colls := rfl
@[simp] theorem State.fabric_send (s : State) (m : OutMsg) : (s.send m).fabric = s.fabric := rfl
@[simp] theorem State.sec_send (s : State) (m : OutMsg) : (s.send m).sec = s.sec := rfl
@[simp] theorem State.docent_send (s : State) (m : OutMsg) : (s.send m).docent = s.docent := rfl
@[simp] theorem State.sync_send (s : State) (m : OutMsg) : (s.send m).sync = s.sync := rfl
@[simp] theorem State.mboxes_send (s : State) (m : OutMsg) : (s.send m).mboxes = s.mboxes := rfl
@[simp] theorem State.curator_send (s : State) (m : OutMsg) : (s.send m).curator = s.curator := rfl
@[simp] theorem State.battery_send (s : State) (m : OutMsg) : (s.send m).battery = s.battery := rfl
@[simp] theorem State.dict_send (s : State) (m : OutMsg) : (s.send m).dict = s.dict := rfl
@[simp] theorem State.service_send (s : State) (m : OutMsg) : (s.send m).service = s.service := rfl
@[simp] theorem State.elec_send (s : State) (m : OutMsg) : (s.send m).elec = s.elec := rfl
@[simp] theorem State.od_send (s : State) (m : OutMsg) : (s.send m).od = s.od := rfl
@[simp] theorem State.raised_send (s : State) (m : OutMsg) : (s.send m).raised = s.raised := rfl
@[simp] theorem State.pending_send (s : State) (m : OutMsg) : (s.send m).pending = s.pending := rfl
@[simp] theorem State.outbox_send (s : State) (m : OutMsg) : (s.send m).outbox = m :: s.outbox := rfl
@[simp] theorem State.freeCtr_send (s : State) (m : OutMsg) : (s.send m).freeCtr = s.freeCtr := rfl

@[simp] theorem State.time_free (s : State) : (s.free.2).time = s.time := rfl
@[simp] theorem State.carrier_free (s : State) : (s.free.2).carrier = s.carrier := rfl
@[simp] theorem State.sched_free (s : State) : (s.free.2).sched = s.sched := rfl
@[simp] theorem State.jobs_free (s : State) : (s.free.2).jobs = s.jobs := rfl
@[simp] theorem State.update_free (s : State) : (s.free.2).update = s.update := rfl
@[simp] theorem State.woad_free (s : State) : (s.free.2).woad = s.woad := rfl
@[simp] theorem State.madder_free (s : State) : (s.free.2).madder = s.madder := rfl
@[simp] theorem State.gallery_free (s : State) : (s.free.2).gallery = s.gallery := rfl
@[simp] theorem State.welds_free (s : State) : (s.free.2).welds = s.welds := rfl
@[simp] theorem State.vault_free (s : State) : (s.free.2).vault = s.vault := rfl
@[simp] theorem State.colls_free (s : State) : (s.free.2).colls = s.colls := rfl
@[simp] theorem State.fabric_free (s : State) : (s.free.2).fabric = s.fabric := rfl
@[simp] theorem State.sec_free (s : State) : (s.free.2).sec = s.sec := rfl
@[simp] theorem State.docent_free (s : State) : (s.free.2).docent = s.docent := rfl
@[simp] theorem State.sync_free (s : State) : (s.free.2).sync = s.sync := rfl
@[simp] theorem State.mboxes_free (s : State) : (s.free.2).mboxes = s.mboxes := rfl
@[simp] theorem State.curator_free (s : State) : (s.free.2).curator = s.curator := rfl
@[simp] theorem State.battery_free (s : State) : (s.free.2).battery = s.battery := rfl
@[simp] theorem State.dict_free (s : State) : (s.free.2).dict = s.dict := rfl
@[simp] theorem State.service_free (s : State) : (s.free.2).service = s.service := rfl
@[simp] theorem State.elec_free (s : State) : (s.free.2).elec = s.elec := rfl
@[simp] theorem State.od_free (s : State) : (s.free.2).od = s.od := rfl
@[simp] theorem State.raised_free (s : State) : (s.free.2).raised = s.raised := rfl
@[simp] theorem State.pending_free (s : State) : (s.free.2).pending = s.pending := rfl
@[simp] theorem State.outbox_free (s : State) : (s.free.2).outbox = s.outbox := rfl
@[simp] theorem State.freeCtr_free (s : State) : (s.free.2).freeCtr = s.freeCtr + 1 := rfl

@[simp] theorem State.time_setJob (s : State) (j : JobId) (f : Job → Job) : (s.setJob j f).time = s.time := rfl
@[simp] theorem State.carrier_setJob (s : State) (j : JobId) (f : Job → Job) : (s.setJob j f).carrier = s.carrier := rfl
@[simp] theorem State.sched_setJob (s : State) (j : JobId) (f : Job → Job) : (s.setJob j f).sched = s.sched := rfl
@[simp] theorem State.jobs_setJob (s : State) (j : JobId) (f : Job → Job) : (s.setJob j f).jobs = s.jobs.set j (f s.jobs[j]) := rfl
@[simp] theorem State.update_setJob (s : State) (j : JobId) (f : Job → Job) : (s.setJob j f).update = s.update := rfl
@[simp] theorem State.woad_setJob (s : State) (j : JobId) (f : Job → Job) : (s.setJob j f).woad = s.woad := rfl
@[simp] theorem State.madder_setJob (s : State) (j : JobId) (f : Job → Job) : (s.setJob j f).madder = s.madder := rfl
@[simp] theorem State.gallery_setJob (s : State) (j : JobId) (f : Job → Job) : (s.setJob j f).gallery = s.gallery := rfl
@[simp] theorem State.welds_setJob (s : State) (j : JobId) (f : Job → Job) : (s.setJob j f).welds = s.welds := rfl
@[simp] theorem State.vault_setJob (s : State) (j : JobId) (f : Job → Job) : (s.setJob j f).vault = s.vault := rfl
@[simp] theorem State.colls_setJob (s : State) (j : JobId) (f : Job → Job) : (s.setJob j f).colls = s.colls := rfl
@[simp] theorem State.fabric_setJob (s : State) (j : JobId) (f : Job → Job) : (s.setJob j f).fabric = s.fabric := rfl
@[simp] theorem State.sec_setJob (s : State) (j : JobId) (f : Job → Job) : (s.setJob j f).sec = s.sec := rfl
@[simp] theorem State.docent_setJob (s : State) (j : JobId) (f : Job → Job) : (s.setJob j f).docent = s.docent := rfl
@[simp] theorem State.sync_setJob (s : State) (j : JobId) (f : Job → Job) : (s.setJob j f).sync = s.sync := rfl
@[simp] theorem State.mboxes_setJob (s : State) (j : JobId) (f : Job → Job) : (s.setJob j f).mboxes = s.mboxes := rfl
@[simp] theorem State.curator_setJob (s : State) (j : JobId) (f : Job → Job) : (s.setJob j f).curator = s.curator := rfl
@[simp] theorem State.battery_setJob (s : State) (j : JobId) (f : Job → Job) : (s.setJob j f).battery = s.battery := rfl
@[simp] theorem State.dict_setJob (s : State) (j : JobId) (f : Job → Job) : (s.setJob j f).dict = s.dict := rfl
@[simp] theorem State.service_setJob (s : State) (j : JobId) (f : Job → Job) : (s.setJob j f).service = s.service := rfl
@[simp] theorem State.elec_setJob (s : State) (j : JobId) (f : Job → Job) : (s.setJob j f).elec = s.elec := rfl
@[simp] theorem State.od_setJob (s : State) (j : JobId) (f : Job → Job) : (s.setJob j f).od = s.od := rfl
@[simp] theorem State.raised_setJob (s : State) (j : JobId) (f : Job → Job) : (s.setJob j f).raised = s.raised := rfl
@[simp] theorem State.pending_setJob (s : State) (j : JobId) (f : Job → Job) : (s.setJob j f).pending = s.pending := rfl
@[simp] theorem State.outbox_setJob (s : State) (j : JobId) (f : Job → Job) : (s.setJob j f).outbox = s.outbox := rfl
@[simp] theorem State.freeCtr_setJob (s : State) (j : JobId) (f : Job → Job) : (s.setJob j f).freeCtr = s.freeCtr := rfl

@[simp] theorem State.time_setWeld (s : State) (j : JobId) (f : Weld → Weld) : (s.setWeld j f).time = s.time := rfl
@[simp] theorem State.carrier_setWeld (s : State) (j : JobId) (f : Weld → Weld) : (s.setWeld j f).carrier = s.carrier := rfl
@[simp] theorem State.sched_setWeld (s : State) (j : JobId) (f : Weld → Weld) : (s.setWeld j f).sched = s.sched := rfl
@[simp] theorem State.jobs_setWeld (s : State) (j : JobId) (f : Weld → Weld) : (s.setWeld j f).jobs = s.jobs := rfl
@[simp] theorem State.update_setWeld (s : State) (j : JobId) (f : Weld → Weld) : (s.setWeld j f).update = s.update := rfl
@[simp] theorem State.woad_setWeld (s : State) (j : JobId) (f : Weld → Weld) : (s.setWeld j f).woad = s.woad := rfl
@[simp] theorem State.madder_setWeld (s : State) (j : JobId) (f : Weld → Weld) : (s.setWeld j f).madder = s.madder := rfl
@[simp] theorem State.gallery_setWeld (s : State) (j : JobId) (f : Weld → Weld) : (s.setWeld j f).gallery = s.gallery := rfl
@[simp] theorem State.welds_setWeld (s : State) (j : JobId) (f : Weld → Weld) : (s.setWeld j f).welds = s.welds.set j (f s.welds[j]) := rfl
@[simp] theorem State.vault_setWeld (s : State) (j : JobId) (f : Weld → Weld) : (s.setWeld j f).vault = s.vault := rfl
@[simp] theorem State.colls_setWeld (s : State) (j : JobId) (f : Weld → Weld) : (s.setWeld j f).colls = s.colls := rfl
@[simp] theorem State.fabric_setWeld (s : State) (j : JobId) (f : Weld → Weld) : (s.setWeld j f).fabric = s.fabric := rfl
@[simp] theorem State.sec_setWeld (s : State) (j : JobId) (f : Weld → Weld) : (s.setWeld j f).sec = s.sec := rfl
@[simp] theorem State.docent_setWeld (s : State) (j : JobId) (f : Weld → Weld) : (s.setWeld j f).docent = s.docent := rfl
@[simp] theorem State.sync_setWeld (s : State) (j : JobId) (f : Weld → Weld) : (s.setWeld j f).sync = s.sync := rfl
@[simp] theorem State.mboxes_setWeld (s : State) (j : JobId) (f : Weld → Weld) : (s.setWeld j f).mboxes = s.mboxes := rfl
@[simp] theorem State.curator_setWeld (s : State) (j : JobId) (f : Weld → Weld) : (s.setWeld j f).curator = s.curator := rfl
@[simp] theorem State.battery_setWeld (s : State) (j : JobId) (f : Weld → Weld) : (s.setWeld j f).battery = s.battery := rfl
@[simp] theorem State.dict_setWeld (s : State) (j : JobId) (f : Weld → Weld) : (s.setWeld j f).dict = s.dict := rfl
@[simp] theorem State.service_setWeld (s : State) (j : JobId) (f : Weld → Weld) : (s.setWeld j f).service = s.service := rfl
@[simp] theorem State.elec_setWeld (s : State) (j : JobId) (f : Weld → Weld) : (s.setWeld j f).elec = s.elec := rfl
@[simp] theorem State.od_setWeld (s : State) (j : JobId) (f : Weld → Weld) : (s.setWeld j f).od = s.od := rfl
@[simp] theorem State.raised_setWeld (s : State) (j : JobId) (f : Weld → Weld) : (s.setWeld j f).raised = s.raised := rfl
@[simp] theorem State.pending_setWeld (s : State) (j : JobId) (f : Weld → Weld) : (s.setWeld j f).pending = s.pending := rfl
@[simp] theorem State.outbox_setWeld (s : State) (j : JobId) (f : Weld → Weld) : (s.setWeld j f).outbox = s.outbox := rfl
@[simp] theorem State.freeCtr_setWeld (s : State) (j : JobId) (f : Weld → Weld) : (s.setWeld j f).freeCtr = s.freeCtr := rfl

@[simp] theorem State.time_odSet (s : State) (r : OdRef) (v : Nat) : (s.odSet r v).time = s.time := rfl
@[simp] theorem State.carrier_odSet (s : State) (r : OdRef) (v : Nat) : (s.odSet r v).carrier = s.carrier := rfl
@[simp] theorem State.sched_odSet (s : State) (r : OdRef) (v : Nat) : (s.odSet r v).sched = s.sched := rfl
@[simp] theorem State.jobs_odSet (s : State) (r : OdRef) (v : Nat) : (s.odSet r v).jobs = s.jobs := rfl
@[simp] theorem State.update_odSet (s : State) (r : OdRef) (v : Nat) : (s.odSet r v).update = s.update := rfl
@[simp] theorem State.woad_odSet (s : State) (r : OdRef) (v : Nat) : (s.odSet r v).woad = s.woad := rfl
@[simp] theorem State.madder_odSet (s : State) (r : OdRef) (v : Nat) : (s.odSet r v).madder = s.madder := rfl
@[simp] theorem State.gallery_odSet (s : State) (r : OdRef) (v : Nat) : (s.odSet r v).gallery = s.gallery := rfl
@[simp] theorem State.welds_odSet (s : State) (r : OdRef) (v : Nat) : (s.odSet r v).welds = s.welds := rfl
@[simp] theorem State.vault_odSet (s : State) (r : OdRef) (v : Nat) : (s.odSet r v).vault = s.vault := rfl
@[simp] theorem State.colls_odSet (s : State) (r : OdRef) (v : Nat) : (s.odSet r v).colls = s.colls := rfl
@[simp] theorem State.fabric_odSet (s : State) (r : OdRef) (v : Nat) : (s.odSet r v).fabric = s.fabric := rfl
@[simp] theorem State.sec_odSet (s : State) (r : OdRef) (v : Nat) : (s.odSet r v).sec = s.sec := rfl
@[simp] theorem State.docent_odSet (s : State) (r : OdRef) (v : Nat) : (s.odSet r v).docent = s.docent := rfl
@[simp] theorem State.sync_odSet (s : State) (r : OdRef) (v : Nat) : (s.odSet r v).sync = s.sync := rfl
@[simp] theorem State.mboxes_odSet (s : State) (r : OdRef) (v : Nat) : (s.odSet r v).mboxes = s.mboxes := rfl
@[simp] theorem State.curator_odSet (s : State) (r : OdRef) (v : Nat) : (s.odSet r v).curator = s.curator := rfl
@[simp] theorem State.battery_odSet (s : State) (r : OdRef) (v : Nat) : (s.odSet r v).battery = s.battery := rfl
@[simp] theorem State.dict_odSet (s : State) (r : OdRef) (v : Nat) : (s.odSet r v).dict = s.dict := rfl
@[simp] theorem State.service_odSet (s : State) (r : OdRef) (v : Nat) : (s.odSet r v).service = s.service := rfl
@[simp] theorem State.elec_odSet (s : State) (r : OdRef) (v : Nat) : (s.odSet r v).elec = s.elec := rfl
@[simp] theorem State.od_odSet (s : State) (r : OdRef) (v : Nat) : (s.odSet r v).od = if v == r.dflt then assocErase s.od r.key else assocSet s.od r.key v := rfl
@[simp] theorem State.raised_odSet (s : State) (r : OdRef) (v : Nat) : (s.odSet r v).raised = s.raised := rfl
@[simp] theorem State.pending_odSet (s : State) (r : OdRef) (v : Nat) : (s.odSet r v).pending = s.pending := rfl
@[simp] theorem State.outbox_odSet (s : State) (r : OdRef) (v : Nat) : (s.odSet r v).outbox = s.outbox := rfl
@[simp] theorem State.freeCtr_odSet (s : State) (r : OdRef) (v : Nat) : (s.odSet r v).freeCtr = s.freeCtr := rfl

@[simp] theorem State.time_bumpBy (s : State) (r : OdRef) (n : Nat) : (s.bumpBy r n).time = s.time := rfl
@[simp] theorem State.carrier_bumpBy (s : State) (r : OdRef) (n : Nat) : (s.bumpBy r n).carrier = s.carrier := rfl
@[simp] theorem State.sched_bumpBy (s : State) (r : OdRef) (n : Nat) : (s.bumpBy r n).sched = s.sched := rfl
@[simp] theorem State.jobs_bumpBy (s : State) (r : OdRef) (n : Nat) : (s.bumpBy r n).jobs = s.jobs := rfl
@[simp] theorem State.update_bumpBy (s : State) (r : OdRef) (n : Nat) : (s.bumpBy r n).update = s.update := rfl
@[simp] theorem State.woad_bumpBy (s : State) (r : OdRef) (n : Nat) : (s.bumpBy r n).woad = s.woad := rfl
@[simp] theorem State.madder_bumpBy (s : State) (r : OdRef) (n : Nat) : (s.bumpBy r n).madder = s.madder := rfl
@[simp] theorem State.gallery_bumpBy (s : State) (r : OdRef) (n : Nat) : (s.bumpBy r n).gallery = s.gallery := rfl
@[simp] theorem State.welds_bumpBy (s : State) (r : OdRef) (n : Nat) : (s.bumpBy r n).welds = s.welds := rfl
@[simp] theorem State.vault_bumpBy (s : State) (r : OdRef) (n : Nat) : (s.bumpBy r n).vault = s.vault := rfl
@[simp] theorem State.colls_bumpBy (s : State) (r : OdRef) (n : Nat) : (s.bumpBy r n).colls = s.colls := rfl
@[simp] theorem State.fabric_bumpBy (s : State) (r : OdRef) (n : Nat) : (s.bumpBy r n).fabric = s.fabric := rfl
@[simp] theorem State.sec_bumpBy (s : State) (r : OdRef) (n : Nat) : (s.bumpBy r n).sec = s.sec := rfl
@[simp] theorem State.docent_bumpBy (s : State) (r : OdRef) (n : Nat) : (s.bumpBy r n).docent = s.docent := rfl
@[simp] theorem State.sync_bumpBy (s : State) (r : OdRef) (n : Nat) : (s.bumpBy r n).sync = s.sync := rfl
@[simp] theorem State.mboxes_bumpBy (s : State) (r : OdRef) (n : Nat) : (s.bumpBy r n).mboxes = s.mboxes := rfl
@[simp] theorem State.curator_bumpBy (s : State) (r : OdRef) (n : Nat) : (s.bumpBy r n).curator = s.curator := rfl
@[simp] theorem State.battery_bumpBy (s : State) (r : OdRef) (n : Nat) : (s.bumpBy r n).battery = s.battery := rfl
@[simp] theorem State.dict_bumpBy (s : State) (r : OdRef) (n : Nat) : (s.bumpBy r n).dict = s.dict := rfl
@[simp] theorem State.service_bumpBy (s : State) (r : OdRef) (n : Nat) : (s.bumpBy r n).service = s.service := rfl
@[simp] theorem State.elec_bumpBy (s : State) (r : OdRef) (n : Nat) : (s.bumpBy r n).elec = s.elec := rfl
@[simp] theorem State.od_bumpBy (s : State) (r : OdRef) (n : Nat) : (s.bumpBy r n).od = (s.odSet r (min (s.odGet r + n) (2 ^ r.width - 1))).od := rfl
@[simp] theorem State.raised_bumpBy (s : State) (r : OdRef) (n : Nat) : (s.bumpBy r n).raised = s.raised := rfl
@[simp] theorem State.pending_bumpBy (s : State) (r : OdRef) (n : Nat) : (s.bumpBy r n).pending = s.pending := rfl
@[simp] theorem State.outbox_bumpBy (s : State) (r : OdRef) (n : Nat) : (s.bumpBy r n).outbox = s.outbox := rfl
@[simp] theorem State.freeCtr_bumpBy (s : State) (r : OdRef) (n : Nat) : (s.bumpBy r n).freeCtr = s.freeCtr := rfl

@[simp] theorem State.time_setSyncWord (s : State) (w : Nat) (v : SyncWord) : (s.setSyncWord w v).time = s.time := rfl
@[simp] theorem State.carrier_setSyncWord (s : State) (w : Nat) (v : SyncWord) : (s.setSyncWord w v).carrier = s.carrier := rfl
@[simp] theorem State.sched_setSyncWord (s : State) (w : Nat) (v : SyncWord) : (s.setSyncWord w v).sched = s.sched := rfl
@[simp] theorem State.jobs_setSyncWord (s : State) (w : Nat) (v : SyncWord) : (s.setSyncWord w v).jobs = s.jobs := rfl
@[simp] theorem State.update_setSyncWord (s : State) (w : Nat) (v : SyncWord) : (s.setSyncWord w v).update = s.update := rfl
@[simp] theorem State.woad_setSyncWord (s : State) (w : Nat) (v : SyncWord) : (s.setSyncWord w v).woad = s.woad := rfl
@[simp] theorem State.madder_setSyncWord (s : State) (w : Nat) (v : SyncWord) : (s.setSyncWord w v).madder = s.madder := rfl
@[simp] theorem State.gallery_setSyncWord (s : State) (w : Nat) (v : SyncWord) : (s.setSyncWord w v).gallery = s.gallery := rfl
@[simp] theorem State.welds_setSyncWord (s : State) (w : Nat) (v : SyncWord) : (s.setSyncWord w v).welds = s.welds := rfl
@[simp] theorem State.vault_setSyncWord (s : State) (w : Nat) (v : SyncWord) : (s.setSyncWord w v).vault = s.vault := rfl
@[simp] theorem State.colls_setSyncWord (s : State) (w : Nat) (v : SyncWord) : (s.setSyncWord w v).colls = s.colls := rfl
@[simp] theorem State.fabric_setSyncWord (s : State) (w : Nat) (v : SyncWord) : (s.setSyncWord w v).fabric = s.fabric := rfl
@[simp] theorem State.sec_setSyncWord (s : State) (w : Nat) (v : SyncWord) : (s.setSyncWord w v).sec = s.sec := rfl
@[simp] theorem State.docent_setSyncWord (s : State) (w : Nat) (v : SyncWord) : (s.setSyncWord w v).docent = s.docent := rfl
@[simp] theorem State.sync_setSyncWord (s : State) (w : Nat) (v : SyncWord) : (s.setSyncWord w v).sync = { s.sync with words := if v == {} then assocErase s.sync.words w else assocSet s.sync.words w v } := rfl
@[simp] theorem State.mboxes_setSyncWord (s : State) (w : Nat) (v : SyncWord) : (s.setSyncWord w v).mboxes = s.mboxes := rfl
@[simp] theorem State.curator_setSyncWord (s : State) (w : Nat) (v : SyncWord) : (s.setSyncWord w v).curator = s.curator := rfl
@[simp] theorem State.battery_setSyncWord (s : State) (w : Nat) (v : SyncWord) : (s.setSyncWord w v).battery = s.battery := rfl
@[simp] theorem State.dict_setSyncWord (s : State) (w : Nat) (v : SyncWord) : (s.setSyncWord w v).dict = s.dict := rfl
@[simp] theorem State.service_setSyncWord (s : State) (w : Nat) (v : SyncWord) : (s.setSyncWord w v).service = s.service := rfl
@[simp] theorem State.elec_setSyncWord (s : State) (w : Nat) (v : SyncWord) : (s.setSyncWord w v).elec = s.elec := rfl
@[simp] theorem State.od_setSyncWord (s : State) (w : Nat) (v : SyncWord) : (s.setSyncWord w v).od = s.od := rfl
@[simp] theorem State.raised_setSyncWord (s : State) (w : Nat) (v : SyncWord) : (s.setSyncWord w v).raised = s.raised := rfl
@[simp] theorem State.pending_setSyncWord (s : State) (w : Nat) (v : SyncWord) : (s.setSyncWord w v).pending = s.pending := rfl
@[simp] theorem State.outbox_setSyncWord (s : State) (w : Nat) (v : SyncWord) : (s.setSyncWord w v).outbox = s.outbox := rfl
@[simp] theorem State.freeCtr_setSyncWord (s : State) (w : Nat) (v : SyncWord) : (s.setSyncWord w v).freeCtr = s.freeCtr := rfl

/-- The entry written answers the value (R408). -/
theorem State.odGet_odSet_self {s : State} {r : OdRef} {v : Nat} (h : s.storeFormed) : (s.odSet r v).odGet r = v := by
  simp only [State.odGet, State.od_odSet]
  split
  · rename_i e
    rw [assoc_assocErase, if_pos rfl]
    exact (beq_iff_eq.1 e).symm
  · rw [assoc_assocSet _ _ _ _ h, if_pos rfl]
    rfl

/-- Every other entry answers what it answered. -/
theorem State.odGet_odSet_ne {s : State} {r q : OdRef} {v : Nat} (h : s.storeFormed) (k : q.key ≠ r.key) :
    (s.odSet r v).odGet q = s.odGet q := by
  simp only [State.odGet, State.od_odSet]
  split
  · rw [assoc_assocErase, if_neg k]
  · rw [assoc_assocSet _ _ _ _ h, if_neg k]

/-- The sync word written answers the value, every other word what it answered (R364). -/
theorem State.syncWord_setSyncWord {s : State} {w x : Nat} {v : SyncWord} (h : s.syncFormed) :
    (s.setSyncWord w v).syncWord x = if x = w then v else s.syncWord x := by
  simp only [State.syncWord, State.sync_setSyncWord]
  split
  · rename_i e
    rw [assoc_assocErase]
    split
    · exact (beq_iff_eq.1 e).symm
    · rfl
  · rw [assoc_assocSet _ _ _ _ h.1]
    split <;> rfl

/-- A task of a row that runs: the row's own meaning begins. -/
theorem State.whenReady_runs {s : State} {id ty : Nat} {t : Task} {f : State → Task → State} (h : s.runs id ty t) :
    s.whenReady id ty f = f (s.begun id) t := by
  obtain ⟨a, b, c, d⟩ := h
  have e : ∀ j, (s.begun id).job j = s.job j := fun _ => rfl
  unfold State.whenReady
  rw [a]
  simp only [b, bne_self_eq_false, c, Bool.not_true, Bool.or_self, Bool.false_eq_true, if_false]
  split
  · rename_i k
    simp only [Bool.and_eq_true, bne_iff_ne, ne_eq] at k
    obtain ⟨x, y⟩ := d k.1 k.2
    change (if (!((s.begun id).job t.job).open_) = true then _ else if (((s.begun id).job t.job).owner != t.owner) = true then _ else _) = _
    rw [e, x, y]
    simp
    rfl
  · rfl

/-- A dictionary command that is taken. -/
theorem State.odRow_takes {s : State} {a : Agent} {key : Nat} {bytes : Bytes} {f : State → Nat × State}
    (h : s.odTakes a key bytes f) : s.odRow a key bytes f = s.odDone a f := by
  obtain ⟨x, y⟩ := h
  unfold State.odRow State.odWriteWith State.odDone
  simp only [x, bne_self_eq_false, Bool.false_eq_true, if_false]
  rw [y]
  simp

/-- A Weld message that its checks admit has its meaning. -/
theorem State.weldIn_takes {s u : State} {h : BitVec 256} {ty n : Nat} {r : Bool} {f : JobId → State → State}
    (k : s.weldTakes h ty n u) : s.weldIn h ty n true r f = f (wJob h) u := by
  obtain ⟨a, b, c, d, e, g⟩ := k
  unfold State.weldIn
  have e' : ¬ 1048576 < wLen h := by omega
  simp only [a, b, c, d, e', Bool.false_eq_true, if_false, bne_self_eq_false, Bool.or_false, decide_false, Bool.not_true,
    Bool.false_and, if_true, g]
  simp [e]

/-- A restore message that its checks admit has its meaning. -/
theorem State.restoreIn_takes {s : State} {h : BitVec 256} {ty n : Nat} {f : JobId → State → State}
    (k : s.restoreTakes h ty n) : s.restoreIn h ty n 1050656 true f = f (wJob h) s := by
  obtain ⟨a, b, c, d⟩ := k
  have c' : ¬ 1050656 < n := by omega
  simp [State.restoreIn, a, b, c, c', d]

/-- A reply of the Vault that its checks admit has its meaning. -/
theorem State.vaultIn_takes {s : State} {h : BitVec 256} {ty ask n : Nat} {name : BitVec 256} {r : VaultReq}
    {f : VaultReq → State → State} (k : s.vaultTakes h ty ask n name r) :
    s.vaultIn h ty ask n name true f = f r (s.dropVaultReq r.id) := by
  obtain ⟨a, b, c, d, e, g, i⟩ := k
  simp [State.vaultIn, a, b, c, d, e, g, i]

/-- A collective message that its checks admit has its meaning. -/
theorem State.collRow_takes {s : State} {h : BitVec 512} {ps : Bytes} {ty : Nat} {g : Group} {c : Coll} {o : ResidueObs}
    (k : s.collTakes h ps ty g c) (n : ty ≠ 4) (m : ty ≠ 5) : s.collRow ty h ps true o = s.collTake c g h ps o := by
  obtain ⟨a, b, d, e, f, i⟩ := k
  simp [State.collRow, State.collMsg, a, b, d, e, f, i, n, m]

/-- A Phoaz frame that waits has its meaning. -/
theorem State.phoazTake_waits {s u : State} {f : PhoazFrame} {ty : Nat} {k : State → State} (h : s.phoazWaits f ty u) :
    s.phoazTake f ty k = k u := by
  obtain ⟨a, b, c, d⟩ := h
  subst c
  simp [State.phoazTake, a, b, d]

/-- A Phoaz request that its checks admit acts. -/
theorem State.phoazRequest_takes {s v : State} {f : PhoazFrame} {ty : Nat} {need : Bool} {k : State → State}
    (h : s.phoazTakes f ty need v) : s.phoazRequest f ty need k = k v := by
  obtain ⟨u, a, b, c⟩ := h
  unfold State.phoazRequest
  rw [State.phoazTake_waits a]
  simp [b, c]

end Sys2Proof.Machine
end

