-- ==== Sys2Proof/Tests/Slice0.lean ====
section
/-!
SUPPORT. The author's tests: the spec's worked examples, the checks of WellFormed, and for every statement with premises small
states and operands that meet the premises of each of its clauses (witness_<statement>).
-/
namespace Sys2Proof.Tests
open Sys2Proof Sys2Proof.Machine
set_option Elab.async false
set_option synthInstance.maxSize 1024

/-- A record with the given values at the given lowest bits. -/
def bits (w : Nat) (l : List (Nat × Nat)) : BitVec w := BitVec.ofNat w (l.foldl (fun a p => a + p.2 * 2 ^ p.1) 0)

/-- A step or a command answers a next state, of which a test holds. -/
def goes (o : Host.Outcome State Fault Refusal) (p : State → Bool) : Bool :=
  match o with
  | .next t => p t
  | .fault _ => false
  | .refused _ => false

/-- An engine in full service, with its mainband up. -/
def up : State :=
  { curator := { stage := .d, powerGood := true }, carrier := { mainband := true } }

/-- The same at a frame. -/
def at_ (frame : Nat) (cycle : Nat := 0) : State := { up with time := { frameExt := frame, cycle := cycle, state := .coarse } }

/-- The same with one port in a state. -/
def withPort (p : PortState) : State := { at_ 1000 with fabric := { ports := Vector.replicate 4 p } }

/-! ## The queue and the clock -/

theorem witness_EmptyQueueTicks : up.pending = [] ∧ up.curator.stage ≠ .none ∧ up.time.cycle < 159999 ∧
    (at_ 0 159999).pending = [] ∧ 159999 ≤ (at_ 0 159999).time.cycle ∧
    State.reset.pending = [] ∧ State.reset.curator.stage = .none := by decide +kernel

/-- The last cycle before a boundary is 159,999 (02 R24). -/
theorem test_tick : goes (step (at_ 5 159998)) (fun t => t == at_ 5 159999) = true := by decide +kernel

/-- What the front of the queue answers to. -/
theorem test_queue : goes (step { State.reset with pending := [.podlPowerUp, .podlPowerLoss] })
    (fun t => t.curator.field.podl && t.pending == [.podlPowerLoss]) = true := by decide +kernel

/-- The form that every step keeps holds of the state after reset: the premise of StepsKeepTheForm and RunsNeverStop. -/
theorem witness_StepsKeepTheForm : State.reset.formed ∧ up.formed := by
  unfold State.formed State.timeFormed State.storeFormed State.batteryFormed State.syncFormed; decide +kernel

/-! ## The time -/

theorem witness_TimeCompletes :
    (up.curator.stage ≠ .none ∧ up.mainUp = true) ∧
    (let s := { up with time := { state := .holdover, holdoverSince := some 5, frameExt := 5 + up.cfg Od.holdoverAlignFrames } }
     s.time.holdoverSince = some 5 ∧ s.time.state = .holdover ∧ s.time.holdoverReported = false ∧
       5 + s.cfg Od.holdoverAlignFrames ≤ s.frame) ∧
    (let s := { up with time := { state := .synced, syncedSince := some 5, frameExt := 6000005 } }
     s.time.syncedSince = some 5 ∧ s.time.state = .synced ∧ 5 + 6000000 ≤ s.frame) ∧
    (let s := at_ 20000
     s.ppsActive = true ∧ s.time.cycle = 0 ∧ s.frame % 10000 = 0) ∧
    up.cwOpen .hostS = true := by decide +kernel

/-- FRAME_EXT 10,000 and cycle 1 are one second and 625 ps (02 R23, R24). -/
theorem test_time : (at_ 10000 1).timePs = 1000000000625 ∧ (at_ 10000 1).timeNs = 1000000000 ∧ (at_ 10000 1).timeFormed := by
  unfold State.timeFormed; decide +kernel

theorem witness_FrameIsTheTime : (at_ 7 0).timeFormed ∧ (at_ 7 159999).timeFormed := by
  unfold State.timeFormed; decide +kernel

/-- 02 R47: a frame number half the range ahead is read as behind, and one that is not yet past 0 as 0. -/
theorem test_extend : (at_ 0x1FFFFFFFF).extend 0 = 0x200000000 ∧ (at_ 0x100000000).extend 0xFFFFFFFF = 0xFFFFFFFF ∧
    (at_ 5).extend 0x7FFFFFFF = 0x7FFFFFFF ∧ (at_ 5).extend 0x80000005 = 0 := by decide +kernel

theorem witness_FrameNumbersExtend : (0 < 2 ^ 32 ∧ 2 ^ 32 - 1 < 2 ^ 32) ∧
    (let s := at_ (2 ^ 31); (2 ^ 32 - 1 < s.frame + 2 ^ 31 ∧ s.frame ≤ 2 ^ 32 - 1 + 2 ^ 31) ∧
      (0 < s.frame + 2 ^ 31 ∧ s.frame ≤ 0 + 2 ^ 31)) := by decide +kernel

/-- A peer's Announce that is worse than this engine's own. -/
def announce (priority : BitVec 8) : AnnounceBody :=
  { priority1 := priority, clockClass := 13, accuracy := 0xFE, variance := 0xFFFF, priority2 := 128, gmIdentity := 9,
    stepsRemoved := 0 }

/-- An engine with its ports up and its trim valid. -/
def ptp (x : PtpPort) (st : TimeState) : State :=
  { up with
    time := { state := st, frameExt := 50, ports := Vector.replicate 4 x, parent := some 1 },
    fabric := { ports := Vector.replicate 4 { state := .up } },
    od := [(Od.trimValid.key, 1)] }

def ptpHdr : PtpHeader := { domain := 0, seqId := 3, source := 4, correction := 0 }

theorem witness_ClockSyncCompletes :
    (let s := ptp { pendingSync := some (3, 4, 5, 6), pdelaySent := some (3, 7), pdelayRsp := some (8, 9) } .synced
     s.ptpHears 0 ptpHdr = true ∧ s.time.ports[(0 : Port)].pendingSync = some (ptpHdr.seqId, ptpHdr.source, 5, 6) ∧
       s.time.ports[(0 : Port)].pdelaySent = some (ptpHdr.seqId, 7) ∧ s.time.ports[(0 : Port)].pdelayRsp = some (8, 9)) ∧
    (ptp {} .synced).ptpHears 0 { ptpHdr with domain := 1 } = false ∧ State.reset.ptpHears 0 ptpHdr = false ∧
    (let s := ptp {} .grandmaster
     s.masterPort 0 = true ∧ s.mainUp = true ∧ s.bmca.masterPort 0 = true ∧ s.ptpPort 0 = true) ∧
    ((ptp {} .synced).time.state = .synced ∧ (ptp {} .synced).time.parent = some 1) := by decide +kernel

/-! ## The carrier -/

/-- A D2D transaction header: type, tag, length, AUX and status (03 Table 03-2). -/
def d2d (type tag len : Nat) (aux : Nat := 0) (status : Nat := 0) : BitVec 128 :=
  bits 128 [(0, tag), (27, type), (32, len), (48, aux), (56, status)]

/-- An outstanding request of the carrier. -/
def req (kind : MemKind) (owner : ReqOwner) : D2dReq :=
  { tag := 3, kind := kind, addr := 0x1000, len := 1, frame := 5, owner := owner, extent := none, cells := [] }

def asked (kind : MemKind) (owner : ReqOwner) : State :=
  { at_ 900 with carrier := { mainband := true, reqs := [req kind owner] } }

theorem witness_CarrierRepliesComplete :
    (let s := asked .read (.sqRead 1 2)
     let h := d2d 2 3 1
     let p : Bytes := List.replicate 64 0
     s.carrier.mainband = true ∧ s.answered h .read = some (req .read (.sqRead 1 2)) ∧ dStatus h = 0 ∧
       d2dFormed h p 2 = true ∧ dLen h = 1) ∧
    ([ReqOwner.cqWrite 1 2, .sliceWrite 4].all fun o =>
      let s := asked .write o
      let h := d2d 4 3 0
      decide (s.carrier.mainband = true ∧ s.answered h .write = some (req .write o) ∧ dStatus h = 0 ∧
        d2dFormed h [] 4 = true ∧ dLen h = 0)) = true ∧
    ([ReqOwner.sliceRead 1 2 3, .sliceWrite 1, .sqRead 1 2, .cqWrite 1 2, .serveRead 4, .orphan].all fun o =>
      let s := asked .read o
      decide (s.carrier.reqs.find? (fun x => x.tag == (3 : BitVec 16).toNat) = some (req .read o) ∧
        (req .read o).frame + s.cfg Od.d2dCplTimeoutFrames ≤ s.frame)) = true := by decide +kernel

/-- A state with a registered Holding of job 0, open for the non-secure host. -/
def holding (kind role : Nat) (format : Nat := 2) (dims : List Nat := [4096]) : Holding :=
  { desc := bits 512 ([(0, 7), (16, kind), (24, format), (28, role), (448, 1)] ++
      (dims.zipIdx.map fun p => (64 + 32 * p.2, p.1))), job := 0, extents := [1] }
/-- A state with a registered Holding of the non-secure host's job 0. -/
def held (h : Holding) : State :=
  { at_ 100 with
    carrier := { mainband := true, holdings := [h], pendingExt := [{ holding := 7, extent := 0, frame := 5, reported := false }] }
    jobs := Vector.replicate 4 { open_ := true } }

/-- A descriptor is legal: it has a size, an extent, and room for its elements (03 Table 03-8). -/
theorem test_descriptor : badDescriptor (holding 0 0).desc = false ∧ (holding 0 0).count = 4096 ∧
    badDescriptor (holding 0 0 (dims := [])).desc = true ∧ badDescriptor (holding 0 8).desc = true ∧
    badDescriptor (holding 0 0 5).desc = true := by decide +kernel

theorem witness_CarrierMessagesComplete :
    (dType (d2d 0 0 0) = 0 ∧ d2dFormed (d2d 0 0 0) [] 0 = true ∧ dLen (d2d 0 0 0) = 0) ∧
    (up.carrier.mainband = true ∧ d2dFormed (d2d 10 0 0) [] 10 = true ∧ up.time.timeReqFrame ≠ some up.frame) ∧
    -- the last stack, and a grant of 100 percent
    (d2dFormed (d2d 11 0 0 (31 + 32 * 3)) [] 11 = true ∧ dAux (d2d 11 0 0 (31 + 32 * 3)) % 32 < up.cfg Od.stackCount) ∧
    (d2dFormed (d2d 12 0 0 100) [] 12 = true ∧ dLen (d2d 12 0 0 100) = 0 ∧ dAux (d2d 12 0 0 100) ≤ 100) ∧
    (let x : Stack := { since := some 0 }
     let s := { at_ 20000 with carrier := { mainband := true, thermStacks := Vector.replicate 32 x } }
     s.carrier.thermStacks.toList[(31 : BitVec 5).toNat]? = some x ∧ x.stale = false ∧ x.since = some 0 ∧
       0 + s.cfg Od.thermStaleFrames ≤ s.frame ∧ (31 : BitVec 5).toNat < s.cfg Od.stackCount) ∧
    (let s : State := { up with carrier := {} }
     s.curator.powerGood = true ∧ s.curator.stage ≠ .none ∧ s.carrier.mainband = false) ∧
    (up.odGet Od.d2dModuleRetiredMask / 2 ^ (15 : BitVec 4).toNat % 2 = 0) ∧
    (let s := held (holding 0 0)
     s.odCheck .hostNs Od.extentUpdate.key (leBytes 16 7) = 0 ∧ (s.extentWrite .hostNs (leBytes 16 7)).1 = 0 ∧
       s.carrier.pendingExt.find? (fun x => x.holding == (7 : BitVec 12).toNat && x.extent == (0 : BitVec 32).toNat) =
         some { holding := 7, extent := 0, frame := 5, reported := false }) ∧
    (let s := { held (holding 0 0) with time := { frameExt := 1005 } }
     5 + s.cfg Od.xlatWaitLimitFrames ≤ s.frame ∧ s.sched.tasks.filter (fun t => s.waitsExtent t 7 0) = []) := by
  decide +kernel

theorem witness_MalformedCarrierMessages :
    up.carrier.mainband = true ∧ up.answered (d2d 2 3 1) .read = none ∧ up.answered (d2d 4 3 0) .write = none ∧
    d2dFormed (d2d 10 0 1) [] 10 = false ∧
    up.cfg Od.stackCount ≤ 32 ∧ ({ up with od := [(Od.stackCount.key, 31)] } : State).cfg Od.stackCount ≤ dAux (d2d 11 0 0 31) % 32 ∧
    100 < dAux (d2d 12 0 0 101) ∧ State.reset.carrier.mainband = false := by decide +kernel

/-- A pair of the non-secure host. -/
def pair (o : Host2) : QueuePair := { q := 5, owner := o, sqBase := 0x1000, cqBase := 0x2000, sqLog2 := 4, cqLog2 := 4, vector := 1 }

theorem witness_WindowAccesses :
    up.cwOpen .hostS = true ∧
    (up.cwDenied .hostS 0xF8 false = false ∧ cwMisaligned 0xF8 8 = false) ∧
    (up.cwDenied .hostS 0xFC true = false ∧ cwMisaligned 0xFC 4 = false) ∧
    (up.cwDenied .hostNs 0x18000 false = true ∧ up.cwDenied .hostS 0x17FFC false = true ∧
      up.cwDenied .hostS 0x280000 true = true ∧ up.cwDenied .hostNs 0x280000 false = true) ∧
    (up.cwDenied .hostS 0xFC false = false ∧ cwMisaligned 0xFC 8 = true ∧ cwMisaligned 0xFC 2 = true) := by decide +kernel

theorem witness_SidebandServesTheFirstPage :
    (let s : State := { up with carrier := {} }
     CwPath.hostNs ≠ .debug ∧ s.carrier.mainband = false ∧ s.curator.powerGood = true ∧ s.curator.stage ≠ .none ∧
       (0xF8 : BitVec 24).toNat % (8 : BitVec 8).toNat = 0 ∧ (0xFC : BitVec 24).toNat < 0x100) ∧
    0x100 ≤ (0x100 : BitVec 24).toNat := by decide +kernel

/-! ## Sync words, Docent and mailboxes -/

def th : Thread := { core := 19, thread := 3 }

/-- A sync word and its neighbours at their reset values. -/
def sync (x : SyncWord) (waiters : List Waiter := []) : State :=
  { at_ 50 with sync := { words := [(7, x)], waiters := waiters } }

theorem witness_SyncOperationsRun :
    (let s := sync { data := 9 }
     s.threadBusy th = false ∧ (s.core th.core).gated = false ∧ s.logFull th.core = false) ∧
    (up.cwOpen .hostNs = true ∧ ({ up with elec := { tap := .debug } } : State).cwOpen .debug = true ∧ CwPath.hostNs ≠ .debug) ∧
    (let y : Waiter := { who := th, word := 7, op := .readFf, frame := 3 }
     let s := sync {} [y]
     s.waiter? th = some y ∧ s.mainUp = true ∧ (s.core th.core).frozen = none) := by decide +kernel

theorem witness_SyncEffects : (sync { data := 9 }).syncFormed ∧
    (let s := sync { data := 5 * 2 ^ 32 + 4 }
     (4 : BitVec 64).toNat ≤ tallyCount (s.syncWord 7).data ∧ tallyCount (s.syncWord 7).data < (5 : BitVec 64).toNat) := by
  unfold State.syncFormed; decide +kernel

/-- A tally fills its word at its target, and is emptied below it (14 R369); a sum wraps (14 Table 14-2). -/
theorem test_tally :
    let s := sync { data := 5 * 2 ^ 32 + 4 }
    let up1 := (s.syncEffect (.thread th) 2 7 (.tallyAdd 1)).2.syncWord 7
    let w := sync { data := 2 ^ 64 - 1 }
    up1.data = 5 * 2 ^ 32 + 5 ∧ up1.full = true ∧ (s.syncEffect (.thread th) 2 7 (.tallySub 5)).1 = noteCode 1 ∧
      ((w.syncEffect (.thread th) 2 7 (.fetchAdd 2)).2.syncWord 7).data = 1 := by decide +kernel

theorem witness_UnmetConditionWaits :
    (let s := sync { data := 9 }
     s.threadBusy th = false ∧ (s.core th.core).gated = false ∧ s.logFull th.core = false ∧
       (s.syncWord (7 : BitVec 16).toNat).full = false) ∧
    (let s := sync { data := 9, full := true }
     s.threadBusy th = false ∧ (s.syncWord (7 : BitVec 16).toNat).full = true) := by decide +kernel

theorem witness_OwnerResetUnclaims : (sync { data := 9 }).syncFormed ∧
    (sync { data := 9 }).odCheck .hostS Od.syncOwnerReset.key [1] = 0 ∧ (1 : BitVec 8).toNat = Agent.hostS.code ∧
    (sync { data := 9 }).odCheck .hostS Od.syncOwnerReset.key [0] = 0 ∧ (0 : BitVec 8).toNat ≠ Agent.hostS.code := by
  unfold State.syncFormed; decide +kernel

/-- A state with every Docent core in a state. -/
def cores (c : DocentCore) : State := { at_ 50 1600 with docent := { cores := Vector.replicate 20 c } }

theorem witness_DocentCompletes :
    (up.cwOpen .hostS = true ∧ CwPath.hostS ≠ .debug ∧ 4 < (5 : BitVec 32).toNat) ∧ up.mainUp = true ∧
    (up.odCheck .hostS Od.syncOwnerReset.key [1] = 0 ∧ (up.ownerResetWrite .hostS 1).1 = 0) ∧
    (let s := cores { phys := 2 }
     s.cfg Od.lendEnable = 1 ∧ (s.core 19).frozen = none ∧ s.coreQuiet 19 15 = true ∧
       (s.bump Od.docentFaultCount).trialing = false ∧ 1600 ≤ s.time.cycle ∧ (at_ 50 1599).time.cycle < 1600) ∧
    (let s := cores { phys := 2, frozen := some (48, 2) }
     (s.core 19).frozen = some (48, 2) ∧ 48 + 2 ≤ s.frame ∧ (s.core 19).pinSwap = false ∧
       s.docent.spares = 20 :: [21, 22, 23]) := by decide +kernel

/-- A state with every channel in a state. -/
def boxes (m : Mailbox) : State := { at_ 50 with mboxes := Vector.replicate 16 m }

theorem witness_MailboxCompletes :
    (up.cwOpen .hostNs = true ∧ mboxStatus .hostNs 7 0x200 4 = 0 ∧ mboxStatus .hostS 15 0x200 4 = 0 ∧
      mboxStatus .hostNs 7 0xFC 4 = 0 ∧ up.mboxes[(7 : Channel)].h2eBusy = false ∧ up.mainUp = true ∧
      up.mboxes[(7 : Channel)].e2hValid = false) ∧
    (let s := boxes { e2hValid := true, e2hFrame := some 30 }
     mboxStatus .hostNs 7 0x210 4 = 0 ∧ s.mboxes[(7 : Channel)].e2hValid = true ∧
       s.mboxes[(7 : Channel)].e2hFrame = some 30 ∧ 30 + s.cfg Od.mboxTimeoutFrames ≤ s.frame) ∧
    (let m : Mailbox := { h2eBusy := true, snapshot := some (List.replicate 256 0), h2eFrame := some 30 }
     let s := boxes m
     s.mboxes[(7 : Channel)].h2eBusy = true ∧ s.mboxes[(7 : Channel)].snapshot.map msgSeq = some (0 : BitVec 16).toNat ∧
       s.mboxes[(7 : Channel)].h2eFrame = some 30 ∧ 30 + s.cfg Od.mboxTimeoutFrames ≤ s.frame) ∧
    (let s := boxes { late := [6] }
     s.mboxes[(7 : Channel)].h2eBusy = false ∧ (6 : BitVec 16).toNat ∈ s.mboxes[(7 : Channel)].late) := by decide +kernel
/-! ## Queue pairs and tasks -/

/-- A task of the non-secure host: its type, and the fields of its record beyond. -/
def task (ty : Nat) (fields : List (Nat × Nat) := []) : Task :=
  { id := 4, qp := 5, owner := .ns, record := bits 1024 ((0, ty) :: fields) }

/-- A state that holds one task, with every job open. -/
def runs (t : Task) : State := { at_ 900 with sched := { tasks := [t] }, jobs := Vector.replicate 4 { open_ := true } }

/-- The same with Holdings. -/
def runsOn (t : Task) (hs : List Holding) : State := { runs t with carrier := { mainband := true, holdings := hs } }

/-- The same with every job's Weld state. -/
def paired (t : Task) (w : Weld) : State := { runs t with welds := Vector.replicate 4 w }

theorem witness_QueueRowsComplete :
    (let p : QueuePair := { pair .ns with fetched := [bits 1024 []] }
     let s := { up with sched := { qps := [p], bells := [(5, 0)] } }
     s.cwOpen .hostNs = true ∧ s.qp? (5 : BitVec 6).toNat = some p ∧ pathHost .hostNs = some p.owner ∧ p.dying = false ∧
       (15 : BitVec 32).toNat % 65536 < 2 ^ p.sqLog2 ∧ (15 : BitVec 32).toNat % 65536 < 2 ^ p.cqLog2 ∧
       s.sched.bells = (5, 0) :: [] ∧ p.stopped = false ∧ p.fetched = bits 1024 [] :: []) ∧
    (let v := leBytes 32 (5 + 4 * 2 ^ 8 + 12 * 2 ^ 16 + 2 ^ 24 + 0x1000 * 2 ^ 64 + 0x2000 * 2 ^ 128)
     up.odCheck .hostNs Od.qpCreate.key v = 0 ∧ hostOf .hostNs = some .ns ∧ v.length = 32 ∧
       (pairOf (leNat v) .ns).illegal = false ∧ up.qp? (pairOf (leNat v) .ns).q = none ∧ up.sched.creating = []) ∧
    (let s := { up with sched := { qps := [pair .ns] } }
     s.odCheck .hostNs Od.qpDestroy.key (leBytes 1 5) = 0 ∧ (s.destroyWrite .hostNs 5).1 = 0) ∧
    (let p := { pair .ns with dying := true }
     let s := { up with sched := { qps := [p] } }
     s.qp? (5 : BitVec 6).toNat = some p ∧ p.dying = true ∧ p.pendingCt = 0 ∧ p.entries = []) := by decide +kernel

/-- The bits of a Holding descriptor at those of a task record. -/
def goodDesc : Nat := (holding 0 0).desc.toNat

theorem witness_JobRowsComplete :
    (runs (task 0x00)).runs 4 0x00 (task 0x00) ∧
    (let s := { runs (task 0x01) with jobs := Vector.replicate 4 {}, time := { state := .holdover } }
     s.runs 4 0x01 (task 0x01) ∧ (s.job (task 0x01).job).open_ = false) ∧
    (runs (task 0x02)).runs 4 0x02 (task 0x02) ∧
    (let t := task 0x03 [(256, goodDesc)]
     (runs t).runs 4 0x03 t ∧ ((runs t).begun 4).refuseHolding (BitVec.ofNat 512 (t.f 767 256)) = 0 ∧
       ((runs t).begun 4).d2dDown = false) ∧
    (let t := task 0x04 [(256, 7)]
     (runsOn t [holding 0 0]).runs 4 0x04 t ∧ ((runsOn t [holding 0 0]).begun 4).holdingIn t.job (t.f 267 256) = some (holding 0 0)) ∧
    (let t := task 0x05 [(256, 9)]
     let u := { task 0x11 [(16, 9)] with id := 6 }
     let s := { runs t with sched := { tasks := [t, u], tags := [(.ns, 9, .pending)] } }
     s.runs 4 0x05 t ∧ t.f 279 278 = 0 ∧ (s.begun 4).tagState t.owner (t.f 271 256) = some .pending ∧
       (s.begun 4).sched.tasks.find? (fun u => u.owner == t.owner && u.tag == t.f 271 256) = some u ∧
       (s.begun 4).notCancellable u = false ∧ ((runs t).begun 4).tagState t.owner (t.f 271 256) = none ∧
       (({ s with sched := { s.sched with tags := [(.ns, 9, .doneOk)] } } : State).begun 4).tagState t.owner (t.f 271 256) =
         some .doneOk) ∧
    (runs (task 0x06)).runs 4 0x06 (task 0x06) := by
  unfold State.runs; decide +kernel

/-- A job's counters. -/
def counted (t : Task) (j : Job) : State := { runs t with jobs := Vector.replicate 4 j }

theorem witness_StepMarkOutcomes :
    (let t := task 0x10 [(128, 6)]
     let s := counted t { open_ := true, c := 5, v := 5 }
     s.runs 4 0x10 t ∧ t.f 257 256 = 0 ∧ t.step = (s.job t.job).c + 1 ∧ (s.job t.job).badVerdict = false ∧
       (s.begun 4).markHeld t.job = false ∧
       (counted t { open_ := true, c := 5, v := 4 }).markHeld t.job = false ∧
       (counted (task 0x10 [(128, 201)]) { open_ := true, c := 200, v := 0 }).markHeld t.job = true) ∧
    (let t := task 0x10 [(128, 6)]
     let s := counted t { open_ := true, c := 5, v := 5, badVerdict := true }
     s.runs 4 0x10 t ∧ (s.job t.job).badVerdict = true) ∧
    (let t := task 0x10 [(128, 7)]
     (counted t { open_ := true, c := 5 }).runs 4 0x10 t ∧ t.f 257 256 = 0 ∧ t.step ≠ 5 + 1) ∧
    (let t := task 0x10 [(128, 4), (256, 1)]
     let s := counted t { open_ := true, c := 5, v := 3, badVerdict := true }
     s.runs 4 0x10 t ∧ t.f 257 256 ≠ 0 ∧ t.step = (s.job t.job).v + 1) ∧
    (let t := task 0x10 [(128, 5), (256, 1)]
     (counted t { open_ := true, c := 5, v := 3, badVerdict := true }).runs 4 0x10 t ∧ t.step ≠ 3 + 1) := by
  unfold State.runs; decide +kernel

theorem witness_LagHoldsTheMark :
    let limit := up.cfg Od.mirrorLagLimit
    (let w : Weld := { state := .paired, confirmed := true }
     let s := { paired (task 0) w with jobs := Vector.replicate 4 { open_ := true, c := limit, m := 0 } }
     (s.weld 3).state = .paired ∧ (s.weld 3).outStale = none ∧ (s.weld 3).confirmed = true ∧
       s.cfg Od.mirrorLagLimit + (s.job 3).m < (s.job 3).c + 1) ∧
    (let w : Weld := { state := .paired, confirmed := true }
     let s := { paired (task 0) w with jobs := Vector.replicate 4 { open_ := true, c := limit, m := 1 } }
     s.cfgStep 3 Od.ledgerPolicy ≠ 1 ∧ (s.job 3).c + 1 ≤ s.cfg Od.mirrorLagLimit + (s.job 3).m) ∧
    (let s := counted (task 0) { c := limit }
     (s.weld 3).state ≠ .paired ∧ s.cfg Od.mirrorLagLimit + (s.job 3).v < (s.job 3).c + 1) ∧
    (let s := counted (task 0) { c := limit, v := 1 }
     s.cfgStep 3 Od.ledgerPolicy ≠ 1 ∧ (s.job 3).c + 1 ≤ s.cfg Od.mirrorLagLimit + (s.job 3).v) := by decide +kernel

/-- A power state, with frames of idleness. -/
def powered (p : PowerState) (idle : Nat) (leaving : Bool := false) : State :=
  { up with sched := { power := p, idleFrames := idle, exiting := leaving } }

theorem witness_PowerStates :
    (let s := powered .e0 (up.cfg Od.e1IdleFrames)
     s.sched.exiting = false ∧ s.sched.power = .e0 ∧ s.cfg Od.e1IdleFrames ≤ s.sched.idleFrames ∧
       1 ≤ s.cfg Od.powerStateLimit) ∧
    (let s := powered .e1 (up.cfg Od.e2IdleFrames)
     s.cfg Od.e2IdleFrames ≤ s.sched.idleFrames ∧ s.anyJob = false ∧ 2 ≤ s.cfg Od.powerStateLimit) ∧
    (let s := { powered .e2 (up.cfg Od.e3IdleFrames) with od := [(Od.powerStateLimit.key, 3)] }
     s.cfg Od.e3IdleFrames ≤ s.sched.idleFrames ∧ s.anyJob = false ∧ 3 ≤ s.cfg Od.powerStateLimit) ∧
    (powered .e3 0).sched.power = .e3 ∧ (powered .e1 0).sched.power ≠ .e0 ∧ (powered .e1 0 true).sched.exiting = true ∧
    (up.odCheck .hostS Od.powerStateLimit.key [3] = 0 ∧ (acceptSetting Od.powerStateLimit.key 3 up).1 = 0 ∧
      up.odCheck .hostS Od.powerStateLimit.key [0] = 0) := by decide +kernel

/-! ## The update unit, Woad and Madder -/

/-- A Holding of a number, KIND, ROLE, FORMAT and sizes, with one valid extent. -/
def hold (id kind role format : Nat) (dims : List Nat) : Holding :=
  { holding kind role format dims with
    desc := bits 512 ([(0, id), (16, kind), (24, format), (28, role), (32, dims.length - 1), (448, 1)] ++
      (dims.zipIdx.map fun p => (64 + 32 * p.2, p.1)) ++ (if dims.length == 2 then [(192, dims.headD 0)] else [])) }

/-- An SGDM UPDATE of step 5 over n elements: MASTER 11, MOMENT1 12, gradient 10. -/
def sgd (n : Nat) : Task :=
  task 0x11 [(128, 5), (192, n), (256, 2), (288, 0xFFFF), (304, 11), (320, 12), (336, 0xFFFF), (352, 10),
    (368, 0xFFFF), (384, 0xFFFF)]

def sgdHoldings : List Holding := [hold 10 2 4 0 [4], hold 11 0 1 0 [4], hold 12 0 2 0 [4]]

/-- Every job at step 5, its mark accepted. -/
def atStep5 (s : State) : State := { s with jobs := Vector.replicate 4 { open_ := true, c := 5, v := 4 } }

/-- A WOAD_COMPRESS of step 5 over 2 rows of 4: gradient 10, EF 11, factors 12, rank 4. -/
def woad (phase : Nat) (reset : Nat := 0) : Task :=
  task 0x12 [(128, 5), (192, 8), (256, phase), (258, reset), (320, 4), (336, 10), (352, 11), (368, 12), (392, 6), (416, 9)]

def woadHoldings : List Holding := [hold 10 2 4 0 [4, 2], hold 11 0 5 0 [4, 2], hold 12 3 4 0 [4, 6]]

/-- The factor set that its PHASE 0 leaves. -/
def projected : FactorSet :=
  { job := 0, holding := 12, state := .projected, step := 5, rank := 4, tensor := 9, gradient := 10, ef := 11, nrows := 2, ncols := 4,
    efReset := false, pieceLog2 := 6, pieceSync := 0, level := 0 }

/-- A MIRROR_APPLY of step 4 of the partner's first entry, over 4 elements: the bound MIRROR Holdings 21 and 22. -/
def mirror : Task :=
  task 0x16 [(128, 4), (192, 4), (256, 2), (273, 2), (288, 0xFFFF), (304, 21), (320, 22), (336, 0xFFFF), (352, 0xFFFF),
    (368, 0xFFFF), (384, 0xFFFF)]

def mirrorEntry : BitVec 1024 :=
  bits 1024 [(120, 2), (160, 0xFFFF), (176, 11), (192, 12), (208, 0xFFFF), (224, 0xFFFF), (240, 0xFFFF), (384, 4)]

def mirrorWeld : Weld :=
  { state := .paired, partner := 8, mode := .replay, binds := [(21, 11), (22, 12)]
    inRecords := [{ step := 4, head := 0, entries := [mirrorEntry], data := [], digests := [], parts := 1, lastPart := true,
                    complete := true, applied := [], written := [] }] }

theorem witness_SlicedTasksStart :
    (let t := sgd 4
     let s := atStep5 (runsOn t sgdHoldings)
     s.runs 4 0x11 t ∧ t.failWith = none ∧ t.updateMalformed = false ∧ (s.begun 4).updateFault t = none ∧ (s.begun 4).d2dDown = false) ∧
    (let t := woad 0 1
     let s := atStep5 (runsOn t woadHoldings)
     s.runs 4 0x12 t ∧ t.woadMalformed = false ∧ (s.begun 4).woadFault t = none ∧ (s.begun 4).d2dDown = false ∧
       t.wPhase = 0 ∧ t.wEfReset = true ∧ (s.begun 4).efGap t = 0) ∧
    (let t := woad 1
     let s := { atStep5 (runsOn t woadHoldings) with woad := { sets := [projected] } }
     s.runs 4 0x12 t ∧ (s.begun 4).woadFault t = none) ∧
    (let t := mirror
     let s := { atStep5 (runsOn t [hold 21 1 1 0 [4], hold 22 1 2 0 [4]]) with welds := Vector.replicate 4 mirrorWeld }
     s.runs 4 0x16 t ∧ t.gradSrc = 2 ∧ t.roleHid 4 = 0xFFFF ∧ (∀ r ∈ laneRoles, badHidField (t.roleHid r) = false) ∧
       (s.begun 4).applyFault t = none ∧ (s.begun 4).d2dDown = false ∧ (s.begun 4).applyEntry t = some mirrorEntry) ∧
    (let s := { up with update := { kernelsNext := some {} } }
     s.update.kernelsNext = some {} ∧ s.time.cycle = 0 ∧ (∀ t ∈ s.sched.tasks, t.type ≠ 0x11 ∧ t.type ≠ 0x12 ∧ t.type ≠ 0x16)) := by
  unfold State.runs; decide +kernel

/-- The buffers of the operands of `sgd`, full of zeros. -/
def sgdBufs : List StreamBuf := sgdHoldings.map fun h =>
  { task := 4, holding := h.id, leaf := 0, waiting := 0, cells := (h.addrs 0 16).map fun a => (a, 0) }

theorem witness_GroupsIssue :
    (let t := { sgd 4 with phase := .running }
     let s := atStep5 (runsOn t sgdHoldings)
     s.carrier.mainband = true ∧ s.task? 4 = some t ∧ t.fetches = true ∧ s.groupToStart t = some 0 ∧
       (let seen := s.seePieces t (s.rowsFor t t.next (s.groupEnd t 0))
        (seen.groupBlocks t t.next 0).any (seen.lateBlock t) = false ∧ seen.groupToStart t = some 0)) ∧
    (let x : Slice := { start := 0, size := 4, issued := 0 }
     let t := { woad 1 with phase := .running, slice := some x }
     let s := atStep5 (runsOn t woadHoldings)
     s.task? 4 = some t ∧ t.slice = some x ∧ x.faulted = false ∧ t.lane = true ∧ x.issued < x.size ∧ t.type = 0x12 ∧ t.wPhase = 1 ∧
       x.ops = 0 ∧ (woad 0).wPhase = 0 ∧ (sgd 4).type ≠ 0x12 ∧ (sgd 4).pass ≠ 11) ∧
    (let t := { sgd 4 with phase := .running, runIn := 1 }
     let s := { atStep5 (runsOn t sgdHoldings) with time := { frameExt := 900, cycle := 157952 }, update := { streams := sgdBufs } }
     157952 ≤ s.time.cycle ∧ s.laneOrder = t :: [] ∧ 0 < t.runIn ∧ s.mayRunIn t = true ∧ t.next < s.runInEnd t 1 t.next t.len) := by
  decide +kernel

def suspect : LaneSuspect := { frame := 50, active := 3, shadow := 128, logical := 3 }

theorem witness_LaneAndArrayFaults :
    (let t := { sgd 4 with phase := .running, slice := some { start := 0, size := 4, issued := 0 } }
     let s := runs t
     s.task? 4 = some t ∧ s.shadowLane false = some 128 ∧ s.shadowLane true = some 129 ∧
       s.update.laneMap[(127 : BitVec 7).toNat]? = some 127 ∧ t.type = 0x11 ∧ t.runIn = 0 ∧ t.slicing = true) ∧
    (0 < ({ sgd 4 with runIn := 1 } : Task).runIn) ∧
    (let s := { at_ 51 with update := { suspect := [suspect] } }
     s.update.suspect = suspect :: [] ∧ suspect.frame + 1 ≤ s.frame ∧ s.pinned (partId 1 suspect.active) = false ∧
       s.pinned (partId 1 suspect.shadow) = false ∧ suspect.active ∉ s.update.retired ∧ suspect.shadow ∉ s.update.retired ∧
       suspect.active ∉ ((s.setUpdate fun u => { u with suspect := [] }).retireLane suspect.shadow).update.retired) ∧
    (let r : Residency := { job := 0, holding := some 12, step := 5, rank := 4, blocks := 1, q := [], snapshot := none, complete := true }
     let s := { up with woad := { cache := [r] } }
     s.residency? (0 : JobId).val (some (12 : BitVec 12).toNat) (5 : BitVec 64).toNat = some r ∧ r.snapshot = none) ∧
    (up.mainUp = true ∧ up.colSpares.isEmpty = false ∧
      (up.bump Od.arrayShadowMismatchCount).woad.suspect = none) ∧
    (let s := { at_ 51 with woad := { suspect := some 50 } }
     s.woad.suspect = some 50 ∧ 50 + 1 ≤ s.frame ∧ s.service.pins = []) := by decide +kernel

/-- The image of a generation of one FP8 table, each of whose 32 symbols has a code of 5 bits (07 Tables 07-3, 07-4). -/
def genBody : Bytes := leBytes 1 4 ++ List.replicate 7 0 ++ List.replicate 16 0x55 ++ List.replicate 112 0
def genImage : Bytes :=
  leBytes 2 0x4D61 ++ [0, 0] ++ [1, 0] ++ leBytes 2 7 ++ [1, 0, 0, 0] ++ leBytes 4 (crc32c genBody) ++ genBody

set_option maxRecDepth 100000 in
theorem test_genImage : (parseGen genImage).map (fun g => (g.id, g.tables.length)) = some (7, 1) ∧ parseGen (genImage ++ [0]) = none ∧
    parseGen [] = none := by decide +kernel

/-- A Leaf in quarantine of one element of FP32, in one escaped block. -/
def escaped : QLeaf :=
  { id := 3, owner := .mirror 4 0, format := 0, count := 1, coded := (encodeBlockBytes false [] 0 0 [1, 2, 3, 4]).1,
    digest := Config.sha3 [1, 2, 3, 4] % 2 ^ 256, holding := 10, leaf := 0 }

def inQuarantine (q : QLeaf) : State :=
  { at_ 50 with vault := { quarantine := [q] }
                carrier := { mainband := true, left := { read := 4096, write := 4096, galRead := 4096, galWrite := 4096, dec := 4096 },
                             bulkRead := 4096, bulkWrite := 4096 } }

/-- A block is a header of 8 bytes and the raw bytes, padded to 8 (07 R165), and decodes to what it was made of. -/
theorem test_escaped : escaped.coded.length = 16 ∧ decodeLeafBytes [] 0 1 escaped.coded = .raw [1, 2, 3, 4] := by decide +kernel

set_option maxRecDepth 100000 in
theorem witness_CoderCompletes :
    (let s := at_ 50
     s.odCheck .hostS Od.madderGenLoad.key genImage = 0 ∧ (s.genLoad genImage).1 = 0 ∧ (s.genLoad [1]).1 = abInvalid ∧
       s.odCheck .hostS Od.madderGenLoad.key [1] = 0 ∧ s.odCheck .hostS Od.madderGenRecall.key genImage = 0 ∧
       (s.genRecall genImage).1 = 0) ∧
    (let g : Generation := { id := 7, tables := [], image := [] }
     let s := { at_ 50 with madder := { load := some g, pendSince := 49 } }
     let r := { at_ 50 with madder := { recalled := some g, pendSince := 49 } }
     s.madder.load = some g ∧ s.time.cycle = 0 ∧ s.madder.pendSince < s.frame ∧ r.madder.load = none ∧ r.madder.recalled = some g) ∧
    (agentReads .docent = true ∧ up.mainUp = true) ∧
    (let e : EncLeaf := { id := 3, owner := .serve 0, format := 0, raw := [1, 2, 3, 4], gen := none, done := 0, coded := [] }
     let s := { up with madder := { enc := [e] } }
     s.madder.enc.find? (fun e => e.id == 3) = some e ∧ s.madder.encMap[(63 : BitVec 6).toNat]? = some 63 ∧ s.mainUp = true ∧
       s.verifyTurn (63 : BitVec 6).toNat 63 = false) ∧
    (let s := { up with madder := { suspect := [(true, 3, 0)] }, time := { frameExt := 1 } }
     s.madder.suspect.find? (fun x => x.1) = some (true, 3, 0) ∧ 0 + 1 ≤ s.frame ∧ s.pinned (partId 5 3) = false) := by decide +kernel

/-- A Leaf that can be decoded, and one that cannot. -/
theorem witness_CoderCompletes_decode :
    (∃ u, (inQuarantine escaped).vault.quarantine.find? (fun q => q.id == 3) = some escaped ∧
      (inQuarantine escaped).madder.decMap[(0 : BitVec 6).toNat]? = some 0 ∧ (inQuarantine escaped).mainUp = true ∧
      (inQuarantine escaped).writableQ escaped = true ∧
      (inQuarantine escaped).takeUnits (.restore ((inQuarantine escaped).writerOf escaped))
        ((inQuarantine escaped).restoreRank ((inQuarantine escaped).writerOf escaped)) (State.decodeUnits escaped) = some u ∧
      decodeLeafBytes u.liveGens escaped.format escaped.count escaped.coded = .raw [1, 2, 3, 4] ∧
      Config.sha3 [1, 2, 3, 4] % 2 ^ 256 = escaped.digest) ∧
    decodeLeafBytes [] 0 1 [1] = .bad 0x1020 0 1 :=
  ⟨⟨_, rfl, by decide +kernel, by decide +kernel, by decide +kernel, rfl, by decide +kernel, rfl⟩, by decide +kernel⟩

/-! ## The Gallery -/

def remap (stage : Nat) : RemapJob :=
  { channel := 40, row := 3, stage := stage, secondary := false, spare := 0, again := false, since := 5, found := 5, bad := [] }

theorem witness_GalleryCompletes :
    up.mainUp = true ∧ (at_ 50).opticsOn = true ∧ (at_ 50).gallery.scrubFrame ≤ (at_ 50).frame ∧
    (let s := { at_ 50 with gallery := { remaps := [remap 0] } }
     s.gallery.remaps.find? (fun j => j.channel / 32 == (1 : BitVec 2).toNat) = some (remap 0) ∧ (remap 0).since < s.frame ∧
       (remap 0).stage ≠ 1 ∧ (remap 0).stage ≠ 2 ∧ (spareOf s.gallery.spareNext 40).1 < 656 ∧ (remap 0).again = false ∧
       (remap 1).stage = 1) := by decide +kernel

/-- The worked example of 08 R185: which row, channel, granule and byte an address names. -/
theorem test_galleryAddress :
    let a : BitVec 35 := 0x13554DE40
    galRow a = 4949 ∧ galChannel a = 94 ∧ galGranule a = 9 ∧ galByte a = 0x40 ∧ slotByte a = 319040 := by decide +kernel

/-! ## The Weld -/

/-- A message's header, from engine 8. -/
def wh (type len : Nat) (step : Nat := 0) (aux : Nat := 0) (src : Nat := 8) : BitVec 256 :=
  BitVec.ofNat 256 (weldHdr step aux src 0 1 type 0 len)

/-- The pair of job 0 with engine 8. -/
def wpair : Weld := { state := .paired, partner := 8, mode := .replay }

/-- The state in which the meaning of a Weld message begins. -/
def afterSeq (s : State) (h : BitVec 256) : State :=
  ((s.setWeld (wJob h) fun w => { w with lastRx := some s.frame, rxThisFrame := true }).takeSeq (wJob h) h).1

def weldOk (s : State) (h : BitVec 256) (type size : Nat) : Bool :=
  !s.alarmed && !s.fromSpare (wJob h) h && wType h == type && s.weldPeer (wJob h) == some (wSrc h) && wLen h == size &&
    decide (size ≤ 1048576) &&
    ((s.setWeld (wJob h) fun w => { w with lastRx := some s.frame, rxThisFrame := true }).takeSeq (wJob h) h).2

theorem weldTakes_of {s : State} {h : BitVec 256} {type size : Nat} (ok : weldOk s h type size = true) :
    s.weldTakes h type size (afterSeq s h) := by
  simp only [weldOk, Bool.and_eq_true, Bool.not_eq_true', beq_iff_eq, decide_eq_true_eq] at ok
  obtain ⟨⟨⟨⟨⟨⟨a, b⟩, c⟩, d⟩, e⟩, f⟩, g⟩ := ok
  exact ⟨a, b, c, d, e, f, Prod.ext rfl g⟩

/-- A record of this engine of step 5, empty. -/
def outRec : OutRecord :=
  { step := 5, task := some 4, updates := [], openSent := true, staged := [], trailerSent := true, acked := false, ended := false,
    toVault := false, moved := false }

/-- A MASTER of the partner with a MOMENT1, in one span of 4 elements. -/
def grp : SpanGroup := { master := 11, hids := [0xFFFF, 11, 12, 0xFFFF, 0xFFFF, 0xFFFF], count := 4, span := 262144 }

def waiting : State := paired (task 0x13 [(128, 5)]) { wpair with outRecords := [outRec] }

theorem witness_WeldMessagesComplete :
    (waiting.weldTakes (wh 0x13 0 5) 0x13 0 (afterSeq waiting (wh 0x13 0 5)) ∧
      (let u := afterSeq waiting (wh 0x13 0 5)
       u.out? 0 5 = some outRec ∧
         (u.setOut 0 5 (fun r => { r with acked := true, ended := true })).ledgerTask 0 5 = some (task 0x13 [(128, 5)]))) ∧
    (let h := wh 0x14 0 5 (6 * 2 ^ 56)
     waiting.weldTakes h 0x14 0 (afterSeq waiting h) ∧
       (let u := afterSeq waiting h
        u.out? 0 5 = some outRec ∧ 1 ≤ wAux h 191 184 ∧ wAux h 191 184 ≤ 6 ∧
          (u.bump Od.recordLostCount).ledgerTask 0 5 = some (task 0x13 [(128, 5)]))) ∧
    (waiting.weldTakes (wh 0x30 0) 0x30 0 (afterSeq waiting (wh 0x30 0))) ∧
    (waiting.weldTakes (wh 0x20 16 5 5) 0x20 (8 + 8 * [(0 : BitVec 64)].length) (afterSeq waiting (wh 0x20 16 5 5))) ∧
    (waiting.weldTakes (wh 0x21 8) 0x21 (8 * [(0 : BitVec 64)].length) (afterSeq waiting (wh 0x21 8)) ∧ bitOf (wh 0x21 8) 191 = false) ∧
    (let s := paired (task 0) { wpair with inGroups := [grp], binds := [(21, 11), (22, 12)],
                                           inSpans := [{ master := 11, index := 0, stale := true, skip := 0, copy := 0 }] }
     let h := wh 0x22 4 5 (11 * 2 ^ 48)
     s.weldTakes h 0x22 [(0 : Byte), 0, 0, 0].length (afterSeq s h) ∧ unitsOf 4 ≤ s.partnerFree ∧
       ((afterSeq s h).weld 0).copies = [] ∧
       (let u := afterSeq s h
        let width := (((u.boundTo 0 (wAux h 191 176)).bind (u.holdingIn 0)).map (·.width)).getD 4
        ((u.weld 0).inGroups.flatMap (fun g => if g.hids.contains (wAux h 191 176)
          then (leafSpans g (wAux h 191 176) (wAux h 175 144) width).map (fun i => (g.master, i)) else [])).filter
          (fun x => match u.inSpan? 0 x.1 x.2 with
            | some y => y.stale || (u.weld 0).mode == .copy
            | none => false) = [(11, 0)])) ∧
    (waiting.weldTakes (wh 0x23 8) 0x23 (8 * [(0 : BitVec 64)].length) (afterSeq waiting (wh 0x23 8))) ∧
    (waiting.mainUp = true ∧ wType (wh 5 0) = 5 ∧ wLen (wh 5 0) = 0 ∧ (waiting.weld (wJob (wh 5 0))).partner = wSrc (wh 5 0)) ∧
    (let s := paired (task 0) { wpair with lastTx := some 3 }
     (s.weldPeer 3).isSome = true ∧ (s.weld 3).rxThisFrame = false ∧ (s.weld 3).lastTx = some 3 ∧
       3 + s.cfg Od.heartbeatFrames ≤ s.frame) := by
  refine ⟨⟨weldTakes_of (by decide +kernel), by decide +kernel⟩, ⟨weldTakes_of (by decide +kernel), by decide +kernel⟩,
    weldTakes_of (by decide +kernel), weldTakes_of (by decide +kernel), ⟨weldTakes_of (by decide +kernel), by decide +kernel⟩,
    ⟨weldTakes_of (by decide +kernel), by decide +kernel⟩, weldTakes_of (by decide +kernel), by decide +kernel, by decide +kernel⟩

/-- The head of a record of step 5 in REPLAY form, of one entry with no data (09 Table 09-6). -/
def recHead : BitVec 512 := bits 512 [(8, 1), (16, 0x4C47), (168, 1), (176, 1), (256, 192), (448, 5)]

/-- The head of a record of one Leaf of 4 bytes. -/
def leafHead : BitVec 512 := bits 512 [(8, 1), (16, 0x4C47), (168, 1), (176, 1), (224, 1), (256, 196), (448, 5)]

def inRec : InRecord :=
  { step := 5, head := leafHead, entries := [mirrorEntry + bits 1024 [(288, 4)]], data := [], digests := [], parts := 0, lastPart := false,
    complete := false, applied := [], written := [] }

/-- A pair whose partner's record of step 5 arrives. -/
def arriving (r : InRecord) : State := paired (task 0) { wpair with inRecords := [r] }

/-- A key store whose slot 2 (LINEAGE) holds a key. -/
def keyed (s : State) : State :=
  { s with sec := { slots := (Vector.replicate 64 ({} : KeySlot)).set 2 { state := .loaded, keyId := 1, ops := 0x3F, useMask := 0xFF } } }

theorem witness_RecordStream :
    (let h := wh 0x10 192 5
     waiting.weldTakes h 0x10 (64 + 128 * [mirrorEntry].length) (afterSeq waiting h) ∧
       recordUnits recHead [mirrorEntry] ≤ waiting.partnerFree ∧ (afterSeq waiting h).discardsRecord 0 5 = false ∧
       (afterSeq waiting h).headMalformed 0 h recHead [mirrorEntry] = false ∧
       recordUnits recHead [mirrorEntry] ≤ (afterSeq waiting h).partnerUnits) ∧
    (let h := wh 0x11 4 5
     let s := arriving inRec
     s.weldTakes h 0x11 [(0 : Byte), 0, 0, 0].length (afterSeq s h) ∧ (afterSeq s h).discardsRecord 0 5 = false ∧
       (afterSeq s h).in? 0 5 = some inRec ∧ inRec.complete = false ∧
       inRec.entries[wAux h 191 176]? = some (mirrorEntry + bits 1024 [(288, 4)]) ∧
       bitsOf (mirrorEntry + bits 1024 [(288, 4)]) 159 152 ≠ 0x10 ∧ inRec.data = []) ∧
    (let h := wh 0x12 0 5 (2 ^ 31)
     let r : InRecord := { inRec with data := [(0, 0, [0, 0, 0, 0])] }
     let s := arriving r
     s.weldTakes h 0x12 (40 * ([] : List (BitVec 320)).length) (afterSeq s h) ∧ (afterSeq s h).discardsRecord 0 5 = false ∧
       (afterSeq s h).in? 0 5 = some r ∧ r.complete = false ∧ r.parts = wAux h 191 160 ∧ r.lastPart = false ∧
       bitOf h 159 = true ∧ ({ r with digests := [], parts := 1, lastPart := true } : InRecord).countsAgree = true) ∧
    (let t := task 0x13 [(128, 5), (192, 64)]
     let s := keyed (atStep5 (paired t wpair))
     s.runs 4 0x13 t ∧ ((s.begun 4).weld t.job).state = .paired ∧
       (let v := (s.begun 4).withOut t.job t.step
        let r := { outRec with task := none, openSent := false, trailerSent := false }
        v.out? t.job t.step = some r ∧ t.len = v.bodyBytes r (v.copyForm t.job) ∧ v.keyStatus 2 = none)) := by
  refine ⟨⟨weldTakes_of (by decide +kernel), by decide +kernel⟩, ⟨weldTakes_of (by decide +kernel), by decide +kernel⟩,
    ⟨weldTakes_of (by decide +kernel), by decide +kernel⟩, ?_⟩
  unfold State.runs; decide +kernel

/-- Fields of a number that is put together from two parts. -/
theorem split_low (n k a f : Nat) (ha : a < 2 ^ n) : (a + 2 ^ n * f) % 2 ^ (n + k) % 2 ^ n = a := by
  rw [Nat.mod_mod_of_dvd _ (Nat.pow_dvd_pow 2 (Nat.le_add_right n k)), Nat.add_mul_mod_self_left]
  exact Nat.mod_eq_of_lt ha

theorem split_high (n k a f l w : Nat) (ha : a < 2 ^ n) (hf : f < 2 ^ k) :
    (a + 2 ^ n * f) % 2 ^ (n + k) / 2 ^ (n + l) % 2 ^ w = f / 2 ^ l % 2 ^ w := by
  have hlt : a + 2 ^ n * f < 2 ^ (n + k) := by
    have h : 2 ^ n * (f + 1) ≤ 2 ^ n * 2 ^ k := Nat.mul_le_mul_left _ hf
    rw [Nat.mul_add, ← Nat.pow_add] at h
    omega
  rw [Nat.mod_eq_of_lt hlt, Nat.pow_add, ← Nat.div_div_eq_div_mul, Nat.add_mul_div_left _ _ (Nat.two_pow_pos n),
    Nat.div_eq_of_lt ha, Nat.zero_add]

theorem shifted_zero (d j l w : Nat) (h : l + w ≤ j) : d * 2 ^ j / 2 ^ l % 2 ^ w = 0 := by
  have e : d * 2 ^ j = 2 ^ l * (2 ^ w * (d * 2 ^ (j - (l + w)))) := by
    rw [← Nat.mul_assoc, ← Nat.pow_add, Nat.mul_left_comm, ← Nat.pow_add, Nat.add_sub_cancel' h]
  rw [e, Nat.mul_div_cancel_left _ (Nat.two_pow_pos l), Nat.mul_mod_right]

/-- A payload with the AUTH that the pairing key gives it, from engine 8, of lineage 0: over the map digest of no Holdings, and
zeros below it. -/
def fieldsOf (d : Nat) (j : Nat) : Nat := d * 2 ^ j

def digestOfNone : Nat := Config.sha3 [] % 2 ^ 256

theorem fields_lt : fieldsOf digestOfNone 512 < 2 ^ 768 := by
  have h : ∀ a j k : Nat, a < 2 ^ k → a * 2 ^ j < 2 ^ (k + j) := fun a j k ha => by
    rw [Nat.pow_add]; exact Nat.mul_lt_mul_of_pos_right ha (Nat.two_pow_pos j)
  have e := h digestOfNone 512 256 (Nat.mod_lt _ (Nat.two_pow_pos 256))
  exact e

def authOf (s : State) (h : BitVec 256) : Nat :=
  Config.kmac (((s.pairKey 0).1).getD 0) 1 (beBytes 32 h.toNat ++ beBytes 96 (fieldsOf digestOfNone 512)) % 2 ^ 256

theorem appended (n k a f : Nat) (ha : a < 2 ^ n) (hf : f < 2 ^ k) :
    (BitVec.ofNat k f ++ BitVec.ofNat n a).toNat = (a + 2 ^ n * f) % 2 ^ (n + k) := by
  have hlt : a + 2 ^ n * f < 2 ^ (n + k) := by
    have h : 2 ^ n * (f + 1) ≤ 2 ^ n * 2 ^ k := Nat.mul_le_mul_left _ hf
    rw [Nat.mul_add, ← Nat.pow_add] at h
    omega
  rw [BitVec.toNat_append, BitVec.toNat_ofNat, BitVec.toNat_ofNat, Nat.mod_eq_of_lt ha, Nat.mod_eq_of_lt hf,
    ← Nat.shiftLeft_add_eq_or_of_lt ha, Nat.shiftLeft_eq, Nat.mod_eq_of_lt hlt, Nat.mul_comm, Nat.add_comm]

def signedFields : BitVec 768 := BitVec.ofNat 768 (fieldsOf digestOfNone 512)

def signedAuth (s : State) (h : BitVec 256) : BitVec 256 := BitVec.ofNat 256 (authOf s h)

def signedBody (s : State) (h : BitVec 256) : BitVec 1024 := signedFields ++ signedAuth s h

theorem signed_nat (s : State) (h : BitVec 256) :
    (signedBody s h).toNat = (authOf s h + 2 ^ 256 * fieldsOf digestOfNone 512) % 2 ^ (256 + 768) :=
  appended 256 768 (authOf s h) (fieldsOf digestOfNone 512) (Nat.mod_lt _ (Nat.two_pow_pos 256)) fields_lt

theorem signed_low (s : State) (h : BitVec 256) : bitsOf (signedBody s h) 255 0 = authOf s h := by
  have e := split_low 256 768 (authOf s h) (fieldsOf digestOfNone 512) (Nat.mod_lt _ (Nat.two_pow_pos 256))
  rw [bitsOf, signed_nat, Nat.pow_zero, Nat.div_one]
  exact e

theorem signed_high (s : State) (h : BitVec 256) (l w : Nat) (hw : 0 < w) :
    bitsOf (signedBody s h) (256 + l + w - 1) (256 + l) = fieldsOf digestOfNone 512 / 2 ^ l % 2 ^ w := by
  have e := split_high 256 768 (authOf s h) (fieldsOf digestOfNone 512) l w (Nat.mod_lt _ (Nat.two_pow_pos 256)) fields_lt
  rw [bitsOf, signed_nat, show 256 + l + w - 1 + 1 - (256 + l) = w by omega]
  exact e

theorem signed_zero (s : State) (h : BitVec 256) (l w : Nat) (hw : 0 < w) (hl : l + w ≤ 512) :
    bitsOf (signedBody s h) (256 + l + w - 1) (256 + l) = 0 := by
  have e := signed_high s h l w hw
  have z : ∀ d j : Nat, l + w ≤ j → fieldsOf d j / 2 ^ l % 2 ^ w = 0 := fun d j hj => shifted_zero d j l w hj
  exact e.trans (z digestOfNone 512 hl)

theorem signed_fields (s : State) (h : BitVec 256) : bitsOf (signedBody s h) 1023 256 = fieldsOf digestOfNone 512 := by
  have z : ∀ f k : Nat, f < 2 ^ k → f / 2 ^ 0 % 2 ^ k = f := fun f k hf => by
    rw [Nat.pow_zero, Nat.div_one, Nat.mod_eq_of_lt hf]
  exact (signed_high s h 0 768 (by omega)).trans (z _ 768 fields_lt)

theorem signed_digest (s : State) (h : BitVec 256) : bitsOf (signedBody s h) 1023 768 = digestOfNone := by
  have g : ∀ d j k : Nat, d < 2 ^ k → fieldsOf d j / 2 ^ j % 2 ^ k = d := fun d j k hd => by
    rw [fieldsOf, Nat.mul_div_cancel _ (Nat.two_pow_pos j), Nat.mod_eq_of_lt hd]
  have e := signed_high s h 512 256 (by omega)
  exact e.trans (g digestOfNone 512 256 (Nat.mod_lt _ (Nat.two_pow_pos 256)))

theorem signed_auth (s : State) (h : BitVec 256) (hj : wJob h = 0) (hk : (s.pairKey 0).1.isSome = true) :
    s.authGood (wJob h) h (signedBody s h) = (true, (s.pairKey 0).2) := by
  obtain ⟨key, hkey⟩ := Option.isSome_iff_exists.mp hk
  have hp : s.pairKey 0 = (some key, (s.pairKey 0).2) := Prod.ext hkey rfl
  have ha : authOf s h = Config.kmac key 1 (beBytes 32 h.toNat ++ beBytes 96 (fieldsOf digestOfNone 512)) % 2 ^ 256 := by
    rw [authOf, hkey]; rfl
  rw [hj, State.authGood, hp]
  simp only [signed_fields, signed_low, ha, beq_self_eq_true]
  rfl

/-- A state with a WELD_PAIR under way, or waiting, towards engine 8. -/
def pairing (w : Weld) (t : Task := task 0x40 [(256, 8)]) : State := keyed (paired t w)

theorem signed_legal (s : State) (type : Nat) (h : BitVec 256) (ht : wType h = type) (hl : wLen h = 128) :
    pairLegal h type 128 (signedBody s h) = true := by
  have z := signed_zero s h 0 8 (by omega) (by omega)
  rw [pairLegal, ht, hl, show bitsOf (signedBody s h) 263 256 = 0 from z]
  simp

/-- What an acceptance of that payload is held against. -/
theorem signed_accepted (s t : State) (h : BitVec 256) (hj : wJob h = 0) (k : t.keyThere 2 = true) (l : (t.job 0).lineage = 0)
    (m : t.boundMap 0 = []) (c : t.service.active = none) :
    t.refusal (wJob h) (signedBody s h) true = none ∧ t.classFrom (signedBody s h) = 1 := by
  have hc : t.classFrom (signedBody s h) = 1 := by rw [State.classFrom, State.pairClass, c]
  have z := signed_zero s h 192 128 (by omega) (by omega)
  refine ⟨?_, hc⟩
  rw [hj, State.refusal, k, l, m, hc, show bitsOf (signedBody s h) 575 448 = 0 from z, signed_digest]
  simp [digestOfNone]

/-- The offering side of job 0's pair. -/
def offering : State := pairing { state := .offering, partner := 8 } (task 0)

theorem witness_PairingCompletes_offer :
    let s := pairing {}
    let h := wh 1 128
    s.mainUp = true ∧ s.alarmed = false ∧ pairLegal h 1 128 (signedBody s h) = true ∧ (s.weld (wJob h)).state = .unpaired ∧
      s.pairWaiting (wJob h) (wSrc h) = true ∧ (s.authGood (wJob h) h (signedBody s h)).1 = true := by
  refine ⟨by decide +kernel, by decide +kernel, signed_legal _ 1 _ (by decide +kernel) (by decide +kernel), by decide +kernel,
    by decide +kernel, ?_⟩
  rw [signed_auth _ _ (by decide +kernel) (by decide +kernel)]

theorem witness_PairingCompletes_accept :
    let s := offering
    let h := wh 2 128
    let b := signedBody s h
    s.mainUp = true ∧ s.alarmed = false ∧ pairLegal h 2 128 b = true ∧ wAux h 191 184 ≤ 2 ∧
      (s.weld (wJob h)).state = .offering ∧ (s.weld (wJob h)).partner = wSrc h ∧
      s.authGood (wJob h) h b = (true, (s.pairKey 0).2) ∧ (s.pairKey 0).2.refusal (wJob h) b true = none ∧
      max (s.classFrom b) (wAux h 191 184) ≠ 2 := by
  refine ⟨by decide +kernel, by decide +kernel, signed_legal _ 2 _ (by decide +kernel) (by decide +kernel),
    by decide +kernel, by decide +kernel, by decide +kernel, signed_auth _ _ (by decide +kernel) (by decide +kernel),
    (signed_accepted _ _ _ (by decide +kernel) (by decide +kernel) (by decide +kernel) (by decide +kernel) (by decide +kernel)).1, ?_⟩
  have c := (signed_accepted offering offering (wh 2 128) (by decide +kernel) (by decide +kernel) (by decide +kernel)
    (by decide +kernel) (by decide +kernel)).2
  have a : wAux (wh 2 128) 191 184 = 0 := by decide +kernel
  rw [c, a]; decide

theorem witness_PairingCompletes :
    (let t := task 0x41 [(256, 7), (272, 11)]
     let s := runsOn t [hold 7 1 1 0 [4]]
     s.runs 4 0x41 t ∧ t.f 287 272 < 4096 ∧ ((s.begun 4).weld t.job).state ≠ .paired ∧
       (s.begun 4).holdingIn t.job (t.f 267 256) = some (hold 7 1 1 0 [4]) ∧ (hold 7 1 1 0 [4]).kind = 1) ∧
    (let t := task 0x40 [(256, 8)]
     let s := pairing {}
     s.runs 4 0x40 t ∧ t.f 289 288 < 2 ∧ (s.begun 4).keyStatus 2 = none ∧ ((s.begun 4).weld t.job).state = .unpaired ∧
       ((s.begun 4).weld t.job).keptOffer = none) ∧
    (let t := task 0x42
     let s := paired t wpair
     s.runs 4 0x42 t ∧ ((s.begun 4).weld t.job).state = .paired) ∧
    (let s := { pairing { state := .offering, partner := 8 } with battery := { engineId := 9 } }
     s.mainUp = true ∧ s.alarmed = false ∧ pairLegal (wh 1 128) 1 128 0 = true ∧ (s.weld 0).state = .offering ∧
       (s.weld 0).partner = wSrc (wh 1 128) ∧ wSrc (wh 1 128) < s.engineId) ∧
    (let s := pairing { state := .accepting, partner := 8 }
     let h := wh 3 0 0 (2 ^ 56 + 2 * 2 ^ 48)
     s.mainUp = true ∧ wType h = 3 ∧ wLen h = 0 ∧ wAux h 191 184 ≤ 1 ∧ 1 ≤ wAux h 183 176 ∧ wAux h 183 176 ≤ 2 ∧
       (s.weld (wJob h)).state = .accepting ∧ (s.weld (wJob h)).partner = wSrc h) ∧
    (let s := pairing { state := .offering, partner := 8 }
     let h := wh 4 0 0 (5 * 2 ^ 56)
     s.mainUp = true ∧ wType h = 4 ∧ wLen h = 0 ∧ 1 ≤ wAux h 191 184 ∧ wAux h 191 184 ≤ 5 ∧
       (s.weld (wJob h)).state = .offering ∧ (s.weld (wJob h)).partner = wSrc h) ∧
    (let s := pairing { state := .offering, partner := 8, lastOffer := some 801, firstOffer := some 1 }
     (s.weld 3).lastOffer = some 801 ∧ (s.weld 3).state = .offering ∧ 801 + 100 ≤ s.frame + 1) ∧
    (let s := { pairing { state := .accepting, firstOffer := some 1 } with time := { frameExt := 2 ^ 32 } }
     (s.weld 3).firstOffer = some 1 ∧ (s.weld 3).state = .accepting ∧ 1 + s.cfg Od.pairTimeoutFrames ≤ s.frame) ∧
    (let s := { pairing { state := .lost } with
                battery := { records := Vector.replicate 4 { partner := 8 } }, fabric := { ports := Vector.replicate 4 { state := .up } } }
     s.mainUp = true ∧ (s.job 2).open_ = true ∧ s.battery.records[(2 : JobId)].partner ≠ 0 ∧ (s.port 3).state = .up ∧
       s.keyThere 2 = true ∧ (s.weld 2).state = .lost) ∧
    (let s := paired (task 0) { wpair with lastRx := some 3 }
     (s.weld 1).state = .paired ∧ (s.weld 1).lastRx = some 3 ∧ 3 + s.cfg Od.lostFrames ≤ s.frame) := by
  unfold State.runs; decide +kernel

/-- A mirror of one group, bound and known. -/
def wmirror : Weld :=
  { wpair with binds := [(21, 11), (22, 12)], inGroups := [grp], inSpans := [{ master := 11, index := 0, stale := true, skip := 0, copy := 0 }] }

/-- A record of step 4, whole. -/
def wholeRec (applied : List Nat) : InRecord :=
  { step := 4, head := bits 512 [(168, 2)], entries := [mirrorEntry], data := [], digests := [], parts := 1, lastPart := true, complete := true,
    applied := applied, written := [] }

theorem witness_MirrorTasksComplete :
    (let t := task 0x43 [(272, 21), (320, 1)]
     let s := keyed { runsOn t [hold 21 1 1 0 [4]] with welds := Vector.replicate 4 wmirror }
     s.runs 4 0x43 t ∧ ((s.begun 4).weld t.job).state = .paired ∧ t.f 256 256 = 0 ∧
       (s.begun 4).holdingIn t.job (t.f 283 272) = some (hold 21 1 1 0 [4]) ∧
       ((s.begun 4).weld t.job).binds.find? (fun x => x.1 == t.f 283 272) = some (21, 11) ∧ (s.begun 4).keyStatus 2 = none ∧
       (s.begun 4).d2dDown = false) ∧
    (let t := task 0x43 [(256, 1)]
     let s := keyed { runsOn t [hold 21 1 1 0 [4]] with welds := Vector.replicate 4 wmirror }
     s.runs 4 0x43 t ∧ t.f 256 256 = 1 ∧ (s.begun 4).keyStatus 2 = none ∧ (s.begun 4).d2dDown = false) ∧
    (let t := task 0x44 [(128, 4)]
     let s := keyed { paired t { wpair with outSpans := [{ master := 10, index := 0, copyPending := false, lastWrite := 5 }] } with
                      jobs := Vector.replicate 4 { open_ := true, c := 5, v := 4, badVerdict := true }, carrier := { mainband := true } }
     s.runs 4 0x44 t ∧ ((s.begun 4).weld t.job).state = .paired ∧ t.step = (s.job t.job).v ∧ (s.job t.job).badVerdict = true ∧
       (s.begun 4).keyStatus 2 = none ∧ (s.begun 4).d2dDown = false) ∧
    (let r := wholeRec [0]
     let s := atStep5 (paired (task 0) { wpair with inRecords := [r] })
     s.in? 3 (4 : BitVec 64).toNat = some r ∧ r.complete = true ∧ (4 : BitVec 64).toNat ≤ (s.job 3).v ∧
       (∀ e < r.entries.length, e ∈ r.applied) ∧ (∀ x ∈ (s.weld 3).inRecords, x.complete = true → (4 : BitVec 64).toNat ≤ x.step) ∧
       (s.weld 3).copies = []) ∧
    (let r := wholeRec []
     let s := atStep5 (paired (task 0) { wmirror with inRecords := [r], mode := .copy })
     s.in? 3 (4 : BitVec 64).toNat = some r ∧ r.complete = true ∧ r.applied = [] ∧ (4 : BitVec 64).toNat ≤ (s.job 3).v ∧
       bitsOf r.head 175 168 = 2 ∧ r.entries ≠ []) := by
  unfold State.runs; decide +kernel

/-! ## Accessions and the Vault -/

/-- An open Accession of job 0. -/
def acc9 : Accession :=
  { job := 0, id := 9, shard := 0, state := .open_, sa := 0, leaves := [], gens := [], firstStep := none, order := [], sealRun := none }

/-- A state with Accessions. -/
def withAccs (s : State) (l : List Accession) : State := { s with vault := { accs := l } }

theorem witness_CaptureAndSeal :
    (let t := task 0x30 [(256, 9)]
     let s := runs t
     s.runs 4 0x30 t ∧ ((s.begun 4).vault.accs.filter (fun a => a.job == t.job.val && a.live)).length < 4 ∧ t.f 319 256 ≠ 0 ∧
       (∀ a ∈ (s.begun 4).vault.accs, a.id = t.f 319 256 → a.live = false) ∧ ((s.begun 4).record t.job).aLastId ≠ t.f 319 256) ∧
    (let t := task 0x15 [(128, 5), (192, 1), (256, 9), (320, 11)]
     let s := keyed (atStep5 (withAccs (runsOn t [hold 11 0 1 0 [4]]) [acc9]))
     s.runs 4 0x15 t ∧ (s.begun 4).captureFault t = none ∧ (s.begun 4).keyStatus 2 = none ∧ (s.begun 4).duplicateCapture t = false) ∧
    (let t := task 0x31 [(128, 4), (256, 9)]
     let s := keyed (atStep5 (withAccs (runs t) [acc9]))
     s.runs 4 0x31 t ∧ (s.begun 4).acc? t.job (t.f 319 256) = some acc9 ∧ acc9.state = .open_ ∧ (s.begun 4).keyStatus 2 = none) ∧
    (let t := task 0x32 [(256, 9), (400, 1)]
     let s := { runs t with sec := { slots := Vector.replicate 64 { state := .loaded } } }
     s.runs 4 0x32 t ∧ (s.begun 4).acc? t.job (t.f 319 256) = none ∧ bitOf t.record 400 = true ∧ (s.begun 4).keyStatus 1 = none) ∧
    (let t := task 0x33 [(256, 9), (336, 13)]
     let s := keyed (runsOn t [hold 13 3 8 0 [4]])
     s.runs 4 0x33 t ∧ (s.begun 4).holdingIn t.job (t.f 347 336) = some (hold 13 3 8 0 [4]) ∧ (s.begun 4).keyStatus 2 = none ∧
       (hold 13 3 8 0 [4]).kind = 3 ∧ (s.begun 4).d2dDown = false) := by
  unfold State.runs; decide +kernel


/-- A reply of the Vault to the request numbered 0: its type, payload length and reason. -/
def vh (type len : Nat) (reason : Nat := 0) : BitVec 256 := bits 256 [(24, type), (0, len), (184, reason)]

def vreq (type : Nat) (owner : VaultOwner) : VaultReq :=
  { id := 0, type := type, name := 0, target := 0, retries := 0, frame := 5, owner := owner }

def asking (r : VaultReq) : State := { at_ 50000 with vault := { reqs := [r] } }

/-- A reply that the request takes. -/
def takesReply (r : VaultReq) (type asked size : Nat) (reason : Nat := 0) : Prop :=
  (asking r).vaultTakes (vh type size reason) type asked size 0 r

theorem witness_VaultReplies :
    takesReply (vreq 0x60 (.object 3)) 0x61 0x60 32 ∧ takesReply (vreq 0x60 (.genPut 4 7)) 0x61 0x60 32 ∧
    (∀ reason ∈ [1, 2, 3], takesReply (vreq 0x60 (.object 3)) 0x62 0x60 32 reason ∧ bitsOf (vh 0x62 32 reason) 191 184 = reason ∧
      takesReply (vreq 0x63 (.fetchCat 4 0)) 0x65 0x63 32 reason) ∧
    (let r := vreq 0x63 (.fetchCat 4 0)
     let stored : BitVec 512 := bits 512 [(128, 4), (112, 0x5641), (104, 1)]
     let got := BitVec.ofNat 256 (bitsOf stored 511 256)
     (asking r).vaultTakes (vh 0x64 (64 + 4 + 16)) 0x64 0x63 (64 + 4 + 16) (replyName r.name got) r ∧
       (asking r).objectRoom r 4 = true ∧ storedOk stored got 4 = true) ∧
    takesReply (vreq 0x66 (.delete (some 4))) 0x67 0x66 32 ∧
    (let r := vreq 0x68 (.commit 4)
     let a := { acc9 with sealRun := some (4, 3) }
     let s := { asking r with vault := { reqs := [r], accs := [a] } }
     s.vaultTakes (vh 0x69 32) 0x69 0x68 32 0 r ∧
       (s.dropVaultReq r.id).vault.accs.find? (fun a => a.sealRun == some (4, 3)) = some a) ∧
    (let r := vreq 0x60 (.object 3)
     (asking r).vault.reqs.find? (fun r => r.id == (0 : BitVec 64).toNat) = some r ∧
       r.frame + (asking r).cfg Od.vaultReplyFrames ≤ (asking r).frame) := by
  unfold takesReply State.vaultTakes; decide +kernel

/-- A RESTORE_VAULT of step 5 of one element of MASTER 11. -/
def fromVault : Task :=
  task 0x20 [(128, 5), (192, 1), (352, 12), (368, 0xFFFF), (384, 11), (400, 0xFFFF), (416, 0xFFFF), (432, 0xFFFF), (448, 0xFFFF),
    (464, 0xFFFF)]

/-- One Leaf wanted of a Vault. -/
def want : WantedLeaf := { holding := 11, leaf := 0, status := 2, again := false, role := 1, elements := 1 }

/-- A record object of step 5: one entry of kernel 3, which runs three passes over one element. -/
def recordText : Bytes :=
  beBytes 64 ((bits 512 [(448, 5), (176, 1), (16, 0x4C47), (8, 1)]).toNat) ++
  beBytes 128 ((bits 1024 [(384, 1), (120, 3)]).toNat)

/-- A restore that rolls forward, with the objects of its records. -/
def rolling (records : List RestoreObj) : State :=
  { runsOn { fromVault with phase := .running } [hold 11 0 1 0 [1], hold 12 3 4 0 [64]] with
    vault := { restores := [{ task := 4, mirror := false, fill := 5, phase := 4, w := 5, wants := [want], records := records }] },
    carrier := { mainband := true, holdings := [hold 11 0 1 0 [1], hold 12 3 4 0 [64]], bulkRead := 64, bulkWrite := 64,
                 left := { read := 64, write := 64, galRead := 64, galWrite := 64, lanes := 2 } } }

theorem witness_RestoreTasks :
    (let t := task 0x21 [(128, 5), (192, 1), (304, 21)]
     let s := keyed (runsOn t [hold 21 1 1 0 [4]])
     s.runs 4 0x21 t ∧ badHidField (t.f 303 288) = false ∧ (s.begun 4).holdingIn t.job (t.f 315 304) = some (hold 21 1 1 0 [4]) ∧
       t.f 351 320 + t.len ≤ (hold 21 1 1 0 [4]).leaves ∧ (s.begun 4).keyStatus 2 = none ∧ (s.begun 4).d2dDown = false) ∧
    (let t := fromVault
     let s := keyed (runsOn t [hold 11 0 1 0 [1], hold 12 3 4 0 [64]])
     s.runs 4 0x20 t ∧ (∀ r ∈ [0, 1, 2, 3, 5, 6, 7], badHidField (t.target r) = false) ∧ (s.begun 4).vaultFault t = none ∧
       (s.begun 4).keyStatus 2 = none ∧ (s.begun 4).holdingIn t.job (t.f 363 352) = some (hold 12 3 4 0 [64]) ∧
       (s.begun 4).d2dDown = false ∧ (∀ role ∈ t.targetRoles, ((s.begun 4).targetHolding t role).map (·.kind) ≠ some 1)) ∧
    (let t := task 0x22
     (runs t).runs 4 0x22 t ∧ t.f 287 256 = 0) ∧
    (let t := task 0x23
     let s := { runs t with vault := { spare := .ready } }
     s.runs 4 0x23 t ∧ (s.begun 4).vault.spare = .ready ∧ (s.begun 4).vault.spareJob = t.job.val) ∧
    (runs (task 0x24)).runs 4 0x24 (task 0x24) ∧
    (∀ objs ∈ [[], [({ shard := 0, step := 5, index := 0, bytes := some recordText } : RestoreObj)]],
      let s := rolling objs
      ∃ r t, s.restore? 4 = some r ∧ s.task? 4 = some t ∧ r.mirror = false ∧ r.phase = 4 ∧ s.restoreWriting 4 = false ∧
        s.targetBlocked t = none ∧ r.records = objs) ∧
    (let s := rolling [{ shard := 0, step := 5, index := 0, bytes := some recordText }]
     (match s.restore? 4, s.task? 4 with
      | some r, some t => match (r.items t)[r.item]? with
        | some x =>
          let n := s.rollSize t r x (s.unitsFor (.restore 4) (s.restoreRank 4))
          r.rolledAt != some s.frame && n != 0 &&
            (s.takeUnits (.restore 4) (s.restoreRank 4) (s.rollUnits t r x n)).isSome
        | none => false
      | _, _ => false) = true) ∧
    (let s := rolling []
     ∃ r t, s.restore? 4 = some r ∧ s.task? 4 = some t ∧ ((r.items t)[r.item]?).isNone = true) := by
  unfold State.runs
  refine ⟨by decide +kernel, by decide +kernel, by decide +kernel, by decide +kernel, by decide +kernel, ?_,
    by decide +kernel, ⟨_, _, rfl, rfl, by decide +kernel⟩⟩
  intro objs h
  simp only [List.mem_cons, List.not_mem_nil, or_false] at h
  rcases h with rfl | rfl <;> exact ⟨_, _, rfl, rfl, rfl, rfl, by decide +kernel, by decide +kernel, rfl⟩


/-- A RESTORE_MIRROR of step 5, of Leaf 0 of the peer's Holding 11 into 21, from engine 8. -/
def refill : Task := task 0x21 [(128, 5), (192, 1), (256, 8), (288, 11), (304, 21)]

def refilling (asks : Nat := 2) : RestoreRun :=
  { task := 4, mirror := true, server := 8, fill := 5, asks := asks,
    wants := [{ holding := 21, leaf := 0, status := 0, again := false }] }

def askedPeer (asks : Nat := 2) : State :=
  { runsOn { refill with phase := .running } [hold 21 1 1 0 [4]] with vault := { restores := [refilling asks] } }

/-- A request of engine 8 for Leaf 0 of Holding 11, which is bound to 21. -/
def served (bid : Option Nat := none) : ServeReq :=
  { id := 3, job := 0, toEngine := 8, fill := 5, urgent := false, curGen := 0, prevGen := 0, leaves := [(11, 0)], sent := 0, missing := 0,
    rollback := false, buf := bid, stamp := 0 }

def serving (stale : Bool) (bid : Option Nat := none) : State :=
  { runsOn (task 0) [hold 21 1 1 0 [4]] with
    vault := { serves := [served bid] },
    welds := Vector.replicate 4 { wpair with
      binds := [(21, 11)], inGroups := [grp], inSpans := [{ master := 11, index := 0, stale := stale, skip := 0, copy := 0 }] },
    update := { streams := [{ task := 77, holding := 21, leaf := 0, waiting := 0, cells := [] }] } }

theorem witness_RestoreMessages :
    askedPeer.restoreTakes (wh 0x50 32 5) 0x50 (16 * [(0 : BitVec 128), 0].length) ∧
    (let h := wh 0x51 36 5 (11 * 2 ^ 48)
     askedPeer.restoreTakes h 0x51 (32 + [(0 : Byte), 0, 0, 0].length) ∧
       askedPeer.leafOwner 0 (wSrc h) (wStep h) (wAux h 191 176) (wAux h 175 144) = some (.mirror 4 0) ∧
       unitsOf (4 + 16) ≤ askedPeer.quarantineFree) ∧
    (∀ why ∈ [1, 5], let h := wh 0x52 0 5 (11 * 2 ^ 48 + why * 2 ^ 8)
     askedPeer.restoreTakes h 0x52 0 ∧ 1 ≤ wAux h 143 136 ∧ wAux h 143 136 ≤ 5 ∧
       (askedPeer.heardServer (wSrc h)).leafOwner 0 (wSrc h) (wStep h) (wAux h 191 176) (wAux h 175 144) = some (.mirror 4 0)) ∧
    (let h := wh 0x53 8 5
     askedPeer.restoreTakes h 0x53 8 ∧
       (let u := askedPeer.heardServer (wSrc h)
        (u.vault.restores.find? (fun r => r.mirror && r.server == wSrc h && r.fill == wStep h && 0 < r.asks &&
          (u.task? r.task).map (·.job) == some 0)).map (·.asks) = some 2)) ∧
    (let s := { askedPeer with time := { frameExt := 100000 } }
     s.restore? 4 = some (refilling 2) ∧ (refilling 2).lastRx + s.cfg Od.restoreReplyFrames ≤ s.frame ∧
       (refilling 2).wants.any (fun w => w.status == 0) = true) ∧
    (let s := { serving true with welds := Vector.replicate 4 wpair }
     s.vault.serves.find? (fun r => r.id == 3) = some (served none) ∧ s.boundTo 0 11 = none ∧ s.serveReason 0 5 11 0 ≠ 0) ∧
    (let s := serving false (some 77)
     s.vault.serves.find? (fun r => r.id == 3) = some (served (some 77)) ∧ s.boundTo 0 11 = some 21 ∧
       s.holdingIn 0 21 = some (hold 21 1 1 0 [4]) ∧ 5 ≥ (s.weld 0).applied ∧ s.serveReason 0 5 11 0 = 0 ∧
       s.leafStep 0 (hold 21 1 1 0 [4]) 0 = some 0 ∧ (s.taskBuf 77).map (fun b => (b.waiting, b.poison)) = some (0, []) ∧
       s.madder.current = none) := by
  unfold State.restoreTakes; decide +kernel

/-! ## Groups, verdicts and collectives -/

/-- Group 1 of job 0, of this engine and engine 8 in a line. -/
def pairGroup : Group :=
  { id := 1, epoch := 1, job := 0, axes := 1, sizes := [2], root := [0], members := [9, 8], own := 0, fold := 0, lastSeq := 0,
    reforming := false }

/-- A task of a group, on a state that has joined groups. -/
def joined (t : Task) (open_ : List Coll := []) : State :=
  { keyed (runsOn t [hold 7 3 8 0 [8]]) with colls := { groups := [pairGroup], open_ := open_ }, battery := { engineId := 9 } }

/-- An open ALLREDUCE of group 1, numbered 3. -/
def reducing : Coll := { Coll.blank 0 3 3 5 16 false [0] with group := 1, seq := 3, base := 2000 }

theorem witness_GroupTasksComplete :
    (let t := task 0x50 [(256, 1), (288, 1), (292, 1), (340, 7)]
     let s := { joined t with colls := {} }
     s.runs 4 0x50 t ∧ 1 ≤ t.f 291 288 ∧ t.f 291 288 ≤ 4 ∧ ((s.begun 4).holdingIn t.job (t.f 351 340)).isSome = true ∧
       (s.begun 4).groupBad t = false ∧ (s.begun 4).group? (t.f 271 256) = none ∧ (s.begun 4).colls.groups.length < 8) ∧
    (let t := task 0x51 [(256, 1), (272, 2), (288, 1), (292, 1), (340, 7)]
     let s := joined t
     s.runs 4 0x51 t ∧ ((s.begun 4).holdingIn t.job (t.f 351 340)).isSome = true ∧
       (s.begun 4).groupIn t.job (t.f 271 256) = some pairGroup ∧ (s.begun 4).groupBad t = false ∧ pairGroup.epoch < t.f 287 272 ∧
       t.f 384 384 = 0) ∧
    (∀ cs ∈ [[], [reducing]], let t := task 0x52 [(256, 1)]
     let s := joined t cs
     s.runs 4 0x52 t ∧ (s.begun 4).groupIn t.job (t.f 271 256) = some pairGroup ∧
       (let u := ((s.begun 4).setGroup 1 fun g => { g with reforming := true }).abortColls (fun c => c.group == 1) 5 (s.begun 4).frame
        u.groupFree 1 = cs.isEmpty)) ∧
    (let t := task 0x14 [(128, 5), (256, 1)]
     let s := { joined t with jobs := (atStep5 (runs t)).jobs }
     s.runs 4 0x14 t ∧ (s.begun 4).groupIn t.job (t.f 271 256) = some pairGroup ∧ pairGroup.absent = 0 ∧
       (s.begun 4).keyStatus 2 = none ∧ pairGroup.reforming = false) ∧
    (∀ ty ∈ [0x53, 0x54, 0x55], (runs (task ty)).runs 4 ty (task ty)) ∧
    (let t := { task 0x14 [(128, 5), (256, 1)] with phase := .running }
     let s := joined t
     s.task? 4 = some t ∧ t.phase ≠ .waiting ∧ s.verdictWaits t = false ∧ s.mayContribute t.job t.step = true) := by
  unfold State.runs; decide +kernel

/-- A collective message's header, from engine 8 to group 1. -/
def ch (type : Nat) (fields : List (Nat × Nat) := []) : BitVec 512 :=
  bits 512 ([(120, type), (160, 1), (176, 1), (288, 3), (352, 8)] ++ fields)

theorem witness_CollMessagesComplete :
    let s := { joined (task 0) [reducing] with od := [((Od.switchReduceId 0).key, 8)] }
    (∀ type ∈ [1, 6], s.collTakes (ch type) [] type pairGroup reducing) ∧
    s.collTakes (ch 2 [(128, 1)]) [] 2 pairGroup reducing ∧ s.collTakes (ch 3 [(136, 50)]) [] 3 pairGroup reducing ∧
    s.collTakes (ch 7) [] 7 pairGroup reducing ∧ s.collTakes (ch 8 [(116, 3)]) [] 8 pairGroup reducing ∧
    (s.alarmed = false ∧ cType (ch 4) = 4 ∧ cGroup (ch 1) = cGroup (ch 4)) ∧
    (let c := { reducing with parts := [{ phase := 1, index := 0, elems := [], switch := some 5 }] }
     let s := joined (task 0) [c]
     s.coll? (1 : BitVec 16).toNat (3 : BitVec 32).toNat = some c ∧
       c.parts.filter (fun p => match p.switch with | some f => s.lapsed f (s.cfg Od.switchWaitFrames) | none => false) ≠ []) ∧
    (let c := { reducing with base := 0 }
     let s := { joined (task 0) [c] with time := { frameExt := 10 ^ 6 } }
     s.coll? (1 : BitVec 16).toNat (3 : BitVec 32).toNat = some c ∧ c.deadline < s.frame + 1 ∧ c.writing = false ∧ c.committed = false) ∧
    (let r : HeldResult := { frame := 5, reason := 0, payload := [] }
     let c := { reducing with result := some r }
     let s := joined (task 0) [c]
     s.coll? (1 : BitVec 16).toNat (3 : BitVec 32).toNat = some c ∧ c.committed = false ∧ c.outcome (s.frame + 1) = some (.inl r)) ∧
    (let a : HeldAbort := { frame := 5, source := 8, reason := 1 }
     let c := { reducing with aborts := [a] }
     let s := joined (task 0) [c]
     c.committed = false ∧ c.outcome (s.frame + 1) = some (.inr a)) ∧
    (let s := { atStep5 (joined (task 0)) with colls := { held := [{ job := 2, step := 5 }] } }
     s.colls.held.any (fun h => h.job == (2 : JobId) && h.step == (s.job 2).v + 1) = true) := by
  unfold State.collTakes; decide +kernel


/-! ## The ports -/

theorem witness_LinkStates :
    (let s := withPort {}
     s.odCheck .hostS Od.linkEnable.key [15] = 0 ∧ (acceptSetting Od.linkEnable.key 15 s).1 = 0 ∧
       s.odCheck .hostS (Od.laneMapReset 3).key [1] = 0 ∧ (acceptSetting (Od.laneMapReset 3).key 1 s).1 = 0) ∧
    (let s := withPort { state := .up }
     s.odCheck .hostS Od.recalibratePort.key [3] = 0 ∧ (s.recalibrate 3).1 = 0) ∧
    (∀ n ∈ [0, up.cfg Od.retrainLimit - 1, up.cfg Od.retrainLimit], let s := withPort { state := .down, entries := n }
     (s.port 3).state = .down ∧ 8 ≤ (8 : BitVec 4).toNat ∧ (s.port 3).laser ≠ 255 ∧ (s.port 3).entries = n) ∧
    up.cfg Od.retrainLimit - 1 < up.cfg Od.retrainLimit ∧
    (let s := withPort { state := .training, planned := true, lasersBad := [1] }
     let tx := (List.range 8).map (8 - ·)
     (s.port 3).state = .training ∧ (s.port 3).planned = true ∧ (∀ l ∈ tx, l ∉ (s.port 3).txRetired) ∧
       (∀ l ∈ tx, l ∉ (s.port 3).rxRetired) ∧ tx.eraseDups.length = 8) ∧
    (let s := { withPort { state := .training } with time := { frameExt := 8000 } }
     (s.port 3).state = .training ∧ (s.port 3).since + 8000 ≤ s.frame ∧ (s.port 3).laser ≠ 255 ∧ (s.port 3).otherLaser = some 1) ∧
    (withPort { state := .up }).port 0 = { state := .up } ∧
    (let s := withPort { state := .retraining, planned := true, since := 997 }
     (s.port 3).state = .retraining ∧ (s.port 3).planned = true ∧ s.frame < (s.port 3).since + 4 ∧ (s.port 3).since + 3 ≤ s.frame ∧
       (s.retrainSwap 3 .tx none).isSome = true ∧
       ((s.retrainSwap 3 .tx none).bind (fun u => u.retrainSwap 3 .rx none)).isSome = true) ∧
    (let s := withPort { state := .up, plan := some (2, 1000) }
     (s.port 3).plan = some (2, 1000) ∧ (s.port 3).state = .up ∧ 1000 ≤ s.frame) ∧
    (let s := withPort { state := .up, biasRef := Vector.replicate 2 (some 100) }
     (s.port 3).state = .up ∧ s.cfg Od.laserBiasLimitPct ≤ (s.port 3).percent (255 : BitVec 32).toNat ∧
       (s.port 3).otherLaser.isSome = true ∧ (s.port 3).plan = none) := by decide +kernel

/-- A flit's header: type, VC, last, length and SEQ (12 Table 12-2). -/
def flit (type vc len : Nat) (first last : Bool) : BitVec 64 :=
  bits 64 [(60, type), (57, vc), (56, first.toNat), (55, last.toNat), (47, len)]

theorem witness_LinkMessages :
    (let s := withPort { state := .up }
     (s.port 2).state = .up ∧ s.opticsOn = true ∧
     ([flit 1 5 1 true true, flit 1 0 244 true false].all fun h => decide (bitsOf h 63 60 = 1 ∧ bitsOf h 19 4 = (s.port 2).rxSeq ∧ bitsOf h 59 57 ≤ 5 ∧
       1 ≤ bitsOf h 54 47 ∧ bitsOf h 54 47 ≤ 244 ∧ bitOf h 56 = true ∧
       (let u := (s.setPort 2 (fun x => { x with rxSeq := (x.rxSeq + 1) % 65536, retrying := false })).takeAck 2 h
        assoc (u.port 2).assembling (bitsOf h 59 57) = none))) ∧
     bitOf (flit 1 5 1 true true) 55 = true ∧ bitOf (flit 1 0 244 true false) 55 = false ∧ bitsOf (flit 1 0 244 true false) 54 47 = 244 ∧
     (let h := flit 0 0 0 false false
      bitsOf h 63 60 = 0 ∧ bitsOf h 59 57 = 0 ∧ bitsOf h 54 47 = 0) ∧
     (∀ w ∈ (s.port 2).swaps, w.asked = true) ∧ (7 : BitVec 8).toNat ∈ (s.port 2).txMap ∧ ((s.port 2).spare .tx).isSome = true ∧
     (∀ m ∈ (s.port 2).queue, m.dst ≠ (9 : BitVec 32).toNat ∨ m.vc ≠ (4 : Fin 6).val)) ∧
    ((withPort { state := .up, retrying := true }).port 2).retrying = true := by decide +kernel

theorem witness_LinkMessages_retry :
    let s := withPort { state := .up, retry := [(4, 1, 0, true)] }
    let u := ((s.setPort 2 (fun y => { y with replayed := some (4, 1) })).replayFrom 2 4).bump (Od.linkRetryCount 2)
    (s.port 2).retry.any (fun r => r.1 == (4 : BitVec 16).toNat) = true ∧ (s.port 2).replayed = none ∧ 1 < s.cfg Od.linkRetryLimit ∧
      u.cfg Od.linkRetryLimit = s.cfg Od.linkRetryLimit := by decide +kernel

theorem witness_LinkMessages_swap :
    let w : LiveSwap := { number := 1, lane := 3, asked := true, point := some 9, frame := 5 }
    let s := withPort { state := .up, swaps := [w] }
    (s.port 2).swaps.find? (fun w => w.asked == (Dir.rx == .rx) && w.point.isSome) = some w ∧ (s.port 2).spare .rx = some 8 := by
  decide +kernel

theorem witness_LinkMessages_idle :
    let s := { withPort { state := .up } with
               time := { frameExt := 10 ^ 6 }
               fabric := { ports := Vector.replicate 4 { state := .up }, bindings := [{ dst := 9, vc := 4, port := 2, last := 0 }] } }
    ∀ b ∈ s.fabric.bindings, b.dst = (9 : BitVec 32).toNat → b.vc = (4 : Fin 6).val →
      portOf b.port = 2 ∧ b.last + s.cfg Od.bindingIdleFrames ≤ s.frame := by decide +kernel

/-! ## The keys -/


/-! ## The keys -/

/-- A key store with a key in slots 1, 2 and 48, of every use. -/
def keyStore (s : State) : State :=
  let k : KeySlot := { state := .loaded, keyId := 1, ops := 0x3F, useMask := 0xFF, gen := 4 }
  { s with sec := { slots := (((Vector.replicate 64 ({} : KeySlot)).set 1 k).set 2 k).set 48 { k with loader := some .ns } } }

/-- The 40 bytes of a wrapped key, read for task 4. -/
def blobBuf : StreamBuf := { task := 4, holding := 7, leaf := 0, waiting := 0, cells := [] }

theorem witness_KeyRowsComplete_tasks :
    (let t := task 0x60 [(256, 49), (264, 2), (272, 1), (288, 1), (304, 4), (312, 56)]
     let s := keyStore (runs t)
     s.runs 4 0x60 t ∧ (s.begun 4).keyCheck t = none ∧ t.f 317 312 ≤ 56) ∧
    (let t := task 0x62 [(256, 48)]
     let s := keyStore (runs t)
     s.runs 4 0x62 t ∧ (s.begun 4).keyCheck t = none) ∧
    (let t := task 0x61 [(256, 48), (264, 1)]
     let s := keyStore (runs t)
     s.runs 4 0x61 t ∧ t.phase = .waiting ∧ (s.begun 4).keyCheck t = none ∧ (s.begun 4).keyGenBad t = false) ∧
    (let t := { task 0x61 [(256, 48), (264, 1)] with phase := .running }
     let s := { keyStore (runs t) with update := { streams := [blobBuf] } }
     s.task? 4 = some t ∧ t.phase ≠ .waiting ∧ s.blobRead t = some [] ∧ s.alarmed = false ∧ s.keyGenBad t = false) ∧
    (let t := { task 0x63 [(256, 2), (264, 1), (368, 5), (384, 1000)] with owner := .s }
     let s := { keyStore (runs t) with jobs := Vector.replicate 4 {} }
     s.runs 4 0x63 t ∧ t.phase = .waiting ∧ (s.begun 4).pendingSwitch = none ∧ (s.begun 4).sec.rollover = none ∧
       (s.begun 4).keyCheck t = none ∧ (s.begun 4).keyGenBad t = false) ∧
    (let t := { task 0x63 [(256, 2), (264, 1), (368, 5), (384, 1000)] with owner := .s, phase := .running }
     let s := { keyStore (runs t) with update := { streams := [blobBuf] } }
     s.task? 4 = some t ∧ s.sec.rollover = none ∧ s.blobRead t = some []) := by
  unfold State.runs; decide +kernel

/-- A rollover of slot 2 to generation 5 at frame 900, of task 4. -/
def rollover : Rollover := { task := 4, frame := 900, blob := List.replicate 40 0, gen := 5, ops := 1, mask := 1 }

theorem witness_KeyRowsComplete :
    (let t := { task 0x63 with phase := .running }
     let s := { keyStore (runs t) with sec := { (keyStore (runs t)).sec with rollover := some rollover } }
     s.sec.rollover = some rollover ∧ rollover.frame ≤ s.frame ∧ (s.slot 1).state ≠ .empty ∧ (s.slot 2).gen < rollover.gen ∧
       s.task? rollover.task = some t ∧ (s.slot 2).state ≠ .empty ∧
       (let u := (s.setSec fun x => { x with rollover := none }).putSlot 7 { s.slot 2 with purpose := 16 }
        let u := u.loadSlot 2 { key := Config.unwrap (s.slot 1).key rollover.blob, keyId := unwrappedId (s.slot 1) rollover.blob,
                                ops := 1, useMask := 1, gen := 5, purpose := 3 }
        (((u.decryptOnly 2 7).odSetP Od.ivEpochRandom 0).setService fun v => { v with newRoll := true }).task? 4 = some t)) ∧
    (let s := { up with sec := { slots := Vector.replicate 64 { newLoad := some (1, 4) } }, time := { frameExt := 5 } }
     (s.slot (63 : BitVec 6).toNat).newLoad = some (1, 4) ∧ s.time.cycle = 0 ∧ 4 < s.frame) ∧
    (let s := { up with service := { newWrap := true, newRoll := true }, od := [(Od.ivEpoch.key, 0xFFFFFFFF)] }
     s.odGet Od.ivEpoch = 0xFFFFFFFF ∧ s.service.newWrap = true ∧ s.service.newRoll = true ∧
       (∀ n < 16, (s.slot (48 + n)).state = .empty)) ∧
    (let v := List.replicate 32 (7 : Byte)
     up.odCheck .field Od.fieldAuthLoad.key v = 0 ∧ (up.fieldAuthLoad v false false).1 = 0) ∧
    (let s := { up with sec := { slots := Vector.replicate 64 { state := .loaded } } }
     let v := List.replicate 40 (7 : Byte)
     s.odCheck .field Od.wrapLoad.key v = 0 ∧ (s.wrapLoad v true).1 = 0) ∧
    (let s := { up with battery := { alarmStanding := true } }
     s.odCheck .field Od.alarmClear.key [1] = 0 ∧ (s.alarmClear 1 false).1 = 0) := by decide +kernel

/-! ## The pages -/

/-- A state whose host has a cipher and a digest page, at the head of their queues. -/
def pages (c : CipherPage) (d : DigestPage) (more : List Nat := []) : State :=
  { keyStore up with
    sec := { (keyStore up).sec with
      cPages := Vector.replicate 8 c, dPages := Vector.replicate 8 d,
      cQueue := [Agent.hostNs.code] ++ more, dQueue := [Agent.hostNs.code] ++ more } }

/-- A finished message under slot 2, of an operation and with a tag to be held against. -/
def finished (op tag : Nat) : CipherPage := { slot := 2, op := op, busy := true, ended := true, tag := tag }

/-- The tag of a message of no bytes under slot 2. -/
def emptyTag : Nat := Config.gcmTag 0 0 [] [] % 2 ^ 128

theorem witness_PagesComplete :
    (∀ op ∈ [0, 1], let c : CipherPage := { slot := 2, op := op, msgLen := 1048576, aadLen := 4096 }
     let s := pages c {}
     let p := s.cPage .hostNs
     p.busy = false ∧ p.aadLen ≤ 4096 ∧ p.msgLen ≤ 1048576 ∧ (1 : BitVec 64).toNat % 2 = 1 ∧ s.slotServes p.slot .hostNs p.op = true ∧
       p.op = op ∧ (s.slot p.slot).state ≠ .exhausted) ∧
    (let c : CipherPage := { busy := true, lastBytes := 8 }
     let p := (pages c {}).cPage .hostNs
     p.busy = true ∧ p.ended = false ∧ 8 ≤ inFree p.fed p.taken ∧ p.lastBytes ≤ 8) ∧
    ((pages { out := [1] } {}).cPage .hostNs).out ≠ [] ∧
    (∀ op ∈ [0, 1], let s := pages (finished op 0) {}
     let p := s.cPage .hostNs
     s.sec.cQueue.head? = some Agent.hostNs.code ∧ p.busy = true ∧ p.ended = true ∧ p.taken = p.fed.length ∧ p.op = op) ∧
    (∀ alg ∈ [0, 1], let d := (pages {} { alg := alg }).dPage .hostNs
     d.busy = false ∧ d.alg < 2 ∧ d.chain = none ∧ d.before = 0) ∧
    (let d := (pages {} { busy := true, lastBytes := 8 }).dPage .hostNs
     d.busy = true ∧ d.ended = false ∧ 8 ≤ inFree d.fed d.taken ∧ d.lastBytes ≤ 8) ∧
    (let s := pages {} { alg := 1, busy := true, ended := true }
     let d := s.dPage .hostNs
     s.sec.dQueue.head? = some Agent.hostNs.code ∧ d.busy = true ∧ d.ended = true ∧ d.taken = d.fed.length) ∧
    (∀ x ∈ [(0, 384), (2, 384), (1, 256), (3, 256)], let d := (pages {} { alg := x.1, done := true, expect := 2 ^ x.2 + 5, result := 5 }).dPage .hostNs
     d.busy = false ∧ d.done = true ∧ (if d.alg = 0 ∨ d.alg = 2 then 384 else 256) = x.2 ∧ d.result = d.expect % 2 ^ x.2 ∧
       5 ≠ (6 % 2 ^ x.2)) ∧
    (let s := { pages {} { alg := 1, busy := true } with pending := [] }
     let d := s.dPage .hostNs
     d.busy = true ∧ d.ended = false ∧ d.taken % digestBlock d.alg = 0 ∧ d.taken = d.fed.length ∧ d.alg < 2 ∧
       (s.exportKey .hostNs).isSome = true) ∧
    (1 : BitVec 32).toNat % 2 = 1 ∧ ((pages {} {}).dPage .hostNs).busy = false ∧ up.importable .hostNs = none := by decide +kernel

/-- A page whose quantum is over, with another page behind it. -/
theorem witness_PagesComplete_suspend :
    let s := { pages { busy := true, fed := List.replicate 257 0, taken := 256 } {} [Agent.hostS.code] with
               od := [(Od.userQuantumBlocks.key, 16)] }
    let p := s.cPage .hostNs
    nextAgent (s.sec.cQueue.filter (fun b => b != Agent.hostNs.code)) Agent.hostNs.code = some Agent.hostS.code ∧
      mayStop p.fed.length p.taken p.since 16 (s.cfg Od.userQuantumBlocks) p.ended = true := by
  decide +kernel

/-- A tag that is the message's, and one that is not. -/
theorem witness_PagesComplete_tag :
    (∀ tag, let s := pages (finished 1 tag) {}
      let p := s.cPage .hostNs
      let text := gcmText (s.slot p.slot).key p.iv (p.fed.drop p.aadLen)
      p.tag = tag ∧ Config.gcmTag (s.slot p.slot).key p.iv (p.fed.take p.aadLen) text % 2 ^ 128 = emptyTag) ∧
    emptyTag ≠ 2 ^ 128 :=
  ⟨fun _ => ⟨rfl, rfl⟩, Nat.ne_of_lt (Nat.mod_lt _ (by decide))⟩

/-- An exported state that the same engine and agent import again (13 R351). -/
def exported : Bytes :=
  Config.wrapState (Config.kdf 0 labelExport (beBytes 4 0 ++ [BitVec.ofNat 8 Agent.hostNs.code]))
    (1 :: BitVec.ofNat 8 Agent.hostNs.code :: List.replicate 430 0)

theorem witness_PagesComplete_import :
    (pages {} { blob := exported }).importable .hostNs = some (1 :: BitVec.ofNat 8 Agent.hostNs.code :: List.replicate 430 0) := by
  rw [State.importable, show (pages {} { blob := exported }).exportKey .hostNs =
      some (Config.kdf 0 labelExport (beBytes 4 0 ++ [BitVec.ofNat 8 Agent.hostNs.code])) from rfl, Option.bind_some,
    show ((pages {} { blob := exported }).dPage .hostNs).blob = exported from rfl, exported, Config.unwrapState_wrapState]
  decide +kernel

/-- The blob of the 432 bytes of a state has 440 (13 R351). -/
theorem test_exportLength (key : Nat) (text : Bytes) (h : text.length = 432) : (Config.wrapState key text).length = 440 := by
  rw [Config.length_wrapState, h]

theorem witness_CipherFaults :
    ((0 : BitVec 6).toNat ∉ up.sec.pairsRetired ∧ (∀ x ∈ up.sec.suspects, x.pair ≠ (0 : BitVec 6).toNat) ∧ up.sec.seedStopped = false) ∧
    (let x : CipherSuspect := { pair := 3, frame := 4, first := 6, second := 7 }
     let s := { up with sec := { suspects := [x] }, time := { frameExt := 5 } }
     s.sec.suspects = x :: [] ∧ x.frame < s.frame ∧ s.pinned (partId 6 x.first) = false ∧ s.pinned (partId 6 x.second) = false) ∧
    (let s := { up with sec := { seedStopped := true, entropyFrame := 4 }, time := { frameExt := 5 } }
     s.sec.seedStopped = true ∧ s.time.cycle = 0 ∧ s.frame ≠ s.sec.entropyFrame) := by decide +kernel


/-! ## Start, service and images -/

/-- An engine at a stage, with main power. -/
def atStage (st : Stage) : State := { up with curator := { stage := st, powerGood := true, slot := 1 }, battery := { engineId := 9 } }

theorem witness_StagesComplete :
    (State.reset.curator.powerGood = false ∧ State.reset.elec.shutdown = none) ∧
    (∀ valid ∈ [true, false], let s := { State.reset with battery := { canary := batteryCanary } }
     let obs : StageAObs := { dip := false, pufOk := true, bad := [], badSlots := [], seconds := 7, valid := valid }
     s.curator.stage = .none ∧ obs.dip = false ∧ s.battery.canary = batteryCanary ∧ s.battery.alarmStanding = false ∧ obs.bad = [] ∧
       obs.pufOk = true ∧ obs.badSlots = [] ∧ obs.valid = valid) ∧
    (let s := atStage .a
     s.curator.stage = .a ∧ s.curator.powerGood = true ∧ s.curator.held = none ∧ s.carrier.mainband = true ∧
       s.curator.vbatLost = false) ∧
    (let s := { atStage .b with service := { active := some ⟨1, 0, 0, 0, 0, 0, 0, [], Vector.replicate 4 0, 0, [], true⟩ },
                                time := { state := .grandmaster }, fabric := { ports := Vector.replicate 4 { state := .up } } }
     s.curator.stage = .b ∧ s.curator.held = none ∧ s.unmetC = 0) ∧
    (let s := atStage .c
     s.curator.stage = .c ∧ s.curator.held = none ∧ s.curator.checking = []) ∧
    (let s := { atStage .a with time := { frameExt := 30000 } }
     s.curator.powerGood = true ∧ s.curator.deadline = false ∧ 3000000 ≤ s.sincePower ∧ s.curator.stage = .a) ∧
    (let s := { atStage .b with time := { frameExt := 30000 } }
     let u := (s.setCurator fun c => { c with deadline := true }).observeSync
     3000000 ≤ s.sincePower ∧ u.curator.stage = .b ∧ u.latchUnmet.curator.held = none) ∧
    (let s := { atStage .b with curator := { stage := .b, powerGood := true, deadline := true } }
     s.curator.stage = .b ∧ s.curator.held = none ∧ s.unmetC ≠ 0 ∧ s.curator.deadline = true) ∧
    (let s := { atStage .b with curator := { stage := .b, powerGood := true, held := some .c } }
     s.curator.held = some .c ∧ s.holds .c = [] ∧ s.time.cycle = 0) ∧
    (let s := { up with sec := {}, jobs := Vector.replicate 4 {} }
     s.odCheck .field Od.startHold.key [3] = 0 ∧ (s.startHold 3).1 = 0 ∧
       s.odCheck .field Od.engineId.key (leBytes 4 9) = 0 ∧ (s.setEngineId 9).1 = 0) ∧
    up.curator.stage ≠ .none ∧ (up.time.cycle = 0 ∧ up.frame % 10000 = 0 ∧ up.curatorPaused = false) := by decide +kernel

/-- The same of the helper data, of 2,048 bytes. -/
theorem witness_StagesComplete_helper :
    let v : Bytes := leBytes 2048 0
    up.odCheck .field Od.pufHelper.key v = 0 ∧ (up.setHelper v true).1 = 0 := by decide +kernel

theorem witness_ServiceComplete :
    (let s := { up with od := [(Od.scoreEnable.key, 1)] }
     s.time.cycle = 0 ∧ s.frame % max 1 (s.cfg Od.scoreHalfLifeFrames) = 0 ∧ s.cfg Od.scoreEnable = 1) ∧
    (let p : Pin := { part := 0x1005, clean := up.cfg Od.pinFrames }
     let s := { up with service := { pins := [p] } }
     s.service.pins.find? (fun p => p.part == (0x1005 : BitVec 16).toNat) = some p ∧ s.cfg Od.pinFrames ≤ p.clean) ∧
    (∀ part ∈ [0x1005, 0x8001, 0xB001, 0xC001],
     let s := { up with od := [(Od.scoreEnable.key, 1), (Od.predictiveRetire.key, 1)],
                        service := { scores := [(part, { score := up.cfg Od.retireThreshold })] } }
     partKnown part = true ∧ s.cfg Od.scoreEnable ≠ 0 ∧ (s.score part).state ≠ .retired ∧
       s.cfg Od.retireThreshold ≤ (s.score part).score ∧ part ∉ s.service.reported ∧ s.cfg Od.predictiveRetire = 1) ∧
    up.canPlan 1 5 = true ∧
    (∀ k ∈ [0, 1, 2, 3], let s := { up with battery := { svn := Vector.replicate 4 (some 6) } }
     s.odCheck .field (0x104005 + k) (leBytes 4 7) = 0 ∧ (s.svnWrite k 7 true).1 = 0) ∧
    (∀ x ∈ [(ThermalPart.logicDie, 120), (.dram, 105)], (thermalLimits x.1).2.2 = some x.2 ∧ x.2 ≤ x.2 ∧ up.curator.powerGood = true) ∧
    ((thermalLimits .dram).2.2 = some 105 ∧ (90 : Int) ≤ 105 - 15 ∧
      ({ up with elec := { shutdown := some .dram } } : State).elec.shutdown = some .dram ∧ up.curator.stage ≠ .none ∧
      State.reset.curator.stage = .none) ∧
    (TapInstr.bypass ≠ .scanChain ∧ State.reset.keyStoreState ≠ 0 ∧
      ({ up with sec := { slots := Vector.replicate 64 { state := .loaded } } } : State).keyStoreState = 0) := by decide +kernel

/-- A bundle that this engine takes: a matrix without rows. -/
def bundle (id : BitVec 32) : Bundle :=
  { id := id, docentFw := 1, kernelId := 1, svnDocent := 5, svnKernel := 5, svnBundle := 5, schema := 0,
    matrix := leBytes 2 0x434D ++ [1, 0] ++ leBytes 4 id.toNat ++ [1, 1, 0, 0] ++ leBytes 4 (crc32c []),
    kvers := Vector.replicate 4 1, woadLevel := 1, services := [], sigOk := true }

/-- An image that this engine takes. -/
def image : CuratorImage := { fw := 1, svn := 5, len := 100, sigOk := true }

/-- An engine whose security versions are 5, with both Curator images. -/
def serviced (v : Service := {}) : State :=
  { up with battery := { svn := Vector.replicate 4 (some 5), imageA := some image, imageB := some image },
            curator := { stage := .d, powerGood := true, slot := 1 }, service := v, time := { frameExt := 100 } }

theorem witness_ImagesComplete :
    (let s := serviced
     s.odCheck .hostS Od.docentBundleLoad.key [] = 0 ∧ (s.bundleLoad (bundle 3)).1 = 0 ∧
       s.odCheck .hostS Od.bundleStage.key [] = 0 ∧ (s.bundleStage (bundle 3)).1 = 0 ∧
       s.odCheck .field Od.curatorImageLoad.key [] = 0 ∧ (s.imageLoad image).1 = 0 ∧
       s.odCheck .field Od.curatorActivate.key [2] = 0 ∧ (s.curatorActivate 2).1 = 0 ∧
       s.odCheck .field Od.curatorCommit.key [0] = 0 ∧ (s.curatorCommit 0).1 = 0) ∧
    (let s := serviced { staged := some (bundle 3) }
     s.odCheck .hostS Od.bundleActivate.key (leBytes 4 3) = 0 ∧ (s.bundleActivate 3).1 = 0) ∧
    (let s := serviced { trial := some 99, active := some (bundle 3) }
     s.odCheck .hostS Od.bundleCommit.key [0] = 0 ∧ (s.bundleCommit 0).1 = 0) ∧
    (let s := serviced { armed := some 99, staged := some (bundle 3) }
     s.service.armed = some 99 ∧ s.service.staged = some (bundle 3) ∧ s.time.cycle = 0 ∧ 99 < s.frame ∧ s.quiet = true) ∧
    (let s := { serviced { armed := some 0 } with time := { frameExt := 2 ^ 32 } }
     s.service.armed = some 0 ∧ 0 + s.cfg Od.activateWaitFrames ≤ s.frame) ∧
    (let s := serviced { trial := some 99, trialBad := true }
     s.service.trial.isSome = true ∧ s.service.trialBad = true) ∧
    (let s := { serviced { trial := some 0 } with od := [(Od.autoCommit.key, 1)], time := { frameExt := 2 ^ 33 } }
     s.service.trial.isSome = true ∧ s.trialing = false ∧ s.service.trialBad = false ∧ s.cfg Od.autoCommit = 1) ∧
    (let s := { serviced with curator := { stage := .d, activate := some (2, 99) } }
     s.curator.activate = some (2, 99) ∧ s.time.cycle = 0 ∧ 99 < s.frame) ∧
    (let s := { serviced with curator := { stage := .d, trial := some 99 } }
     s.curatorTrialing = true) := by decide +kernel

/-- A barrier message's header. -/
def bh (type seq len : Nat) : BitVec 64 := bits 64 [(56, type), (48, seq), (37, len)]

/-- A field side with power and a C_CONFIG. -/
def fielded : State :=
  { up with curator := { stage := .d, linkUp := true, statusAt := some 0,
                         field := { podl := true, config := some (List.replicate 14 0), beat := some 0 } },
            time := { frameExt := 2 ^ 30 } }

/-- A Phoaz frame of a READ_REQ as the field side passes it on: addresses and type, and the header of 16 bytes. -/
def phoazBytes : Bytes := List.replicate 12 0 ++ [0x88, 0xB6] ++ [1, 1] ++ List.replicate 14 0

theorem witness_FieldSideCompletes :
    State.reset.curator.field.podl = false ∧
    (fielded.curator.field.podl = true ∧ [(0 : Byte)].length ≤ 1522 ∧ fielded.curator.field.mac = some (0 : BitVec 48).toNat ∧
      (0x0800 : BitVec 16).toNat ≠ 0x88B6) ∧
    (let rx := fielded.curator.field.rxSeq
     barrierGood (bh 0x81 0 1) [0] true 0x81 rx = true ∧ barrierGood (bh 0x82 9 14) (List.replicate 14 0) true 0x82 rx = true ∧
       barrierGood (bh 0x83 255 0) [] true 0x83 rx = true ∧ barrierGood (bh 0x83 4 0) [] true 0x83 (some 4) = true) ∧
    (let s := { fielded with curator := { fielded.curator with rxSeq := some 255 } }
     let u := s.setCurator fun c => { c with rxSeq := barrierNext (bh 1 255 30) true c.rxSeq }
     s.curator.stage ≠ .none ∧ barrierGood (bh 1 255 30) phoazBytes true 0x01 s.curator.rxSeq = true ∧ u.curatorPaused = false ∧
       (readPhoaz s.timeNs phoazBytes).isSome = true ∧
       barrierGood (bh 2 255 16) (List.replicate 16 0) true 0x02 s.curator.rxSeq = true ∧ s.curator.linkUp = true ∧ u.curator.rxSeq = some 0) ∧
    (fielded.curator.field.config.isSome = true ∧ fielded.curator.field.beat = some 0 ∧ 0 + 5000000 ≤ fielded.timeNs) ∧
    (fielded.curator.statusAt = some 0 ∧ fielded.curator.linkUp = true ∧
      ({ fielded with curator := { fielded.curator with stage := .a } } : State).mainUp = false) := by decide +kernel


/-! ## The dictionary and Phoaz -/

/-- A bank with one byte for LINK_ENABLE. -/
def linkBank : OdBank := { addr := Od.linkEnable.key / 256 + Od.linkEnable.key % 256 * 65536, len := 1, total := 1, data := [(0, 15)] }

def banked : State := { up with dict := { bankS := linkBank } }

def plainObs : ActionObs := { intact := true, bundle := none, image := none }

theorem witness_DictionaryCompletes :
    (up.mainUp = true ∧ up.carrier.mainband = true ∧ (up.bank .ns).offset = 0 ∧
      ({ up with dict := { bankNs := linkBank } } : State).odReadCheck (bankAgent .ns) linkBank.key = 0) ∧
    (let s := banked
     let x := s.bank .s
     x.offset = 0 ∧ x.transfer = none ∧ x.total ≤ 4096 ∧ x.len = x.total ∧ (x.bytes x.len).length = x.total ∧
       (((s.setBank .s fun y => { y with snapshot := none }).setBank .s fun y => { y with transfer := none }).odWriteAny
         (bankAgent .s) false x.key (x.bytes x.len) plainObs).1 = 0) ∧
    up.odReadCheck .docent ((0x6000 : BitVec 16).toNat * 256 + (1 : BitVec 8).toNat) = 0 ∧
    (assoc ({ up with dict := { pendingW := [(0x600001, 0)] } } : State).dict.pendingW
      ((0x6000 : BitVec 16).toNat * 256 + (1 : BitVec 8).toNat)).isSome = true := by decide +kernel

/-- A frame of a type for an entry, its flags and PARAM. -/
def phFrame (type flags key param : Nat) (body : Bytes := []) (stamp : Nat := 0) : PhoazFrame :=
  { dst := 1, src := 2, hdr := phoazHdr type flags 3 body.length (key / 256) (key % 256) param, body := body, counter := 1, tag := 0,
    stamp := stamp }

/-- The same with the tag that the key numbered 0 gives it. -/
def tagged (f : PhoazFrame) : PhoazFrame := { f with tag := BitVec.ofNat 256 (Config.kmac 0 2 (phCovered f)) }

/-- An engine with FIELD_AUTH loaded and a frame waiting. -/
def hearing (f : PhoazFrame) (d : Dictionary := {}) : State :=
  { up with sec := { slots := (Vector.replicate 64 ({} : KeySlot)).set 3 { state := .loaded } }, dict := { d with phoazIn := [f] } }

/-- The state in which the frame's meaning begins, and the same when its tag has been found good. -/
def heard (f : PhoazFrame) (d : Dictionary := {}) : State :=
  (hearing f d).setDict fun d => { d with phoazIn := d.phoazIn.erase f }
def trusted (f : PhoazFrame) (d : Dictionary := {}) : State := (heard f d).odSetP Od.authCounter 1

theorem tagged_auth (f : PhoazFrame) (d : Dictionary) (h : phAuth f.hdr = true) (c : f.counter = 1) :
    (heard (tagged f) d).phoazAuth (tagged f) true = (0, trusted (tagged f) d) := by
  have t : (heard (tagged f) d).phoazTag (tagged f) = (tagged f).tag.toNat := by
    rw [State.phoazTag, show ((heard (tagged f) d).slot 3).key = 0 from rfl, show phCovered (tagged f) = phCovered f from rfl,
      tagged, BitVec.toNat_ofNat]
  rw [State.phoazAuth, show phAuth (tagged f).hdr = true from h, t, show (tagged f).counter = 1 from c, bne_self_eq_false]
  rfl

/-- A frame waits whose meaning begins in `heard`. -/
theorem waits (f : PhoazFrame) (d : Dictionary) (type : Nat) (h : phType f.hdr = type) : (hearing f d).phoazWaits f type (heard f d) :=
  ⟨List.mem_singleton.mpr rfl, h, rfl, rfl⟩

/-- A signed request is taken. -/
theorem takes (f : PhoazFrame) (type : Nat) (h : phType f.hdr = type) (a : phAuth f.hdr = true) (c : f.counter = 1) :
    (hearing (tagged f)).phoazTakes (tagged f) type true (trusted (tagged f)) :=
  ⟨_, waits _ _ _ h, tagged_auth f _ a c, rfl⟩

theorem witness_PhoazCompletes_reads :
    (let f := phFrame 0x01 0 Od.deviceSerial.key 0
     (hearing f).phoazTakes f 0x01 false (heard f) ∧ (heard f).odReadCheck .field (phKey f.hdr) = 0) ∧
    (let f := phFrame 0x08 0 Od.errorHistory.key 1024
     let p : Snapshot := { key := Od.errorHistory.key, value := List.replicate 1025 0, frame := 0 }
     (hearing f { snapshot := some p }).phoazTakes f 0x08 false (heard f { snapshot := some p }) ∧
       (heard f { snapshot := some p }).dict.snapshot = some p ∧ p.key = phKey f.hdr ∧ phParam f.hdr < p.value.length ∧
       phParam f.hdr % 1024 = 0) :=
  ⟨⟨⟨_, waits _ _ _ (by decide +kernel), by decide +kernel, rfl⟩, by decide +kernel⟩,
   ⟨⟨_, waits _ _ _ (by decide +kernel), by decide +kernel, rfl⟩, rfl, by decide +kernel, by decide +kernel, by decide +kernel⟩⟩

/-- WRITE_REQ of START_HOLD, and the first segment of PUF_HELPER. -/
def holdFrame : PhoazFrame := phFrame 0x03 1 Od.startHold.key 0 [2]
def initFrame : PhoazFrame := phFrame 0x05 1 Od.pufHelper.key 2048
def segFrame : PhoazFrame := phFrame 0x06 1 Od.pufHelper.key 0 (List.replicate 1024 0)
def opened : Transfer := { key := Od.pufHelper.key, total := 2048 + 1, got := [], frame := 0 }

theorem witness_PhoazCompletes_writes :
    ((hearing (tagged holdFrame)).phoazTakes (tagged holdFrame) 0x03 true (trusted (tagged holdFrame)) ∧
      ((trusted (tagged holdFrame)).phoazStore (tagged holdFrame) (tagged holdFrame).body plainObs).1 = 0) ∧
    ((hearing (tagged initFrame)).phoazTakes (tagged initFrame) 0x05 true (trusted (tagged initFrame)) ∧
      (trusted (tagged initFrame)).segInitCheck (phKey initFrame.hdr) (phParam initFrame.hdr) = 0 ∧
      (trusted (tagged initFrame)).dict.transfer = none) ∧
    (let d : Dictionary := { transfer := some opened }
     (hearing (tagged segFrame) d).phoazWaits (tagged segFrame) 0x06 (heard (tagged segFrame) d) ∧
       (heard (tagged segFrame) d).phoazAuth (tagged segFrame) true = (0, trusted (tagged segFrame) d) ∧
       (trusted (tagged segFrame) d).dict.transfer = some opened ∧ phKey segFrame.hdr = opened.key ∧
       phParam segFrame.hdr = opened.got.length ∧ segFrame.body.length = 1024 ∧ 1024 < opened.total - opened.got.length ∧
       phLast segFrame.hdr = false) :=
  ⟨⟨takes _ _ (by decide +kernel) (by decide +kernel) rfl, by decide +kernel⟩,
   ⟨takes _ _ (by decide +kernel) (by decide +kernel) rfl, by decide +kernel, rfl⟩,
   ⟨waits _ _ _ (by decide +kernel), tagged_auth _ _ (by decide +kernel) rfl, rfl, by decide +kernel, by decide +kernel,
    by decide +kernel, by decide +kernel, by decide +kernel⟩⟩

/-- TIME_FOLLOW of the TIME_SYNC numbered 7, published 5 s after the epoch. -/
def followFrame : PhoazFrame := phFrame 0x0E 1 0 7 ([0, 0, 0, 0, 0, 5] ++ [0, 0, 0, 1])

def someEvent : Event := { seq := 9, frame := 0, detail := 0, detail2 := 0, index := 0x1000, sub := 1 }

theorem witness_PhoazCompletes :
    (∀ type ∈ [0x0A, 0x0D, 0x0F], let f := phFrame type 0 0 0
     phType f.hdr = type ∧ f ∈ (hearing f).dict.phoazIn ∧ (heard f).curatorPaused = false) ∧
    (let f := phFrame 0x0C 0 0 9
     let d : Dictionary := { waiting := [someEvent], sends := some (1, 0) }
     phType f.hdr = 0x0C ∧ (heard f d).dict.waiting = someEvent :: [] ∧ someEvent.seq = phParam f.hdr ∧
       (heard f d).dict.sends.isSome = true) ∧
    (phType followFrame.hdr = 0x0E ∧ phAuth followFrame.hdr = true ∧ followFrame.body.length = 10 ∧
      beNat (followFrame.body.drop 6) < 1000000000 ∧ phParam followFrame.hdr = 7 ∧ (up.timeNs ≤ 0 + 100000000) ∧
      up.time.state ≠ .synced ∧ up.time.state ≠ .grandmaster) ∧
    up.curatorPaused = false ∧
    (∀ n ∈ [0, up.cfg Od.eventRetryLimit], let s := { up with
                od := [(Od.fieldMasterAddr.key, 5)]
                time := { frameExt := 10 ^ 8 }
                dict := { waiting := [someEvent], sends := some (n, 0) } }
     s.dict.waiting = someEvent :: [] ∧ s.dict.sends = some (n, 0) ∧ 0 + s.cfg Od.eventRetryMs * 1000000 ≤ s.timeNs ∧
       s.curatorPaused = false ∧ s.masterAddr ≠ phoazGroup ∧ s.cfg Od.eventRetryLimit = up.cfg Od.eventRetryLimit) ∧
    0 < up.cfg Od.eventRetryLimit ∧
    (let s := { up with time := { frameExt := 10 ^ 8 }, dict := { transfer := some opened } }
     s.dict.transfer = some opened ∧ opened.frame + s.cfg Od.segIdleFrames ≤ s.frame) := by decide +kernel

/-- The good follower, after its TIME_SYNC. -/
theorem witness_PhoazCompletes_follow :
    let d : Dictionary := { timeSync := some (7, 0) }
    (hearing (tagged followFrame) d).phoazWaits (tagged followFrame) 0x0E (heard (tagged followFrame) d) ∧
      (heard (tagged followFrame) d).phoazAuth (tagged followFrame) true = (0, trusted (tagged followFrame) d) ∧
      (trusted (tagged followFrame) d).dict.timeSync = some (phParam followFrame.hdr, 0) ∧
      (trusted (tagged followFrame) d).timeNs ≤ 0 + 100000000 :=
  ⟨waits _ _ _ (by decide +kernel), tagged_auth _ _ (by decide +kernel) rfl, by decide +kernel, by decide +kernel⟩

/-- Both sides of the limit on the receive buffers (12 R314): 9,280 flits in all. -/
theorem witness_CreditSumIsBounded :
    let s := { up with jobs := Vector.replicate 4 {} }
    let others := (List.range 6).map fun k => s.odGet (Od.vcRxCredits k)
    s.mainUp = true ∧ s.anyJob = false ∧ (others.drop 1).sum + 32 ≤ 9280 ∧ others.sum - s.odGet (Od.vcRxCredits 5) + 256 ≤ 9280 ∧
      9280 < others.sum - s.odGet (Od.vcRxCredits 5) + 4096 := by decide +kernel

theorem witness_WoadEntriesRefuseWrites : 0x404001 ≤ 0x404001 ∧ 0x404001 ≤ 0x404011 ∧ 0x404011 ≤ 0x404011 := by decide

/-- A counter of 32 bits at its largest, a total of 64 bits, and another entry. -/
theorem witness_CountersSaturate :
    let s := { up with od := [(Od.collAbortCount.key, 2 ^ 32 - 1)] }
    s.storeFormed ∧ s.odGet Od.collAbortCount = 2 ^ Od.collAbortCount.width - 1 ∧ Od.rollfwdSteps.width = 64 ∧
      Od.rollfwdSteps.key ≠ Od.collAbortCount.key := by unfold State.storeFormed; decide +kernel


/-! ## Clauses of further states -/

theorem witness_TimeCompletes_repairs :
    (let s := { at_ 60 with update := { suspect := [suspect] } }
     s.repairSince .updateLane (3 : BitVec 32).toNat = some 50 ∧ s.lapsed 50 RepairPart.updateLane.budget = true ∧
       (s.repairPid .updateLane 3, 50) ∉ s.service.overruns) ∧
    (at_ 60).repairSince .updateLane (3 : BitVec 32).toNat = none := by decide +kernel

theorem witness_ClockSyncCompletes_silence :
    let m : ForeignMaster := { source := 4, body := announce 1, heard := 0 }
    let s := { ptp { foreigns := [m] } .synced with
               time := { (ptp { foreigns := [m] } .synced).time with parentId := 4, frameExt := 10 ^ 9 } }
    s.time.state = .synced ∧ s.time.parent = some 1 ∧
      s.time.ports[(1 : Port)].foreigns.find? (fun m => m.source == s.time.parentId) = some m ∧ s.silent m = true := by decide +kernel

/-- A PHASE 1 of Woad in the array when a check fails. -/
theorem witness_LaneAndArrayFaults_user :
    let t := { woad 1 with phase := .running, slice := some { start := 0, size := 4, issued := 0 } }
    let s := atStep5 (runsOn t woadHoldings)
    let v := s.bump Od.arrayShadowMismatchCount
    s.mainUp = true ∧ s.colSpares.isEmpty = false ∧ v.sched.tasks.filter v.usesArray = [t] ∧
      ((v.sched.tasks.filter v.usesArray).foldl (fun s t => s.faultFor t.id .array) v).woad.suspect = none := by decide +kernel

/-- An UPDATE that waits for an extent, and no task that does. -/
theorem witness_CarrierMessagesComplete_waits :
    let t := { sgd 4 with phase := .running }
    let p : PendingExtent := { holding := 11, extent := 0, frame := 5, reported := false }
    let s := { atStep5 (runsOn t sgdHoldings) with
               time := { frameExt := 10 ^ 6 }
               carrier := { mainband := true, holdings := sgdHoldings, pendingExt := [p] } }
    s.carrier.pendingExt.find? (fun x => x.holding == (11 : BitVec 12).toNat && x.extent == (0 : BitVec 32).toNat) = some p ∧
      p.frame + s.cfg Od.xlatWaitLimitFrames ≤ s.frame ∧ s.sched.tasks.filter (fun t => s.waitsExtent t 11 0) = [t] ∧ t.lane = true ∧
      ((s.raise .xlatTimeout).setCarrier fun c => { c with
        alXlat := true, pendingExt := mapIf c.pendingExt (fun x => x == p) (fun x => { x with reported := true }) }).task? t.id = some t := by
  decide +kernel

/-! ## The spec's worked examples -/

/-- A deadline and a start stamp across a wrap (02, "a collective deadline across a wrap"). -/
theorem test_wrap : (at_ 0x100200000010).extend 0x88 = 0x100200000088 ∧ (at_ 0x100200000010).extend 0xFFFFFFF0 = 0x1001FFFFFFF0 := by
  decide +kernel

/-- Element 10,000,000 of a padded weight Holding (03, "one element of a padded weight Holding"). -/
theorem test_padded :
    let h : Holding := { desc := bits 512 [(0, 7), (24, 1), (32, 1), (64, 4096), (96, 8192), (192, 4160), (448, 33)], job := 0,
                         extents := List.replicate 9 0 ++ [0x473A000001] }
    h.count = 33554432 ∧ h.byteOffset 10000000 = 20312448 ∧ h.addrOf 10000000 = (some 0x473A15F180, 9) ∧ leafOf h 10000000 = 19 := by
  decide +kernel

/-- P_t and P_u of the throttled step (03, "a stack turns HOT before a verdict"). -/
theorem test_grace : graceFrames 1000000000 (some 14285714) = some 73 ∧ graceFrames 1000000000 (some 20000000) = some 52 ∧ 73 - 60 = 13 := by
  decide

/-- Element 40,000 through ADAMW (05, "one AdamW step on a small Holding"). -/
def example05 : KernelArgs :=
  { kernel := 0, sr := true, scaleExp := 0, tensor := 0x107, elemBase := 0, len := 65536, lr := 0x3A800000, beta1 := 0x3F600000,
    beta2 := 0x3F7C0000, eps := 0x35800000, wd := 0x3D800000, gradMul := 0x3F800000, bc1 := 0x41000000, bc2 := 0x42800000, clip := 0,
    level := 0, lineage := 0x0123456789ABCDEFFEDCBA9876543210, step := 1 }

theorem test_adamw :
    adamw example05 { g := 0x3F000000, p := 0x3F800000, m := 0, v := 0 } = { p := 0x3F7FBC00, m := 0x3D800000, v := 0x3B800000 } ∧
    philoxKey example05.lineage example05.tensor = (0xFFFFFEF8, 0xFFFFFFFF) := by decide +kernel

/-- The weight narrowed to BF16 and to FP8_E4M3, to nearest and stochastically on both sides of the threshold. -/
theorem test_narrow :
    fnarrow 1 false 0x3F7FBC00 0 = (0x3F80, false) ∧ fnarrow 1 true 0x3F7FBC00 (0x4400 * 2 ^ 16) = (0x3F80, false) ∧
    fnarrow 1 true 0x3F7FBC00 (0x43FF * 2 ^ 16 + 0xFFFF) = (0x3F7F, false) ∧ (fnarrow 3 false 0x3F7FBC00 0).1 = 0x38 ∧
    (fnarrow 3 true 0x3F7FBC00 (1088 * 2 ^ 16)).1 = 0x38 ∧ (fnarrow 3 true 0x3F7FBC00 (1087 * 2 ^ 16)).1 = 0x37 := by decide +kernel

/-- The last block of a BF16 weight Holding (07, "the last block of a BF16 weight Holding"), coded by table 3. -/
def table3 : CodeTable := { format := 1, lengths := List.replicate 0x7A 0 ++ [5, 3, 2, 2, 2, 4, 5] ++ List.replicate 127 0 }
def block07 : Bytes := [0x80, 0x3E, 0x00, 0xBE, 0x80, 0x3F, 0xCC, 0x3D, 0x19, 0x3E, 0xA3, 0xBE, 0x40, 0x3F, 0x6B, 0x3E]
def otherFormat : CodeTable := { format := 3, lengths := [] }

theorem test_block07 : encodeBlockBytes true [otherFormat, otherFormat, otherFormat, table3] 0x12 1 block07 =
    ([0x07, 0x60, 0x18, 0x00, 0x12, 0x00, 0x2A, 0x22, 0x00, 0x80, 0x00, 0x4C, 0x19, 0xA3, 0x40, 0x6B,
      0x4E, 0xC3, 0x00, 0x00, 0x00, 0x00, 0x00, 0x00], false) := by decide +kernel

/-- The CRC of a remap entry's bytes 7 to 1 (08, "an uncorrectable master word during UPDATE"), and the entry of Table 08-3 that the
same failure gives (log entry 185). -/
theorem test_remapEntry : crc8 [0x70, 0x35, 0x50, 0x04, 0x40, 0x00, 0x00] = 0x3B ∧ (remapEntry 1 94 4949 17).toNat / 2 ^ 30 =
    ((((1 * 4 + 2) * 32 + 30) * 32768 + 4949) * 1024) + 17 := by decide +kernel

/-- The order of a BF16 sum (11): the innermost axis first. -/
theorem test_sum :
    let e : Nat := 0x3B80
    let row (a b : Nat) : Nat := (combine 0 1 (a, a) (b, b)).1
    row e 0x3F80 = 0x3F80 ∧ row e e = 0x3C00 ∧ row (row e e) (row e 0x3F80) = 0x3F81 := by decide +kernel

/-- The last IV under a load, and the first of the next (13, "a group key under sustained ALLREDUCE"). -/
theorem test_iv :
    let s (epoch usage : Nat) : State := { up with battery := { engineId := 0x0A010203 },
                                                   sec := { slots := Vector.replicate 64 { ivEpoch := epoch, usage := usage } } }
    (s 0x131 3865471735).nextIv 9 = 0x0A01020300000131E6666AF7 ∧ (s 0x132 0).nextIv 9 = 0x0A0102030000013200000000 := by decide +kernel

/-- The full slice of the reference shard with Ledger staging and the capture of a 4-byte operand: g = 20 (01, "one step on a small
shard"; 04 R99 beside an urgent restore that takes 36,000,000 bytes of the Gallery's writes and 48,000,000 of the carrier's). -/
theorem test_slice :
    let t := task 0x11 [(128, 5), (192, 67108864), (288, 13), (304, 11), (320, 12), (336, 14), (352, 10), (368, 0xFFFF), (384, 0xFFFF)]
    let hs := [hold 10 2 4 1 [67108864], hold 11 0 1 0 [67108864], hold 12 0 2 0 [67108864], hold 13 0 0 1 [67108864],
      hold 14 0 3 0 [67108864]]
    let tap : CaptureTap := { task := 9, acc := 1, holding := 14, first := 0, count := 256, step := 5, rider := some 4, cells := [],
                              poisonedLeaves := [] }
    let s := { paired t { wpair with outRecords := [{ outRec with task := some 6, openSent := false }] } with
               carrier := { mainband := true, holdings := hs }, vault := { taps := [tap] } }
    let b : Units := { read := 400000000, write := 400000000, galRead := 320000000, galWrite := 320000000, lanes := 20480000,
                       enc := 81920000, own := 2 ^ 32 }
    s.sliceSize b t 0 = 16000000 ∧
      s.sliceSize { b with galWrite := 320000000 - 36000000, write := 400000000 - 48000000 } t 0 = 14200000 := by decide +kernel

/-! ## WellFormed -/

/-- Each check refuses a term, and admits one at its limit. -/
theorem test_illFormed :
    (Instr.mrdCpl 0 [0]).wellFormed = false ∧ (Instr.mwrCpl 0 (List.replicate 320 0)).wellFormed = false ∧
    (Instr.d2dNop 0 [0]).wellFormed = false ∧ (Instr.timeReq 0 [0]).wellFormed = false ∧ (Instr.therm 0 [0]).wellFormed = false ∧
    (Instr.grant 0 [0]).wellFormed = false ∧ (Instr.mrdCpl 0 (List.replicate 256 0)).wellFormed = true ∧
    (Instr.dataFlit 0 0 (List.replicate 243 0) true true).wellFormed = false ∧ (Instr.signalDetect 0 10).wellFormed = false ∧
    (Instr.trainingComplete 0 0 ⟨Vector.replicate 8 0, #v[0, 1, 2, 3, 4, 5, 6, 7], true⟩ (Vector.replicate 2 0)).wellFormed = false ∧
    (Instr.trainingComplete 0 0 ⟨#v[1, 2, 3, 4, 5, 6, 7, 8], #v[0, 1, 2, 3, 4, 5, 6, 6], true⟩ (Vector.replicate 2 0)).wellFormed = false ∧
    (Instr.trainingComplete 0 0 ⟨#v[1, 2, 3, 4, 5, 6, 7, 8], #v[0, 1, 2, 3, 4, 5, 6, 7], true⟩ (Vector.replicate 2 0)).wellFormed = true ∧
    (Instr.e2hSend 0 (some [0]) 0).wellFormed = false ∧ (Instr.e2hSend 0 none 0).wellFormed = true ∧
    (Instr.fieldFrame 0 0 0 (List.replicate 45 0) true).wellFormed = false ∧
    (Instr.fieldFrame 0 0 0 (List.replicate 46 0) true).wellFormed = true ∧
    (Instr.arrayRepair [1, 1] []).wellFormed = false ∧ (Instr.arrayRepair [] [129, 129]).wellFormed = false ∧
    (Instr.deadlockScan [⟨1, 2⟩, ⟨1, 2⟩]).wellFormed = false ∧
    (Instr.rowRemap 0 true 7 ⟨[], 0⟩).wellFormed = false ∧ (Instr.rowRemap 0 true 6 ⟨[], 0⟩).wellFormed = true ∧
    (Instr.frameBoundary { FrameObs.quiet with lateDrain := [3, 3] }).wellFormed = false ∧
    (Instr.frameBoundary { FrameObs.quiet with pinFail := [24] }).wellFormed = false ∧
    (Instr.frameBoundary { FrameObs.quiet with starved := 160001 }).wellFormed = false ∧
    (Instr.frameBoundary FrameObs.quiet).wellFormed = true := by decide +kernel

/-- The same of payloads that are too long. -/
theorem test_illFormed_long (h : BitVec 64) (w : BitVec 256) (p : Bytes) :
    (1048640 < p.length → (Instr.recordData w p true).wellFormed = false) ∧
    (1048576 < p.length → (Instr.copyLeaf w p true).wellFormed = false) ∧
    (1500 < p.length → (Instr.fieldFrame 0 0 0 p true).wellFormed = false) ∧
    (1536 < p.length → (Instr.fFrame h p true).wellFormed = false ∧ (Instr.fStatus h p true).wellFormed = false ∧
      (Instr.cFrame h p true).wellFormed = false ∧ (Instr.cConfig h p true).wellFormed = false) := by
  refine ⟨?_, ?_, ?_, ?_⟩ <;> intro h <;> simp [Instr.wellFormed, barrierFormed] <;> omega

/-- A word of the scrubbed row is named once. -/
theorem test_illFormed_scrub (f : ScrubFault) : (Instr.scrubRow [] [f, f]).wellFormed = false := by
  simp [Instr.wellFormed, noRepeat, List.eraseDups_cons]

end Sys2Proof.Tests
end

section
/-!
PROOFS for chapter 01, the architecture. A task that runs has its own meaning from the state `State.begun`; what a STEP_MARK does in
each of its modes (Table 04-9); and the lag that holds it (R19).
-/
namespace Sys2Proof.Machine

@[simp] theorem State.job_setTask (s : State) (id : Nat) (f : Task → Task) (j : JobId) : (s.setTask id f).job j = s.job j := by
  simp [State.setTask, State.job]

@[simp] theorem State.job_begun (s : State) (id : Nat) (j : JobId) : (s.begun id).job j = s.job j := by
  simp [State.begun]

/-- A task that `State.runs` admits passes every check, and has its own meaning (R80, R86). -/
theorem State.whenReady_of_runs {s : State} {id ty : Nat} {t : Task} (h : s.runs id ty t) (f : State → Task → State) :
    s.whenReady id ty f = f (s.begun id) t := by
  obtain ⟨found, type, ready, admitted⟩ := h
  by_cases bound : taskJobBound ty = true ∧ ty ≠ 0x01
  · obtain ⟨isOpen, owner⟩ := admitted bound.1 bound.2
    simp [State.whenReady, State.begun, found, type, ready, isOpen, owner]
  · simp [State.whenReady, State.begun, found, type, ready, bound]

/-- A STEP_MARK of mode ADVANCE that runs. -/
theorem exec_stepMark_advance {s : State} {id : Nat} {t : Task} (h : s.runs id 0x10 t) (advance : t.f 257 256 = 0) :
    exec (.stepMark id) s = .next (
      if t.step = (s.job t.job).c + 1 then
        if (s.job t.job).badVerdict then (s.begun id).complete t 0x0012 0 0 (s.job t.job).v
        else if (s.begun id).markHeld t.job then s.begun id
        else (s.begun id).acceptMark t ((s.job t.job).c + 1)
      else (s.begun id).complete t 0x0010 0 0 (s.job t.job).c) := by
  simp [exec, execStepMark, State.whenReady_of_runs h, advance]

/-- A STEP_MARK of mode REPLAY that runs. -/
theorem exec_stepMark_replay {s : State} {id : Nat} {t : Task} (h : s.runs id 0x10 t) (replay : t.f 257 256 ≠ 0) :
    exec (.stepMark id) s = .next (
      if t.step ≠ (s.job t.job).v + 1 ∨ (s.job t.job).badVerdict = false then
        (s.begun id).complete t 0x0010 0 0 (s.job t.job).c
      else ((((s.begun id).abandonSteps t).forgetSteps t).setJob t.job fun x =>
        { x with badVerdict := false, badSteps := [] }).acceptMark t ((s.job t.job).v + 1)) := by
  simp [exec, execStepMark, State.whenReady_of_runs h, replay]

/-- Settles O24: the rows of Table 04-9, by the mode of the mark. -/
theorem stepMarkOutcomes : Obligations.StepMarkOutcomes := by
  intro s id t h
  refine ⟨fun advance step good => ⟨fun held => ?_, fun free => ?_⟩, fun advance step bad => ?_, fun advance step => ?_,
    fun replay step bad => ?_, fun replay wrong => ?_⟩
  · simp [exec_stepMark_advance h advance, step, good, held]
  · simp [exec_stepMark_advance h advance, step, good, free]
  · simp [exec_stepMark_advance h advance, step, bad]
  · simp [exec_stepMark_advance h advance, step]
  · simp [exec_stepMark_replay h replay, step, bad]
  · rw [exec_stepMark_replay h replay, if_pos wrong]

/-- With a partner whose mirror is confirmed and not stale, the lag is measured from M. -/
theorem State.lagBase_of_mirrored {s : State} {j : JobId} (paired : (s.weld j).state = .paired)
    (fresh : (s.weld j).outStale = none) (confirmed : (s.weld j).confirmed = true) : s.lagBase j = ((s.job j).m, false) := by
  simp [State.lagBase, paired, fresh, confirmed]

/-- With no partner, the lag is measured from V. -/
theorem State.lagBase_of_unpaired {s : State} {j : JobId} (alone : (s.weld j).state ≠ .paired) :
    s.lagBase j = ((s.job j).v, true) := by
  simp [State.lagBase, alone]

/-- What holds a mark: MIRROR_LAG_LIMIT, and under PARTNER_ONLY also DURABLE_LAG_LIMIT (R19, R246). -/
theorem State.markHeld_iff {s : State} {j : JobId} :
    s.markHeld j = true ↔ s.cfg Od.mirrorLagLimit + (s.lagBase j).1 < (s.job j).c + 1 ∨
      (s.cfgStep j Od.ledgerPolicy = 1 ∧ s.cfg Od.durableLagLimit ≠ 0) ∧
        s.cfg Od.durableLagLimit + (s.job j).d < (s.job j).c + 1 := by
  simp [State.markHeld]

/-- Past MIRROR_LAG_LIMIT every policy holds the mark. -/
theorem State.markHeld_of_lag {s : State} {j : JobId} (lag : s.cfg Od.mirrorLagLimit + (s.lagBase j).1 < (s.job j).c + 1) :
    s.markHeld j = true := State.markHeld_iff.2 (.inl lag)

/-- Where the policy is not PARTNER_ONLY, only MIRROR_LAG_LIMIT holds a mark. -/
theorem State.markHeld_eq_false {s : State} {j : JobId} (policy : s.cfgStep j Od.ledgerPolicy ≠ 1)
    (lag : (s.job j).c + 1 ≤ s.cfg Od.mirrorLagLimit + (s.lagBase j).1) : s.markHeld j = false := by
  refine Bool.eq_false_iff.2 fun held => ?_
  rcases State.markHeld_iff.1 held with past | ⟨⟨partnerOnly, _⟩, _⟩
  · exact absurd past lag.not_gt
  · exact policy partnerOnly

/-- Settles O25: the base of the lag is M with a good mirror and V with no partner, and but for PARTNER_ONLY no other limit holds the
mark. -/
theorem lagHoldsTheMark : Obligations.LagHoldsTheMark := by
  intro s j
  refine ⟨fun paired fresh confirmed lag => ?_, fun alone lag => ?_, fun policy =>
    ⟨fun paired fresh confirmed lag => ?_, fun alone lag => ?_⟩⟩
  · exact State.markHeld_of_lag (by rwa [State.lagBase_of_mirrored paired fresh confirmed])
  · exact State.markHeld_of_lag (by rwa [State.lagBase_of_unpaired alone])
  · exact State.markHeld_eq_false policy (by rwa [State.lagBase_of_mirrored paired fresh confirmed])
  · exact State.markHeld_eq_false policy (by rwa [State.lagBase_of_unpaired alone])

end Sys2Proof.Machine
end

section
/-!
PROOFS for chapter 02, frames and time. A step is the command at the front of the queue or an idle cycle, and both keep the form of the
state; FRAME_EXT and the extension of frame numbers; and one lemma for each row of the frame tick, of the time reads and of PTP.
-/
namespace Sys2Proof.Machine

/-! The step -/

theorem step_of_cons {s : State} {c : Instr} {rest : List Instr} (front : s.pending = c :: rest) :
    step s = exec c { s with pending := rest } := by
  simp [step, front]

theorem step_of_empty {s : State} (empty : s.pending = []) : step s = .next s.idle := by
  simp [step, empty]

/-- Within a frame an idle cycle goes on to the next one (R24). -/
theorem State.idle_of_lt {s : State} (stage : s.curator.stage ≠ .none) (within : s.time.cycle < 159999) :
    s.idle = { s with time := { s.time with cycle := s.time.cycle + 1 }, raised := [] } := by
  simp [State.idle, stage, within, State.newCycle, State.setTime]

/-- Without power, or at the last cycle of the frame, an idle cycle changes nothing. -/
theorem State.idle_of_stopped {s : State} (stopped : s.curator.stage = .none ∨ 159999 ≤ s.time.cycle) : s.idle = s := by
  rcases stopped with unpowered | last
  · simp [State.idle, unpowered]
  · simp [State.idle, last.not_gt]

/-- Settles O2: an idle step is `State.idle`, within the frame or at rest. -/
theorem emptyQueueTicks : Obligations.EmptyQueueTicks := fun _ empty =>
  ⟨fun stage within => by rw [step_of_empty empty, State.idle_of_lt stage within],
   fun stopped => by rw [step_of_empty empty, State.idle_of_stopped stopped]⟩

/-- The queue of commands is no part of the form. -/
theorem State.formed_setPending {s : State} (formed : s.formed) (rest : List Instr) : { s with pending := rest }.formed := formed

/-- Settles O5: the invariant that `Kept` carries through every operation, for the command at the front and for the idle cycle. -/
theorem stepsKeepTheForm : Obligations.StepsKeepTheForm := by
  intro s formed
  cases queue : s.pending with
  | nil =>
    obtain ⟨-, -, -, kept⟩ := idle_next s
    exact ⟨s.idle, step_of_empty queue, kept formed⟩
  | cons c rest =>
    obtain ⟨t, next, -, -, -, kept⟩ := exec_next c { s with pending := rest }
    exact ⟨t, (step_of_cons queue).trans next, kept (State.formed_setPending formed rest)⟩

/-! FRAME_EXT (R23) -/

@[simp] theorem State.frame_openFrame (s : State) : s.openFrame.frame = s.frame + 1 := rfl
@[simp] theorem State.cycle_openFrame (s : State) : s.openFrame.time.cycle = 0 := rfl

/-- The time within a frame: 160,000 cycles of 625 ps are its 100,000,000 ps. -/
theorem State.timePs_eq (s : State) : s.timePs = s.frame * 100000000 + s.time.cycle * 625 := rfl

theorem State.timePs_openFrame (s : State) : s.openFrame.timePs = (s.frame + 1) * 100000000 := by
  simp [State.timePs_eq]

/-- The present frame is the number of whole frames in the time. -/
theorem State.frame_eq_timePs_div {s : State} (formed : s.timeFormed) : s.frame = s.timePs / 100000000 := by
  have inFrame : s.time.cycle < 160000 := formed
  rw [State.timePs_eq]
  omega

theorem State.timePs_mod_eq_zero_iff {s : State} (formed : s.timeFormed) : s.timePs % 100000000 = 0 ↔ s.time.cycle = 0 := by
  have inFrame : s.time.cycle < 160000 := formed
  rw [State.timePs_eq]
  omega

/-- TIME_NS is the floor of the time in nanoseconds (a cycle is 5/8 ns). -/
theorem State.timeNs_eq_timePs_div (s : State) : s.timeNs = s.timePs / 1000 := by
  simp only [State.timeNs, State.timePs]
  omega

/-- Settles O53: the time is FRAME_EXT frames and the cycles of the present one, which are less than a frame. -/
theorem frameIsTheTime : Obligations.FrameIsTheTime := by
  intro s formed
  have whole := State.frame_eq_timePs_div formed
  refine ⟨State.timePs_mod_eq_zero_iff formed, s.timeNs_eq_timePs_div, ?_, rfl, ?_, s.frame_openFrame⟩
  · rw [s.timeNs_eq_timePs_div, Nat.div_div_eq_div_mul, whole]
  · rw [s.timePs_openFrame, whole]

/-! Extending a frame number (R47) -/

/-- The distance d of R47, from the low 32 bits of the present frame up to the received number. -/
def State.frameDistance (s : State) (f : Nat) : Nat := (f % 2 ^ 32 + 2 ^ 32 - s.frame % 2 ^ 32) % 2 ^ 32

theorem State.extend_eq (s : State) (f : Nat) :
    s.extend f = if s.frameDistance f < 2 ^ 31 then s.frame + s.frameDistance f else s.frame - (2 ^ 32 - s.frameDistance f) := rfl

/-- The distance is the difference of the two as words of 32 bits. -/
theorem State.frameDistance_eq_sub (s : State) (f : Nat) :
    s.frameDistance f = (BitVec.ofNat 32 f - BitVec.ofNat 32 s.frame).toNat := by
  rw [State.frameDistance, BitVec.toNat_sub, BitVec.toNat_ofNat, BitVec.toNat_ofNat]
  omega

theorem State.frameDistance_lt (s : State) (f : Nat) : s.frameDistance f < 2 ^ 32 := Nat.mod_lt _ (by decide)

/-- The extension as an integer: a frame before the first is frame 0. -/
theorem State.extend_cast (s : State) (f : Nat) :
    (s.extend f : Int) = if s.frameDistance f < 2 ^ 31 then (s.frame : Int) + s.frameDistance f
      else max 0 ((s.frame : Int) - (2 ^ 32 - s.frameDistance f)) := by
  have small := s.frameDistance_lt f
  rw [State.extend_eq]
  split <;> omega

/-- The low 32 bits of a frame less than 2^31 above the present one, or at most 2^31 below it, extend to that frame. -/
theorem State.extend_mod_eq {s : State} {n : Nat} (above : n < s.frame + 2 ^ 31) (below : s.frame ≤ n + 2 ^ 31) :
    s.extend (n % 2 ^ 32) = n := by
  have distance : s.frameDistance (n % 2 ^ 32) = (n + 2 ^ 32 - s.frame) % 2 ^ 32 := by
    rw [State.frameDistance]
    omega
  rw [State.extend_eq, distance]
  split <;> omega

/-- Settles O54: R47's d is the distance that `State.extend` takes. -/
theorem frameNumbersExtend : Obligations.FrameNumbersExtend := fun s =>
  ⟨fun f _ => by simpa only [s.frameDistance_eq_sub f] using s.extend_cast f, fun _ above below => State.extend_mod_eq above below⟩

/-! The rows of the frame tick, of the alignment and of the time reads -/

/-- FRAME_BOUNDARY with the main domain up (R23). -/
theorem exec_frameBoundary {s : State} (stage : s.curator.stage ≠ .none) (up : s.mainUp = true) (obs : FrameObs) :
    exec (.frameBoundary obs) s =
      let t := (s.closeFrame obs).slewFrame.writeScores.openFrame.resumeCurator.writeEffects
      .next (if t.mainUp then t.beginFrame s obs else t).beatBarrier.drainField := by
  simp [exec, execFrameBoundary, stage, up]

/-- A repair past its budget that has not been named is counted and named (R33). -/
theorem exec_faultBudgetOverrun_late {s : State} {part : RepairPart} {index : BitVec 32} {f : Nat}
    (since : s.repairSince part index.toNat = some f) (late : s.lapsed f part.budget = true)
    (unnamed : (s.repairPid part index.toNat, f) ∉ s.service.overruns) :
    exec (.faultBudgetOverrun part index) s =
      .next ((s.setService fun v => { v with overruns := ((s.repairPid part index.toNat, f) :: v.overruns).take 64 }).countEvent
        Od.faultBudgetOverrunCount (s.repairPid part index.toNat) part.budget) := by
  simp [exec, execFaultBudgetOverrun, since, late, unnamed]

theorem exec_faultBudgetOverrun_idle {s : State} {part : RepairPart} {index : BitVec 32}
    (idle : s.repairSince part index.toNat = none) : exec (.faultBudgetOverrun part index) s = .next s := by
  simp [exec, execFaultBudgetOverrun, idle]

/-- HOLDOVER has lasted HOLDOVER_ALIGN_FRAMES and has not been reported (R36; log entry 55). -/
theorem exec_holdoverAlignExpiry_due {s : State} {f : Nat} (since : s.time.holdoverSince = some f)
    (holdover : s.time.state = .holdover) (unreported : s.time.holdoverReported = false)
    (due : f + s.cfg Od.holdoverAlignFrames ≤ s.frame) :
    exec .holdoverAlignExpiry s = .next ((s.setTime fun t =>
      { t with alignUncertain := true, holdoverReported := true, alignCount := t.alignCount + 1 }).eventAt 0x1001 0 0 0) := by
  simp [exec, execHoldoverAlignExpiry, State.lapsed, since, holdover, unreported, due]

/-- SYNCED has lasted 600 s: the trim table is refined, and the next 600 s begin (R34). -/
theorem exec_trimRefine_due {s : State} {f : Nat} (since : s.time.syncedSince = some f) (synced : s.time.state = .synced)
    (due : f + 6000000 ≤ s.frame) :
    exec .trimRefine s = .next (((s.free.2.odSetP Od.trimTable s.free.1).odSetP Od.trimValid 1).setTime fun t =>
      { t with syncedSince := some t.frameExt }) := by
  simp [exec, execTrimRefine, since, synced, due]

/-- A whole second begins: 10,000 frames (R45). -/
theorem exec_pps_second {s : State} (active : s.ppsActive = true) (first : s.time.cycle = 0) (second : s.frame % 10000 = 0) :
    exec .pps s = .next (s.setTime fun t => { t with ppsLeft := s.cfg Od.ppsWidthFrames }).sendTime := by
  simp [exec, execPps, active, first, second]

/-- A read of LO, and of HI beside it where the access is 8 bytes wide, is the low 32 or 64 bits of the counter. -/
theorem lo_add_hi (n : Nat) (wide : Bool) :
    n % 2 ^ 32 + (if wide then n / 2 ^ 32 % 2 ^ 32 * 2 ^ 32 else 0) = n % (if wide then 2 ^ 64 else 2 ^ 32) := by
  cases wide
  · rfl
  · simp only [if_true]
    omega

/-- FRAME_EXT_LO latches all that is to be read after it (R49). -/
theorem exec_frameExtLoRead {s : State} {path : CwPath} (served : s.cwOpen path = true) (wide : Bool) :
    exec (.frameExtLoRead path wide) s = .next ((s.setTime fun t => { t with
      latFrameExtHi := s.frame / 2 ^ 32 % 2 ^ 32, latTimeNsLo := s.timeNs % 2 ^ 32,
      latTimeNsHi := s.timeNs / 2 ^ 32 % 2 ^ 32, latCycle := s.time.cycle }).send
        (.cwCpl path none 0 (s.frame % (if wide then 2 ^ 64 else 2 ^ 32)))) := by
  rw [← lo_add_hi]
  exact congrArg Host.Outcome.next (if_pos served)

/-- TIME_NS_LO answers the present value (log entry 162) and latches the rest (R49). -/
theorem exec_timeNsLoRead {s : State} {path : CwPath} (served : s.cwOpen path = true) (wide : Bool) :
    exec (.timeNsLoRead path wide) s = .next ((s.setTime fun t => { t with
      latTimeNsHi := s.timeNs / 2 ^ 32 % 2 ^ 32, latCycle := s.time.cycle }).send
        (.cwCpl path none 0 (s.timeNs % (if wide then 2 ^ 64 else 2 ^ 32)))) := by
  rw [← lo_add_hi]
  exact congrArg Host.Outcome.next (if_pos served)

/-- Settles O9, row by row. -/
theorem timeCompletes : Obligations.TimeCompletes := fun s =>
  ⟨fun obs stage up => exec_frameBoundary stage up obs,
   ⟨s.frame_openFrame, s.cycle_openFrame⟩,
   fun _ _ _ since late unnamed => exec_faultBudgetOverrun_late since late unnamed,
   fun _ _ idle => exec_faultBudgetOverrun_idle idle,
   fun _ since holdover unreported due => exec_holdoverAlignExpiry_due since holdover unreported due,
   fun _ since synced due => exec_trimRefine_due since synced due,
   exec_pps_second,
   fun _ wide served => exec_frameExtLoRead served wide,
   fun _ wide served => exec_timeNsLoRead served wide⟩

/-! The PTP rows -/

theorem exec_sync {s : State} {port : Port} {h : PtpHeader} (hears : s.ptpHears port h = true) :
    exec (.sync port h) s = .next (s.setPtp port fun x =>
      { x with pendingSync := some (h.seqId, h.source, s.timePs, h.correction) }) := by
  simp [exec, execSync, hears]

/-- The Follow_Up of the Sync that waits: the offset is measured (R37, R38). -/
theorem exec_followUp {s : State} {port : Port} {h : PtpHeader} {rx : Nat} {corr : BitVec 64} (hears : s.ptpHears port h = true)
    (waiting : s.time.ports[port].pendingSync = some (h.seqId, h.source, rx, corr)) (origin : BitVec 80) :
    exec (.followUp port h origin) s = .next ((s.setPtp port fun x => { x with pendingSync := none }).offsetFrom port
      (rx - (stampPs origin : Int) - correctionPs corr - correctionPs h.correction -
        (signed 32 (s.odGet (Od.peerDelayPs port.val)) + s.cfgInt (Od.portAsymmetryPs port.val)))) := by
  simp [exec, execFollowUp, hears, waiting, -Fin.getElem_fin]

/-- An Announce: the engine does not hear its own (R37, R40). -/
theorem exec_announce {s : State} {port : Port} {h : PtpHeader} (hears : s.ptpHears port h = true) (body : AnnounceBody) :
    exec (.announce port h body) s = .next (if bitsOf h.source 79 16 = s.deviceSerial then s
      else (s.setPtp port fun x => { x with foreigns := hearMaster x.foreigns h.source body s.timeNs }).bmca.renewTrace) := by
  simp [exec, execAnnounce, hears]

theorem exec_pdelayReq {s : State} {port : Port} {h : PtpHeader} (hears : s.ptpHears port h = true) :
    exec (.pdelayReq port h) s = .next ((s.send (.ptp port.val 3 h.seqId.toNat (-s.subNs) s.stampFields)).send
      (.ptp port.val 0xA h.seqId.toNat (s.subNs + h.correction.toInt) s.stampFields)) := by
  simp [exec, execPdelayReq, hears]

theorem exec_pdelayResp {s : State} {port : Port} {h : PtpHeader} {t1 : Nat} (hears : s.ptpHears port h = true)
    (sent : s.time.ports[port].pdelaySent = some (h.seqId, t1)) (receipt : BitVec 80) :
    exec (.pdelayResp port h receipt) s = .next (s.setPtp port fun x =>
      { x with pdelayRsp := some ((stampPs receipt : Int) - correctionPs h.correction, s.timePs) }) := by
  simp [exec, execPdelayResp, hears, sent, -Fin.getElem_fin]

/-- The mean link delay of the exchange of t1 to t4 (R40). -/
theorem exec_pdelayRespFollowUp {s : State} {port : Port} {h : PtpHeader} {t1 t4 : Nat} {t2 : Int}
    (hears : s.ptpHears port h = true) (sent : s.time.ports[port].pdelaySent = some (h.seqId, t1))
    (answered : s.time.ports[port].pdelayRsp = some (t2, t4)) (origin : BitVec 80) :
    exec (.pdelayRespFollowUp port h origin) s =
      .next ((s.odSet (Od.peerDelayPs port.val)
        (unsigned 32 (((t4 : Int) - t1 - ((stampPs origin : Int) + correctionPs h.correction - t2)) / 2))).setPtp port
          fun x => { x with pdelaySent := none, pdelayRsp := none }) := by
  simp [exec, execPdelayRespFollowUp, hears, sent, answered, -Fin.getElem_fin]

/-- A message on a port that does not run, or for another domain, changes nothing (R40). -/
theorem exec_unheard {s : State} {port : Port} {h : PtpHeader} (deaf : s.ptpHears port h = false) (origin receipt : BitVec 80)
    (body : AnnounceBody) :
    exec (.sync port h) s = .next s ∧ exec (.followUp port h origin) s = .next s ∧
    exec (.announce port h body) s = .next s ∧ exec (.pdelayReq port h) s = .next s ∧
    exec (.pdelayResp port h receipt) s = .next s ∧ exec (.pdelayRespFollowUp port h origin) s = .next s := by
  simp [exec, execSync, execFollowUp, execAnnounce, execPdelayReq, execPdelayResp, execPdelayRespFollowUp, deaf]

/-- SIGNALING is ignored (R40). -/
theorem exec_signaling (s : State) (port : Port) (h : PtpHeader) : exec (.signaling port h) s = .next s := rfl

theorem exec_syncInterval {s : State} {port : Port} (master : s.masterPort port = true) :
    exec (.syncInterval port) s = .next (((s.send (.ptp port.val 0 s.time.ports[port].syncSeq 0 [])).send
      (.ptp port.val 8 s.time.ports[port].syncSeq s.subNs s.stampFields)).setPtp port fun x =>
        { x with syncSeq := (s.time.ports[port].syncSeq + 1) % 65536 }) := by
  simp [exec, execSyncInterval, master]

/-- The fields of an Announce body in the order in which they are sent (log entry 8). -/
def announceFields (b : AnnounceBody) : List Nat :=
  [b.priority1.toNat, b.clockClass.toNat, b.accuracy.toNat, b.variance.toNat, b.priority2.toNat, b.gmIdentity.toNat,
    b.stepsRemoved.toNat]

/-- A port that is a master port after the state decision announces the dataset that the decision left (R41). -/
theorem exec_announceInterval {s : State} {port : Port} (up : s.mainUp = true) (master : s.bmca.masterPort port = true) :
    exec (.announceInterval port) s =
      .next ((s.bmca.send (.ptp port.val 0xB s.bmca.time.ports[port].announceSeq 0 (announceFields s.bmca.announced))).setPtp port
        fun x => { x with announceSeq := (s.bmca.time.ports[port].announceSeq + 1) % 65536 }) := by
  simp [exec, execAnnounceInterval, announceFields, up, master]

theorem exec_pdelayInterval {s : State} {port : Port} (runs : s.ptpPort port = true) :
    exec (.pdelayInterval port) s = .next ((s.send (.ptp port.val 2 s.time.ports[port].pdelaySeq 0 [])).setPtp port fun x =>
      { x with pdelaySeq := (s.time.ports[port].pdelaySeq + 1) % 65536,
               pdelaySent := some (BitVec.ofNat 16 s.time.ports[port].pdelaySeq, s.timePs), pdelayRsp := none }) := by
  simp [exec, execPdelayInterval, runs]

/-- The parent has been silent for its intervals: HOLDOVER (R37). -/
theorem exec_announceTimeout_silent {s : State} {p : Port} {m : ForeignMaster} (synced : s.time.state = .synced)
    (parent : s.time.parent = some p)
    (heard : s.time.ports[p].foreigns.find? (fun m => m.source == s.time.parentId) = some m) (silent : s.silent m = true) :
    exec .announceTimeout s =
      .next (s.setPtp p fun x => { x with foreigns := x.foreigns.filter (fun y => y.source != m.source) }).enterHoldover := by
  simp [exec, execAnnounceTimeout, synced, parent, heard, silent, -Fin.getElem_fin]

/-- Settles O10, row by row; the announced body is that of `State.announced` (log entry 8). -/
theorem clockSyncCompletes : Obligations.ClockSyncCompletes := fun s port h =>
  ⟨fun hears =>
     ⟨exec_sync hears,
      fun origin _ _ waiting => exec_followUp hears waiting origin,
      exec_announce hears,
      exec_pdelayReq hears,
      fun receipt _ sent => exec_pdelayResp hears sent receipt,
      fun origin _ _ _ sent answered => exec_pdelayRespFollowUp hears sent answered origin⟩,
   exec_unheard,
   exec_signaling s port h,
   exec_syncInterval,
   fun up master => ⟨announceFields s.bmca.announced, exec_announceInterval up master⟩,
   exec_pdelayInterval,
   fun _ _ synced parent heard silent => exec_announceTimeout_silent synced parent heard silent⟩

end Sys2Proof.Machine
end

section
/-!
PROOFS for chapter 03, the carrier interface. What `State.d2dIn` does with a message; one lemma for each row of the carrier link, taken,
malformed or before training; and the accesses of the control window, through an open window and through the sideband.
-/
namespace Sys2Proof.Machine

/-! A message of the carrier (R57; log entry 2) -/

theorem State.d2dIn_untrained {s : State} (untrained : s.carrier.mainband = false) (formed : Bool) (f : State → State) :
    s.d2dIn formed f = s := by
  simp [State.d2dIn, untrained]

theorem State.d2dIn_formed {s : State} (trained : s.carrier.mainband = true) (f : State → State) : s.d2dIn true f = f s := by
  simp [State.d2dIn, trained]

theorem State.d2dIn_malformed {s : State} (trained : s.carrier.mainband = true) (f : State → State) :
    s.d2dIn false f = s.countEvent Od.d2dMalformedCount := by
  simp [State.d2dIn, trained, State.d2dMalformed]

theorem State.lapsed_iff {s : State} {f n : Nat} : s.lapsed f n = true ↔ f + n ≤ s.frame := by
  simp [State.lapsed]

/-! Completions of the engine's requests -/

/-- An MRD_CPL with OK that names an outstanding read hands its bytes to the read's owner. -/
theorem exec_mrdCpl_ok {s : State} {hdr : BitVec 128} {payload : Bytes} {r : D2dReq} (trained : s.carrier.mainband = true)
    (named : s.answered hdr .read = some r) (ok : dStatus hdr = 0) (formed : d2dFormed hdr payload 2 = true)
    (len : dLen hdr = r.len) :
    exec (.mrdCpl hdr payload) s = .next ((s.endReq r).readDone r.owner (cellsAt r.addr payload)) := by
  simp [exec, execMrdCpl, named, ok, formed, len, State.d2dIn_formed trained]

/-- An MWR_CPL with OK that names an entry write of a pair ends it. -/
theorem exec_mwrCpl_entry {s : State} {hdr : BitVec 128} {payload : Bytes} {r : D2dReq} {q slot : Nat}
    (trained : s.carrier.mainband = true) (named : s.answered hdr .write = some r) (ok : dStatus hdr = 0)
    (formed : d2dFormed hdr payload 4 = true) (len : dLen hdr = 0) (owner : r.owner = .cqWrite q slot) :
    exec (.mwrCpl hdr payload) s = .next ((s.endReq r).entryWritten q) := by
  simp [exec, execMwrCpl, named, ok, formed, len, owner, State.d2dIn_formed trained]

/-- An MWR_CPL with OK that names any other write counts for the write's owner: `other` picks the arm. -/
theorem exec_mwrCpl_write {s : State} {hdr : BitVec 128} {payload : Bytes} {r : D2dReq}
    (trained : s.carrier.mainband = true) (named : s.answered hdr .write = some r) (ok : dStatus hdr = 0)
    (formed : d2dFormed hdr payload 4 = true) (len : dLen hdr = 0) (other : ∀ q slot, r.owner ≠ .cqWrite q slot) :
    exec (.mwrCpl hdr payload) s = .next ((s.endReq r).writesDone r.owner) := by
  simp [exec, execMwrCpl, named, ok, formed, len, State.d2dIn_formed trained]

/-! D2D_CPL_TIMEOUT of a request that is due (R57), by the owner of the request -/

section
variable {s : State} {tag : BitVec 16} {r : D2dReq}
  (named : s.carrier.reqs.find? (fun x => x.tag == tag.toNat) = some r)
  (due : r.frame + s.cfg Od.d2dCplTimeoutFrames ≤ s.frame)
include named due

theorem exec_d2dCplTimeout_sliceRead {id hid leaf : Nat} (owner : r.owner = .sliceRead id hid leaf) :
    exec (.d2dCplTimeout tag) s =
      .next (((s.endReq r).bump Od.d2dCplTimeoutCount).sliceReadLost r id hid leaf false) := by
  simp [exec, execD2dCplTimeout, named, State.lapsed_iff.2 due, owner]

theorem exec_d2dCplTimeout_sliceWrite {id : Nat} (owner : r.owner = .sliceWrite id) :
    exec (.d2dCplTimeout tag) s = .next (((s.endReq r).bump Od.d2dCplTimeoutCount).sliceWriteLost id false) := by
  simp [exec, execD2dCplTimeout, named, State.lapsed_iff.2 due, owner]

/-- Of a ring access the reported status is a free value (log entry 110). -/
theorem exec_d2dCplTimeout_sqRead {q slot : Nat} (owner : r.owner = .sqRead q slot) :
    let t := (s.endReq r).bump Od.d2dCplTimeoutCount
    exec (.d2dCplTimeout tag) s = .next (t.free.2.ringFailed q slot t.free.1 true) := by
  simp [exec, execD2dCplTimeout, named, State.lapsed_iff.2 due, owner]

theorem exec_d2dCplTimeout_cqWrite {q slot : Nat} (owner : r.owner = .cqWrite q slot) :
    let t := (s.endReq r).bump Od.d2dCplTimeoutCount
    exec (.d2dCplTimeout tag) s = .next (t.free.2.ringFailed q slot t.free.1 false) := by
  simp [exec, execD2dCplTimeout, named, State.lapsed_iff.2 due, owner]

theorem exec_d2dCplTimeout_serveRead {x : Nat} (owner : r.owner = .serveRead x) :
    exec (.d2dCplTimeout tag) s = .next (((s.endReq r).bump Od.d2dCplTimeoutCount).readAgain r.owner x true) := by
  simp [exec, execD2dCplTimeout, named, State.lapsed_iff.2 due, owner]

theorem exec_d2dCplTimeout_orphan (owner : r.owner = .orphan) :
    exec (.d2dCplTimeout tag) s = .next ((s.endReq r).bump Od.d2dCplTimeoutCount) := by
  simp [exec, execD2dCplTimeout, named, State.lapsed_iff.2 due, owner]

end

/-- Settles O11, by the kind of the completion and the owner of the request; the status of a ring access is log entry 110's free
value. -/
theorem carrierRepliesComplete : Obligations.CarrierRepliesComplete := fun _ _ _ _ =>
  ⟨exec_mrdCpl_ok,
   fun trained named ok formed len =>
     ⟨fun _ _ owner => exec_mwrCpl_entry trained named ok formed len owner,
      fun other => exec_mwrCpl_write trained named ok formed len other⟩,
   fun _ named due =>
     ⟨fun _ _ _ owner => exec_d2dCplTimeout_sliceRead named due owner,
      fun _ owner => exec_d2dCplTimeout_sliceWrite named due owner,
      fun _ _ owner => exec_d2dCplTimeout_sqRead named due owner,
      fun _ _ owner => exec_d2dCplTimeout_cqWrite named due owner,
      fun _ owner => exec_d2dCplTimeout_serveRead named due owner,
      fun owner => exec_d2dCplTimeout_orphan named due owner⟩⟩

/-! The carrier's own messages, taken -/

theorem exec_d2dNop {s : State} {hdr : BitVec 128} {payload : Bytes} (type : dType hdr = 0)
    (formed : d2dFormed hdr payload 0 = true) (len : dLen hdr = 0) : exec (.d2dNop hdr payload) s = .next s := by
  simp [exec, execD2dNop, State.d2dIn, type, formed, len]

/-- The first TIME_REQ of a frame is answered (R56). -/
theorem exec_timeReq_first {s : State} {hdr : BitVec 128} {payload : Bytes} (trained : s.carrier.mainband = true)
    (formed : d2dFormed hdr payload 10 = true) (len : dLen hdr = 0) (first : s.time.timeReqFrame ≠ some s.frame) :
    exec (.timeReq hdr payload) s = .next (s.setTime fun t => { t with timeReqFrame := some s.frame }).sendTime := by
  simp [exec, execTimeReq, formed, len, bne_iff_ne.2 first, State.d2dIn_formed trained]

/-- A THERM of a stack that is there (R69). -/
theorem exec_therm_known {s : State} {hdr : BitVec 128} {payload : Bytes} (trained : s.carrier.mainband = true)
    (formed : d2dFormed hdr payload 11 = true) (len : dLen hdr = 0) (known : dAux hdr % 32 < s.cfg Od.stackCount) :
    exec (.therm hdr payload) s = .next (s.setCarrier fun c => { c with
      thermStacks := vmod c.thermStacks (dAux hdr % 32) (fun _ => { cls := dAux hdr / 32 % 4, since := some s.frame }) }) := by
  simp [exec, execTherm, formed, len, known, State.d2dIn_formed trained]

/-- A GRANT of at most 100 percent (R68). -/
theorem exec_grant_legal {s : State} {hdr : BitVec 128} {payload : Bytes} (trained : s.carrier.mainband = true)
    (formed : d2dFormed hdr payload 12 = true) (len : dLen hdr = 0) (legal : dAux hdr ≤ 100) :
    exec (.grant hdr payload) s = .next (s.setCarrier fun c => { c with grantNext := some (dAux hdr) }) := by
  simp [exec, execGrant, formed, len, legal, State.d2dIn_formed trained]

/-! The events of the carrier link -/

/-- A stack whose last report is THERM_STALE_FRAMES old (R69). -/
theorem exec_thermStale_due {s : State} {stack : BitVec 5} {x : Stack} {f : Nat}
    (found : s.carrier.thermStacks.toList[stack.toNat]? = some x) (fresh : x.stale = false) (since : x.since = some f)
    (due : f + s.cfg Od.thermStaleFrames ≤ s.frame) (known : stack.toNat < s.cfg Od.stackCount) :
    exec (.thermStale stack) s = .next ((s.setCarrier fun c => { c with
      thermStacks := vmod c.thermStacks stack.toNat (fun x => { x with cls := 1, stale := true }) }).countEvent
        Od.thermStaleCount stack.toNat) := by
  have reported : s.carrier.thermStacks.toList.getD stack.toNat {} = x := by simp [List.getD_eq_getElem?_getD, found]
  simp only [exec, execThermStale, reported, since, fresh, known, State.lapsed_iff.2 due, decide_true, Bool.not_false,
    Bool.and_self, if_true]

/-- The mainband trains: no stack has reported (R69, R390). -/
theorem exec_mainbandTrained_first {s : State} (power : s.curator.powerGood = true) (stage : s.curator.stage ≠ .none)
    (untrained : s.carrier.mainband = false) :
    exec .mainbandTrained s = .next (s.setCarrier fun c => { c with
      mainband := true, thermStacks := c.thermStacks.map (fun (_ : Stack) => { since := some s.frame }) }) := by
  simp [exec, execMainbandTrained, power, stage, untrained]

/-- A repaired lane is kept with its frame and scores its module 4 (R53; log entries 113 and 183). -/
theorem exec_d2dLaneFail_repaired {s : State} {module : BitVec 4} (trained : s.carrier.mainband = true)
    (active : s.odGet Od.d2dModuleRetiredMask / 2 ^ module.toNat % 2 = 0) :
    exec (.d2dLaneFail module false) s = .next ((s.setCarrier fun c => { c with
      laneRepairs := c.laneRepairs.filter (fun x => x.1 != module.toNat) ++ [(module.toNat, s.frame)] }).scored
        (partId 12 module.toNat) 4) := by
  simp [exec, execD2dLaneFail, trained, active]

theorem exec_extentUpdate_taken {s : State} {agent : Agent} {value : Bytes}
    (taken : s.odTakes agent Od.extentUpdate.key value (fun s => s.extentWrite agent value)) :
    exec (.extentUpdate agent value) s = .next (s.odDone agent fun s => s.extentWrite agent value) :=
  congrArg Host.Outcome.next (State.odRow_takes taken)

/-! XLAT_WAIT_LIMIT (R65) -/

/-- The running tasks that wait for an extent. -/
def State.extentWaiters (s : State) (hid e : Nat) : List Task := s.sched.tasks.filter (fun t => s.waitsExtent t hid e)

/-- A pending extent is marked reported, and ALARM_SUMMARY says whether a task ends for it. -/
def State.xlatReported (s : State) (p : PendingExtent) (waited : Bool) : State := s.setCarrier fun c => { c with
  alXlat := c.alXlat || waited
  pendingExt := mapIf c.pendingExt (fun x => x == p) (fun x => { x with reported := true }) }

/-- A task that waits for an extent ends with XLAT_TIMEOUT, naming the Holding and the extent. -/
def State.xlatEnd (hid e : Nat) (s : State) (t : Task) : State :=
  match s.task? t.id with
  | none => s
  | some t => if t.lane then s.endLane t 0x0022 hid e t.done else s.failIo t.id 0x0022 hid e

theorem State.xlatEnd_of_lane {s : State} {t : Task} (found : s.task? t.id = some t) (lane : t.lane = true) (hid e : Nat) :
    State.xlatEnd hid e s t = s.endLane t 0x0022 hid e t.done := by
  simp [State.xlatEnd, found, lane]

section
variable {s : State} {holding : BitVec 12} {extent : BitVec 32} {p : PendingExtent}
  (found : s.carrier.pendingExt.find? (fun x => x.holding == holding.toNat && x.extent == extent.toNat) = some p)
  (due : p.frame + s.cfg Od.xlatWaitLimitFrames ≤ s.frame)
include found due

/-- A due extent is marked, and each task that waits for it ends. -/
theorem exec_xlatWaitLimit_due :
    let ts := s.extentWaiters holding.toNat extent.toNat
    exec (.xlatWaitLimit holding extent) s = .next (ts.foldl (State.xlatEnd holding.toNat extent.toNat)
      (State.xlatReported (if ts.isEmpty then s else s.raise .xlatTimeout) p !ts.isEmpty)) := by
  simp only [exec, execXlatWaitLimit, found, State.lapsed_iff.2 due, Bool.not_true, Bool.false_eq_true, if_false]
  rfl

theorem exec_xlatWaitLimit_unawaited (unawaited : s.extentWaiters holding.toNat extent.toNat = []) :
    exec (.xlatWaitLimit holding extent) s = .next (s.xlatReported p false) := by
  simp [exec_xlatWaitLimit_due found due, unawaited]

theorem exec_xlatWaitLimit_awaited (awaited : s.extentWaiters holding.toNat extent.toNat ≠ []) :
    exec (.xlatWaitLimit holding extent) s =
      .next ((s.extentWaiters holding.toNat extent.toNat).foldl (State.xlatEnd holding.toNat extent.toNat)
        ((s.raise .xlatTimeout).xlatReported p true)) := by
  simp [exec_xlatWaitLimit_due found due, List.isEmpty_eq_false_iff.2 awaited]

end

/-- Settles O12, row by row; the record of a lane repair is that of log entries 113 and 183. -/
theorem carrierMessagesComplete : Obligations.CarrierMessagesComplete := by
  intro s hdr payload
  refine ⟨exec_d2dNop, exec_timeReq_first, exec_therm_known, exec_grant_legal,
    fun _ _ _ found fresh since due known => exec_thermStale_due found fresh since due known,
    exec_mainbandTrained_first,
    fun _ trained active => exec_d2dLaneFail_repaired trained active,
    fun _ _ taken => exec_extentUpdate_taken taken,
    fun holding extent p found due => ?_⟩
  have waiters : s.sched.tasks.filter (fun t => s.waitsExtent t holding.toNat extent.toNat) =
    s.extentWaiters holding.toNat extent.toNat := rfl
  rw [waiters]
  refine ⟨fun unawaited => ?_, fun awaited => ?_, fun t single lane running => ?_⟩
  · rw [exec_xlatWaitLimit_unawaited found due unawaited, unawaited]
    rfl
  · rw [exec_xlatWaitLimit_awaited found due awaited, List.isEmpty_eq_false_iff.2 awaited]
    rfl
  · have awaited : s.extentWaiters holding.toNat extent.toNat ≠ [] := by simp [single]
    rw [single] at running ⊢
    rw [exec_xlatWaitLimit_awaited found due awaited, single]
    exact congrArg Host.Outcome.next (State.xlatEnd_of_lane running lane _ _)

/-! Malformed messages (R57) -/

theorem exec_mrdCpl_unnamed {s : State} {hdr : BitVec 128} {payload : Bytes} (trained : s.carrier.mainband = true)
    (unnamed : s.answered hdr .read = none) :
    exec (.mrdCpl hdr payload) s = .next (s.countEvent Od.d2dMalformedCount) := by
  simp [exec, execMrdCpl, unnamed, State.d2dIn_malformed trained]

theorem exec_mwrCpl_unnamed {s : State} {hdr : BitVec 128} {payload : Bytes} (trained : s.carrier.mainband = true)
    (unnamed : s.answered hdr .write = none) :
    exec (.mwrCpl hdr payload) s = .next (s.countEvent Od.d2dMalformedCount) := by
  simp [exec, execMwrCpl, unnamed, State.d2dIn_malformed trained]

/-- A message whose header, payload or own condition is bad fails the check of its row. -/
theorem checks_eq_false {formed third : Bool} {len : Nat} (bad : formed = false ∨ len ≠ 0 ∨ third = false) :
    (formed && len == 0 && third) = false := by
  rcases bad with bad | bad | bad <;> simp [bad]

theorem exec_timeReq_malformed {s : State} {hdr : BitVec 128} {payload : Bytes} (trained : s.carrier.mainband = true)
    (bad : d2dFormed hdr payload 10 = false ∨ dLen hdr ≠ 0 ∨ s.time.timeReqFrame = some s.frame) :
    exec (.timeReq hdr payload) s = .next (s.countEvent Od.d2dMalformedCount) := by
  have refused := checks_eq_false (third := s.time.timeReqFrame != some s.frame) (by simpa using bad)
  simp only [exec, execTimeReq, refused, State.d2dIn_malformed trained]

theorem exec_therm_malformed {s : State} {hdr : BitVec 128} {payload : Bytes} (trained : s.carrier.mainband = true)
    (bad : d2dFormed hdr payload 11 = false ∨ dLen hdr ≠ 0 ∨ s.cfg Od.stackCount ≤ dAux hdr % 32) :
    exec (.therm hdr payload) s = .next (s.countEvent Od.d2dMalformedCount) := by
  have refused := checks_eq_false (third := decide (dAux hdr % 32 < s.cfg Od.stackCount)) (by simpa using bad)
  simp only [exec, execTherm, refused, State.d2dIn_malformed trained]

theorem exec_grant_malformed {s : State} {hdr : BitVec 128} {payload : Bytes} (trained : s.carrier.mainband = true)
    (bad : d2dFormed hdr payload 12 = false ∨ dLen hdr ≠ 0 ∨ 100 < dAux hdr) :
    exec (.grant hdr payload) s = .next (s.countEvent Od.d2dMalformedCount) := by
  have refused := checks_eq_false (third := decide (dAux hdr ≤ 100)) (by simpa using bad)
  simp only [exec, execGrant, refused, State.d2dIn_malformed trained]

/-- Before the mainband has trained no message of the carrier arrives (log entry 2). -/
theorem exec_carrierMessage_untrained {s : State} (untrained : s.carrier.mainband = false) (hdr : BitVec 128) (payload : Bytes) :
    exec (.mrdCpl hdr payload) s = .next s ∧ exec (.mwrCpl hdr payload) s = .next s ∧
    exec (.timeReq hdr payload) s = .next s ∧ exec (.therm hdr payload) s = .next s ∧
    exec (.grant hdr payload) s = .next s := by
  refine ⟨?mrdCpl, ?mwrCpl, ?timeReq, ?therm, ?grant⟩
  case mrdCpl => cases named : s.answered hdr .read <;> simp [exec, execMrdCpl, named, State.d2dIn_untrained untrained]
  case mwrCpl => cases named : s.answered hdr .write <;> simp [exec, execMwrCpl, named, State.d2dIn_untrained untrained]
  case timeReq => exact congrArg Host.Outcome.next (State.d2dIn_untrained untrained _ _)
  case therm => exact congrArg Host.Outcome.next (State.d2dIn_untrained untrained _ _)
  case grant => exact congrArg Host.Outcome.next (State.d2dIn_untrained untrained _ _)

/-- Settles O13, row by row; that nothing arrives before training is log entry 2. -/
theorem malformedCarrierMessages : Obligations.MalformedCarrierMessages := fun _ hdr payload =>
  ⟨fun trained =>
     ⟨exec_mrdCpl_unnamed trained, exec_mwrCpl_unnamed trained, exec_timeReq_malformed trained, exec_therm_malformed trained,
      exec_grant_malformed trained⟩,
   fun untrained => exec_carrierMessage_untrained untrained hdr payload⟩

/-! Accesses of the control window (R58, R59) -/

section
variable {s : State} {path : CwPath} {offset : BitVec 24} (size : BitVec 8) (tag : BitVec 16)

theorem exec_cwRd_unserved (unopen : s.cwOpen path = false) (noSideband : s.sideband path offset.toNat = false) :
    exec (.cwRd path offset size tag) s = .next s := by
  simp [exec, execCwRd, unopen, noSideband]

/-- A read that the window or the sideband serves: a denied access is DENIED also when it is misaligned (log entry 106). -/
theorem exec_cwRd_served (served : s.cwOpen path = true ∨ s.sideband path offset.toNat = true) :
    exec (.cwRd path offset size tag) s = .next (
      if s.cwDenied path offset.toNat false then s.denyCw path (some tag.toNat)
      else if cwMisaligned offset.toNat size.toNat then s.send (.cwCpl path (some tag.toNat) 0x11 0)
      else (s.windowRead path offset.toNat size.toNat).2.send
        (.cwCpl path (some tag.toNat) 0 (s.windowRead path offset.toNat size.toNat).1)) := by
  have admitted : (!s.cwOpen path && !s.sideband path offset.toNat) = false := by
    rcases served with opened | sideband
    · simp [opened]
    · simp [sideband]
  simp only [exec, execCwRd, admitted, Bool.false_eq_true, if_false]

theorem exec_registerWrite_unopen (unopen : s.cwOpen path = false) (data : BitVec 64) :
    exec (.registerWrite path offset size tag data) s = .next s := by
  simp [exec, execRegisterWrite, unopen]

/-- A write through the open window, in the order of the checks of a read. -/
theorem exec_registerWrite_open (opened : s.cwOpen path = true) (data : BitVec 64) :
    exec (.registerWrite path offset size tag data) s = .next (
      if s.cwDenied path offset.toNat true then s.denyCw path (some tag.toNat)
      else if cwMisaligned offset.toNat size.toNat then s.send (.cwCpl path (some tag.toNat) 0x11 0)
      else (s.windowWrite path offset.toNat size.toNat (data.toNat % 2 ^ (8 * size.toNat))).send
        (.cwCpl path (some tag.toNat) 0 0)) := by
  simp [exec, execRegisterWrite, opened]

end

/-- Settles O14, by the checks in their order: rights before alignment (log entry 106). -/
theorem windowAccesses : Obligations.WindowAccesses := by
  intro s path offset size tag data opened
  rw [exec_cwRd_served size tag (.inl opened), exec_registerWrite_open size tag opened data]
  refine ⟨fun allowed aligned => ?_, fun allowed aligned => ?_, fun denied => ?_, fun denied => ?_,
    fun allowed misaligned => ?_, fun allowed misaligned => ?_⟩
  · simp [allowed, aligned]
  · simp [allowed, aligned]
  · simp [denied, State.denyCw]
  · simp [denied, State.denyCw]
  · simp [allowed, misaligned]
  · simp [allowed, misaligned]

/-! The sideband (R54) -/

/-- The window of a host opens when the mainband trains. -/
theorem State.cwOpen_untrained {s : State} {path : CwPath} (host : path ≠ .debug) (untrained : s.carrier.mainband = false) :
    s.cwOpen path = false := by
  simp [State.cwOpen, host, untrained]

theorem State.sideband_firstPage {s : State} {path : CwPath} {off : Nat} (host : path ≠ .debug)
    (untrained : s.carrier.mainband = false) (power : s.curator.powerGood = true) (stage : s.curator.stage ≠ .none)
    (first : off < 0x100) : s.sideband path off = true := by
  simp [State.sideband, host, untrained, power, stage, first]

theorem State.sideband_beyond {s : State} {path : CwPath} {off : Nat} (beyond : 0x100 ≤ off) : s.sideband path off = false := by
  simp [State.sideband, beyond]

theorem cwRegion_global {off : Nat} (first : off < 0x10000) : cwRegion off = .global := by
  simp [cwRegion, first]

/-- Every agent may read the global page (Table 03-5). -/
theorem State.cwDenied_read_global {s : State} {path : CwPath} {off : Nat} (region : cwRegion off = .global) :
    s.cwDenied path off false = false := by
  simp [State.cwDenied, region]

/-- An access of 4 or 8 bytes on a multiple of its size is aligned in the global page (R59). -/
theorem cwMisaligned_global {off size : Nat} (region : cwRegion off = .global) (width : size = 4 ∨ size = 8)
    (multiple : off % size = 0) : cwMisaligned off size = false := by
  rcases width with rfl | rfl <;> simp [cwMisaligned, region, multiple]

theorem State.windowRead_global {s : State} {path : CwPath} {off size : Nat} (region : cwRegion off = .global) :
    s.windowRead path off size = readWide size off (fun s o => s.globalRead o) s := by
  simp [State.windowRead, region]

/-- Settles O15: before training the sideband serves aligned reads of the first 256 bytes, and a host's window is shut. -/
theorem sidebandServesTheFirstPage : Obligations.SidebandServesTheFirstPage := by
  intro s path offset size tag data host untrained
  have shut := State.cwOpen_untrained host untrained
  refine ⟨fun power stage width multiple first => ?_, fun beyond => exec_cwRd_unserved size tag shut (State.sideband_beyond beyond),
    exec_registerWrite_unopen size tag shut data⟩
  have region : cwRegion offset.toNat = .global := cwRegion_global (by omega)
  have bytes : size.toNat = 4 ∨ size.toNat = 8 := width.imp (congrArg BitVec.toNat) (congrArg BitVec.toNat)
  refine ⟨_, _, rfl, ?_⟩
  rw [exec_cwRd_served size tag (.inr (State.sideband_firstPage host untrained power stage first)),
    State.cwDenied_read_global region, cwMisaligned_global region bytes multiple, State.windowRead_global region]
  rfl

end Sys2Proof.Machine
end

section
/-!
PROOFS for chapter 04, the command queues. One lemma for each row of the queue pairs, of the tasks of jobs and Holdings, of CANCEL and
SELFTEST, and of the power states.
-/
namespace Sys2Proof.Machine

/-! The registers of a queue pair (R73, R75, R76) -/

section
variable {s : State} {path : CwPath} {p : QueuePair}

/-- The owner of a pair reaches it, and is answered OK. -/
theorem State.pairAccess_owner {q : Nat} (opened : s.cwOpen path = true) (found : s.qp? q = some p)
    (owner : pathHost path = some p.owner) (f : State → QueuePair → State) :
    s.pairAccess path q f = (f s p).send (.cwCpl path none 0 0) := by
  simp [State.pairAccess, opened, found, owner]

/-- A tail within the ring is taken and rings its new slots, and a failed access of the pair is tried again (R77). -/
theorem State.writeTail_within {value : Nat} (living : p.dying = false) (within : value % 65536 < 2 ^ p.sqLog2) :
    s.writeTail p value =
      ((s.wakeUp.setQp p.q fun p => { p with sqTail := value % 65536 }).setSched fun c =>
        { c with bells := c.bells ++ (newSlots p.sqTail (value % 65536) (2 ^ p.sqLog2)).map (fun k => (p.q, k)) }).retryPair
          p.q := by
  simp [State.writeTail, living, within.not_ge]

/-- A head within the ring is taken, and a failed access of the pair is tried again (R77). -/
theorem State.writeHead_within {value : Nat} (within : value % 65536 < 2 ^ p.cqLog2) :
    s.writeHead p value = (s.setQp p.q fun p => { p with cqHead := value % 65536 }).retryPair p.q := by
  simp [State.writeHead, within.not_ge]

variable {q : BitVec 6} {value : BitVec 32} (opened : s.cwOpen path = true) (found : s.qp? q.toNat = some p)
  (owner : pathHost path = some p.owner)
include opened found owner

theorem exec_sqTail_within (living : p.dying = false) (within : value.toNat % 65536 < 2 ^ p.sqLog2) :
    exec (.sqTail path q value) s =
      .next ((State.retryPair ((s.wakeUp.setQp p.q fun p => { p with sqTail := value.toNat % 65536 }).setSched fun c =>
        { c with bells := c.bells ++ (newSlots p.sqTail (value.toNat % 65536) (2 ^ p.sqLog2)).map (fun k => (p.q, k)) })
          p.q).send (.cwCpl path none 0 0)) := by
  rw [← State.writeTail_within living within]
  exact congrArg Host.Outcome.next (State.pairAccess_owner opened found owner _)

theorem exec_cqHead_within (within : value.toNat % 65536 < 2 ^ p.cqLog2) :
    exec (.cqHead path q value) s =
      .next (((s.setQp p.q fun p => { p with cqHead := value.toNat % 65536 }).retryPair p.q).send (.cwCpl path none 0 0)) := by
  rw [← State.writeHead_within within]
  exact congrArg Host.Outcome.next (State.pairAccess_owner opened found owner _)

end

/-! The life of a queue pair (R73, R78, R414) -/

/-- A legal pair of a free number is created, for the next boundary (log entry 125). -/
theorem State.createPair_free {s : State} {agent : Agent} {o : Host2} {value : Bytes} (host : hostOf agent = some o)
    (len : value.length = 32) (legal : (pairOf (leNat value) o).illegal = false)
    (free : s.qp? (pairOf (leNat value) o).q = none) (uncreated : ∀ x ∈ s.sched.creating, x.q ≠ (pairOf (leNat value) o).q) :
    s.createPair agent value = (0, s.setSched fun c => { c with creating := c.creating ++ [pairOf (leNat value) o] }) := by
  have unclaimed : (s.sched.creating.any fun x => x.q == (pairOf (leNat value) o).q) = false := by simpa using uncreated
  simp [State.createPair, host, len, legal, free, unclaimed]

theorem exec_qpCreate_free {s : State} {agent : Agent} {o : Host2} {value : Bytes}
    (admitted : s.odCheck agent Od.qpCreate.key value = 0) (host : hostOf agent = some o)
    (len : value.length = 32) (legal : (pairOf (leNat value) o).illegal = false)
    (free : s.qp? (pairOf (leNat value) o).q = none) (uncreated : ∀ x ∈ s.sched.creating, x.q ≠ (pairOf (leNat value) o).q) :
    exec (.qpCreate agent value) s = .next ((s.setSched fun c => { c with
      creating := c.creating ++ [pairOf (leNat value) o] }).wakeUp.send (.od agent.code 0 [])) := by
  have created := State.createPair_free host len legal free uncreated
  have taken : s.odTakes agent Od.qpCreate.key value fun s => s.createPair agent value :=
    ⟨admitted, congrArg Prod.fst created⟩
  calc exec (.qpCreate agent value) s
    _ = .next (s.odDone agent fun s => s.createPair agent value) := congrArg Host.Outcome.next (State.odRow_takes taken)
    _ = _ := by rw [State.odDone, created]

theorem exec_qpDestroy_taken {s : State} {agent : Agent} {q : BitVec 8}
    (taken : s.odTakes agent Od.qpDestroy.key (leBytes 1 q.toNat) (fun s => s.destroyWrite agent q.toNat)) :
    exec (.qpDestroy agent q) s = .next (s.odDone agent fun s => s.destroyWrite agent q.toNat) :=
  congrArg Host.Outcome.next (State.odRow_takes taken)

/-- At a boundary a dying pair with nothing pending goes. -/
theorem exec_qpRemove_settled {s : State} {q : BitVec 6} {p : QueuePair} (found : s.qp? q.toNat = some p)
    (dying : p.dying = true) (settled : p.pendingCt = 0) (written : p.entries = []) (boundary : s.time.cycle = 0) :
    exec (.qpRemove q) s = .next (s.setSched fun c => { c with qps := c.qps.filter (fun x => x.q != q.toNat) }) := by
  simp [exec, execQpRemove, found, dying, settled, written, boundary]

/-- The earliest doorbell is of a pair that admits, and its record has been read (R75, R89). -/
theorem exec_taskAdmit_read {s : State} {q k : Nat} {bells : List (Nat × Nat)} {p : QueuePair} {r : BitVec 1024}
    {rest : List (BitVec 1024)} (earliest : s.sched.bells = (q, k) :: bells) (found : s.qp? q = some p)
    (going : p.stopped = false) (read : p.fetched = r :: rest) :
    exec .taskAdmit s =
      .next ((((s.setSched fun c => { c with bells := c.bells.erase (q, k) }).setQp p.q fun p =>
        { p with fetched := rest, pendingCt := p.pendingCt + 1 }).admitRecord p r).fetchNext p.q) := by
  simp [exec, execTaskAdmit, earliest, found, going, read]

/-- Settles O22, row by row. -/
theorem queueRowsComplete : Obligations.QueueRowsComplete := fun _ =>
  ⟨fun _ _ _ _ opened found owner =>
     ⟨fun living within => exec_sqTail_within opened found owner living within,
      fun within => exec_cqHead_within opened found owner within⟩,
   fun _ _ _ admitted host len legal free uncreated => exec_qpCreate_free admitted host len legal free uncreated,
   fun _ _ taken => exec_qpDestroy_taken taken,
   fun _ _ found dying settled written boundary => exec_qpRemove_settled found dying settled written boundary,
   fun _ _ _ _ _ _ earliest found going read => exec_taskAdmit_read earliest found going read⟩

/-! NOP, and the tasks of jobs (R85, R92) -/

section
variable {s : State} {id : Nat} {t : Task}

theorem exec_nop_runs (h : s.runs id 0x00 t) : exec (.nop id) s = .next ((s.begun id).complete t 0) :=
  congrArg Host.Outcome.next (State.whenReady_of_runs h _)

/-- The steps of the DIGEST_SENDs and VERDICTs admitted after a JOB_OPEN: their records are closed (log entry 72). -/
def State.closedSince (s : State) (t : Task) : List Nat :=
  ((s.sched.tasks.filter fun u =>
    u.job == t.job && decide (t.id < u.id) && (u.type == 0x13 || u.type == 0x14)).map (·.step)).eraseDups

/-- A JOB_OPEN opens its job at its step, with a fresh Weld state and the durable head of its lineage, and completes. -/
def State.openJob (s : State) (t : Task) : State :=
  let lineage := t.f 383 256
  let fresh (w : Weld) : Weld := freshWeld w ((s.job t.job).lineage == lineage) t.step t.id (s.closedSince t)
  let opened := s.setJob t.job fun x =>
    { x with open_ := true, owner := t.owner, lineage := lineage, openStep := t.step, c := t.step, v := t.step, m := 0,
             badVerdict := false, badSteps := [] }
  (((opened.setWeld t.job fresh).stepEffect t.job).openHead t.job lineage t.step).complete t 0

/-- The waiting tasks of a job whose step is below C (R88). -/
def State.staleTasks (s : State) (j : JobId) : List Task :=
  s.sched.tasks.filter fun x => x.job == j && x.phase == .waiting && s.staleStep x

/-- A task that a JOB_OPEN of a step finds stale ends with STEP_STALE (log entry 122). -/
def State.endStale (step : Nat) (s : State) (x : Task) : State :=
  match s.task? x.id with
  | some x => s.complete x 0x0011 0 0 step
  | none => s

/-- JOB_OPEN of a job that is not open. -/
theorem exec_jobOpen_unopened (h : s.runs id 0x01 t) (unopened : (s.job t.job).open_ = false) :
    let u := (s.begun id).openJob t
    exec (.jobOpen id) s = .next ((u.staleTasks t.job).foldl (State.endStale t.step) u) := by
  have shut : ¬ ((s.begun id).job t.job).open_ = true := by simp [unopened]
  exact congrArg Host.Outcome.next ((State.whenReady_of_runs h _).trans (if_neg shut))

/-! The tasks of Holdings (R64, R86) -/

/-- A registration that passes the checks, with the link up, reads its extent table. -/
theorem exec_registerHolding_accepted (h : s.runs id 0x03 t)
    (accepted : (s.begun id).refuseHolding (BitVec.ofNat 512 (t.f 767 256)) = 0) (up : (s.begun id).d2dDown = false) :
    exec (.registerHolding id) s = .next (((((s.begun id).start t).setCarrier fun c => { c with
      registering := c.registering ++ [{ task := t.id, desc := BitVec.ofNat 512 (t.f 767 256), job := t.job }] }).readExtents
        t (BitVec.ofNat 512 (t.f 767 256))).extentsRead t) := by
  simp [exec, execRegisterHolding, State.whenReady_of_runs h, accepted, up]

theorem exec_releaseHolding_registered {x : Holding} (h : s.runs id 0x04 t)
    (registered : (s.begun id).holdingIn t.job (t.f 267 256) = some x) :
    exec (.releaseHolding id) s = .next (((s.begun id).releaseHolding (t.f 267 256)).complete t 0) := by
  simp [exec, execReleaseHolding, State.whenReady_of_runs h, registered]

/-! CANCEL of one tag, and SELFTEST (R97, R102) -/

/-- A pending target that can be cancelled is cancelled. -/
theorem exec_cancel_pending {u : Task} (h : s.runs id 0x05 t) (single : t.f 279 278 = 0)
    (pending : (s.begun id).tagState t.owner (t.f 271 256) = some .pending)
    (target : (s.begun id).sched.tasks.find? (fun u => u.owner == t.owner && u.tag == t.f 271 256) = some u)
    (cancellable : (s.begun id).notCancellable u = false) :
    exec (.cancel id) s = .next ((s.begun id).runCancel t [u]) := by
  simp [exec, execCancel, State.whenReady_of_runs h, single, pending, target, cancellable]

/-- A tag that is free is TARGET_UNKNOWN. -/
theorem exec_cancel_free (h : s.runs id 0x05 t) (single : t.f 279 278 = 0)
    (free : (s.begun id).tagState t.owner (t.f 271 256) = none) :
    exec (.cancel id) s = .next ((s.begun id).complete t 0x0007) := by
  simp [exec, execCancel, State.whenReady_of_runs h, single, free]

/-- A tag whose task has completed is TARGET_DONE. -/
theorem exec_cancel_done (h : s.runs id 0x05 t) (single : t.f 279 278 = 0)
    (done : (s.begun id).tagState t.owner (t.f 271 256) = some .doneOk) :
    exec (.cancel id) s = .next ((s.begun id).complete t 0x0006) := by
  simp [exec, execCancel, State.whenReady_of_runs h, single, done]

theorem exec_selftest_runs (h : s.runs id 0x06 t) :
    exec (.selftest id) s = .next (((s.begun id).start t).setSched fun c => { c with
      selftest := some { task := t.id, items := t.testItems, steps := s.itemSteps (t.testItems.headD 1), ran := 0, failed := 0,
                         start := s.frame, total := t.testItems.length, first := none } }) :=
  congrArg Host.Outcome.next (State.whenReady_of_runs h _)

end

/-- Settles O23, row by row; the clause of JOB_CLOSE, which leaves the groups joined (log entry 127), is the row's own meaning from the
state in which it begins. -/
theorem jobRowsComplete : Obligations.JobRowsComplete := fun _ _ _ =>
  ⟨exec_nop_runs,
   exec_jobOpen_unopened,
   fun h => congrArg Host.Outcome.next (State.whenReady_of_runs h _),
   exec_registerHolding_accepted,
   fun _ => exec_releaseHolding_registered,
   fun h single => ⟨fun _ => exec_cancel_pending h single, exec_cancel_free h single, exec_cancel_done h single⟩,
   exec_selftest_runs⟩

/-! The power states (R100, R101) -/

/-- E1 leaves the clock as it is. -/
theorem State.enterPower_e1 (s : State) (count : OdRef) :
    s.enterPower .e1 count = (s.bump count).setSched fun c => { c with power := .e1, idleFrames := 0 } := by
  simp [State.enterPower]

section
variable {s : State}

section
variable (staying : s.sched.exiting = false)
include staying

theorem exec_idleFrameLimit_e0 (power : s.sched.power = .e0) (idle : s.cfg Od.e1IdleFrames ≤ s.sched.idleFrames)
    (allowed : 1 ≤ s.cfg Od.powerStateLimit) :
    exec .idleFrameLimit s = .next (s.enterPower .e1 Od.e1EntryCount) := by
  simp [exec, execIdleFrameLimit, staying, power, idle, Nat.one_le_iff_ne_zero.1 allowed]

theorem exec_idleFrameLimit_e1 (power : s.sched.power = .e1) (idle : s.cfg Od.e2IdleFrames ≤ s.sched.idleFrames)
    (jobless : s.anyJob = false) (allowed : 2 ≤ s.cfg Od.powerStateLimit) :
    exec .idleFrameLimit s = .next (s.enterPower .e2 Od.e2EntryCount) := by
  simp [exec, execIdleFrameLimit, staying, power, idle, jobless, allowed]

theorem exec_idleFrameLimit_e2 (power : s.sched.power = .e2) (idle : s.cfg Od.e3IdleFrames ≤ s.sched.idleFrames)
    (jobless : s.anyJob = false) (allowed : 3 ≤ s.cfg Od.powerStateLimit) :
    exec .idleFrameLimit s = .next (s.enterPower .e3 Od.e3EntryCount) := by
  simp [exec, execIdleFrameLimit, staying, power, idle, jobless, allowed]

/-- E3 is the last state. -/
theorem exec_idleFrameLimit_e3 (power : s.sched.power = .e3) : exec .idleFrameLimit s = .next s := by
  simp [exec, execIdleFrameLimit, staying, power]

end

/-- In E0 there is nothing to wake. -/
theorem State.wakeUp_e0 (power : s.sched.power = .e0) : s.wakeUp = s := by
  simp [State.wakeUp, power]

/-- Below E0 the exit begins. -/
theorem State.wakeUp_below (below : s.sched.power ≠ .e0) : s.wakeUp = s.setSched fun c => { c with exiting := true } := by
  simp [State.wakeUp, below]

/-- A cause wakes the engine, but for a port's signal in E3. -/
theorem exec_wakeEvent (s : State) (cause : WakeEvent) :
    exec (.wakeEvent cause) s = .next (if cause = .portSignal ∧ s.sched.power = .e3 then s else s.wakeUp) := by
  cases cause <;> simp [exec, execWakeEvent]

theorem exec_wakeEvent_below {cause : WakeEvent} (below : s.sched.power ≠ .e0)
    (heard : cause ≠ .portSignal ∨ s.sched.power ≠ .e3) :
    exec (.wakeEvent cause) s = .next (s.setSched fun c => { c with exiting := true }) := by
  rw [exec_wakeEvent, if_neg (not_and_or.2 heard), State.wakeUp_below below]

theorem exec_wakeEvent_portSignal_e3 (power : s.sched.power = .e3) : exec (.wakeEvent .portSignal) s = .next s := by
  rw [exec_wakeEvent, if_pos ⟨rfl, power⟩]

theorem exec_wakeEvent_e0 (cause : WakeEvent) (power : s.sched.power = .e0) : exec (.wakeEvent cause) s = .next s := by
  rw [exec_wakeEvent, State.wakeUp_e0 power, ite_self]

/-- The end of an exit is E0, where the sync words are observed again (R90). -/
theorem exec_powerExitDone_exiting (exiting : s.sched.exiting = true) :
    exec .powerExitDone s = .next (s.setSched fun c => { c with power := .e0, exiting := false, idleFrames := 0 }).observeSync := by
  simp [exec, execPowerExitDone, exiting]

theorem exec_powerStateLimit_taken {agent : Agent} {value : BitVec 8}
    (taken : s.odTakes agent Od.powerStateLimit.key [value] (fun s => acceptSetting Od.powerStateLimit.key value.toNat s)) :
    exec (.powerStateLimit agent value) s =
      .next (s.odDone agent fun s => acceptSetting Od.powerStateLimit.key value.toNat s) :=
  congrArg Host.Outcome.next (State.odRow_takes taken)

end

/-- Settles O26: the limit of each state, the causes that wake, and the end of the exit. -/
theorem powerStates : Obligations.PowerStates := fun s =>
  ⟨fun staying =>
     ⟨fun power idle allowed => by rw [exec_idleFrameLimit_e0 staying power idle allowed, State.enterPower_e1],
      exec_idleFrameLimit_e1 staying, exec_idleFrameLimit_e2 staying, exec_idleFrameLimit_e3 staying⟩,
   fun _ => exec_wakeEvent_below,
   exec_wakeEvent_portSignal_e3,
   exec_wakeEvent_e0,
   exec_powerExitDone_exiting,
   fun _ _ => exec_powerStateLimit_taken⟩

end Sys2Proof.Machine
end

section
/-!
PROOFS for chapter 05, the update unit, and for the checks of the array (06 R152, R158). The lane tasks that pass their checks start; what
FETCH_GROUP_START, LANE_GROUP_ISSUE and RUN_IN issue; and the faults of lanes, factor cache and array with their repairs.
-/
namespace Sys2Proof.Machine

/-! The lane tasks that pass their checks (R108, R137, R226) -/

section
variable {s : State} {id : Nat} {t : Task}

/-- An UPDATE that passes every check of R108 is served by the planner. -/
theorem exec_update_passed (h : s.runs id 0x11 t) (unfailed : t.failWith = none) (formed : t.updateMalformed = false)
    (passed : (s.begun id).updateFault t = none) (up : (s.begun id).d2dDown = false) :
    exec (.update id) s = .next ((s.begun id).start t) := by
  simp [exec, execUpdate, State.whenReady_of_runs h, unfailed, formed, passed, up]

/-- A gap of the error feedback is counted (R154). -/
def State.gapCounted (s : State) (t : Task) : State := if s.efGap t = 0 then s else s.bump Od.efGapCount

/-- A PHASE 0 with EF_RESET sets the step of its error feedback to the one before its own (log entry 33). -/
def State.efReset (s : State) (t : Task) : State :=
  if t.wPhase = 0 ∧ t.wEfReset = true then
    s.setWoad fun w => { w with efStep := assocSet w.efStep t.wEf ((t.step + 2 ^ 64 - 1) % 2 ^ 64) }
  else s

/-- A WOAD_COMPRESS that passes every check of R137 notes its gap, and is served by the planner. -/
theorem exec_woadCompress_passed (h : s.runs id 0x12 t) (formed : t.woadMalformed = false)
    (passed : (s.begun id).woadFault t = none) (up : (s.begun id).d2dDown = false) :
    exec (.woadCompress id) s = .next (((((s.begun id).gapCounted t).efReset t).setTask t.id
      fun x => { x with detail := (s.begun id).efGap t }).start t) := by
  simp only [exec, execWoadCompress, State.whenReady_of_runs h, formed, passed, up, State.gapCounted, State.efReset, Bool.false_eq_true,
    if_false, Bool.and_eq_true, beq_iff_eq]

/-- A MIRROR_APPLY that passes every check of R226 marks the stale spans of its entry (R221), and is served by the planner. -/
theorem exec_mirrorApply_passed {e : BitVec 1024} (h : s.runs id 0x16 t) (mirrored : t.gradSrc = 2) (noGradient : t.roleHid 4 = 0xFFFF)
    (fields : ∀ r ∈ laneRoles, badHidField (t.roleHid r) = false) (passed : (s.begun id).applyFault t = none)
    (up : (s.begun id).d2dDown = false) (entry : (s.begun id).applyEntry t = some e) :
    exec (.mirrorApply id) s = .next (((s.begun id).setWeld t.job fun w => { w with
      inSpans := mapIf w.inSpans (fun x => x.master == bitsOf e 191 176 && x.stale) (fun x => { x with skip := t.step }) }).start t) := by
  have named : (laneRoles.any fun r => badHidField (t.roleHid r)) = false := List.any_eq_false.2 fun r role => by simp [fields r role]
  have formed : (t.gradSrc != 2 || t.roleHid 4 != 0xFFFF || laneRoles.any fun r => badHidField (t.roleHid r)) = false := by
    simp only [mirrored, noGradient, named, bne_self_eq_false, Bool.or_false]
  simp only [exec, execMirrorApply, State.whenReady_of_runs h, formed, passed, up, entry, Bool.false_eq_true, if_false]

end

/-- At a boundary with no lane task left, the image that waits is taken, and its level with it (R123, R143). -/
theorem exec_kernelImageSwitch_free {s : State} {k : KernelSet} (waits : s.update.kernelsNext = some k) (boundary : s.time.cycle = 0)
    (free : ∀ t ∈ s.sched.tasks, t.type ≠ 0x11 ∧ t.type ≠ 0x12 ∧ t.type ≠ 0x16) :
    exec .kernelImageSwitch s = .next ((s.setUpdate fun u => { u with kernels := k, kernelsNext := none }).setWoad fun w =>
      { w with level := w.levelNext.getD w.level, levelNext := none }) := by
  have noLaneTask : (s.sched.tasks.any fun t => t.type == 0x11 || t.type == 0x12 || t.type == 0x16) = false := by
    simpa [and_assoc] using free
  simp [exec, execKernelImageSwitch, waits, boundary, noLaneTask]

/-- Settles O27, row by row; that EF_RESET sets the step to the one before is log entry 33. -/
theorem slicedTasksStart : Obligations.SlicedTasksStart := fun _ _ _ =>
  ⟨exec_update_passed,
   exec_woadCompress_passed,
   fun h mirrored noGradient fields passed up _ entry => exec_mirrorApply_passed h mirrored noGradient fields passed up entry,
   fun _ waits boundary free => exec_kernelImageSwitch_free waits boundary free⟩

/-! Groups (R124, R126, R127, R139, R140) -/

/-- Where the fetch of a task stands: the next group to start, else the end of its elements. -/
def State.fetchAt (s : State) (t : Task) : Nat := (s.groupToStart t).getD t.len

/-- The state after the fetch engine has observed the pieces of the rows up to the end of the next group (R147). -/
def State.fetchSeen (s : State) (t : Task) : State :=
  s.seePieces t (s.rowsFor t t.next (if t.len ≤ s.fetchAt t then t.len else s.groupEnd t (s.fetchAt t)))

section
variable {s : State} {id : Nat} {t : Task} (trained : s.carrier.mainband = true)
include trained

/-- With no block of an earlier group late, the next group starts. -/
theorem exec_fetchGroupStart_next {a : Nat} (found : s.task? id = some t) (fetches : t.fetches = true)
    (timely : ((s.fetchSeen t).groupBlocks t t.next (s.fetchAt t)).any ((s.fetchSeen t).lateBlock t) = false)
    (next : (s.fetchSeen t).groupToStart t = some a) :
    exec (.fetchGroupStart id) s = .next ((s.fetchSeen t).startGroup t a) := by
  unfold State.fetchSeen State.fetchAt at timely next ⊢
  simp only [exec, execFetchGroupStart, found, fetches, trained, timely, next]
  rfl

section
variable {x : Slice} (found : s.task? id = some t) (slice : t.slice = some x) (whole : x.faulted = false) (lane : t.lane = true)
  (left : x.issued < x.size)
include found slice whole lane left

/-- A slice with elements left issues by its task's kind, once no Gram–Schmidt is due before the rows of PHASE 1 (R140). -/
theorem exec_laneGroupIssue_left (notDue : t.type = 0x12 → t.wPhase = 1 → x.ops = 0 ∨ x.opsRun = true) :
    exec (.laneGroupIssue id) s = .next (
      if t.type = 0x12 then (if t.wPhase = 0 then s.issueProject t x else s.issueRow t x)
      else if t.pass = 11 then s.issueStats t else s.issueGroup t x) := by
  have noGramSchmidt : (t.type == 0x12 && t.wPhase == 1 && x.ops != 0 && !x.opsRun) = false := by
    simpa [or_iff_not_imp_left] using notDue
  simp [exec, execLaneGroupIssue, found, slice, whole, lane, trained, left.not_ge, noGramSchmidt]

end

/-- The first task in order, if it has run in, is the only one that may go on. -/
theorem exec_runIn_first {rest : List Task} (late : 157952 ≤ s.time.cycle) (order : s.laneOrder = t :: rest) (running : 0 < t.runIn)
    (may : s.mayRunIn t = true) (ready : t.next < s.runInEnd t 1 t.next t.len) :
    let b := s.runInEnd t 2049 t.next (t.next + (262144 - t.runIn))
    exec .runIn s =
      .next (((s.beginLane t).issueLanes t t.next b true).setTask t.id fun u => { u with runIn := u.runIn + (b - t.next) }) := by
  have only : s.laneOrder.find? (fun t => decide (0 < t.runIn)) = some t := by simp [order, running]
  simp [exec, execRunIn, late.not_gt, trained, only, may, ready]

end

/-- Settles O28, row by row. -/
theorem groupsIssue : Obligations.GroupsIssue := by
  intro s id t trained
  refine ⟨fun found fetches _ timely next => exec_fetchGroupStart_next trained found fetches timely next,
    fun x found slice whole lane left => ?_,
    fun _ late order running may ready => exec_runIn_first trained late order running may ready⟩
  have issued := exec_laneGroupIssue_left trained found slice whole lane left
  refine ⟨fun type phase => ?project, fun type phase factored => ?row, fun type pass => ?stats, fun type pass => ?group⟩
  case project => simp [issued, type, phase]
  case row => simp [issued, type, phase, factored]
  case stats => simp [issued, type, pass]
  case group => simp [issued, type, pass]

/-! Lanes (R130) -/

/-- A mismatch is counted, and its two lanes are suspected until the repair frame. -/
def State.suspectLanes (s : State) (active shadow logical : Nat) : State :=
  (s.bump Od.shadowMismatchCount).setUpdate fun u => { u with
    suspect := u.suspect ++ [{ frame := s.frame, active := active, shadow := shadow, logical := logical }] }

section
variable {s : State} {id : Nat} {t : Task} {logical : BitVec 7} {second : Bool} {shadow active : Nat}
  (found : s.task? id = some t) (shadowed : s.shadowLane second = some shadow)
  (mapped : s.update.laneMap[logical.toNat]? = some active) (type : t.type = 0x11 ∨ t.type = 0x16)
include found shadowed mapped type

theorem exec_shadowMismatch_slice (noRunIn : t.runIn = 0) (slicing : t.slicing = true) :
    exec (.shadowMismatch id logical second) s =
      .next ((s.suspectLanes active shadow logical.toNat).faultFor id .lane) := by
  have lane : (t.type == 0x11 || t.type == 0x16) = true := by simpa using type
  simp only [exec, execShadowMismatch, found, shadowed, mapped, lane, noRunIn, slicing]
  rfl

theorem exec_shadowMismatch_runIn (ahead : 0 < t.runIn) :
    exec (.shadowMismatch id logical second) s =
      .next ((s.suspectLanes active shadow logical.toNat).rollbackRunIn t false (some .lane)) := by
  have lane : (t.type == 0x11 || t.type == 0x16) = true := by simpa using type
  simp only [exec, execShadowMismatch, found, shadowed, mapped, lane, ahead, decide_true, Bool.or_true]
  rfl

end

/-- The verdict of the repair frame on two suspected lanes that are still in use: no lane fails and both score a transient, or
what fails is retired, the shadow lane first; the event names a lane that fails, the active one before the shadow (log entry 147). -/
def State.judgeLanes (s : State) (x : LaneSuspect) : Bool → Bool → State
  | false, false => (((s.bump Od.laneTransientCount).scoreTransient (partId 1 x.active)).scoreTransient
      (partId 1 x.shadow)).event Od.laneTransientCount x.active x.shadow
  | true, false => (s.retireLane x.active).event Od.laneRetireCount x.active x.shadow
  | false, true => (s.retireLane x.shadow).event Od.laneRetireCount x.shadow x.active
  | true, true => ((s.retireLane x.shadow).retireLane x.active).event Od.laneRetireCount x.active x.shadow

/-- A part that is not pinned has its plain name. -/
theorem State.partName_unpinned {s : State} {pid : Nat} (unpinned : s.pinned pid = false) (plain : Nat) :
    s.partName pid plain = plain := by
  simp [State.partName, unpinned]

/-- LANE_REPAIR of the oldest comparison, a frame later, of two lanes that are neither pinned nor retired. -/
theorem exec_laneRepair_due {s : State} {x : LaneSuspect} {rest : List LaneSuspect} (oldest : s.update.suspect = x :: rest)
    (due : x.frame + 1 ≤ s.frame) (activeUnpinned : s.pinned (partId 1 x.active) = false)
    (shadowUnpinned : s.pinned (partId 1 x.shadow) = false) (activeInUse : x.active ∉ s.update.retired)
    (shadowInUse : x.shadow ∉ s.update.retired) (activeFails shadowFails : Bool) :
    exec (.laneRepair activeFails shadowFails) s =
      .next ((s.setUpdate fun u => { u with suspect := rest }).judgeLanes x activeFails shadowFails) := by
  cases activeFails <;> cases shadowFails <;>
    simp [exec, execLaneRepair, oldest, State.lapsed_iff.2 due, activeUnpinned, shadowUnpinned, activeInUse, shadowInUse,
      State.partName_unpinned activeUnpinned, State.partName_unpinned shadowUnpinned, State.judgeLanes]

/-! The factor cache and the array (R152, R158) -/

/-- An uncorrectable error in a residency with no copy of Q: the slices that use it are interrupted, and it is dropped. -/
theorem exec_factorCacheUe_dropped {s : State} {job : JobId} {holding : BitVec 12} {step : BitVec 64} {r : Residency}
    (found : s.residency? job.val (some holding.toNat) step.toNat = some r) (noCopy : r.snapshot = none) (entry : BitVec 16) :
    exec (.factorCacheUe job ⟨holding, step, entry⟩) s = .next ((State.closeResidency
      ((s.sched.tasks.filter (fun t => t.slicing && s.cacheKey t == some (r.job, r.holding, r.step))).foldl
        (fun s t => s.faultSlice t.id false) (s.bump Od.factorCacheUeCount)) (r.job, r.holding, r.step)).event
          Od.factorCacheUeCount holding.toNat step.toNat) := by
  simp [exec, execFactorCacheUe, found, noCopy]

/-- A failed check of the array is counted by its kind, and interrupts the slices that use the array. -/
def State.interruptArray (s : State) (residue : Bool) : State :=
  let t := s.bump (if residue = true then Od.arrayResidueErrCount else Od.arrayShadowMismatchCount)
  (t.sched.tasks.filter t.usesArray).foldl (fun s t => s.faultFor t.id .array) t

/-- The array stops, until its repair frame, with the first check that fails; a shadow check needs a spare column. -/
theorem exec_arrayCheckFail_first {s : State} {residue : Bool} (up : s.mainUp = true)
    (checked : residue = true ∨ s.colSpares.isEmpty = false) (first : (s.interruptArray residue).woad.suspect = none) :
    exec (.arrayCheckFail residue) s =
      .next ((s.interruptArray residue).setWoad fun w => { w with suspect := some (s.interruptArray residue).frame }) := by
  have checks : (!s.mainUp || (!residue && s.colSpares.isEmpty)) = false := by
    rcases checked with residueCheck | spare
    · simp [up, residueCheck]
    · simp [up, spare]
  have running : ¬ (s.interruptArray residue).woad.suspect.isSome = true := by simp [first]
  exact congrArg Host.Outcome.next ((if_neg (Bool.eq_false_iff.1 checks)).trans (if_neg running))

/-- With nothing pinned and nothing failing the repair frame finds a transient: no score (log entry 34), DETAIL 0xFFFF (log entry 150). -/
theorem exec_arrayRepair_transient {s : State} {f : Nat} (stopped : s.woad.suspect = some f) (due : f + 1 ≤ s.frame)
    (unpinned : s.service.pins = []) :
    exec (.arrayRepair [] []) s = .next ((s.setWoad fun w => { w with suspect := none }).event Od.arrayRetireCount 0xFFFF) := by
  have free (pid : Nat) : s.pinned pid = false := by simp [State.pinned, unpinned]
  simp [exec, execArrayRepair, stopped, State.lapsed_iff.2 due, free]

/-- Settles O29, row by row: the lane that an event names is log entry 147's, and an array transient has no score (log entry 34) and
DETAIL 0xFFFF (log entry 150). -/
theorem laneAndArrayFaults : Obligations.LaneAndArrayFaults := by
  intro s
  refine ⟨fun _ _ _ _ _ _ found shadowed mapped type =>
      ⟨exec_shadowMismatch_slice found shadowed mapped type, exec_shadowMismatch_runIn found shadowed mapped type⟩,
    fun x _ oldest due activeUnpinned shadowUnpinned activeInUse shadowInUse => ?_,
    fun _ _ _ entry _ found noCopy => exec_factorCacheUe_dropped found noCopy entry,
    fun _ up checked first => exec_arrayCheckFail_first up checked first,
    fun _ stopped due unpinned => exec_arrayRepair_transient stopped due unpinned⟩
  have judged := exec_laneRepair_due oldest due activeUnpinned shadowUnpinned activeInUse shadowInUse
  rw [State.partName_unpinned activeUnpinned x.active, State.partName_unpinned shadowUnpinned x.shadow]
  exact ⟨judged false false, judged true false, judged false true, fun _ => judged true true⟩

end Sys2Proof.Machine
end

section
/-!
PROOFS for chapter 06, the entries of Woad's low-rank codec (Table 06-7, R161). A dictionary entry with a row of access RO or CONST passes
the check that it is there (R412, 2) and is refused by the next, the check of rights, for every agent; and on each path that a write can
take, that refusal only counts in OD_ABORT_COUNT.
-/
namespace Sys2Proof.Machine

/-! The checks of R412 on an entry that no agent writes -/

section
variable {key : Nat} {r : OdRow}

theorem odHighest_of_mem {i : Nat} (listed : r ∈ odTable) (low : r.ref.key / 256 ≤ i) (high : i < r.ref.key / 256 + r.indices) :
    (odHighest i).isSome = true := by
  simp only [odHighest, List.isEmpty_iff]
  rw [if_neg (List.ne_nil_of_mem (List.mem_filter.2 ⟨listed, by simp [low, high]⟩))]
  rfl

/-- A key with a row is an entry of an index that exists. -/
theorem odMissing_of_row (row : odRowOf key = some r) : odMissing key = 0 := by
  have holds := List.find?_some row
  simp only [Bool.and_eq_true, decide_eq_true_eq] at holds
  obtain ⟨⟨⟨low, high⟩, _⟩, _⟩ := holds
  obtain ⟨highest, known⟩ := Option.isSome_iff_exists.1 (odHighest_of_mem (List.mem_of_find?_eq_some row) low high)
  simp [odMissing, known, row]

/-- A row that Table 16-2 gives no writer. -/
def OdRow.readOnly (r : OdRow) : Prop := r.access = .ro ∨ r.access = .const

theorem OdRow.mayWrite_of_readOnly (readOnly : r.readOnly) (key : Nat) (a : Agent) : r.mayWrite key a = false := by
  rcases readOnly with access | access <;> simp [OdRow.mayWrite, access]

theorem State.odCheck_of_readOnly (row : odRowOf key = some r) (readOnly : r.readOnly) (s : State) (a : Agent) (bytes : Bytes) :
    s.odCheck a key bytes = abAccess := by
  simp [State.odCheck, odMissing_of_row row, row, OdRow.mayWrite_of_readOnly readOnly]

end

/-! The paths of a write that is refused for its rights -/

section
variable {s : State} {a : Agent} {key : Nat} {bytes : Bytes} (denied : s.odCheck a key bytes = abAccess)
include denied

theorem State.odWriteWith_denied (f : State → Nat × State) :
    s.odWriteWith a key bytes f = (abAccess, s.bump Od.odAbortCount) := by
  simp [State.odWriteWith, denied, State.odRefuse, abAccess]

theorem State.imageWrite_denied (f : State → Nat × State) :
    s.imageWrite a key bytes f = (abAccess, s.bump Od.odAbortCount) := by
  simp [State.imageWrite, denied, State.odRefuse, abAccess]

/-- A generation write counts in GEN_REFUSED_COUNT only what the load itself refuses. -/
theorem State.genWrite_denied (f : State → Nat × State) :
    s.genWrite a key bytes f = (abAccess, s.bump Od.odAbortCount) := by
  simp [State.genWrite, State.odWriteWith_denied denied, abAccess, abInvalid, abBusy]

theorem State.odWriteAny_denied (authenticated : Bool) (obs : ActionObs) :
    s.odWriteAny a authenticated key bytes obs = (abAccess, s.bump Od.odAbortCount) := by
  unfold State.odWriteAny
  split_ifs
  · exact State.imageWrite_denied denied _
  · exact State.genWrite_denied denied _
  · exact State.genWrite_denied denied _
  · exact State.odWriteWith_denied denied _

end

/-! Table 06-7 -/

theorem odRowOf_woad_readOnly {key : Nat} (first : 0x404001 ≤ key) (last : key ≤ 0x404011) :
    ∃ r, odRowOf key = some r ∧ r.readOnly := by
  have rows : ∀ k ∈ List.range' 0x404001 17, ∃ r ∈ odRowOf k, r.access = .ro ∨ r.access = .const := by decide +kernel
  exact rows key (List.mem_range'_1.2 ⟨first, by omega⟩)

/-- Settles O55: the rows are those of Table 06-7, and an entry that no agent writes is refused before any other condition is looked at. -/
theorem woadEntriesRefuseWrites : Obligations.WoadEntriesRefuseWrites := by
  refine ⟨?_, fun s agent auth key bytes obs first last => ?_⟩
  · simp only [← Option.mem_def]
    decide +kernel
  · obtain ⟨r, row, readOnly⟩ := odRowOf_woad_readOnly first last
    exact State.odWriteAny_denied (State.odCheck_of_readOnly row readOnly s agent bytes) auth obs

end Sys2Proof.Machine
end

section
/-!
PROOFS for chapter 07, Madder's exponent coder. Writes of generation images, the swap at the boundary, the read of the histogram, the
blocks of the encoder, the Leaves of the decoder, and the test of a suspected decoder lane: one lemma for each row.
-/
namespace Sys2Proof.Machine

/-! Writes of generation images (R168, R176, R177) -/

section
variable {s : State} {a : Agent} {key : Nat} {image : Bytes} {f : State → Nat × State}

theorem State.odWriteWith_takes (taken : s.odTakes a key image f) : s.odWriteWith a key image f = (0, (f s).2.wakeUp) := by
  obtain ⟨admitted, accepted⟩ := taken
  simp [State.odWriteWith, admitted, accepted]

/-- What the checks pass and the owner refuses only counts. -/
theorem State.odWriteWith_refused (admitted : s.odCheck a key image = 0) (refused : (f s).1 ≠ 0) :
    s.odWriteWith a key image f = ((f s).1, s.bump Od.odAbortCount) := by
  simp [State.odWriteWith, admitted, refused, State.odRefuse]

/-- An accepted image counts no refusal. -/
theorem State.genWrite_takes (taken : s.odTakes a key image f) : s.genWrite a key image f = (0, (f s).2.wakeUp) := by
  simp [State.genWrite, State.odWriteWith_takes taken, abInvalid, abBusy]

/-- An image that the coder finds invalid counts in OD_ABORT_COUNT and in GEN_REFUSED_COUNT. -/
theorem State.genWrite_invalid (admitted : s.odCheck a key image = 0) (invalid : (f s).1 = abInvalid) :
    s.genWrite a key image f = (abInvalid, (s.bump Od.odAbortCount).bump Od.genRefusedCount) := by
  have refused : (f s).1 ≠ 0 := by simp [invalid, abInvalid]
  simp [State.genWrite, State.odWriteWith_refused admitted refused, invalid]

end

section
variable {s : State} {agent : Agent} {image : Bytes}

theorem exec_madderGenLoad_taken (taken : s.odTakes agent Od.madderGenLoad.key image (fun s => s.genLoad image)) :
    exec (.madderGenLoad agent image) s = .next (s.odDone agent fun s => s.genLoad image) := by
  simp [exec, execMadderGenLoad, State.genWrite_takes taken, State.odDone]

theorem exec_madderGenRecall_taken (taken : s.odTakes agent Od.madderGenRecall.key image (fun s => s.genRecall image)) :
    exec (.madderGenRecall agent image) s = .next (s.odDone agent fun s => s.genRecall image) := by
  simp [exec, execMadderGenRecall, State.genWrite_takes taken, State.odDone]

theorem exec_madderGenLoad_invalid (admitted : s.odCheck agent Od.madderGenLoad.key image = 0)
    (invalid : (s.genLoad image).1 = abInvalid) :
    exec (.madderGenLoad agent image) s =
      .next (((s.bump Od.odAbortCount).bump Od.genRefusedCount).send (.od agent.code abInvalid [])) := by
  simp [exec, execMadderGenLoad, State.genWrite_invalid (f := fun s => s.genLoad image) admitted invalid]

end

/-! The swap and the histogram (R170, R176, R177) -/

section
variable {s : State} {g : Generation}

/-- At a boundary after the acceptance of a load, the loaded generation is CURRENT, and the one before it PREVIOUS. -/
theorem State.swapGens_load (load : s.madder.load = some g) (boundary : s.time.cycle = 0) (after : s.madder.pendSince < s.frame) :
    s.swapGens = (s.bump Od.genLoadCount).setMadder fun m =>
      { m with previous := m.current, current := some g, load := none, prevDead := false } := by
  simp [State.swapGens, load, boundary, after.not_ge]

/-- At a boundary after the acceptance of a recall, the recalled generation is PREVIOUS. -/
theorem State.swapGens_recall (unloaded : s.madder.load = none) (recalled : s.madder.recalled = some g) (boundary : s.time.cycle = 0)
    (after : s.madder.pendSince < s.frame) :
    s.swapGens = s.setMadder fun m => { m with previous := some g, recalled := none, prevDead := false } := by
  simp [State.swapGens, unloaded, recalled, boundary, after.not_ge]

theorem exec_hist_reader {agent : Agent} (reader : agentReads agent = true) (up : s.mainUp = true) :
    exec (.hist agent) s = .next (s.takeHist.2.send (.od agent.code 0 s.takeHist.1)) := by
  simp [exec, execHist, reader, up]

end

/-! The encoder and the decoder (R169, R172, R174) -/

/-- The raw bytes of the next block of a Leaf: 4,096 elements, or what is left. -/
def EncLeaf.nextBlock (e : EncLeaf) : Bytes := (e.raw.drop (e.done * formatWidth e.format)).take (4096 * formatWidth e.format)

/-- On a lane whose turn to be verified it is not, a clean block leaves the verify turn where it is. -/
theorem exec_encodeBlock_unverified {s : State} {leaf : Nat} {lane : BitVec 6} {e : EncLeaf} {phys : Nat}
    (found : s.madder.enc.find? (fun e => e.id == leaf) = some e) (mapped : s.madder.encMap[lane.toNat]? = some phys)
    (up : s.mainUp = true) (unverified : s.verifyTurn lane.toNat phys = false) :
    exec (.encodeBlock leaf lane .clean) s = .next (s.emitBlock e e.nextBlock) := by
  simp [exec, execEncodeBlock, found, mapped, up, unverified, EncLeaf.nextBlock]

/-- What becomes of a Leaf that has been decoded: bytes whose digest compares are placed, others fail, and a Leaf that does not decode
is reported. -/
def State.takeDecoded (s : State) (q : QLeaf) : DecodeResult → State
  | .raw raw => if Config.sha3 raw % 2 ^ 256 = q.digest then s.placeQ q raw else s.failQ q
  | .bad code detail detail2 => s.badLeaf q code detail detail2

/-- A Leaf that can be written, with the units of the frame that it takes, is decoded. -/
theorem exec_decodeLeaf_served {s u : State} {leaf : Nat} {lane : BitVec 6} {q : QLeaf} {phys : Nat}
    (found : s.vault.quarantine.find? (fun q => q.id == leaf) = some q) (mapped : s.madder.decMap[lane.toNat]? = some phys)
    (up : s.mainUp = true) (writable : s.writableQ q = true)
    (taken : s.takeUnits (.restore (s.writerOf q)) (s.restoreRank (s.writerOf q)) (State.decodeUnits q) = some u) :
    exec (.decodeLeaf leaf lane false) s =
      .next (u.takeDecoded q (decodeLeafBytes u.liveGens q.format q.count q.coded)) := by
  cases decoded : decodeLeafBytes u.liveGens q.format q.count q.coded <;>
    simp [exec, execDecodeLeaf, found, mapped, up, writable, taken, decoded, State.takeDecoded]

/-! The test of a suspected lane (R174) -/

/-- A frame after its error, a decoder lane that is not pinned is retired when the vectors fail it, and else scores a transient. -/
theorem exec_coderLaneTest_due {s : State} {x : Bool × Nat × Nat} (oldest : s.madder.suspect.find? (fun x => x.1) = some x)
    (due : x.2.2 + 1 ≤ s.frame) (unpinned : s.pinned (partId 5 x.2.1) = false) (fails : Bool) :
    let t := s.setMadder fun m => { m with suspect := m.suspect.erase x }
    exec (.coderLaneTest fails) s =
      .next (if fails = true then t.retireCoder true x.2.1 else t.scoreTransient (partId 5 x.2.1)) := by
  intro t
  have stillUnpinned : t.pinned (partId 5 x.2.1) = false := unpinned
  simp [exec, execCoderLaneTest, oldest, State.lapsed_iff.2 due, stillUnpinned, t]

/-- Settles O30, row by row. -/
theorem coderCompletes : Obligations.CoderCompletes := by
  intro s
  refine ⟨fun _ _ taken => exec_madderGenLoad_taken taken,
    fun _ _ taken => exec_madderGenRecall_taken taken,
    fun _ _ admitted invalid => exec_madderGenLoad_invalid admitted invalid,
    fun _ load boundary after => congrArg Host.Outcome.next (State.swapGens_load load boundary after),
    fun _ unloaded recalled boundary after => congrArg Host.Outcome.next (State.swapGens_recall unloaded recalled boundary after),
    fun _ reader up => exec_hist_reader reader up,
    fun _ _ _ _ found mapped up unverified => exec_encodeBlock_unverified found mapped up unverified,
    fun _ _ _ _ _ found mapped up writable taken => ?_,
    fun _ oldest due unpinned =>
      ⟨exec_coderLaneTest_due oldest due unpinned false, exec_coderLaneTest_due oldest due unpinned true⟩⟩
  rw [exec_decodeLeaf_served found mapped up writable taken]
  refine ⟨fun raw decoded => ?_, fun _ _ _ decoded => by rw [decoded, State.takeDecoded]⟩
  rw [decoded, State.takeDecoded]
  exact ⟨fun compares => by rw [if_pos compares], fun differs => by rw [if_neg differs]⟩

end Sys2Proof.Machine
end


section
/-!
PROOFS for chapter 08, the Gallery. A word that does not read clean, the patrol scrub's visit to a row, and the frames of a row's remap: one
lemma for each row.
-/
namespace Sys2Proof.Machine

section
variable {s : State} (up : s.mainUp = true)
include up

/-! Words that do not read clean, and the scrub (R193, R195) -/

theorem exec_galleryUe_up (addr : BitVec 35) (reads : WordReads) (victim : UeVictim) :
    exec (.galleryUe addr reads victim) s = .next (s.badWord addr reads victim) := by
  simp [exec, execGalleryUe, up]

/-- A visit that is due handles the words of its row, moves the scrub on, and counts a pass when it returns to row 0. -/
theorem exec_scrubRow_due (optics : s.opticsOn = true) (due : s.gallery.scrubFrame ≤ s.frame)
    (corrected : List (BitVec 11 × BitVec 39)) (bad : List ScrubFault) :
    let t := s.scrubWords (s.gallery.scrubAt / 32768) (s.gallery.scrubAt % 32768) corrected bad
    let next := (s.gallery.scrubAt + 1) % galleryRows
    let u := t.setGallery fun g => { g with scrubAt := next, scrubFrame := t.frame + t.cfg Od.scrubFramesPerRow }
    exec (.scrubRow corrected bad) s = .next (if next = 0 then u.bump Od.scrubPassCount else u) := by
  simp [exec, execScrubRow, up, optics, due]

/-! The remap of a row (R197 to R199) -/

section
variable {die : BitVec 2} {j : RemapJob} (optics : s.opticsOn = true)
  (oldest : s.gallery.remaps.find? (fun j => j.channel / 32 == die.toNat) = some j) (due : j.since < s.frame)
include optics oldest due

/-- A row that has been copied is entered in the table, and what waits for its words is fetched again. -/
theorem exec_rowRemap_copied (copied : j.stage = 1) (readback : Bool) (region : BitVec 3) (contents : SlotContents) :
    exec (.rowRemap die readback region contents) s = .next ((s.writeRemap j).refetch j.refetch) := by
  simp [exec, execRowRemap, up, optics, oldest, due, copied]

/-- A row that is not copied yet, with no failed spare behind it, goes to the next primary spare while its channel has one. -/
theorem exec_rowRemap_primary (uncopied : j.stage ≠ 1) (unfinished : j.stage ≠ 2)
    (spare : (spareOf s.gallery.spareNext j.channel).1 < 656) (first : j.again = false)
    (readback : Bool) (region : BitVec 3) (contents : SlotContents) :
    exec (.rowRemap die readback region contents) s =
      .next (s.copyRow j false (spareOf s.gallery.spareNext j.channel).1 readback) := by
  simp [exec, execRowRemap, up, optics, oldest, due, uncopied, unfinished, spare, first]

end

end

/-- Settles O31, row by row; a remap's case is that of its stage. -/
theorem galleryCompletes : Obligations.GalleryCompletes := by
  intro s up
  exact ⟨exec_galleryUe_up up,
    fun corrected bad optics due => exec_scrubRow_due up optics due corrected bad,
    fun _ readback region contents _ optics oldest due =>
      ⟨fun copied => exec_rowRemap_copied up optics oldest due copied readback region contents,
       fun uncopied unfinished spare first =>
        exec_rowRemap_primary up optics oldest due uncopied unfinished spare first readback region contents⟩⟩

end Sys2Proof.Machine
end


section
/-!
PROOFS for chapter 09, the Weld. What `State.weldIn` does with a message that is taken; one lemma for each message of a paired link, of the
record stream and of pairing; and the tasks of resynchronisation and rolling back with the mirror's own checks.
-/
namespace Sys2Proof.Machine

/-! The messages of a paired link (R205, R206, R218, R220, R207, R222, R227, R228, R230) -/

/-- A message that `State.weldTakes` admits passes every check, and has its own meaning (R205, R206). -/
theorem State.weldIn_of_takes {s u : State} {hdr : BitVec 256} {type size : Nat} (h : s.weldTakes hdr type size u)
    (record : Bool) (f : JobId → State → State) : s.weldIn hdr type size true record f = f (wJob hdr) u := by
  obtain ⟨calm, foreign, type, peer, len, bounded, inOrder⟩ := h
  simp [State.weldIn, calm, foreign, type, peer, len, bounded.not_gt, inOrder]

/-- What a change makes of the Weld state that stands is all that counts. -/
theorem State.setWeld_congr {s : State} {j : JobId} {f g : Weld → Weld} (same : f (s.weld j) = g (s.weld j)) :
    s.setWeld j f = s.setWeld j g := congrArg (fun w => { s with welds := s.welds.set j w }) same

/-- The spans of a Leaf of the partner that want a copy: those that are STALE, or all of them in mode COPY (R228, R229). -/
def State.copyWanted (s : State) (j : JobId) (hid leaf : Nat) : List (Nat × Nat) :=
  let width := (((s.boundTo j hid).bind (s.holdingIn j)).map (·.width)).getD 4
  ((s.weld j).inGroups.flatMap (fun g =>
    if g.hids.contains hid then (leafSpans g hid leaf width).map (fun i => (g.master, i)) else [])).filter
    (fun x => match s.inSpan? j x.1 x.2 with
      | some y => y.stale || (s.weld j).mode == .copy
      | none => false)

/-- A Leaf is held for a span: in the copy of its stamp that is not being written yet, or in a new one (R228). -/
def State.holdLeaf (j : JobId) (stamp : Nat) (leaf : Nat × Nat × Bytes) (s : State) (x : Nat × Nat) : State :=
  s.setWeld j fun w =>
    let here (c : HeldCopy) : Bool := c.master == x.1 && c.index == x.2 && c.stamp == stamp && !c.writing
    if w.copies.any here then
      { w with copies := mapIf w.copies here (fun c => { c with leaves :=
          (c.leaves.filter (fun l => !(l.1 == leaf.1 && l.2.1 == leaf.2.1))) ++ [leaf] }) }
    else { w with copies := w.copies ++ [{ master := x.1, index := x.2, stamp := stamp, leaves := [leaf] }] }

/-- Where no copy is held, a copy begins. -/
theorem State.holdLeaf_of_no_copies {s : State} {j : JobId} (noCopies : (s.weld j).copies = []) (stamp : Nat)
    (leaf : Nat × Nat × Bytes) (x : Nat × Nat) :
    s.holdLeaf j stamp leaf x = s.setWeld j fun w =>
      { w with copies := w.copies ++ [{ master := x.1, index := x.2, stamp := stamp, leaves := [leaf] }] } :=
  State.setWeld_congr (by simp [noCopies])

section
variable {s u : State} {hdr : BitVec 256}

theorem exec_ledgerAck_taken {r : OutRecord} {t : Task} (h : s.weldTakes hdr 0x13 0 u)
    (found : u.out? (wJob hdr) (wStep hdr) = some r) :
    let v := u.setOut (wJob hdr) (wStep hdr) fun r => { r with acked := true, ended := true }
    v.ledgerTask (wJob hdr) (wStep hdr) = some t →
    exec (.ledgerAck hdr true) s = .next (v.complete t 0 0 0 (v.bodyBytes r (v.copyForm (wJob hdr)))) := by
  intro v task
  simp only [exec, execLedgerAck, State.weldIn_of_takes h, found, v, task]

theorem exec_ledgerNak_taken {r : OutRecord} {t : Task} (h : s.weldTakes hdr 0x14 0 u)
    (found : u.out? (wJob hdr) (wStep hdr) = some r) (low : 1 ≤ wAux hdr 191 184) (high : wAux hdr 191 184 ≤ 6)
    (task : (u.bump Od.recordLostCount).ledgerTask (wJob hdr) (wStep hdr) = some t) :
    exec (.ledgerNak hdr true) s =
      .next ((((u.bump Od.recordLostCount).setOut (wJob hdr) (wStep hdr) fun r =>
        { r with acked := true, ended := true, staged := if r.toVault then r.staged else [] }).setWeld (wJob hdr) fun w =>
        { w with outStale := some (w.outStale.getD (wStep hdr)) }).complete t 0x2004 (wAux hdr 191 184) (wStep hdr)) := by
  have nonzero : wAux hdr 191 184 ≠ 0 := Nat.ne_of_gt low
  simp [exec, execLedgerNak, State.weldIn_of_takes h, nonzero, high.not_gt, found, task]

theorem exec_weldAck_taken (h : s.weldTakes hdr 0x30 0 u) :
    exec (.weldAck hdr true) s = .next (u.coverAck (wJob hdr) (wAux hdr 191 160)) :=
  congrArg Host.Outcome.next (State.weldIn_of_takes h false _)

/-- M follows the partner, whose count of bad spans is not compared (log entry 133). -/
theorem exec_mirrorConfirm_taken {spans : List (BitVec 64)} (h : s.weldTakes hdr 0x20 (8 + 8 * spans.length) u) :
    let v := (u.setWeld (wJob hdr) fun w => { w with peerStep := wAux hdr 191 128 }).setJob (wJob hdr) fun x =>
      { x with m := min (wAux hdr 191 128) x.v }
    exec (.mirrorConfirm hdr spans true) s = .next (if wAux hdr 191 128 = wStep hdr
      then v.setWeld (wJob hdr) fun w => { w with outStale := none, confirmed := true } else v) := by
  simp only [exec, execMirrorConfirm, State.weldIn_of_takes h, beq_iff_eq]

theorem exec_copyRequest_spans {spans : List (BitVec 64)} (h : s.weldTakes hdr 0x21 (8 * spans.length) u)
    (named : bitOf hdr 191 = false) :
    exec (.copyRequest hdr spans true) s = .next (u.setWeld (wJob hdr) fun w => { w with
      outSpans := mapIf w.outSpans (fun x => (spans.map refOf).contains (x.master, x.index))
        (fun x => { x with copyPending := true }) }) := by
  simp only [exec, execCopyRequest, State.weldIn_of_takes h, named, Bool.false_eq_true, if_false]

/-- A Leaf is held for every span that wants a copy of it, and the copies held are worked off. -/
theorem exec_copyLeaf_taken {payload : Bytes} (h : s.weldTakes hdr 0x22 payload.length u)
    (room : unitsOf payload.length ≤ s.partnerFree) :
    let wanted := u.copyWanted (wJob hdr) (wAux hdr 191 176) (wAux hdr 175 144)
    exec (.copyLeaf hdr payload true) s = .next (((wanted.foldl
      (State.holdLeaf (wJob hdr) (wStep hdr) (wAux hdr 191 176, wAux hdr 175 144, payload)) u).tookSince u).pumpCopies (wJob hdr)) := by
  have fits : ¬ (s.weldPeer (wJob hdr) == some (wSrc hdr) && decide (s.partnerFree < unitsOf payload.length)) = true := by
    simp [room.not_gt]
  exact congrArg Host.Outcome.next ((if_neg fits).trans (State.weldIn_of_takes h false _))

/-- The Leaves of the spans asked for are served with generations 0 (log entry 57). -/
theorem exec_rollbackRequest_taken {spans : List (BitVec 64)} (h : s.weldTakes hdr 0x23 (8 * spans.length) u) :
    let leaves := (spans.map refOf).flatMap fun x => match u.inGroup? (wJob hdr) x.1 with
      | some g => (u.inLeaves (wJob hdr) g x.2).map fun l => (l.2.2, l.2.1)
      | none => []
    exec (.rollbackRequest hdr spans true) s = .next (u.setVault fun v => { v with
      serves := v.serves ++ [
        { id := u.vault.nextObj, job := (wJob hdr).val, toEngine := wSrc hdr, fill := wAux hdr 191 128, urgent := true, curGen := 0,
          prevGen := 0, leaves := leaves.eraseDups, sent := 0, missing := 0, rollback := true }],
      nextObj := v.nextObj + 1 }) :=
  congrArg Host.Outcome.next (State.weldIn_of_takes h false _)

theorem exec_pairClose_partner (up : s.mainUp = true) (type : wType hdr = 5) (len : wLen hdr = 0)
    (partner : (s.weld (wJob hdr)).partner = wSrc hdr) : exec (.pairClose hdr) s = .next (s.endPair (wJob hdr) false) := by
  simp [exec, execPairClose, up, type, len, partner]

theorem exec_weldHeartbeat_quiet {job : JobId} {f : Nat} (peer : (s.weldPeer job).isSome = true)
    (silent : (s.weld job).rxThisFrame = false) (sent : (s.weld job).lastTx = some f)
    (due : f + s.cfg Od.heartbeatFrames ≤ s.frame) : exec (.weldHeartbeat job) s = .next (s.sendAck job) := by
  simp [exec, execWeldHeartbeat, peer, silent, sent, State.lapsed_iff.2 due]

end

/-- Settles O32, row by row. -/
theorem weldMessagesComplete : Obligations.WeldMessagesComplete := fun _ u _ =>
  ⟨fun _ _ h found task => exec_ledgerAck_taken h found task,
   fun _ _ h found low high task => exec_ledgerNak_taken h found low high task,
   exec_weldAck_taken,
   fun _ => exec_mirrorConfirm_taken,
   fun _ => exec_copyRequest_spans,
   fun _ x h room single noCopies => by
    have wanted : u.copyWanted _ _ _ = [x] := single
    rw [exec_copyLeaf_taken h room, wanted, List.foldl_cons, List.foldl_nil, State.holdLeaf_of_no_copies noCopies],
   fun _ => exec_rollbackRequest_taken,
   exec_pairClose_partner,
   fun _ _ => exec_weldHeartbeat_quiet⟩

/-! The record stream (R215, R216, R217) -/

/-- A record whose RECORD_OPEN alone has come. -/
def freshRecord (step : Nat) (head : BitVec 512) (entries : List (BitVec 1024)) : InRecord :=
  { step := step, head := head, entries := entries, data := [], digests := [], parts := 0, lastPart := false, complete := false,
    applied := [], written := [] }

/-- A record with one part more of its trailer, which may be the last. -/
def InRecord.addTrailer (r : InRecord) (digests : List (BitVec 320)) (last : Bool) : InRecord :=
  { r with digests := r.digests ++ digests, parts := r.parts + 1, lastPart := last }

section
variable {s u : State} {hdr : BitVec 256}

/-- A well-formed head that the partner part can hold begins its record, in place of one of its step. -/
theorem exec_recordOpen_taken {rec : BitVec 512} {entries : List (BitVec 1024)}
    (h : s.weldTakes hdr 0x10 (64 + 128 * entries.length) u) (room : recordUnits rec entries ≤ s.partnerFree)
    (wanted : u.discardsRecord (wJob hdr) (wStep hdr) = false)
    (formed : u.headMalformed (wJob hdr) hdr rec entries = false) (holdable : recordUnits rec entries ≤ u.partnerUnits) :
    exec (.recordOpen hdr rec entries true) s = .next (((u.setWeld (wJob hdr) fun w => { w with
      inRecords := w.inRecords.filter (fun x => x.step != wStep hdr) ++ [freshRecord (wStep hdr) rec entries] }).takeSpace
        { partner := recordUnits rec entries }).learnGroups (wJob hdr) entries) := by
  simp [exec, execRecordOpen, room.not_gt, State.weldIn_of_takes h, wanted, formed, holdable.not_gt, freshRecord]

section
variable {r : InRecord} (wanted : u.discardsRecord (wJob hdr) (wStep hdr) = false)
  (found : u.in? (wJob hdr) (wStep hdr) = some r) (open_ : r.complete = false)
include wanted found open_

/-- A part of an entry that is no factor packet's, and has not come before, is appended. -/
theorem exec_recordData_new {payload : Bytes} {e : BitVec 1024} (h : s.weldTakes hdr 0x11 payload.length u)
    (entry : r.entries[wAux hdr 191 176]? = some e) (plain : bitsOf e 159 152 ≠ 0x10)
    (new : ∀ d ∈ r.data, d.1 = wAux hdr 191 176 → d.2.1 ≠ wAux hdr 175 144) :
    exec (.recordData hdr payload true) s = .next (u.setIn (wJob hdr) (wStep hdr) fun r =>
      { r with data := r.data ++ [(wAux hdr 191 176, wAux hdr 175 144, payload)] }) := by
  have absent : (r.data.any fun d => d.1 == wAux hdr 191 176 && d.2.1 == wAux hdr 175 144) = false := by
    simpa using new
  simp [exec, execRecordData, State.weldIn_of_takes h, wanted, found, open_, entry, plain, absent]

/-- A part of the trailer in its turn is added; the last one completes and acknowledges the record, or loses it. -/
theorem exec_recordTrailer_turn {digests : List (BitVec 320)} (h : s.weldTakes hdr 0x12 (40 * digests.length) u)
    (turn : r.parts = wAux hdr 191 160) (more : r.lastPart = false) :
    let r' := r.addTrailer digests (bitOf hdr 159)
    let v := u.setIn (wJob hdr) (wStep hdr) fun _ => r'
    exec (.recordTrailer hdr digests true) s = .next (
      if bitOf hdr 159 = false then v
      else if r'.countsAgree = false then v.loseRecord (wJob hdr) (wStep hdr) 6
      else (v.setIn (wJob hdr) (wStep hdr) fun r => { r with complete := true }).weldSend (wJob hdr) 0x13 (wStep hdr) 0 []) := by
  simp [exec, execRecordTrailer, State.weldIn_of_takes h, wanted, found, open_, turn, more, InRecord.addTrailer]

end

end

/-- A LEDGER_SEND of the length of its record starts, opens the record and sends what can be sent. -/
theorem exec_ledgerSend_paired {s : State} {id : Nat} {t : Task} {r : OutRecord} (h : s.runs id 0x13 t)
    (paired : ((s.begun id).weld t.job).state = .paired) :
    let v := (s.begun id).withOut t.job t.step
    v.out? t.job t.step = some r → t.len = v.bodyBytes r (v.copyForm t.job) → v.keyStatus 2 = none →
    exec (.ledgerSend id) s =
      .next ((((v.start t).setOut t.job t.step fun r => { r with task := some t.id }).sendOpen t.job r).pumpRecord t.job t.step) := by
  intro v found len key
  simp [exec, execLedgerSend, State.whenReady_of_runs h, paired, found, ← len, key, v]

/-- Settles O33, row by row. -/
theorem recordStream : Obligations.RecordStream := fun _ _ _ =>
  ⟨fun _ _ => exec_recordOpen_taken,
   fun _ _ _ h wanted found open_ entry plain new => exec_recordData_new wanted found open_ h entry plain new,
   fun _ _ h wanted found open_ turn more => by
    have added := exec_recordTrailer_turn wanted found open_ h turn more
    exact ⟨fun part => added.trans (congrArg Host.Outcome.next (if_pos part)),
      fun last agree => added.trans (congrArg Host.Outcome.next
        ((if_neg (ne_false_of_eq_true last)).trans (if_neg (ne_false_of_eq_true agree))))⟩,
   fun _ _ _ => exec_ledgerSend_paired⟩

/-! Pairing (R208, R209, R210, R211, R231, R232) -/

section
variable {s : State} {id : Nat} {t : Task}

/-- A Holding of the mirror is bound, in place of what it or the partner's Holding was bound to. -/
theorem exec_weldBind_mirror {x : Holding} (h : s.runs id 0x41 t) (holding : t.f 287 272 < 4096)
    (alone : ((s.begun id).weld t.job).state ≠ .paired) (found : (s.begun id).holdingIn t.job (t.f 267 256) = some x)
    (mirror : x.kind = 1) :
    exec (.weldBind id) s = .next (((s.begun id).setWeld t.job fun w => { w with
      binds := ((s.begun id).weld t.job).binds.filter (fun b => b.1 != t.f 267 256 && b.2 != t.f 287 272) ++
        [(t.f 267 256, t.f 287 272)] }).complete t 0) := by
  have binds : t.f 287 272 ≠ 0xFFFF := by omega
  simp [exec, execWeldBind, State.whenReady_of_runs h, holding.not_ge, alone, found, mirror, binds]

theorem exec_weldPair_unpaired (h : s.runs id 0x40 t) (mode : t.f 289 288 < 2) (key : (s.begun id).keyStatus 2 = none)
    (unpaired : ((s.begun id).weld t.job).state = .unpaired) (noOffer : ((s.begun id).weld t.job).keptOffer = none) :
    exec (.weldPair id) s =
      .next (((s.begun id).start t).startOffer t.job (t.f 287 256) (t.f 289 288) (some t.id)) := by
  simp [exec, execWeldPair, State.whenReady_of_runs h, mode.not_ge, key, unpaired, noOffer]

theorem exec_weldUnpair_paired (h : s.runs id 0x42 t) (paired : ((s.begun id).weld t.job).state = .paired) :
    exec (.weldUnpair id) s = .next (((s.begun id).complete t 0).endPair t.job true) := by
  simp [exec, execWeldUnpair, State.whenReady_of_runs h, paired]

end

section
variable {s : State} {hdr : BitVec 256} (up : s.mainUp = true)
include up

section
variable {fields : BitVec 768} {auth : BitVec 256} (calm : s.alarmed = false)
include calm

section
variable (legal : pairLegal hdr 1 128 (fields ++ auth : BitVec 1024) = true)
include legal

/-- Of two engines that offer to each other, the higher answers the lower's offer. -/
theorem exec_pairOffer_crossing (offering : (s.weld (wJob hdr)).state = .offering)
    (partner : (s.weld (wJob hdr)).partner = wSrc hdr) (lower : wSrc hdr < s.engineId) :
    let body : BitVec 1024 := fields ++ auth
    let checked := s.authGood (wJob hdr) hdr body
    exec (.pairOffer hdr fields auth) s = .next (checked.2.answerOffer (wJob hdr) (wSrc hdr) body checked.1) := by
  simp [exec, execPairOffer, up, calm, legal, offering, partner, lower]

/-- An authentic offer that a WELD_PAIR waits for is kept for it. -/
theorem exec_pairOffer_awaited (unpaired : (s.weld (wJob hdr)).state = .unpaired)
    (waiting : s.pairWaiting (wJob hdr) (wSrc hdr) = true)
    (authentic : (s.authGood (wJob hdr) hdr (fields ++ auth : BitVec 1024)).1 = true) :
    let body : BitVec 1024 := fields ++ auth
    exec (.pairOffer hdr fields auth) s = .next ((s.authGood (wJob hdr) hdr body).2.setWeld (wJob hdr) fun w =>
      { w with keptOffer := some (wSrc hdr, body) }) := by
  simp [exec, execPairOffer, up, calm, legal, unpaired, waiting, authentic]

end

/-- The mode that the offering side fixes: REPLAY in class 0 at equal levels, where neither side asks for COPY (R204, R209). -/
def State.pairMode (s : State) (j : JobId) (asked cls : Nat) (body : BitVec 1024) : Nat :=
  if cls = 0 ∧ s.modeReq j asked = 0 ∧ bitsOf body 263 256 = 0 ∧ s.levelsEqual body = true then 1 else 2

/-- An acceptance that nothing refuses is confirmed, and the pair stands. -/
theorem exec_pairAccept_good {v : State} (legal : pairLegal hdr 2 128 (fields ++ auth : BitVec 1024) = true)
    (class_ : wAux hdr 191 184 ≤ 2) (offering : (s.weld (wJob hdr)).state = .offering)
    (partner : (s.weld (wJob hdr)).partner = wSrc hdr)
    (authentic : s.authGood (wJob hdr) hdr (fields ++ auth : BitVec 1024) = (true, v))
    (unrefused : v.refusal (wJob hdr) (fields ++ auth : BitVec 1024) true = none)
    (compatible : max (s.classFrom (fields ++ auth : BitVec 1024)) (wAux hdr 191 184) ≠ 2) :
    let body : BitVec 1024 := fields ++ auth
    let cls := max (s.classFrom body) (wAux hdr 191 184)
    let mode := v.pairMode (wJob hdr) (s.weld (wJob hdr)).modeReq cls body
    exec (.pairAccept hdr fields auth) s =
      .next ((v.pairSend (wJob hdr) (wSrc hdr) 3 (cls * 2 ^ 56 + mode * 2 ^ 48) []).enterPaired (wJob hdr) cls mode) := by
  simp [exec, execPairAccept, up, calm, legal, class_.not_gt, offering, partner, authentic, unrefused, compatible,
    State.pairMode, and_assoc]

end

theorem exec_pairConfirm_awaited (type : wType hdr = 3) (len : wLen hdr = 0) (class_ : wAux hdr 191 184 ≤ 1)
    (low : 1 ≤ wAux hdr 183 176) (high : wAux hdr 183 176 ≤ 2) (accepting : (s.weld (wJob hdr)).state = .accepting)
    (partner : (s.weld (wJob hdr)).partner = wSrc hdr) :
    exec (.pairConfirm hdr) s = .next (s.enterPaired (wJob hdr) (wAux hdr 191 184) (wAux hdr 183 176)) := by
  simp [exec, execPairConfirm, up, type, len, class_.not_gt, Nat.ne_of_gt low, high.not_gt, accepting, partner]

theorem exec_pairRefuse_awaited (type : wType hdr = 4) (len : wLen hdr = 0) (low : 1 ≤ wAux hdr 191 184)
    (high : wAux hdr 191 184 ≤ 5)
    (pairing : (s.weld (wJob hdr)).state = .offering ∨ (s.weld (wJob hdr)).state = .accepting)
    (partner : (s.weld (wJob hdr)).partner = wSrc hdr) :
    exec (.pairRefuse hdr) s = .next (s.pairRefused (wJob hdr) (wAux hdr 191 184) (s.weld (wJob hdr)).cls) := by
  simp [exec, execPairRefuse, up, type, len, Nat.ne_of_gt low, high.not_gt, pairing, partner]

end

section
variable {s : State} {job : JobId} {f : Nat}

/-- An offer stands again 100 frames after the last, as of the frame that the boundary opens (log entry 141). -/
theorem exec_pairOfferRepeat_due (offered : (s.weld job).lastOffer = some f) (offering : (s.weld job).state = .offering)
    (due : f + 100 ≤ s.frame + 1) :
    exec (.pairOfferRepeat job) s = .next ((s.setWeld job fun w => { w with lastOffer := some (s.frame + 1) }).sendPair job
      (s.weld job).partner 1 0 (s.modeReq job (s.weld job).modeReq)) := by
  simp [exec, execPairOfferRepeat, offered, offering, due]

theorem exec_pairTimeout_due (offered : (s.weld job).firstOffer = some f)
    (pairing : (s.weld job).state = .offering ∨ (s.weld job).state = .accepting)
    (due : f + s.cfg Od.pairTimeoutFrames ≤ s.frame) :
    exec (.pairTimeout job) s = .next (s.pairFail job 0x2001 0 0) := by
  simp [exec, execPairTimeout, offered, pairing, State.lapsed_iff.2 due]

theorem exec_autoPair_recorded {p : Fin 4} (up : s.mainUp = true) (isOpen : (s.job job).open_ = true)
    (recorded : s.battery.records[job].partner ≠ 0) (port : (s.port p).state = .up) (key : s.keyThere 2 = true)
    (alone : (s.weld job).state = .unpaired ∨ (s.weld job).state = .lost) :
    exec (.autoPair job) s = .next (s.startOffer job s.battery.records[job].partner 0 none) := by
  have anyUp : ((List.finRange 4).any fun p => (s.port p).state == .up) = true :=
    List.any_eq_true.2 ⟨p, List.mem_finRange p, by simp [port]⟩
  have partner : s.battery.records[job.val].partner ≠ 0 := recorded
  simp [exec, execAutoPair, up, isOpen, partner, anyUp, key, alone]

/-- A silence of LOST_FRAMES loses the partner, in the frame that the boundary opens (log entry 137). -/
theorem exec_partnerLost_silent (paired : (s.weld job).state = .paired) (heard : (s.weld job).lastRx = some f)
    (due : f + s.cfg Od.lostFrames ≤ s.frame) : exec (.partnerLost job) s = .next (s.losePartner job (s.frame + 1)) := by
  simp [exec, execPartnerLost, paired, heard, State.lapsed_iff.2 due]

end

/-- Settles O34, row by row. -/
theorem pairingCompletes : Obligations.PairingCompletes := fun _ _ _ _ _ =>
  ⟨fun _ => exec_weldBind_mirror,
   exec_weldPair_unpaired,
   exec_weldUnpair_paired,
   fun _ _ up calm legal =>
    ⟨fun offering partner lower => exec_pairOffer_crossing up calm legal offering partner lower,
     fun unpaired waiting authentic => exec_pairOffer_awaited up calm legal unpaired waiting authentic⟩,
   fun _ _ _ up calm legal class_ offering partner authentic unrefused compatible =>
    exec_pairAccept_good up calm legal class_ offering partner authentic unrefused compatible,
   exec_pairConfirm_awaited,
   exec_pairRefuse_awaited,
   fun _ => exec_pairOfferRepeat_due,
   fun _ => exec_pairTimeout_due,
   fun _ => exec_autoPair_recorded,
   fun _ => exec_partnerLost_silent⟩

/-! Resynchronisation, rolling back, and the mirror's own checks (R222, R229, R230, R232) -/

/-- Spans become STALE, each with the SKIP_STEP. -/
def State.staleAll (s : State) (j : JobId) (spans : List (Nat × Nat)) (skip : Nat) : State :=
  spans.foldl (fun s x => s.markStale j x.1 [x.2] skip) s

/-- A WELD_RESYNC waits for the copies of its spans, and completes when there are none. -/
def State.awaitCopies (s : State) (t : Task) (spans : List (Nat × Nat)) : State :=
  if spans = [] then s.complete t 0
  else (s.start t).setWeld t.job fun w => { w with resyncs := w.resyncs ++ [(t.id, spans)] }

/-- The spans of the inbound groups that a WELD_RESYNC of a bound Holding names. -/
def Weld.resyncSpans (w : Weld) (t : Task) (hid : Nat) : List (Nat × Nat) :=
  w.inGroups.flatMap fun g => ((List.range g.spans).filter fun i => g.hids.contains hid &&
    (t.f 319 288 ≤ i && i < t.f 319 288 + t.f 351 320)).map fun i => (g.master, i)

/-- Every span of the inbound groups. -/
def Weld.allSpans (w : Weld) : List (Nat × Nat) := w.inGroups.flatMap fun g => (List.range g.spans).map fun i => (g.master, i)

section
variable {s : State} {id : Nat} {t : Task} (paired : ((s.begun id).weld t.job).state = .paired)
  (key : (s.begun id).keyStatus 2 = none) (carrier : (s.begun id).d2dDown = false)
include paired key carrier

/-- The named spans of a bound Holding become STALE, are asked for by name, and are waited for. -/
theorem exec_weldResync_holding {x : Holding} {bind : Nat × Nat} (h : s.runs id 0x43 t) (single : t.f 256 256 = 0)
    (found : (s.begun id).holdingIn t.job (t.f 283 272) = some x)
    (bound : ((s.begun id).weld t.job).binds.find? (fun b => b.1 == t.f 283 272) = some bind) :
    let w := (s.begun id).weld t.job
    let spans := w.resyncSpans t bind.2
    exec (.weldResync id) s =
      .next ((((s.begun id).staleAll t.job spans w.applied).requestCopies t.job spans).awaitCopies t spans) := by
  simp [exec, execWeldResync, State.whenReady_of_runs h, paired, key, carrier, single, found, bound, Weld.resyncSpans, State.staleAll,
    State.awaitCopies]

/-- Every span becomes STALE, all are asked for with one request, and are waited for. -/
theorem exec_weldResync_all (h : s.runs id 0x43 t) (all : t.f 256 256 = 1) :
    let w := (s.begun id).weld t.job
    exec (.weldResync id) s = .next ((((s.begun id).staleAll t.job w.allSpans w.applied).weldSend t.job 0x21 0 (2 ^ 63)
      []).awaitCopies t w.allSpans) := by
  simp only [exec, execWeldResync, State.whenReady_of_runs h, paired, key, carrier, all, bne_self_eq_false, beq_self_eq_true,
    Bool.not_true, Bool.false_and, Bool.and_false, Bool.true_or, Bool.false_eq_true, if_false, if_true, List.filter_true, beq_iff_eq]
  -- Whether the field of a Holding names a bound one makes no difference.
  cases ((s.begun id).weld t.job).binds.find? fun b => b.1 == t.f 283 272 with
  | none => rfl
  | some _ => rfl

/-- After a bad verdict, a WELD_ROLLBACK to V asks the partner for every span written after V, and waits for them. -/
theorem exec_weldRollback_verified (h : s.runs id 0x44 t) (target : t.step = (s.job t.job).v)
    (bad : (s.job t.job).badVerdict = true) :
    let spans := (((s.begun id).weld t.job).outSpans.filter (fun x => decide ((s.job t.job).v < x.lastWrite))).map
      fun x => (x.master, x.index)
    let asked := if spans = [] then s.begun id
      else (s.begun id).weldSend t.job 0x23 t.step t.step (spans.flatMap spanRef)
    exec (.weldRollback id) s = .next (((asked.start t).setWeld t.job fun w => { w with
      rollback := some { task := t.id, target := t.step, waiting := spans, missing := 0, total := spans.length } }).settleRollback
        t.job) := by
  simp [exec, execWeldRollback, State.whenReady_of_runs h, paired, key, carrier, target, bad]

end

section
variable {s : State} {job : JobId} {step : BitVec 64} {r : InRecord} (found : s.in? job step.toNat = some r)
  (whole : r.complete = true) (verified : step.toNat ≤ (s.job job).v)
include found whole verified

/-- A record that is wholly applied, with none before it and no copy of it to be written, is compared. -/
theorem exec_mirrorDigestCompare_applied (applied : ∀ e < r.entries.length, e ∈ r.applied)
    (first : ∀ x ∈ (s.weld job).inRecords, x.complete = true → step.toNat ≤ x.step)
    (written : ∀ c ∈ (s.weld job).copies, c.writing = false ∧
      ((s.weld job).mode = .copy → c.stamp = step.toNat → s.copyFull job c = false)) :
    exec (.mirrorDigestCompare job step) s = .next (s.compareRecord job r) := by
  have done : ((List.range r.entries.length).all fun e => r.applied.contains e) = true := by simpa using applied
  have noEarlier : ((s.weld job).inRecords.any fun x => x.complete && decide (x.step < step.toNat)) = false := by
    simpa using first
  have noneWritten : ((s.weld job).copies.any fun c =>
      c.writing || ((s.weld job).mode == .copy && c.stamp == step.toNat && s.copyFull job c)) = false := by
    simpa using written
  simp only [exec, execMirrorDigestCompare, found, whole, verified, done, noEarlier, noneWritten, decide_true, Bool.and_true,
    Bool.not_false, if_true]

/-- The spans of a record in COPY form that still want a copy: no whole copy of its step is held for them, and they are not VALID. -/
def State.copiesLeft (s : State) (j : JobId) (r : InRecord) (step : Nat) : List (Nat × Nat) :=
  (s.entrySpans j r.entries).filter fun x =>
    !(s.weld j).copies.any (fun c => c.master == x.1 && c.index == x.2 && c.stamp == step && s.copyFull j c) &&
    !(s.weld j).inSpans.any (fun y => y.master == x.1 && y.index == x.2 && !y.stale)

/-- A record in COPY form that has not been applied makes its spans STALE, installs the copies held, and asks for the rest. -/
theorem exec_copyModeApply_verified (unapplied : r.applied = []) (copyForm : bitsOf r.head 175 168 = 2)
    (entries : r.entries ≠ []) :
    let u := s.staleAll job (s.entrySpans job r.entries) step.toNat
    let u := (u.setIn job step.toNat fun r => { r with applied := List.range r.entries.length }).pumpCopies job
    exec (.copyModeApply job step) s = .next (u.askCopies job (u.copiesLeft job r step.toNat)) := by
  simp [exec, execCopyModeApply, found, whole, verified.not_gt, unapplied, copyForm, entries, State.staleAll, State.copiesLeft]

end

/-- Settles O35, row by row. -/
theorem mirrorTasksComplete : Obligations.MirrorTasksComplete := fun _ _ _ _ _ =>
  ⟨fun _ _ h paired single found bound key carrier => by
    have waits := exec_weldResync_holding paired key carrier h single found bound
    exact ⟨fun empty => waits.trans (congrArg Host.Outcome.next (if_pos empty)),
      fun nonempty => waits.trans (congrArg Host.Outcome.next (if_neg nonempty))⟩,
   fun h paired all key carrier => exec_weldResync_all paired key carrier h all,
   fun h paired target bad key carrier => exec_weldRollback_verified paired key carrier h target bad,
   fun _ found whole verified applied first written =>
    exec_mirrorDigestCompare_applied found whole verified applied first written,
   fun _ found whole unapplied verified copyForm entries =>
    exec_copyModeApply_verified found whole verified unapplied copyForm entries⟩

end Sys2Proof.Machine
end


section
/-!
PROOFS for chapter 10, Accessions and restore. The tasks of Accessions; what `State.vaultIn` and `State.restoreIn` do with a message
that is taken, and one lemma for each of those messages; and the tasks of restoring and of the spare.
-/
namespace Sys2Proof.Machine

/-! The tasks of Accessions (R235, R236, R237, R251, R252) -/

section
variable {s : State} {id : Nat} {t : Task}

/-- An Accession that ACC_OPEN has just opened. -/
def Task.newAccession (t : Task) : Accession :=
  { job := t.job.val, id := t.f 319 256, shard := t.f 335 320, state := .open_, sa := 0, leaves := [], gens := [], firstStep := none,
    order := [], sealRun := none }

/-- The capture that a CAPTURE_BAND arms. -/
def Task.newTap (t : Task) : CaptureTap :=
  { task := t.id, acc := t.f 319 256, holding := t.f 331 320, first := t.f 367 336, count := t.len, step := t.step, rider := none,
    cells := [], poisonedLeaves := [] }

theorem exec_accOpen_free (h : s.runs id 0x30 t)
    (room : ((s.begun id).vault.accs.filter (fun a => a.job == t.job.val && a.live)).length < 4) (named : t.f 319 256 ≠ 0)
    (notLive : ∀ a ∈ (s.begun id).vault.accs, a.id = t.f 319 256 → a.live = false)
    (notLast : ((s.begun id).record t.job).aLastId ≠ t.f 319 256) :
    exec (.accOpen id) s = .next (((s.begun id).setVault fun v => { v with
      accs := v.accs.filter (fun x => !(x.job == t.job.val && x.id == t.f 319 256)) ++ [t.newAccession] }).complete t 0) := by
  have free : (t.f 319 256 == 0 || (s.begun id).vault.accs.any (fun a => a.id == t.f 319 256 && a.live) ||
      ((s.begun id).record t.job).aLastId == t.f 319 256) = false := by
    simpa [named, notLast] using notLive
  simp only [exec, execAccOpen, State.whenReady_of_runs h, room.not_ge, free, Bool.false_eq_true, if_false, Task.newAccession]

theorem exec_captureBand_passed (h : s.runs id 0x15 t) (passed : (s.begun id).captureFault t = none)
    (key : (s.begun id).keyStatus 2 = none) (single : (s.begun id).duplicateCapture t = false) :
    exec (.captureBand id) s = .next (((s.begun id).start t).setVault fun v => { v with taps := v.taps ++ [t.newTap] }) := by
  simp [exec, execCaptureBand, State.whenReady_of_runs h, passed, key, single, Task.newTap]

theorem exec_accSeal_open {a : Accession} (h : s.runs id 0x31 t) (found : (s.begun id).acc? t.job (t.f 319 256) = some a)
    (isOpen : a.state = .open_) (key : (s.begun id).keyStatus 2 = none) :
    exec (.accSeal id) s = .next ((((s.begun id).start t).setAcc t.job.val (t.f 319 256) fun a =>
      { a with state := .sealing, sa := t.step, sealRun := some (t.id, 0) }).settleVault) := by
  simp [exec, execAccSeal, State.whenReady_of_runs h, found, Option.filter_some, isOpen, key]

/-- A DEACCESSION of an Accession unknown here deletes from the first object when FORCE is set, or when it names neither the last complete
Accession nor a RECORDS_BELOW above A_LAST (R251). -/
theorem exec_deaccession_deletable (h : s.runs id 0x32 t) (unknown : (s.begun id).acc? t.job (t.f 319 256) = none)
    (deletable : bitOf t.record 400 = true ∨ (((s.begun id).record t.job).aLastId ≠ t.f 319 256 ∧
      t.f 399 336 ≤ ((s.begun id).job t.job).aLast))
    (key : (s.begun id).keyStatus 1 = none) :
    exec (.deaccession id) s = .next ((((s.begun id).start t).setVault fun v => { v with deacc := v.deacc ++
      [{ task := t.id, job := t.job.val, acc := t.f 319 256, shard := t.f 335 320, below := t.f 399 336, next := 0,
         failed := false }] }).deaccNext t.id) := by
  have allowed : (((s.begun id).acc? t.job (t.f 319 256)).map (·.live) == some true ||
      (!bitOf t.record 400 && ((t.f 319 256 != 0 && ((s.begun id).record t.job).aLastId == t.f 319 256) ||
        decide (((s.begun id).job t.job).aLast < t.f 399 336)))) = false := by
    obtain forced | ⟨notLast, records⟩ := deletable
    · simp [unknown, forced]
    · simp [-State.job_begun, unknown, notLast, records]
  simp only [exec, execDeaccession, State.whenReady_of_runs h, allowed, key, Bool.false_eq_true, if_false]

theorem exec_catalogueFetch_catalogue {x : Holding} (h : s.runs id 0x33 t)
    (found : (s.begun id).holdingIn t.job (t.f 347 336) = some x) (key : (s.begun id).keyStatus 2 = none) (kind : x.kind = 3)
    (carrier : (s.begun id).d2dDown = false) :
    exec (.catalogueFetch id) s = .next ((((s.begun id).start t).setVault fun v => { v with
      fetches := v.fetches ++ [{ task := t.id, acc := t.f 319 256, part := 0, parts := 1, bytes := [], writing := false }] }).askPart t
        (t.f 319 256) 0 none) := by
  simp [exec, execCatalogueFetch, State.whenReady_of_runs h, found, key, kind, carrier]

end

/-- Settles O36, row by row. -/
theorem captureAndSeal : Obligations.CaptureAndSeal := fun _ _ _ =>
  ⟨exec_accOpen_free, exec_captureBand_passed, fun _ => exec_accSeal_open, exec_deaccession_deletable,
   fun _ => exec_catalogueFetch_catalogue⟩

/-! The replies of the Vault (R243, R246, R250, R251, R252, R258, R480) -/

/-- A reply that `State.vaultTakes` admits, with its tag good, answers its request, which is outstanding no more (R243). -/
theorem State.vaultIn_of_takes {s : State} {hdr name : BitVec 256} {type asked size : Nat} {r : VaultReq}
    (h : s.vaultTakes hdr type asked size name r) (f : VaultReq → State → State) :
    s.vaultIn hdr type asked size name true f = f r (s.dropVaultReq r.id) := by
  obtain ⟨calm, found, type, asked, size, name, dst, src⟩ := h
  simp [State.vaultIn, calm, found, type, asked, size, name, dst, src]

section
variable {s : State} {hdr name : BitVec 256} {r : VaultReq}

theorem exec_putAck_object {e : Nat} (h : s.vaultTakes hdr 0x61 0x60 32 name r) (owner : r.owner = .object e) :
    exec (.putAck hdr name true) s = .next ((s.dropVaultReq r.id).objectAcked e r.target).settleVault := by
  simp only [exec, execPutAck, State.vaultIn_of_takes h, owner]

theorem exec_putAck_genPut {task gen : Nat} (h : s.vaultTakes hdr 0x61 0x60 32 name r) (owner : r.owner = .genPut task gen) :
    exec (.putAck hdr name true) s = .next ((s.dropVaultReq r.id).setVault fun v =>
      { v with genAcked := addOnce v.genAcked (nameLineage r.name, gen) }).settleVault := by
  simp only [exec, execPutAck, State.vaultIn_of_takes h, owner]

theorem exec_putNak_taken (h : s.vaultTakes hdr 0x62 0x60 32 name r) (low : 1 ≤ bitsOf hdr 191 184) (high : bitsOf hdr 191 184 ≤ 3) :
    exec (.putNak hdr name true) s = .next (if bitsOf hdr 191 184 = 2 then (s.dropVaultReq r.id).vaultRetry r
      else (s.dropVaultReq r.id).vaultMoveOn r).settleVault := by
  simp [exec, execPutNak, State.vaultIn_of_takes h, Nat.ne_of_gt low, high.not_gt]

theorem exec_getNak_taken (h : s.vaultTakes hdr 0x65 0x63 32 name r) (low : 1 ≤ bitsOf hdr 191 184) (high : bitsOf hdr 191 184 ≤ 3) :
    exec (.getNak hdr name true) s = .next (if bitsOf hdr 191 184 = 1 then (s.dropVaultReq r.id).ownerFailed r.owner
      else if bitsOf hdr 191 184 = 2 then (s.dropVaultReq r.id).vaultRetry r
      else (s.dropVaultReq r.id).vaultMoveOn r).settleVault := by
  simp [exec, execGetNak, State.vaultIn_of_takes h, Nat.ne_of_gt low, high.not_gt]

/-- An object with good tags and header, for which there is room, goes to the owner of its request. -/
theorem exec_getData_good {stored : BitVec 512} {plain : Bytes} :
    let got := BitVec.ofNat 256 (bitsOf stored 511 256)
    s.vaultTakes hdr 0x64 0x63 (64 + plain.length + 16) (replyName r.name got) r → s.objectRoom r plain.length = true →
    storedOk stored got plain.length = true →
    exec (.getData hdr stored plain true true) s = .next ((s.dropVaultReq r.id).objectGot r plain).settleVault := by
  intro got h room header
  have ⟨_, found, _⟩ := h
  simp [exec, execGetData, found, room, State.vaultIn_of_takes h, header, got]

theorem exec_deleteAck_task {task : Nat} (h : s.vaultTakes hdr 0x67 0x66 32 name r) (owner : r.owner = .delete (some task)) :
    exec (.deleteAck hdr name true) s = .next ((s.dropVaultReq r.id).deaccStep task false).settleVault := by
  simp only [exec, execDeleteAck, State.vaultIn_of_takes h, owner]

theorem exec_commitAck_sealing {task : Nat} {a : Accession} (h : s.vaultTakes hdr 0x69 0x68 32 name r) (owner : r.owner = .commit task)
    (sealing : (s.dropVaultReq r.id).vault.accs.find? (fun a => a.sealRun == some (task, 3)) = some a) :
    exec (.commitAck hdr name true) s = .next ((s.dropVaultReq r.id).sealDone a task r.target).settleVault := by
  simp only [exec, execCommitAck, State.vaultIn_of_takes h, owner, sealing]

theorem exec_vaultReplyTimeout_due {q : BitVec 64} (found : s.vault.reqs.find? (fun r => r.id == q.toNat) = some r)
    (due : r.frame + s.cfg Od.vaultReplyFrames ≤ s.frame) :
    exec (.vaultReplyTimeout q) s = .next (s.vaultRetry r).settleVault := by
  simp [exec, execVaultReplyTimeout, found, State.lapsed_iff.2 due]

end

/-- Settles O37, reply by reply. -/
theorem vaultReplies : Obligations.VaultReplies := fun _ _ _ _ =>
  ⟨fun h => ⟨fun _ => exec_putAck_object h, fun _ _ => exec_putAck_genPut h⟩,
   fun h => ⟨fun busy => by rw [exec_putNak_taken h (by omega) (by omega), if_pos busy],
    fun refused => by rw [exec_putNak_taken h (by omega) (by omega), if_neg (by omega)]⟩,
   fun h => ⟨fun absent => by rw [exec_getNak_taken h (by omega) (by omega), if_pos absent],
    fun busy => by rw [exec_getNak_taken h (by omega) (by omega), if_neg (by omega), if_pos busy],
    fun rejected => by rw [exec_getNak_taken h (by omega) (by omega), if_neg (by omega), if_neg (by omega)]⟩,
   fun _ _ => exec_getData_good,
   fun _ => exec_deleteAck_task,
   fun _ _ => exec_commitAck_sealing,
   fun _ => exec_vaultReplyTimeout_due⟩

/-! The restore tasks and the spare's tasks (R253, R256, R257, R259, R264, R265) -/

section
variable {s : State} {id : Nat} {t : Task}

/-- The restore that a RESTORE_MIRROR begins: every Leaf of its range is outstanding. -/
def Task.mirrorRun (t : Task) (h : Holding) (frame : Nat) : RestoreRun :=
  { task := t.id, mirror := true, server := t.f 287 256, fill := t.step,
    wants := (List.range t.len).map (fun k => { holding := h.id, leaf := t.f 351 320 + k, status := 0, again := false }),
    lastRx := frame, asks := 1 }

theorem exec_restoreMirror_held {x : Holding} (h : s.runs id 0x21 t) (primary : badHidField (t.f 303 288) = false)
    (found : (s.begun id).holdingIn t.job (t.f 315 304) = some x) (range : t.f 351 320 + t.len ≤ x.leaves)
    (key : (s.begun id).keyStatus 2 = none) (carrier : (s.begun id).d2dDown = false) :
    let v := ((s.begun id).start t).setVault fun v => { v with
      restores := v.restores ++ [t.mirrorRun x (s.begun id).frame],
      spareFill := if x.kind = 1 then max v.spareFill t.step else v.spareFill }
    exec (.restoreMirror id) s = .next ((v.askRestore t.job (t.f 287 256) t.step (bitOf t.record 8)
      [(t.f 303 288, t.f 351 320, t.len)]).settleMirror t.id) := by
  simp [exec, execRestoreMirror, State.whenReady_of_runs h, primary, found, range.not_gt, key, carrier, Task.mirrorRun]

theorem exec_restoreVault_own {x : Holding} (h : s.runs id 0x20 t)
    (targets : ∀ r ∈ [0, 1, 2, 3, 5, 6, 7], badHidField (t.target r) = false) (passed : (s.begun id).vaultFault t = none)
    (key : (s.begun id).keyStatus 2 = none) (found : (s.begun id).holdingIn t.job (t.f 363 352) = some x)
    (carrier : (s.begun id).d2dDown = false)
    (own : ∀ role ∈ t.targetRoles, ((s.begun id).targetHolding t role).map (·.kind) ≠ some 1) :
    exec (.restoreVault id) s = .next ((((s.begun id).start t).setVault fun v => { v with
      restores := v.restores ++ [{ task := t.id, mirror := false, fill := t.step, lastRx := (s.begun id).frame }] }).startRead
        (.taskRead t.id) t.id x 0 x.bytes) := by
  have formed : ([0, 1, 2, 3, 5, 6, 7].any fun r => badHidField (t.target r)) = false := by
    simpa using targets
  have noMirror : (t.targetRoles.any fun role => ((s.begun id).targetHolding t role).map (·.kind) == some 1) = false := by
    simpa [-Option.map_eq_some_iff] using own
  simp only [exec, execRestoreVault, State.whenReady_of_runs h, formed, passed, key, found, carrier, noMirror, Bool.false_eq_true,
    if_false]

theorem exec_spareShadow_allowed (h : s.runs id 0x22 t) (allowed : t.f 287 256 = 0 ∨ (s.begun id).ownClass ≠ 1) :
    let v := (s.begun id).setVault fun v => { v with
      spare := .shadowing, spareJob := t.job.val, spareSource := t.f 287 256, spareClean := 0,
      spareSteps := if t.f 287 256 = 0 then 0 else t.f 303 288 }
    exec (.spareShadow id) s = .next (((v.spareSpans t.job).setWeld t.job fun w => { w with rxSeq := 1 }).settleSpare.complete t
      0) := by
  have unrestricted : (t.f 287 256 != 0 && (s.begun id).ownClass == 1) = false := by
    simpa [← imp_iff_not_or, or_iff_not_imp_left] using allowed
  simp only [exec, execSpareShadow, State.whenReady_of_runs h, unrestricted, Bool.false_eq_true, if_false, beq_iff_eq]

/-- A READY spare makes the Holdings bound to its source its own, and takes the step it has applied as C and V. -/
theorem exec_sparePromote_ready (h : s.runs id 0x23 t) (ready : (s.begun id).vault.spare = .ready)
    (job : (s.begun id).vault.spareJob = t.job.val) :
    let bound := ((s.begun id).weld t.job).binds.map (·.1)
    let step := ((s.begun id).weld t.job).applied
    let v := ((s.begun id).setCarrier fun c => { c with
      holdings := mapIf c.holdings (fun h => h.job == t.job && bound.contains h.id)
        (fun h => { h with desc := ownDesc h.desc }) }).setWeld t.job fun w =>
        { w with binds := [], inSpans := [], inGroups := [] }
    let v := (v.setJob t.job fun x => { x with c := step, v := step }).writeRecord t.job (fun r => { r with v := step })
    exec (.sparePromote id) s = .next ((v.setVault fun v => { v with
      spare := .promoted, filled := v.filled.filter (fun x => x.1 != t.job.val) }).complete t 0 0 0 step) := by
  simp only [exec, execSparePromote, State.whenReady_of_runs h, ready, job, bne_self_eq_false, Bool.or_self, Bool.false_eq_true, if_false]

theorem exec_shadowSource_runs (h : s.runs id 0x24 t) :
    exec (.shadowSource id) s =
      .next (((s.begun id).setWeld t.job fun w => { w with shadowTo := t.f 287 256, shadowSeq := 1 }).complete t 0) :=
  congrArg Host.Outcome.next (State.whenReady_of_runs h _)

section
variable {r : RestoreRun} (found : s.restore? id = some r) (task : s.task? id = some t) (vault : r.mirror = false) (rolls : r.phase = 4)
  (written : s.restoreWriting id = false) (valid : s.targetBlocked t = none)
include found task vault rolls written valid

/-- After its last item a roll-forward ends. -/
theorem exec_rollForward_last (last : (r.items t)[r.item]? = none) : exec (.rollForward id) s = .next (s.rollEnd t r) := by
  simp [exec, execRollForward, found, task, vault, rolls, written, valid, last]

/-- One slice of the item under way runs in a frame that has its units left and has seen none yet. -/
theorem exec_rollForward_slice {x : RollItem} {u : State} (item : (r.items t)[r.item]? = some x) (first : r.rolledAt ≠ some s.frame) :
    let n := s.rollSize t r x (s.unitsFor (.restore id) (s.restoreRank id))
    n ≠ 0 → s.takeUnits (.restore id) (s.restoreRank id) (s.rollUnits t r x n) = some u →
    exec (.rollForward id) s = .next (u.rollSlice t r x n) := by
  intro n nonempty units
  simp [exec, execRollForward, found, task, vault, rolls, written, valid, item, first, nonempty, units, n]

end

end

/-- Settles O38, row by row. -/
theorem restoreTasks : Obligations.RestoreTasks := fun _ _ _ =>
  ⟨fun _ => exec_restoreMirror_held, fun _ => exec_restoreVault_own, exec_spareShadow_allowed, exec_sparePromote_ready,
   exec_shadowSource_runs,
   fun _ found task vault rolls written valid =>
    ⟨exec_rollForward_last found task vault rolls written valid,
     fun _ _ => exec_rollForward_slice found task vault rolls written valid⟩⟩

/-! The restore messages (R253, R254, R255, R256) -/

/-- A restore message that `State.restoreTakes` admits passes every check, and has its own meaning (R255). -/
theorem State.restoreIn_of_takes {s : State} {hdr : BitVec 256} {type size : Nat} (h : s.restoreTakes hdr type size)
    (f : JobId → State → State) : s.restoreIn hdr type size 1050656 true f = f (wJob hdr) s := by
  obtain ⟨calm, type, len, bounded, isOpen⟩ := h
  simp [State.restoreIn, calm, type, len, bounded.not_gt, isOpen]

section
variable {s : State} {hdr : BitVec 256}

/-- A request is served Leaf by Leaf, in the order in which it names them. -/
theorem exec_restoreReq_taken {requests : List (BitVec 128)} (h : s.restoreTakes hdr 0x50 (16 * requests.length)) :
    exec (.restoreReq hdr requests true) s = .next (s.setVault fun v => { v with
      serves := v.serves ++ [
        { id := s.vault.nextObj, job := (wJob hdr).val, toEngine := wSrc hdr, fill := wStep hdr, urgent := bitOf hdr 191,
          curGen := wAux hdr 175 160, prevGen := wAux hdr 159 144,
          leaves := requests.flatMap (fun r =>
            (List.range (bitsOf r 63 32)).map (fun k => (bitsOf r 127 112, bitsOf r 95 64 + k))),
          sent := 0, missing := 0, rollback := false }],
      nextObj := v.nextObj + 1 }) :=
  congrArg Host.Outcome.next (State.restoreIn_of_takes h _)

theorem exec_restoreLeaf_wanted {digest : BitVec 256} {coded : Bytes} {o : QOwner} (h : s.restoreTakes hdr 0x51 (32 + coded.length))
    (owner : s.leafOwner (wJob hdr) (wSrc hdr) (wStep hdr) (wAux hdr 191 176) (wAux hdr 175 144) = some o)
    (room : unitsOf (coded.length + 16) ≤ s.quarantineFree) :
    exec (.restoreLeaf hdr digest coded true) s =
      .next (((s.heardServer (wSrc hdr)).countArrived o).quarantineLeaf o coded digest.toNat) := by
  simp [exec, execRestoreLeaf, owner, room.not_gt, State.restoreIn_of_takes h]

theorem exec_restoreMissing_mirror {task i : Nat} (h : s.restoreTakes hdr 0x52 0) (low : 1 ≤ wAux hdr 143 136)
    (high : wAux hdr 143 136 ≤ 5)
    (owner : (s.heardServer (wSrc hdr)).leafOwner (wJob hdr) (wSrc hdr) (wStep hdr) (wAux hdr 191 176) (wAux hdr 175 144) =
      some (.mirror task i)) :
    exec (.restoreMissing hdr true) s =
      .next (((s.heardServer (wSrc hdr)).mirrorMissing task i (wAux hdr 143 136)).settleMirror task) := by
  simp [exec, execRestoreMissing, Nat.ne_of_gt low, high.not_gt, State.restoreIn_of_takes h, owner]

/-- While another request of the restore is open, a RESTORE_DONE only adds to what has been counted as sent. -/
theorem exec_restoreDone_more {sent missing : BitVec 32} {r : RestoreRun} (h : s.restoreTakes hdr 0x53 8) :
    let u := s.heardServer (wSrc hdr)
    u.vault.restores.find? (fun r => r.mirror && r.server == wSrc hdr && r.fill == wStep hdr && 0 < r.asks &&
      (u.task? r.task).map (·.job) == some (wJob hdr)) = some r → r.asks ≠ 1 →
    exec (.restoreDone hdr sent missing true) s = .next (u.setRestore r.task (fun y =>
      { y with asks := y.asks - 1, told := r.told + sent.toNat })) := by
  intro u found more
  have notLast : (r.asks != 1) = true := by simpa using more
  simp only [exec, execRestoreDone, State.restoreIn_of_takes h, found, notLast, Bool.true_or, if_true, u]

theorem exec_restoreReplyTimeout_due {task : Nat} {r : RestoreRun} (found : s.restore? task = some r) (mirror : r.mirror = true)
    (due : r.lastRx + s.cfg Od.restoreReplyFrames ≤ s.frame) (wants : r.wants.any (fun w => w.status == 0) = true) :
    exec (.restoreReplyTimeout task) s = .next ((s.setRestore task (fun r => { r with
      serverLost := true, wants := mapIf r.wants (fun w => w.status == 0) (fun w => { w with status := 3 }) })).settleMirror task) := by
  simp only [exec, execRestoreReplyTimeout, found, mirror, State.lapsed_iff.2 due, wants, Bool.not_true, Bool.or_self,
    Bool.false_eq_true, if_false]

end

/-! Serving a Leaf (R254) -/

section
variable {s : State} {id hid k : Nat} {r : ServeReq} {rest : List (Nat × Nat)}
  (found : s.vault.serves.find? (fun r => r.id == id) = some r) (leaves : r.leaves = (hid, k) :: rest) (uncoded : r.coding = false)
include found leaves uncoded

/-- A Leaf of a Holding that is not bound here cannot be served. -/
theorem exec_restoreServe_unbound (unbound : s.boundTo (jobOf r.job) hid = none)
    (reason : s.serveReason (jobOf r.job) r.fill hid k ≠ 0) :
    exec (.restoreServe id) s = .next (s.serveMissing r (s.serveReason (jobOf r.job) r.fill hid k)) := by
  simp [exec, execRestoreServe, found, leaves, uncoded, unbound, reason]

/-- A Leaf that has been read clean, and that no MIRROR_APPLY has moved meanwhile, goes to the encoder; while no generation
is current every block of it is escaped, with GEN_ID 0 (R254). -/
theorem exec_restoreServe_read {l bid : Nat} {h : Holding} {b : StreamBuf} (bound : s.boundTo (jobOf r.job) hid = some l)
    (holding : s.holdingIn (jobOf r.job) l = some h) (applied : r.fill ≤ (s.weld (jobOf r.job)).applied)
    (servable : s.serveReason (jobOf r.job) r.fill hid k = 0) (step : s.leafStep (jobOf r.job) h k = some r.stamp)
    (buf : r.buf = some bid) (streamed : s.taskBuf bid = some b) (whole : b.waiting = 0) (clean : b.poison = [])
    (noGen : s.madder.current = none) :
    exec (.restoreServe id) s = .next ((((s.freeBufs b.task).setVault fun v => { v with nextObj := v.nextObj + 1 }).setMadder fun m =>
      { m with enc := m.enc ++ [
          { id := (s.freeBufs b.task).vault.nextObj, owner := .serve r.id, format := h.format, raw := s.bufBytes b, gen := some 0,
            done := 0, coded := [] }] }).setServe r.id (fun r => { r with coding := true })) := by
  have noGenLeft : (s.freeBufs b.task).madder.current = none := noGen
  simp [exec, execRestoreServe, found, leaves, uncoded, bound, holding, applied.not_gt, servable, step, buf, streamed, whole, clean,
    noGenLeft]

end

/-- Settles O39, message by message. -/
theorem restoreMessages : Obligations.RestoreMessages := fun _ _ =>
  ⟨fun _ => exec_restoreReq_taken,
   fun _ _ _ => exec_restoreLeaf_wanted,
   fun _ _ => exec_restoreMissing_mirror,
   fun _ _ _ => exec_restoreDone_more,
   fun _ _ => exec_restoreReplyTimeout_due,
   fun _ _ _ _ found leaves uncoded =>
    ⟨exec_restoreServe_unbound found leaves uncoded,
     fun _ _ _ _ => exec_restoreServe_read found leaves uncoded⟩⟩

end Sys2Proof.Machine
end


section
/-!
PROOFS for chapter 11, verdicts and collectives. The tasks of groups, of verdicts and of the other collectives; the messages of an open
collective; and its switch wait, its deadline and its commit.
-/
namespace Sys2Proof.Machine

/-! The tasks of groups (R273, R292, R294) -/

section
variable {s : State} {id : Nat} {t : Task}

section
variable (low : 1 ≤ t.f 291 288) (high : t.f 291 288 ≤ 4)
  (held : ((s.begun id).holdingIn t.job (t.f 351 340)).isSome = true) (formed : (s.begun id).groupBad t = false)
include low high held formed

theorem exec_groupJoin_new (h : s.runs id 0x50 t) (unjoined : (s.begun id).group? (t.f 271 256) = none)
    (room : (s.begun id).colls.groups.length < 8) :
    exec (.groupJoin id) s = .next ((s.begun id).readTable t) := by
  obtain ⟨_, table⟩ := Option.isSome_iff_exists.1 held
  simp [exec, execGroupJoin, State.whenReady_of_runs h, Nat.ne_of_gt low, high.not_gt, table, formed, unjoined, room.not_ge]

/-- A GROUP_REFORM to a later EPOCH that leaves the open collectives to commit marks the group, and reads its new table (R292). -/
theorem exec_groupReform_later {g : Group} (h : s.runs id 0x51 t) (joined : (s.begun id).groupIn t.job (t.f 271 256) = some g)
    (later : g.epoch < t.f 287 272) (noAbort : t.f 384 384 = 0) :
    exec (.groupReform id) s =
      .next (((s.begun id).setGroup (t.f 271 256) fun g => { g with reforming := true }).readTable t) := by
  obtain ⟨_, table⟩ := Option.isSome_iff_exists.1 held
  simp [exec, execGroupReform, State.whenReady_of_runs h, Nat.ne_of_gt low, high.not_gt, table, formed, joined, later.not_ge,
    noAbort]

end

/-- A GROUP_LEAVE aborts the group's open collectives with reason REFORM; the group goes at once when none of them is left to
commit (R294). -/
theorem exec_groupLeave_joined {g : Group} (h : s.runs id 0x52 t) (joined : (s.begun id).groupIn t.job (t.f 271 256) = some g) :
    let gid := t.f 271 256
    let u := ((s.begun id).setGroup gid fun g => { g with reforming := true }).abortColls (fun c => c.group == gid) 5 (s.begun id).frame
    let left := u.colls.groups.filter fun g => g.id != gid
    exec (.groupLeave id) s = .next (
      if u.groupFree gid then
        ((u.setColls fun c => { c with groups := c.groups.filter fun g => g.id != gid }).odSet Od.groupCount left.length).complete t 0
      else u.start t) := by
  simp only [exec, execGroupLeave, State.whenReady_of_runs h, joined, State.colls_setColls]

/-! The tasks of verdicts and of the other collectives (R270, R275, R277, R293, R294) -/

theorem exec_verdict_posted {g : Group} (h : s.runs id 0x14 t) (joined : (s.begun id).groupIn t.job (t.f 271 256) = some g)
    (present : g.absent = 0) (key : (s.begun id).keyStatus 2 = none) (settled : g.reforming = false) :
    exec (.verdict id) s =
      .next (((s.begun id).start t).postColl t g (Coll.blank 0 3 3 t.step 16 false g.root)) := by
  simp [exec, execVerdict, State.whenReady_of_runs h, joined, present, key, settled]

theorem exec_reduce_runs (h : s.runs id 0x53 t) : exec (.reduce id) s = .next ((s.begun id).startColl t 1) :=
  congrArg Host.Outcome.next (State.whenReady_of_runs h _)

theorem exec_broadcast_runs (h : s.runs id 0x54 t) : exec (.broadcast id) s = .next ((s.begun id).startColl t 2) :=
  congrArg Host.Outcome.next (State.whenReady_of_runs h _)

theorem exec_allreduce_runs (h : s.runs id 0x55 t) : exec (.allreduce id) s = .next ((s.begun id).startColl t 3) :=
  congrArg Host.Outcome.next (State.whenReady_of_runs h _)

/-- A VERDICT that has begun contributes once the step's earlier tasks are done and its record is acknowledged (R21, R270). -/
theorem exec_fingerprintContribute_ready (found : s.task? id = some t) (type : t.type = 0x14) (begun : t.phase ≠ .waiting)
    (done : s.verdictWaits t = false) (acked : s.mayContribute t.job t.step = true) :
    exec (.fingerprintContribute id) s = .next (s.contribute id ((s.fingerprint t false).map fun v => (v, v))) := by
  simp [exec, execFingerprintContribute, found, type, begun, done, acked]

end

/-- Settles O40, row by row. -/
theorem groupTasksComplete : Obligations.GroupTasksComplete := fun _ _ _ =>
  ⟨fun h low high held formed unjoined room => exec_groupJoin_new low high held formed h unjoined room,
   fun _ h low high held joined formed later noAbort => exec_groupReform_later low high held formed h joined later noAbort,
   fun _ h joined => by
    have leaves := exec_groupLeave_joined h joined
    exact ⟨fun free => leaves.trans (congrArg Host.Outcome.next (if_pos free)),
      fun busy => leaves.trans (congrArg Host.Outcome.next (if_neg (by simp [busy])))⟩,
   fun _ => exec_verdict_posted,
   exec_reduce_runs, exec_broadcast_runs, exec_allreduce_runs,
   exec_fingerprintContribute_ready⟩

/-! The messages of an open collective (R280, R286, R288, R290, R291)

Each message of a row of its own is `State.collRow`, and `State.collRow_takes` says what that makes of a message that its checks admit. -/

section
variable {s : State} {hdr : BitVec 512} {payload : Bytes} {g : Group} {c : Coll}

theorem exec_collData_taken (obs : ResidueObs) (h : s.collTakes hdr payload 1 g c) :
    exec (.collData hdr payload true obs) s = .next (s.collTake c g hdr payload obs) :=
  congrArg Host.Outcome.next (State.collRow_takes h (by decide) (by decide))

theorem exec_collAbort_taken (h : s.collTakes hdr [] 2 g c) :
    exec (.collAbort hdr true) s = .next (s.collTake c g hdr [] .clean) :=
  congrArg Host.Outcome.next (State.collRow_takes h (by decide) (by decide))

theorem exec_collGrace_taken (h : s.collTakes hdr [] 3 g c) :
    exec (.collGrace hdr true) s = .next (s.collTake c g hdr [] .clean) :=
  congrArg Host.Outcome.next (State.collRow_takes h (by decide) (by decide))

theorem exec_swResult_taken (h : s.collTakes hdr payload 6 g c) :
    exec (.swResult hdr payload true) s = .next (s.collTake c g hdr payload .clean) :=
  congrArg Host.Outcome.next (State.collRow_takes h (by decide) (by decide))

theorem exec_swRefuse_taken (h : s.collTakes hdr [] 7 g c) :
    exec (.swRefuse hdr true) s = .next (s.collTake c g hdr [] .clean) :=
  congrArg Host.Outcome.next (State.collRow_takes h (by decide) (by decide))

theorem exec_collResult_taken (h : s.collTakes hdr payload 8 g c) :
    exec (.collResult hdr payload true) s = .next (s.collTake c g hdr payload .clean) :=
  congrArg Host.Outcome.next (State.collRow_takes h (by decide) (by decide))

/-- The parts of a well-formed FUSED are handled in turn, as if each had arrived alone (R291). -/
theorem exec_fused_taken {parts : List FusedPart} (calm : s.alarmed = false) (type : cType hdr = 4) (few : parts.length ≤ 16)
    (oneGroup : ∀ p ∈ parts, cGroup p.hdr = cGroup hdr) :
    exec (.fused hdr parts true true) s = .next (parts.foldl (fun s p => s.collMsg p.hdr p.payload .clean) s) := by
  have noForeign : (parts.any fun p => cGroup p.hdr != cGroup hdr) = false := by
    simpa using oneGroup
  simp [exec, execFused, calm, type, few.not_gt, noForeign]

end

/-! The switch wait, the deadline and the commit of an open collective (R272, R286, R287, R290)

Deadline and commit rule are judged for the frame that the boundary opens, `s.frame + 1` (log entry 137). -/

/-- A part has waited SWITCH_WAIT_FRAMES whole frames for its switch (R290). -/
def State.switchLapsed (s : State) (p : CollPart) : Bool :=
  match p.switch with
  | some f => s.lapsed f (s.cfg Od.switchWaitFrames)
  | none => false

section
variable {s : State} {group : BitVec 16} {seq : BitVec 32} {c : Coll} (found : s.coll? group.toNat seq.toNat = some c)
include found

theorem exec_switchWait_lapsed (late : c.parts.filter s.switchLapsed ≠ []) :
    exec (.switchWait group seq) s =
      .next (((c.parts.filter s.switchLapsed).foldl (fun s p => s.fallBack c p) s).settleColl c.group c.seq) := by
  have nonempty : ¬ (c.parts.filter s.switchLapsed).isEmpty = true := mt List.isEmpty_iff.1 late
  simp only [exec, execSwitchWait, found]
  exact congrArg Host.Outcome.next (if_neg nonempty)

theorem exec_collDeadline_passed (passed : c.deadline < s.frame + 1) (unwritten : c.writing = false) (uncommitted : c.committed = false) :
    exec (.collDeadline group seq) s = .next (s.abortCollAt c 1 (s.frame + 1)) := by
  simp [exec, execCollDeadline, found, passed.not_ge, unwritten, uncommitted]

theorem exec_collCommit_result {r : HeldResult} (uncommitted : c.committed = false)
    (outcome : c.outcome (s.frame + 1) = some (.inl r)) :
    exec (.collCommit group seq) s = .next (s.commitResult c r).pumpGroups := by
  simp [exec, execCollCommit, found, uncommitted, outcome]

theorem exec_collCommit_abort {a : HeldAbort} (uncommitted : c.committed = false)
    (outcome : c.outcome (s.frame + 1) = some (.inr a)) :
    exec (.collCommit group seq) s = .next (s.commitAbort c a).pumpGroups := by
  simp [exec, execCollCommit, found, uncommitted, outcome]

end

theorem exec_heldVerdictApply_held {s : State} {job : JobId}
    (held : s.colls.held.any (fun h => h.job == job && h.step == (s.job job).v + 1) = true) :
    exec (.heldVerdictApply job) s = .next (s.applyGood job ((s.job job).v + 1)) :=
  congrArg Host.Outcome.next (if_pos held)

/-- Settles O41, message by message. -/
theorem collMessagesComplete : Obligations.CollMessagesComplete := fun _ _ _ _ _ =>
  ⟨exec_collData_taken, exec_collAbort_taken, exec_collGrace_taken, exec_swResult_taken, exec_swRefuse_taken, exec_collResult_taken,
   fun _ => exec_fused_taken,
   fun _ _ found =>
    ⟨exec_switchWait_lapsed found, exec_collDeadline_passed found, fun _ => exec_collCommit_result found,
     fun _ => exec_collCommit_abort found⟩,
   fun _ => exec_heldVerdictApply_held⟩

end Sys2Proof.Machine
end

section
/-!
PROOFS for chapter 16, the event history (R422, R423). What an event leaves in the history, of which neither the
doorbells nor the field port take anything; and that what a loss of the main rail empties is no part of the
dictionary's events.
-/
namespace Sys2Proof.Machine

/-- What every step of a fold leaves unchanged, the fold leaves unchanged. -/
theorem foldl_keeps {σ α β : Type} (part : σ → β) {f : σ → α → σ} (keeps : ∀ s a, part (f s a) = part s) (l : List α) (s : σ) :
    part (l.foldl f s) = part s := by
  induction l generalizing s with
  | nil => rfl
  | cons a l ih => exact (ih (f s a)).trans (keeps s a)

/-! An event -/

@[simp] theorem State.dict_raise (s : State) (b : W1c) : (s.raise b).dict = s.dict := rfl

@[simp] theorem State.dict_ringE2h (s : State) (ch : Nat) (bits : BitVec 32) : (s.ringE2h ch bits).dict = s.dict := by
  have raised (l : List Nat) (u : State) : (l.foldl (fun s n => s.raise (.e2hBell ch n)) u).dict = u.dict :=
    foldl_keeps State.dict (fun s n => s.dict_raise (.e2hBell ch n)) l u
  unfold State.ringE2h
  split
  · dsimp only
    split
    · exact raised _ _
    · exact raised _ _
  · rfl

/-- The events that have been: the history and the number of the last. -/
def State.events (s : State) : Nat × List Event := (s.dict.eventSeq, s.dict.history)

theorem State.events_startEvent (s : State) : s.startEvent.events = s.events := by
  unfold State.startEvent
  split <;> rfl

theorem State.events_eventToField (s : State) (e : Event) : (s.eventToField e).events = s.events := by
  unfold State.eventToField
  split_ifs
  · rfl
  · rfl
  · exact State.events_startEvent _
  · exact State.events_startEvent _

/-- An event takes the next SEQ and stands at the head of the history (R422). -/
theorem State.events_eventAt (s : State) (index sub detail detail2 : Nat) :
    (s.eventAt index sub detail detail2).events = ((s.dict.eventSeq + 1) % 2 ^ 32,
      (({ seq := (s.dict.eventSeq + 1) % 2 ^ 32, frame := s.frame, detail := detail % 2 ^ 32, detail2 := detail2 % 2 ^ 32,
          index := index, sub := sub } : Event) :: s.dict.history).take 64) := by
  rw [State.eventAt, State.events_eventToField]
  split_ifs <;> simp [State.events]

/-- The time unit, the stage and the sync memory: reporting touches none of them. -/
def State.unreported (s : State) : TimeUnit × Stage × SyncMem := (s.time, s.curator.stage, s.sync)

theorem State.unreported_ringE2h (s : State) (ch : Nat) (bits : BitVec 32) : (s.ringE2h ch bits).unreported = s.unreported := by
  have raised (l : List Nat) (u : State) : (l.foldl (fun s n => s.raise (.e2hBell ch n)) u).unreported = u.unreported :=
    foldl_keeps State.unreported (f := fun s n => s.raise (.e2hBell ch n)) (fun _ _ => rfl) l u
  unfold State.ringE2h
  split
  · dsimp only
    split
    · exact raised _ _
    · exact raised _ _
  · rfl

theorem State.unreported_startEvent (s : State) : s.startEvent.unreported = s.unreported := by
  unfold State.startEvent
  split <;> rfl

theorem State.unreported_eventToField (s : State) (e : Event) : (s.eventToField e).unreported = s.unreported := by
  unfold State.eventToField
  split_ifs
  · rfl
  · rfl
  · exact State.unreported_startEvent _
  · exact State.unreported_startEvent _

theorem State.unreported_event (s : State) (r : OdRef) (detail detail2 : Nat) :
    (s.event r detail detail2).unreported = s.unreported := by
  rw [State.event, State.eventAt, State.unreported_eventToField]
  split_ifs
  · exact (State.unreported_ringE2h _ _ _).trans (State.unreported_ringE2h _ _ _)
  · exact State.unreported_ringE2h _ _ _
  · rfl

theorem State.sync_event (s : State) (r : OdRef) (detail detail2 : Nat) : (s.event r detail detail2).sync = s.sync :=
  congrArg (·.2.2) (s.unreported_event r detail detail2)

/-! The losses of power -/

/-- A part of the state that no score and no pin is in: the reload of the scores leaves it (R442). -/
theorem State.reloadScores_keeps {β : Type} (part : State → β) (service : ∀ s f, part (State.setService s f) = part s) (s : State) :
    part s.reloadScores = part s := by
  have pins (s : State) (cls : Nat) : part (s.startPins cls) = part s := by
    unfold State.startPins
    split
    · rfl
    · split
      · exact service _ _
      · rfl
  exact (foldl_keeps part pins _ _).trans (service _ _)

/-- A part of the state that is no dictionary value: the counts of the repair maps leave it. -/
theorem State.settleMaps_keeps {β : Type} (part : State → β) (own : ∀ s r v, part (State.odSet s r v) = part s)
    (stored : ∀ s r v, part (State.odSetP s r v) = part s) (s : State) : part s.settleMaps = part s := by
  simp only [State.settleMaps, own, stored]

/-- What the dictionary keeps of a loss of the main rail: all but the writes that wait and the transfers (R394). -/
theorem State.dict_loseMain (s : State) : s.loseMain.dict =
    { s.dict with pendingW := s.dict.pendingW.filter (fun p => odCurator p.1), stepHeld := [], bankNs := {}, bankS := {},
                  transfer := none, snapshot := none, segRsp := none } := by
  unfold State.loseMain
  simp only [State.settleMaps_keeps State.dict (fun _ _ _ => rfl) (fun _ _ _ => rfl),
    State.reloadScores_keeps State.dict (fun _ _ => rfl), State.dict_setCurator, State.dict_setService, State.dict_setDict,
    State.dict_setSec, State.dict_setTime]
  split <;> rfl

/-- The events that a loss of the main rail leaves (R423). -/
theorem State.dict_dropMain (s : State) : s.dropMain.dict.history = s.dict.history ∧
    s.dropMain.dict.eventSeq = s.dict.eventSeq ∧ s.dropMain.dict.waiting = s.dict.waiting := by
  unfold State.dropMain
  split
  · exact ⟨rfl, rfl, rfl⟩
  · simp [State.dict_loseMain]

/-- Settles O57. -/
theorem historyKeepsTheNewest : Obligations.HistoryKeepsTheNewest := fun s =>
  ⟨fun index sub detail detail2 => Prod.mk.inj (s.events_eventAt index sub detail detail2),
   ⟨s.dropMain, rfl, s.dict_dropMain⟩,
   ⟨_, rfl, rfl, rfl, rfl⟩⟩

end Sys2Proof.Machine
end

section
/-!
PROOFS for chapter 12, the link states of a port (R299, R301 to R303, R306): one lemma for each row, by what the row's
conditions let through.
-/
namespace Sys2Proof.Machine

/-! The rows of a port's link state -/

theorem exec_linkEnable_takes {s : State} {agent : Agent} {v : BitVec 8}
    (taken : s.odTakes agent Od.linkEnable.key [v] (acceptSetting Od.linkEnable.key v.toNat)) :
    exec (.linkEnable agent v) s = .next (s.odDone agent (acceptSetting Od.linkEnable.key v.toNat)) :=
  congrArg Host.Outcome.next (State.odRow_takes taken)

theorem exec_recalibratePort_takes {s : State} {agent : Agent} {v : BitVec 8}
    (taken : s.odTakes agent Od.recalibratePort.key [v] (fun s => s.recalibrate v.toNat)) :
    exec (.recalibratePort agent v) s = .next (s.odDone agent fun s => s.recalibrate v.toNat) :=
  congrArg Host.Outcome.next (State.odRow_takes taken)

section
variable {s : State} {port : Port}

theorem exec_laneMapReset_takes {agent : Agent} {v : BitVec 8}
    (taken : s.odTakes agent (Od.laneMapReset port.val).key [v] (acceptSetting (Od.laneMapReset port.val).key v.toNat)) :
    exec (.laneMapReset agent port v) s = .next (s.odDone agent (acceptSetting (Od.laneMapReset port.val).key v.toNat)) :=
  congrArg Host.Outcome.next (State.odRow_takes taken)

/-- Eight lanes of signal on a DOWN port with a laser: TRAINING, or FAILED past RETRAIN_LIMIT (R301). -/
theorem exec_signalDetect_down {lanes : BitVec 4} (down : (s.port port).state = .down) (signal : 8 ≤ lanes.toNat)
    (laser : (s.port port).laser ≠ 255) :
    exec (.signalDetect port lanes) s = .next (if s.cfg Od.retrainLimit ≤ (s.port port).entries then s.enterLink port .failed
      else (s.enterLink port .training).setPort port (fun x => { x with entries := x.entries + 1 })) := by
  simp [exec, execSignalDetect, down, signal, laser]

/-- The first INIT in training records the partner and its credits (R302). -/
theorem exec_init_training (training : (s.port port).state = .training) (engine : BitVec 32) (credits : Vector (BitVec 16) 6) :
    exec (.init port 1 engine credits) s =
      .next (s.setPort port (fun x => { x with partner := engine.toNat, credits := credits.map (·.toNat) })) := by
  simp [exec, execInit, training]

/-- Eight distinct lanes of each direction, none of them retired: the port is UP and sends its INIT (R299, R302). -/
theorem exec_trainingComplete_planned {partner : BitVec 32} {lanes : TrainedLanes} {bias : Vector (BitVec 32) 2}
    (training : (s.port port).state = .training) (planned : (s.port port).planned = true)
    (txGood : ∀ l ∈ lanes.tx.toList.map (·.val), l ∉ (s.port port).txRetired)
    (rxGood : ∀ l ∈ lanes.rx.toList.map (·.val), l ∉ (s.port port).rxRetired)
    (txDistinct : (lanes.tx.toList.map (·.val)).eraseDups.length = 8)
    (rxDistinct : (lanes.rx.toList.map (·.val)).eraseDups.length = 8) :
    let u := (s.enterLink port .up).setPort port (fun x =>
      { x with partner := partner.toNat, txMap := lanes.tx.toList.map (·.val), rxMap := lanes.rx.toList.map (·.val),
               entries := 0, txSeq := 0, rxSeq := 0, retry := [], replayed := none, retrying := false, assembling := [],
               deficit := Vector.replicate 6 0, turn := 1, visiting := false, replay := 0, farSpare := lanes.farSpare,
               biasRef := x.biasRef.zipWith (fun old new => old.or (some new.toNat)) bias })
    exec (.trainingComplete port partner lanes bias) s =
      .next ((u.send (.ctrl port.val 1 ([1, u.engineId, port.val] ++ u.ownCredits))).bump (Od.fullRetrainCount port.val)) := by
  have tx : ((lanes.tx.toList.map (·.val)).any fun l => (s.port port).txRetired.contains l) = false :=
    List.any_eq_false.2 fun l mapped => by simpa using txGood l mapped
  have rx : ((lanes.rx.toList.map (·.val)).any fun l => (s.port port).rxRetired.contains l) = false :=
    List.any_eq_false.2 fun l mapped => by simpa using rxGood l mapped
  simp only [exec, execTrainingComplete, training, planned, tx, rx, txDistinct, rxDistinct]
  rfl

/-- 8,000 frames of TRAINING: DOWN, or FAILED past RETRAIN_LIMIT (R301). -/
theorem exec_trainingTimeout_due (training : (s.port port).state = .training) (due : (s.port port).since + 8000 ≤ s.frame) :
    let u := s.bump (Od.fullRetrainCount port.val)
    exec (.trainingTimeout port) s = .next (if u.cfg Od.retrainLimit ≤ (u.port port).entries then u.enterLink port .failed
      else u.enterLink port .down) := by
  simp [exec, execTrainingTimeout, training, State.lapsed, due]

theorem exec_linkFault_up (up : (s.port port).state = .up) (cause : LinkFaultCause) (lane : Option (Dir × Fin 9)) :
    exec (.linkFault port cause lane) s = .next (s.linkFault port (lane.map (fun l => (l.1, l.2.val)))) := by
  simp [exec, execLinkFault, up]

/-- A planned fast retrain in time: the port is UP again and sends RESUME (R303). -/
theorem exec_fastRetrainDone_planned {u v : State} (retraining : (s.port port).state = .retraining)
    (planned : (s.port port).planned = true) (inTime : s.frame < (s.port port).since + 4)
    (txSwap : s.retrainSwap port .tx none = some u) (rxSwap : u.retrainSwap port .rx none = some v) :
    let w := ((v.enterLink port .up).setPort port (fun y => { y with entries := 0 })).bump (Od.fastRetrainCount port.val)
    exec (.fastRetrainDone port none none) s =
      .next ((w.send (.ctrl port.val 2 ((w.port port).rxSeq :: (w.port port).credits.toList))).planLaser port) := by
  simp [exec, execFastRetrainDone, retraining, planned, State.lapsed, inTime.not_ge, txSwap, rxSwap]

theorem exec_fastRetrainTimeout_due (retraining : (s.port port).state = .retraining) (due : (s.port port).since + 3 ≤ s.frame) :
    exec (.fastRetrainTimeout port) s = .next (s.enterTraining port) := by
  simp [exec, execFastRetrainTimeout, retraining, State.lapsed, due]

theorem exec_plannedRetrain_up (up : (s.port port).state = .up) (reason : BitVec 8) (f : BitVec 32) :
    exec (.plannedRetrain port reason f) s =
      .next (s.setPort port (fun x => { x with plan := some (reason.toNat, s.extend f.toNat) })) := by
  simp [exec, execPlannedRetrain, up]

/-- A planned retrain for another reason than a laser at its limit (R457). -/
theorem exec_plannedRetrainStart_due {reason f : Nat} (plan : (s.port port).plan = some (reason, f))
    (up : (s.port port).state = .up) (due : f ≤ s.frame) (other : reason ≠ 1) :
    exec (.plannedRetrainStart port) s = .next (s.enterRetraining port true) := by
  simp [exec, execPlannedRetrainStart, plan, up, due, other]

/-- The laser of a port in training fails and there is another (R306). -/
theorem exec_laserFail_training {l : Nat} (training : (s.port port).state = .training) (laser : (s.port port).laser ≠ 255)
    (other : (s.port port).otherLaser = some l) :
    exec (.laserFail port) s = .next (((s.setPort port (fun y =>
      { y with lasersBad := addOnce y.lasersBad (s.port port).laser, swaps := [] })).retirePart
        (partId 10 (2 * port.val + (s.port port).laser))).switchLaser port l) := by
  simp [exec, execLaserFail, training, laser, other]

@[simp] theorem State.port_setPort_self (f : PortState → PortState) : (s.setPort port f).port port = f (s.port port) := by
  simp [State.port, State.setPort]

/-- The laser of an UP port is at its limit, with another to switch to: PLANNED_RETRAIN is sent (R306). -/
theorem exec_laserBiasLimit_atLimit {bias : BitVec 32} (up : (s.port port).state = .up)
    (atLimit : s.cfg Od.laserBiasLimitPct ≤ (s.port port).percent bias.toNat) (other : (s.port port).otherLaser.isSome = true)
    (unplanned : (s.port port).plan = none) :
    exec (.laserBiasLimit port bias) s =
      .next ((s.setPort port (fun x => { x with biasPct := x.percent bias.toNat })).planRetrain port 1) := by
  refine congrArg Host.Outcome.next (if_pos ?_)
  simpa [up, unplanned] using ⟨atLimit, other⟩

end

/-- Settles O42, row by row. -/
theorem linkStates : Obligations.LinkStates := fun _ _ =>
  ⟨fun _ _ => exec_linkEnable_takes,
   fun _ _ => exec_recalibratePort_takes,
   fun _ _ => exec_laneMapReset_takes,
   fun _ down signal laser =>
    have entered := exec_signalDetect_down down signal laser
    ⟨fun past => entered.trans (congrArg _ (if_pos past)), fun within => entered.trans (congrArg _ (if_neg within.not_ge))⟩,
   fun engine credits training => exec_init_training training engine credits,
   fun _ _ training planned txGood rxGood txDistinct rxDistinct _ =>
    exec_trainingComplete_planned training planned txGood rxGood txDistinct rxDistinct,
   exec_trainingTimeout_due,
   exec_linkFault_up,
   fun retraining planned inTime _ _ => exec_fastRetrainDone_planned retraining planned inTime,
   exec_fastRetrainTimeout_due,
   exec_plannedRetrain_up,
   fun _ _ => exec_plannedRetrainStart_due,
   fun training laser _ => exec_laserFail_training training laser,
   fun _ => exec_laserBiasLimit_atLimit⟩

end Sys2Proof.Machine
end

section
/-!
PROOFS for chapter 12, the flits and messages of a port in service (R303, R304, R307, R310, R311, R313, R317, R318):
one lemma for each row.
-/
namespace Sys2Proof.Machine

section
variable {s : State} {port : Port}

/-! Flits (R307, R310) -/

/-- A DATA flit that starts a message, with LAST_BYTES and VC in range (R307): delivered with EOM, kept without. -/
theorem State.takeFlit_start {hdr : BitVec 64} {payload : Bytes} (start : bitOf hdr 56 = true)
    (idle : assoc (s.port port).assembling (bitsOf hdr 59 57) = none) (channel : bitsOf hdr 59 57 ≤ 5)
    (some1 : 1 ≤ bitsOf hdr 54 47) (most : bitsOf hdr 54 47 ≤ 244) (long : payload.length = 244)
    (whole : bitOf hdr 55 = true ∨ bitsOf hdr 54 47 = 244) :
    s.takeFlit port hdr payload =
      if bitOf hdr 55 then (s.setPort port (fun x => { x with assembling := assocErase x.assembling (bitsOf hdr 59 57) })).arrive
        port (bitsOf hdr 59 57) (payload.take (bitsOf hdr 54 47))
      else s.setPort port (fun x =>
        { x with assembling := assocSet x.assembling (bitsOf hdr 59 57) (some (payload.take (bitsOf hdr 54 47))) }) := by
  have nonzero : bitsOf hdr 54 47 ≠ 0 := Nat.ne_of_gt some1
  have full : bitOf hdr 55 = false → bitsOf hdr 54 47 = 244 := fun more => whole.resolve_left (by simp [more])
  have good : ¬ ((5 < bitsOf hdr 59 57 || bitsOf hdr 54 47 == 0 || 244 < bitsOf hdr 54 47 ||
      (!bitOf hdr 55 && bitsOf hdr 54 47 != 244) || true == false || payload.length != 244) = true) := by
    simp [channel.not_gt, nonzero, most.not_gt, long]
    exact full
  simp only [State.takeFlit, idle, start, Option.join_none, Option.isSome_none, Option.getD_none, List.nil_append]
  rw [if_neg (by simp), if_neg good]

/-- A DATA flit of the expected SEQ (R310). -/
theorem exec_dataFlit_next {hdr : BitVec 64} (up : (s.port port).state = .up) (optics : s.opticsOn = true)
    (kind : bitsOf hdr 63 60 = 1) (next : bitsOf hdr 19 4 = (s.port port).rxSeq) (payload : Bytes) :
    exec (.dataFlit port hdr payload true true) s =
      .next (((s.setPort port (fun x => { x with rxSeq := (x.rxSeq + 1) % 65536, retrying := false })).takeAck port hdr).takeFlit
        port hdr payload) := by
  simp [exec, execDataFlit, up, optics, kind, next]

theorem exec_idleFlit_good {hdr : BitVec 64} (up : (s.port port).state = .up) (optics : s.opticsOn = true)
    (kind : bitsOf hdr 63 60 = 0) (channel : bitsOf hdr 59 57 = 0) (last : bitsOf hdr 54 47 = 0) :
    exec (.idleFlit port hdr true true) s = .next (s.takeAck port hdr) := by
  simp [exec, execIdleFlit, up, optics, kind, channel, last]

/-! The control messages of an UP port (R303, R304, R310, R311, R313) -/

theorem exec_resume_up (up : (s.port port).state = .up) (seq : BitVec 16) (credits : Vector (BitVec 16) 6) :
    exec (.resume port seq credits) s = .next (s.replayFrom port seq.toNat) := by
  simp [exec, execResume, up]

/-- The first RETRY_REQ of a SEQ the retry buffer holds, below LINK_RETRY_LIMIT (R310, R311). -/
theorem exec_retryReq_first {seq : BitVec 16} (up : (s.port port).state = .up)
    (held : (s.port port).retry.any (fun r => r.1 == seq.toNat) = true) (first : (s.port port).replayed = none)
    (below : 1 < s.cfg Od.linkRetryLimit) :
    let u := ((s.setPort port (fun y => { y with replayed := some (seq.toNat, 1) })).replayFrom port seq.toNat).bump
      (Od.linkRetryCount port.val)
    u.cfg Od.linkRetryLimit = s.cfg Od.linkRetryLimit → exec (.retryReq port seq) s = .next u := by
  intro u limit
  have within : ¬ u.cfg Od.linkRetryLimit ≤ 1 := by omega
  simp only [exec, execRetryReq, up, held, first]
  exact congrArg Host.Outcome.next (if_neg within)

theorem exec_retryReqRepeat_retrying (up : (s.port port).state = .up) (retrying : (s.port port).retrying = true) :
    exec (.retryReqRepeat port) s = .next (s.send (.ctrl port.val 3 [(s.port port).rxSeq])) := by
  simp [exec, execRetryReqRepeat, up, retrying]

/-- A SWAP_REQ of a mapped lane with a spare, and no swap of the partner's under way (R304). -/
theorem exec_swapReq_spare {lane : BitVec 8} (up : (s.port port).state = .up) (own : ∀ w ∈ (s.port port).swaps, w.asked = true)
    (mapped : lane.toNat ∈ (s.port port).txMap) (spare : ((s.port port).spare .tx).isSome = true) (number : BitVec 16) :
    exec (.swapReq port number lane) s = .next ((s.setPort port (fun y => { y with
      swaps := y.swaps ++ [{ number := number.toNat, lane := lane.toNat, asked := false, point := some 8192,
                             frame := s.frame }] })).send (.ctrl port.val 5 [number.toNat, 8192])) := by
  have unrepeated : ((s.port port).swaps.any fun w => !w.asked && w.number == number.toNat) = false :=
    List.any_eq_false.2 fun w listed => by simp [own w listed]
  have alone : ((s.port port).swaps.any fun w => !w.asked) = false :=
    List.any_eq_false.2 fun w listed => by simp [own w listed]
  simp only [exec, execSwapReq, up, unrepeated, alone, spare, List.contains_iff_mem.2 mapped]
  rfl

theorem exec_swapAck_up (up : (s.port port).state = .up) (number : BitVec 16) (point : BitVec 32) :
    exec (.swapAck port number point) s = .next (s.setPort port (fun x => { x with swaps := x.swaps.map (fun (w : LiveSwap) =>
      if w.asked && w.number == number.toNat then { w with point := some point.toNat } else w) })) := by
  simp only [exec, execSwapAck, up]
  rfl

theorem exec_swapReqRepeat_up (up : (s.port port).state = .up) :
    exec (.swapReqRepeat port) s = .next (((s.port port).swaps.filter (fun w => w.asked && w.point.isNone)).foldl
      (fun s w => s.send (.ctrl port.val 4 [w.number, w.lane])) s) := by
  simp only [exec, execSwapReqRepeat, up]
  rfl

theorem exec_laneSwapPoint_due {dir : Dir} {w : LiveSwap} {n : Nat} (up : (s.port port).state = .up)
    (agreed : (s.port port).swaps.find? (fun w => w.asked == (dir == .rx) && w.point.isSome) = some w)
    (spare : (s.port port).spare dir = some n) :
    exec (.laneSwapPoint port dir) s = .next ((s.setPort port (fun y => { y with
      swaps := y.swaps.filter (fun v => !(v.number == w.number && v.asked == w.asked)) })).swapLane port dir w.lane n) := by
  simp only [exec, execLaneSwapPoint, up, agreed, spare]
  rfl

theorem exec_laneCeWindow_up (up : (s.port port).state = .up) (symbols : Vector (BitVec 32) 9) :
    exec (.laneCeWindow port symbols) s =
      .next ((List.finRange 9).foldl (fun s l => s.laneWindow port l.val (symbols[l]).toNat) s) := by
  simp only [exec, execLaneCeWindow, up]
  rfl

theorem exec_mgmtMessage_up (up : (s.port port).state = .up) (source : BitVec 32) (payload : Bytes) :
    exec (.mgmtMessage port source payload) s =
      .next ((s.send (.mgmt .partner source.toNat payload)).setSched fun c => { c with active := true }) := by
  simp only [exec, execMgmtMessage, up]
  rfl

/-! Routing (R317, R318) -/

theorem exec_destUnreach_up (up : (s.port port).state = .up) (engines : List (BitVec 32)) :
    let u := (s.setPort port (fun x => { x with
      unreach := ((engines.map (·.toNat)).eraseDups.map (fun e => (e, s.frame))) ++
        x.unreach.filter (fun u => !(engines.map (·.toNat)).contains u.1) })).reroute port
          (fun d => (engines.map (·.toNat)).contains d) true
    exec (.destUnreach port engines) s = .next (u.abortColls (fun c =>
      ((u.ringNext c).map (fun d => (engines.map (·.toNat)).contains d && u.cutOff d)).getD false) 3 u.frame) := by
  simp only [exec, execDestUnreach, up]
  rfl

/-- The bindings of a destination and VC are idle, and nothing of theirs waits on their port (R317). -/
theorem exec_bindingIdle_idle {engine : BitVec 32} {vc : Fin 6}
    (empty : ∀ m ∈ (s.port port).queue, m.dst ≠ engine.toNat ∨ m.vc ≠ vc.val)
    (idle : ∀ b ∈ s.fabric.bindings, b.dst = engine.toNat → b.vc = vc.val →
      portOf b.port = port ∧ b.last + s.cfg Od.bindingIdleFrames ≤ s.frame) :
    exec (.bindingIdle engine vc) s = .next (s.setFabric fun x => { x with
      bindings := x.bindings.filter (fun b => !(b.dst == engine.toNat && b.vc == vc.val)) }) := by
  have quiet : ((s.port port).queue.any fun m => m.dst == engine.toNat && m.vc == vc.val) = false :=
    List.any_eq_false.2 fun m queued => by simpa [or_iff_not_imp_left] using empty m queued
  refine congrArg (fun l => Host.Outcome.next (s.setFabric fun x => { x with bindings := l })) (List.filter_congr fun b listed => ?_)
  by_cases dst : b.dst = engine.toNat
  · by_cases channel : b.vc = vc.val
    · obtain ⟨on, long⟩ := idle b listed dst channel
      simp [dst, channel, on, State.lapsed, long, quiet]
    · simp [beq_eq_false_iff_ne.2 channel]
  · simp [beq_eq_false_iff_ne.2 dst]

end

/-- Settles O43, row by row. -/
theorem linkMessages : Obligations.LinkMessages := by
  intro s port up optics
  refine ⟨fun hdr payload kind next channel some1 most long start idle => ?_,
    fun _ kind channel last => exec_idleFlit_good up optics kind channel last,
    fun seq credits => exec_resume_up up seq credits,
    fun _ held first below => exec_retryReq_first up held first below,
    exec_retryReqRepeat_retrying up,
    fun number _ own mapped spare => exec_swapReq_spare up own mapped spare number,
    exec_swapAck_up up,
    exec_swapReqRepeat_up up,
    fun _ _ _ agreed spare => exec_laneSwapPoint_due up agreed spare,
    exec_laneCeWindow_up up,
    exec_mgmtMessage_up up,
    exec_destUnreach_up up,
    fun _ => rfl,
    fun _ _ => exec_bindingIdle_idle⟩
  have takes := State.takeFlit_start start idle channel some1 most long
  rw [exec_dataFlit_next up optics kind next]
  constructor
  · intro last
    rw [takes (.inl last), if_pos last]
  · intro more full
    rw [takes (.inr full), if_neg (by simp [more]), full]

end Sys2Proof.Machine
end

section
/-!
PROOFS for chapter 12, the receive buffers of a port (R314): the row of VC_RX_CREDITS, the check of their sum, and the
refusal of R412's seventh check.
-/
namespace Sys2Proof.Machine

theorem leNat_leBytes (k v : Nat) : leNat (leBytes k v) = v % 256 ^ k := by
  induction k generalizing v with
  | zero => simp [leBytes, leNat, Nat.mod_one]
  | succ k ih =>
    have step := Nat.mod_mul (x := v) (a := 256) (b := 256 ^ k)
    simp only [leBytes, leNat, ih, BitVec.toNat_ofNat, Nat.reducePow, Nat.pow_succ' (m := 256), step]

theorem length_leBytes (k v : Nat) : (leBytes k v).length = k := by
  induction k generalizing v with
  | zero => rfl
  | succ k ih => simp [leBytes, ih]

/-- The row of the six entries VC_RX_CREDITS. -/
def creditRow : OdRow := ⟨Od.vcRxCredits 0, 1, 6, .u16, .rwHostS, some (32, 4096), true, .stopped⟩

theorem odRowOf_vcRxCredits (k : Fin 6) : odRowOf (Od.vcRxCredits k.val).key = some creditRow := by
  revert k
  decide +kernel

/-- The accepted values of the six buffers with a new one in place of its own. -/
def State.creditSum (s : State) (k : Fin 6) (v : Nat) : Nat :=
  let value (j : Nat) : Nat := if j = k.val then v else s.odGet (Od.vcRxCredits j)
  value 0 + value 1 + value 2 + value 3 + value 4 + value 5

/-- The legal range of a buffer: 32 to 256 flits for VC0, 256 to 4,096 for the others. -/
def creditLegal (k : Fin 6) (v : Nat) : Prop := if k = 0 then 32 ≤ v ∧ v ≤ 256 else 256 ≤ v ∧ v ≤ 4096

section
variable {s : State} {k : Fin 6} {v : Nat}

/-- Of R412's ranges across entries only R314's concerns a receive buffer, and within its legal range only the sum. -/
theorem State.odOutOfRange_vcRxCredits (legal : creditLegal k v) :
    s.odOutOfRange (Od.vcRxCredits k.val).key v = decide (9280 < s.creditSum k v) := by
  fin_cases k <;> simp [creditLegal] at legal <;>
    simp [State.odOutOfRange, State.creditSum, Od.vcRxCredits, List.range_succ, legal.1.not_gt, legal.2.not_gt,
      Od.tickOutAdvancePs, Od.ppsWidthFrames, Od.streamCredits, Od.statsLeaves, Od.ledgerLeaves, Od.quarantineLeaves,
      Od.egressLeaves, Od.lostFrames, Od.heartbeatFrames]

/-- The row's own range holds the ranges of all six buffers. -/
theorem creditRow_illegal (legal : creditLegal k v) : creditRow.illegal v = false := by
  have within : 32 ≤ v ∧ v ≤ 4096 := by
    unfold creditLegal at legal
    split at legal <;> omega
  simp [OdRow.illegal, creditRow, within]

/-- With the main domain up and no job open, only the sum can refuse HOST_S a legal value (R412, R314). -/
theorem State.odCheck_vcRxCredits (up : s.mainUp = true) (jobless : s.anyJob = false) (small : v < 65536) (legal : creditLegal k v) :
    s.odCheck .hostS (Od.vcRxCredits k.val).key (leBytes 2 v) = if 9280 < s.creditSum k v then abOutOfRange else 0 := by
  have row := odRowOf_vcRxCredits k
  have value : leNat (leBytes 2 v) = v := by
    rw [leNat_leBytes]
    exact Nat.mod_eq_of_lt small
  have writes : creditRow.mayWrite (Od.vcRxCredits k.val).key .hostS = true := rfl
  have served : s.odNotReady creditRow (Od.vcRxCredits k.val).key true = false := by simp [State.odNotReady, up]
  have length : odLength creditRow 2 = 0 := rfl
  have stopped : s.odRunning creditRow (Od.vcRxCredits k.val).key = false := by
    simp [State.odRunning, jobless, creditRow, Od.vcRxCredits, Od.laneMapReset]
  have encoded : odEncodingBad creditRow (leBytes 2 v) = false := by
    simp [odEncodingBad, creditRow, Od.vcRxCredits, Od.fieldMasterAddr]
  simp [State.odCheck, odMissing_of_row row, row, writes, served, length_leBytes, length, stopped, encoded, value,
    creditRow_illegal legal, State.odOutOfRange_vcRxCredits legal]

/-- A write that its checks refuse changes nothing but OD_ABORT_COUNT (R413). -/
theorem State.odWriteWith_unchecked {a : Agent} {key code : Nat} {bytes : Bytes} (refused : s.odCheck a key bytes = code)
    (nonzero : code ≠ 0) (f : State → Nat × State) : s.odWriteWith a key bytes f = (code, s.bump Od.odAbortCount) := by
  simp [State.odWriteWith, refused, nonzero, State.odRefuse]

/-- VC_RX_CREDITS is an entry of no owner of its own. -/
theorem State.odWriteAny_vcRxCredits (a : Agent) (auth : Bool) (bytes : Bytes) (obs : ActionObs) :
    s.odWriteAny a auth (Od.vcRxCredits k.val).key bytes obs =
      s.odWriteWith a (Od.vcRxCredits k.val).key bytes (State.odOwner a auth (Od.vcRxCredits k.val).key bytes obs) := by
  fin_cases k <;> rfl

end

/-- Settles O56: the checks of R412 come down to the sum. -/
theorem creditSumIsBounded : Obligations.CreditSumIsBounded := by
  intro s k v auth obs up jobless legal
  have check := State.odCheck_vcRxCredits up jobless v.isLt legal
  refine ⟨fun within => check.trans (if_neg within.not_gt), fun past => ?_⟩
  rw [State.odWriteAny_vcRxCredits]
  exact State.odWriteWith_unchecked (check.trans (if_pos past)) (by decide) _

end Sys2Proof.Machine
end

section
/-!
PROOFS for chapter 13, the key slots, the pages of the cipher and the digest, and the cipher unit's faults (R324 to
R354, R464, R477): one lemma for each row, by what the row's checks let through.
-/
namespace Sys2Proof.Machine

/-! The tasks of the key slots (R324, R331 to R333) -/

section
variable {s : State} {id : Nat} {t : Task}

theorem exec_keyDerive_checked (h : s.runs id 0x60 t) (checked : (s.begun id).keyCheck t = none) (context : t.f 317 312 ≤ 56) :
    let b := s.begun id
    let p := b.slot t.keyParent
    exec (.keyDerive id) s = .next ((b.replaceSlot t.keyTarget (some
      { key := Config.kdf p.key t.label t.context, keyId := derivedId p t.label t.context, ops := t.keyOps,
        useMask := t.keyMask, gen := p.gen, parent := t.keyParent, loader := some t.owner })).complete t 0) := by
  simp only [exec, execKeyDerive, State.whenReady_of_runs h, checked, if_neg context.not_gt]

theorem exec_keyErase_checked (h : s.runs id 0x62 t) (checked : (s.begun id).keyCheck t = none) :
    exec (.keyErase id) s = .next (((s.begun id).replaceSlot t.keyTarget none).complete t 0) := by
  simp only [exec, execKeyErase, State.whenReady_of_runs h, checked]

/-- The checks pass: the read of the blob begins. -/
theorem exec_keyUnwrap_begins (h : s.runs id 0x61 t) (waits : t.phase = .waiting) (checked : (s.begun id).keyCheck t = none)
    (generation : (s.begun id).keyGenBad t = false) : exec (.keyUnwrap id true) s = .next ((s.begun id).startBlob t) := by
  simp [exec, execKeyUnwrap, h.1, waits, State.whenReady_of_runs h, checked, generation]

/-- The blob is there: it is loaded. -/
theorem exec_keyUnwrap_loads {blob : Bytes} (found : s.task? id = some t) (type : t.type = 0x61) (started : t.phase ≠ .waiting)
    (read : s.blobRead t = some blob) (quiet : s.alarmed = false) (generation : s.keyGenBad t = false) :
    exec (.keyUnwrap id true) s = .next (((s.endIo id).loadUnwrapped t blob).complete t 0) := by
  simp [exec, execKeyUnwrap, found, type, started, read, quiet, generation]

theorem exec_keyRollover_begins (h : s.runs id 0x63 t) (waits : t.phase = .waiting) (alone : (s.begun id).pendingSwitch = none)
    (checked : (s.begun id).keyCheck t = none) (generation : (s.begun id).keyGenBad t = false) :
    exec (.keyRollover id) s = .next ((s.begun id).startBlob t) := by
  simp [exec, execKeyRollover, h.1, waits, State.whenReady_of_runs h, alone, checked, generation]

/-- The blob is there: it is held until SWITCH_FRAME (R332). -/
theorem exec_keyRollover_holds {blob : Bytes} (found : s.task? id = some t) (type : t.type = 0x63) (started : t.phase ≠ .waiting)
    (none_ : s.sec.rollover = none) (read : s.blobRead t = some blob) :
    exec (.keyRollover id) s = .next ((s.freeBufs id).setSec fun x => { x with
      rollover := some { task := id, frame := t.f 447 384, blob := blob, gen := t.keyGen, ops := t.keyOps, mask := t.keyMask } }) := by
  simp [exec, execKeyRollover, found, type, started, none_, read]

/-- SWITCH_FRAME has come, and slot 2 holds a key (R332). -/
theorem exec_keyRolloverSwitch_due {r : Rollover} (held : s.sec.rollover = some r) (due : r.frame ≤ s.frame)
    (kek : (s.slot 1).state ≠ .empty) (later : (s.slot 2).gen < r.gen) (old : (s.slot 2).state ≠ .empty) :
    let u := (s.setSec fun x => { x with rollover := none }).putSlot 7 { s.slot 2 with purpose := 16 }
    let u := u.loadSlot 2 { key := Config.unwrap (s.slot 1).key r.blob, keyId := unwrappedId (s.slot 1) r.blob, ops := r.ops,
                            useMask := r.mask, gen := r.gen, purpose := 3 }
    let u := ((u.decryptOnly 2 7).odSetP Od.ivEpochRandom 0).setService fun v => { v with newRoll := true }
    u.task? r.task = some t → exec (.keyRolloverSwitch true) s = .next (u.complete t 0) := by
  intro _ _ u waiting
  have good : (!true || (s.slot 1).state == .empty || decide (r.gen ≤ (s.slot 2).gen)) = false := by simp [kek, later]
  have first : ((s.slot 2).state == .empty) = false := by simp [old]
  simp only [exec, execKeyRolloverSwitch, held, if_neg due.not_gt, good, first, Bool.false_eq_true, if_false]
  split
  · rename_i found
    rw [Option.some.inj (found.symm.trans waiting)]
  · rename_i missing
    exact absurd (missing.symm.trans waiting) (by simp)

theorem exec_usageLoadSwitch_due {slot : BitVec 6} {l f : Nat} (loaded : (s.slot slot.toNat).newLoad = some (l, f))
    (boundary : s.time.cycle = 0) (later : f < s.frame) :
    exec (.usageLoadSwitch slot) s = .next (s.setSec fun x => { x with
      slots := vmod x.slots slot.toNat (fun k => { k with ops := k.ops &&& 2, newLoad := none }) }) := by
  simp [exec, execUsageLoadSwitch, loaded, boundary, later]

/-- IV_EPOCH is exhausted, slots 1 and 2 have new keys, and no user slot holds one (R464). -/
theorem exec_ivEpochRedraw_due (exhausted : s.odGet Od.ivEpoch = 0xFFFFFFFF) (wrap : s.service.newWrap = true)
    (roll : s.service.newRoll = true) (empty : ∀ n < 16, (s.slot (48 + n)).state = .empty) :
    exec .ivEpochRedraw s = .next (s.drawIvEpoch.setService fun v => { v with newWrap := false, newRoll := false }) := by
  have clear : ((List.range 16).any fun n => (s.slot (48 + n)).state != .empty) = false :=
    List.any_eq_false.2 fun n user => by simp [empty n (List.mem_range.1 user)]
  simp [exec, execIvEpochRedraw, exhausted, wrap, roll, clear]

end

/-! The writes that load keys and clear the alarm (R327, R354) -/

section
variable {s : State} {agent : Agent}

theorem exec_fieldAuthLoad_takes {value : Bytes} {ok intact : Bool}
    (taken : s.odTakes agent Od.fieldAuthLoad.key value (fun s => s.fieldAuthLoad value ok intact)) :
    exec (.fieldAuthLoad agent value ok intact) s = .next (s.odDone agent fun s => s.fieldAuthLoad value ok intact) :=
  congrArg Host.Outcome.next (State.odRow_takes taken)

theorem exec_wrapLoad_takes {value : Bytes} {intact : Bool}
    (taken : s.odTakes agent Od.wrapLoad.key value (fun s => s.wrapLoad value intact)) :
    exec (.wrapLoad agent value intact) s = .next (s.odDone agent fun s => s.wrapLoad value intact) :=
  congrArg Host.Outcome.next (State.odRow_takes taken)

theorem exec_alarmClear_takes {v : BitVec 8} {active : Bool}
    (taken : s.odTakes agent Od.alarmClear.key [v] (fun s => s.alarmClear v.toNat active)) :
    exec (.alarmClear agent v active) s = .next (s.odDone agent fun s => s.alarmClear v.toNat active) :=
  congrArg Host.Outcome.next (State.odRow_takes taken)

end

/-- Settles O44, row by row; KEY_UNWRAP and KEY_ROLLOVER act once for the read and once for the blob (log entry 16). -/
theorem keyRowsComplete : Obligations.KeyRowsComplete := fun _ _ _ =>
  ⟨exec_keyDerive_checked,
   exec_keyErase_checked,
   exec_keyUnwrap_begins,
   fun _ => exec_keyUnwrap_loads,
   fun h waits alone _ => exec_keyRollover_begins h waits alone,
   fun _ => exec_keyRollover_holds,
   fun _ held due kek later _ old => exec_keyRolloverSwitch_due held due kek later old,
   fun _ _ _ => exec_usageLoadSwitch_due,
   exec_ivEpochRedraw_due,
   fun _ _ _ _ => exec_fieldAuthLoad_takes,
   fun _ _ _ => exec_wrapLoad_takes,
   fun _ _ _ => exec_alarmClear_takes⟩

/-! The pages (R345, R347 to R351) -/

section
variable {s : State} {agent : Agent} {v : BitVec 64}

/-- C_START of an idle page, its lengths in range, whose key serves it (R348). -/
theorem exec_cStart_serves (idle : (s.cPage agent).busy = false) (aad : (s.cPage agent).aadLen ≤ 4096)
    (msg : (s.cPage agent).msgLen ≤ 1048576) (start : v.toNat % 2 = 1)
    (serves : s.slotServes (s.cPage agent).slot agent (s.cPage agent).op = true)
    (fresh : (s.cPage agent).op = 0 → (s.slot (s.cPage agent).slot).state ≠ .exhausted) :
    exec (.cStart agent 4 v) s =
      .next (((if (s.cPage agent).op = 0 then s.takeUse (s.cPage agent).slot else s).setC agent (fun q => { q with
        busy := true, iv := if (s.cPage agent).op = 0 then s.nextIv (s.cPage agent).slot else (s.cPage agent).iv, fed := [],
        ended := false, taken := 0, since := 0, out := [] })).setSec fun x =>
          { x with cQueue := enqueuePage x.cQueue agent.code }) := by
  have usable : ((s.cPage agent).op == 0 && (s.slot (s.cPage agent).slot).state == .exhausted) = false := by simpa using fresh
  simp only [exec, execCStart, idle, aad.not_gt, msg.not_gt, start, serves, usable, beq_iff_eq]
  rfl

theorem exec_cData_room (busy : (s.cPage agent).busy = true) (goes : (s.cPage agent).ended = false)
    (room : 8 ≤ inFree (s.cPage agent).fed (s.cPage agent).taken) :
    exec (.cData agent 8 v) s = .next (s.cFeed agent (leBytes 8 v.toNat) false) := by
  simp [exec, execCData, busy, goes, room.not_gt]

theorem exec_cLast_busy (busy : (s.cPage agent).busy = true) (goes : (s.cPage agent).ended = false)
    (most : (s.cPage agent).lastBytes ≤ 8) :
    exec (.cLast agent 8 v) s = .next (s.cFeed agent ((leBytes 8 v.toNat).take (s.cPage agent).lastBytes) true) := by
  simp [exec, execCLast, busy, goes, most.not_gt]

theorem exec_cOut_waiting (waits : (s.cPage agent).out ≠ []) :
    exec (.cOut agent 8) s = .next ((s.setC agent (fun q => { q with out := q.out.drop 8 })).send
      (.page agent.code (leNat ((s.cPage agent).out.take 8)))) := by
  simp [exec, execCOut, waits]

/-- Both pipes agree on the tag of the running page's message, which has ended (R339, R347). -/
theorem exec_cipherMessageDone_agreed (runs : s.sec.cQueue.head? = some agent.code) (busy : (s.cPage agent).busy = true)
    (ended : (s.cPage agent).ended = true) (whole : (s.cPage agent).taken = (s.cPage agent).fed.length) :
    let p := s.cPage agent
    let text := gcmText (s.slot p.slot).key p.iv (p.fed.drop p.aadLen)
    let tag := Config.gcmTag (s.slot p.slot).key p.iv (p.fed.take p.aadLen) text % 2 ^ 128
    exec (.cipherMessageDone agent true) s = .next (((
      if p.op = 0 then s.setC agent (fun q => { q.abandon with
        out := q.out ++ text.drop ((p.fed.drop p.aadLen).length / 4096 * 4096), done := true, tag := tag })
      else if tag = p.tag then
        (s.setC agent (fun q => { q.abandon with out := text, done := true, tagOk := true })).raise (.cStatus agent.code 3)
      else ((s.setC agent (fun q => { q.abandon with done := true, tagFail := true })).raise (.cStatus agent.code 4)).tagFail).raise
        (.cStatus agent.code 1)).leaveCipher agent) := by
  simp only [exec, execCipherMessageDone, runs, busy, ended, whole, bne_self_eq_false, beq_iff_eq]
  rfl

theorem exec_dStart_unkeyed (idle : (s.dPage agent).busy = false) (unkeyed : (s.dPage agent).alg < 2) (start : v.toNat % 2 = 1) :
    exec (.dStart agent 4 v) s = .next ((s.setD agent (fun p => { p with
      busy := true, fed := [], ended := false, taken := 0, since := 0, chain := none, before := 0, result := 0,
      keyed := false })).setSec fun x => { x with dQueue := enqueuePage x.dQueue agent.code }) := by
  have known : ¬ 3 < (s.dPage agent).alg := by omega
  simp [exec, execDStart, idle, known, start, unkeyed.not_ge]

theorem exec_dData_room (busy : (s.dPage agent).busy = true) (goes : (s.dPage agent).ended = false)
    (room : 8 ≤ inFree (s.dPage agent).fed (s.dPage agent).taken) :
    exec (.dData agent 8 v) s = .next (s.dFeed agent (leBytes 8 v.toNat) false) := by
  simp [exec, execDData, busy, goes, room.not_gt]

theorem exec_dLast_busy (busy : (s.dPage agent).busy = true) (goes : (s.dPage agent).ended = false)
    (most : (s.dPage agent).lastBytes ≤ 8) :
    exec (.dLast agent 8 v) s = .next (s.dFeed agent ((leBytes 8 v.toNat).take (s.dPage agent).lastBytes) true) := by
  simp [exec, execDLast, busy, goes, most.not_gt]

theorem exec_digestDone_ended (runs : s.sec.dQueue.head? = some agent.code) (busy : (s.dPage agent).busy = true)
    (ended : (s.dPage agent).ended = true) (whole : (s.dPage agent).taken = (s.dPage agent).fed.length) :
    exec (.digestDone agent) s = .next (((s.setD agent (fun q => { q.abandon with
      done := true, result := (s.dPage agent).value (s.slot (s.dPage agent).slot).key, keyed := decide (2 ≤ q.alg) })).raise
        (.dStatus agent.code 1)).leaveDigest agent) := by
  simp only [exec, execDigestDone, runs, busy, ended, whole, bne_self_eq_false]
  rfl

/-- A page whose state was not imported gives the SHA3-256 of what it was fed (R344). -/
theorem DigestPage.value_sha3 {d : DigestPage} (start : d.chain = none) (alone : d.before = 0) (alg : d.alg = 1) (key : Nat) :
    d.value key = Config.sha3 d.fed % 2 ^ 256 := by
  simp only [DigestPage.value, start, alone, alg]
  rfl

theorem exec_dCompare_done {low : BitVec 32} (idle : (s.dPage agent).busy = false) (done : (s.dPage agent).done = true)
    (start : low.toNat % 2 = 1) (high : BitVec 32) :
    exec (.dCompare agent 4 low high) s = .next (
      if (s.dPage agent).result = (s.dPage agent).expect %
          2 ^ (if (s.dPage agent).alg = 0 ∨ (s.dPage agent).alg = 2 then 384 else 256) then
        (s.setD agent (fun p => { p with equal := true })).raise (.dStatus agent.code 3)
      else ((s.bump Od.compareNeCount).setD agent (fun p => { p with notEqual := true })).raise (.dStatus agent.code 4)) := by
  simp only [exec, execDCompare, idle, done, start, beq_iff_eq, Bool.or_eq_true]
  rfl

theorem exec_dExport_boundary {k : Nat} (busy : (s.dPage agent).busy = true) (goes : (s.dPage agent).ended = false)
    (boundary : (s.dPage agent).taken % digestBlock (s.dPage agent).alg = 0)
    (whole : (s.dPage agent).taken = (s.dPage agent).fed.length) (start : v.toNat % 2 = 1) (unkeyed : (s.dPage agent).alg < 2)
    (key : s.exportKey agent = some k) :
    let d := s.dPage agent
    let blob := Config.wrapState k (d.stateBytes agent.code (s.digestKeyId d) (s.slot d.slot).key)
    exec (.dExport agent 4 v) s = .next ((s.bump Od.exportCount).setD agent (fun p =>
      { p with blob := (blob ++ List.replicate 440 0).take 440 })) := by
  have stands : ((s.dPage agent).taken != (s.dPage agent).fed.length) = false := by simp [whole]
  simp only [exec, execDExport, busy, goes, boundary, stands, start, unkeyed.not_ge, key, Bool.and_false]
  rfl

theorem exec_dImport_reads {plain : Bytes} {low : BitVec 32} (idle : (s.dPage agent).busy = false) (start : low.toNat % 2 = 1)
    (reads : s.importable agent = some plain) (high : BitVec 32) :
    exec (.dImport agent 4 low high true) s = .next (State.runDigest ((s.setD agent (fun p => p.resume plain)).setSec fun x =>
      { x with dQueue := enqueuePage x.dQueue agent.code })) := by
  simp [exec, execDImport, idle, start, reads]

/-- An import is refused when its blob does not unwrap to a state of the agent, or does not read as written (R351). -/
theorem exec_dImport_refused {low : BitVec 32} {intact : Bool} (idle : (s.dPage agent).busy = false) (start : low.toNat % 2 = 1)
    (bad : s.importable agent = none ∨ intact = false) (high : BitVec 32) :
    exec (.dImport agent 4 low high intact) s =
      .next (((s.bump Od.importRefusedCount).setD agent (fun p => { p with importRefused := true })).raise
        (.dStatus agent.code 8)) := by
  have unread : (if intact then s.importable agent else none) = none := by
    rcases bad with absent | broken
    · simp [absent]
    · simp [broken]
  simp [exec, execDImport, idle, start, unread]

/-- The running cipher page has run its quantum and another page waits (R350). -/
theorem exec_pageSuspend_cipher {next : Nat} (runs : s.sec.cQueue.head? = some agent.code)
    (waits : nextAgent (s.sec.cQueue.filter (fun b => b != agent.code)) agent.code = some next)
    (due : mayStop (s.cPage agent).fed.length (s.cPage agent).taken (s.cPage agent).since 16 (s.cfg Od.userQuantumBlocks)
      (s.cPage agent).ended = true) :
    exec (.pageSuspend agent false) s = .next (State.headCipher ((((s.total Od.suspendCount 1).setC agent (fun p =>
      { p with suspended := true })).raise (.cStatus agent.code 2)).setSec fun x => { x with
        cQueue := next :: s.sec.cQueue.filter (fun c => c != next) })) := by
  simp only [exec, execPageSuspend, Bool.false_eq_true, if_false, runs, waits, due, bne_self_eq_false]
  rfl

end

/-- Settles O45, row by row; the layout of an exported state is log entry 14. -/
theorem pagesComplete : Obligations.PagesComplete := by
  intro s agent v
  dsimp only
  refine ⟨fun idle aad msg start serves => ?start, fun busy goes => ⟨exec_cData_room busy goes, exec_cLast_busy busy goes⟩,
    exec_cOut_waiting, fun runs busy ended whole => ?done, exec_dStart_unkeyed,
    fun busy goes => ⟨exec_dData_room busy goes, exec_dLast_busy busy goes⟩, exec_digestDone_ended,
    DigestPage.value_sha3, fun low high idle done start => ?compare,
    fun _ busy goes boundary whole start unkeyed key => exec_dExport_boundary busy goes boundary whole start unkeyed key,
    fun _ _ high idle start reads => exec_dImport_reads idle start reads high,
    fun _ high _ idle start bad => exec_dImport_refused idle start bad high,
    fun _ => exec_pageSuspend_cipher⟩
  case start =>
    have started := exec_cStart_serves idle aad msg start serves
    exact ⟨fun encrypts usable => by simpa only [if_pos encrypts] using started fun _ => usable,
      fun decrypts => by simpa only [if_neg decrypts] using started fun encrypts => absurd encrypts decrypts⟩
  case done =>
    have ends := exec_cipherMessageDone_agreed runs busy ended whole
    dsimp only at ends
    exact ⟨fun encrypts => by rw [ends, if_pos encrypts],
      fun decrypts good => by rw [ends, if_neg decrypts, if_pos good],
      fun decrypts bad => by rw [ends, if_neg decrypts, if_neg bad]⟩
  case compare =>
    have compared := exec_dCompare_done idle done start high
    exact ⟨fun same => by rw [compared, if_pos same], fun other => by rw [compared, if_neg other]⟩

/-! The faults of the cipher unit (R338, R339, R353, R477) -/

section
variable {s : State}

/-- A working pair whose pipes disagree leaves service until its repair frame (R339). -/
theorem exec_cipherMismatch_working {pair : BitVec 6} (serves : pair.toNat ∉ s.sec.pairsRetired)
    (trusted : ∀ x ∈ s.sec.suspects, x.pair ≠ pair.toNat) :
    exec (.cipherMismatch pair) s = .next ((s.bump Od.cipherMismatchCount).setSec fun z => { z with suspects := z.suspects ++
      [{ pair := pair.toNat, frame := s.frame, first := (s.sec.pairMap.getD pair.toNat (0, 0)).1,
         second := (s.sec.pairMap.getD pair.toNat (0, 0)).2 }] }) := by
  have unsuspected : (s.sec.suspects.any fun x => x.pair == pair.toNat) = false :=
    List.any_eq_false.2 fun x listed => by simp [trusted x listed]
  have kept : s.sec.pairsRetired.contains pair.toNat = false := by simpa using serves
  simp only [exec, execCipherMismatch, unsuspected, kept]
  rfl

/-- The repair frame of a suspect whose pipes are not pinned: both pass, and are scored, or the first fails and is retired (R339). -/
theorem exec_cipherRepair_unpinned {x : CipherSuspect} {rest : List CipherSuspect} (suspects : s.sec.suspects = x :: rest)
    (later : x.frame < s.frame) (first : s.pinned (partId 6 x.first) = false) (second : s.pinned (partId 6 x.second) = false)
    (fails : Bool) :
    let u := s.setSec fun z => { z with suspects := rest }
    exec (.cipherRepair fails false false) s = .next (
      if fails then (u.retirePipe x.pair x.first).event Od.pipeRetireCount (u.partName (partId 6 x.first) x.first) 0xFFFF
      else ((u.scoreTransient (partId 6 x.first)).scoreTransient (partId 6 x.second)).event Od.cipherMismatchCount 0xFFFF
        x.pair) := by
  have first' : (s.setSec fun z => { z with suspects := rest }).pinned (partId 6 x.first) = false := first
  have second' : (s.setSec fun z => { z with suspects := rest }).pinned (partId 6 x.second) = false := second
  simp only [exec, execCipherRepair, suspects, if_neg later.not_ge, first', second']
  cases fails <;> rfl

theorem exec_entropyRetest_passes (stopped : s.sec.seedStopped = true) (boundary : s.time.cycle = 0)
    (later : s.frame ≠ s.sec.entropyFrame) :
    exec (.entropyRetest true) s = .next (s.setSec fun x => { x with entropyFails := 0, seedStopped := false }) := by
  simp [exec, execEntropyRetest, stopped, boundary, later]

end

/-- Settles O46, row by row; both pipes of a transient are scored (log entry 15), and its event names the pipes by 0xFFFF (log
entry 150). -/
theorem cipherFaults : Obligations.CipherFaults := fun s =>
  ⟨fun _ => exec_cipherMismatch_working,
   fun _ _ suspects later first second =>
    have repaired := exec_cipherRepair_unpinned suspects later first second
    ⟨repaired false, repaired true⟩,
   fun _ => rfl,
   fun runs => congrArg Host.Outcome.next (if_neg (by simp [runs])),
   exec_entropyRetest_passes⟩

end Sys2Proof.Machine
end

section
/-!
PROOFS for chapter 14, Docent's cores and the sync memory. What the operations of Table 14-2 do to the sync words; the
rows of threads and of the sync window; SYNC_OWNER_RESET; and the rows of the cores.
-/
namespace Sys2Proof.Machine

/-! The words of the sync memory (R364) -/

theorem State.syncFormed_setSyncWord {s : State} (formed : s.syncFormed) (w : Nat) (v : SyncWord) : (s.setSyncWord w v).syncFormed := by
  obtain ⟨rising, listed⟩ := formed
  unfold State.syncFormed
  rw [State.sync_setSyncWord]
  by_cases reset : v = {}
  · simp only [reset, beq_self_eq_true, if_true]
    exact ⟨assocErase_sorted w rising, fun p left => listed p (List.mem_filter.1 left).1⟩
  · simp only [beq_eq_false_iff_ne.2 reset, Bool.false_eq_true, if_false]
    refine ⟨assocSet_sorted w v rising, fun p left => ?_⟩
    rcases mem_assocSet left with new | old
    · rw [new]
      exact reset
    · exact listed p old

/-- What `setData` and `setFull` leave in the sync memory, word by word. -/
theorem State.syncWord_setData {s : State} (formed : s.syncFormed) (w v x : Nat) :
    (s.setData w v).syncWord x = if x = w then { s.syncWord w with data := v % 2 ^ 64 } else s.syncWord x :=
  State.syncWord_setSyncWord formed

theorem State.syncFormed_setData {s : State} (formed : s.syncFormed) (w v : Nat) : (s.setData w v).syncFormed :=
  State.syncFormed_setSyncWord formed w _

theorem State.syncWord_setFull_ne {s : State} (formed : s.syncFormed) {w x : Nat} (other : x ≠ w) (full : Bool) (agent : Nat) :
    (s.setFull w full agent).syncWord x = s.syncWord x := by
  unfold State.setFull
  dsimp only
  split
  · rfl
  · rw [State.syncWord_setSyncWord formed, if_neg other]

theorem State.full_setFull {s : State} (formed : s.syncFormed) (w : Nat) (full : Bool) (agent : Nat) :
    ((s.setFull w full agent).syncWord w).full = full := by
  unfold State.setFull
  dsimp only
  split
  · rename_i same
    exact beq_iff_eq.1 same
  · rw [State.syncWord_setSyncWord formed, if_pos rfl]

theorem State.data_setFull {s : State} (formed : s.syncFormed) (w : Nat) (full : Bool) (agent : Nat) :
    ((s.setFull w full agent).syncWord w).data = (s.syncWord w).data := by
  unfold State.setFull
  dsimp only
  split
  · rfl
  · rw [State.syncWord_setSyncWord formed, if_pos rfl]

/-! What each operation leaves in its word and in the others (Table 14-2) -/

/-- Counting and reporting leave the sync memory alone. -/
theorem State.syncWord_countEvent (s : State) (r : OdRef) (detail detail2 w : Nat) :
    (s.countEvent r detail detail2).syncWord w = s.syncWord w := by
  rw [State.syncWord, State.countEvent, State.sync_event]
  rfl

/-- A tally word takes a new COUNT, and an F bit with it where the count has passed the TARGET (R364, R369). -/
def State.setTally (s : State) (w count agent : Nat) (full : Bool) (passes : Prop) [Decidable passes] : State :=
  let t := s.setData w (tallyTarget (s.syncWord w).data * 2 ^ 32 + count)
  if passes then t.setFull w full agent else t

theorem State.tallyAdd_eq (s : State) (w k agent : Nat) :
    let count := min (tallyCount (s.syncWord w).data + k) (2 ^ 32 - 1)
    s.tallyAdd w k agent = s.setTally w count agent true (tallyTarget (s.syncWord w).data ≤ count) := rfl

theorem State.tallySub_of_le {s : State} {w k : Nat} (held : k ≤ tallyCount (s.syncWord w).data) (agent : Nat) :
    let count := tallyCount (s.syncWord w).data - k
    s.tallySub w k agent = some (s.setTally w count agent false (count < tallyTarget (s.syncWord w).data)) :=
  if_neg held.not_gt

theorem State.tallySub_of_lt {s : State} {w k : Nat} (short : tallyCount (s.syncWord w).data < k) (agent : Nat) :
    s.tallySub w k agent = none :=
  if_pos short

/-- UNCLAIM takes the owner off its word, and what it may count touches no word (R370). -/
theorem State.syncWord_unclaim (s : State) (who : SyncOwner) (agent w v : Nat) :
    (s.syncEffect who agent w .unclaim).2.syncWord v = (s.setSyncWord w { s.syncWord w with owner := none }).syncWord v := by
  simp only [State.syncEffect]
  split
  · exact State.syncWord_countEvent _ _ _ _ v
  · rfl

section
variable {s : State} (formed : s.syncFormed)
include formed

theorem State.syncWord_setTally_ne {w v : Nat} (other : v ≠ w) (count agent : Nat) (full : Bool) (passes : Prop) [Decidable passes] :
    (s.setTally w count agent full passes).syncWord v = s.syncWord v := by
  have data (d : Nat) : (s.setData w d).syncWord v = s.syncWord v := by rw [State.syncWord_setData formed, if_neg other]
  unfold State.setTally
  dsimp only
  split
  · rw [State.syncWord_setFull_ne (State.syncFormed_setData formed w _) other, data]
  · exact data _

theorem State.data_setTally (w count agent : Nat) (full : Bool) (passes : Prop) [Decidable passes] :
    ((s.setTally w count agent full passes).syncWord w).data = (tallyTarget (s.syncWord w).data * 2 ^ 32 + count) % 2 ^ 64 := by
  unfold State.setTally
  dsimp only
  split
  · rw [State.data_setFull (State.syncFormed_setData formed w _), State.syncWord_setData formed, if_pos rfl]
  · rw [State.syncWord_setData formed, if_pos rfl]

theorem State.full_setTally (w count agent : Nat) (full : Bool) (passes : Prop) [Decidable passes] :
    ((s.setTally w count agent full passes).syncWord w).full = if passes then full else (s.syncWord w).full := by
  unfold State.setTally
  dsimp only
  split
  · rw [State.full_setFull (State.syncFormed_setData formed w _)]
  · rw [State.syncWord_setData formed, if_pos rfl]

/-- A word written and then filled or emptied. -/
theorem State.syncWord_setData_setFull (w agent : Nat) (d : BitVec 64) (full : Bool) :
    (((s.setData w d.toNat).setFull w full agent).syncWord w).data = d.toNat ∧
      (((s.setData w d.toNat).setFull w full agent).syncWord w).full = full := by
  have written := State.syncFormed_setData formed w d.toNat
  rw [State.data_setFull written, State.full_setFull written, State.syncWord_setData formed, if_pos rfl]
  exact ⟨Nat.mod_eq_of_lt d.isLt, rfl⟩

/-- An operation leaves every other word as it was. -/
theorem State.syncWord_syncEffect_ne {w v : Nat} (other : v ≠ w) (who : SyncOwner) (agent : Nat) (op : SyncOp) :
    (s.syncEffect who agent w op).2.syncWord v = s.syncWord v := by
  have data (d : Nat) : (s.setData w d).syncWord v = s.syncWord v := by rw [State.syncWord_setData formed, if_neg other]
  have full (b : Bool) : (s.setFull w b agent).syncWord v = s.syncWord v := State.syncWord_setFull_ne formed other b agent
  have both (d : Nat) (b : Bool) : ((s.setData w d).setFull w b agent).syncWord v = s.syncWord v :=
    (State.syncWord_setFull_ne (State.syncFormed_setData formed w d) other b agent).trans (data d)
  have owner (o : Option SyncOwner) : (s.setSyncWord w { s.syncWord w with owner := o }).syncWord v = s.syncWord v := by
    rw [State.syncWord_setSyncWord formed, if_neg other]
  cases op with
  | read => rfl
  | write d => exact data _
  | readFf => rfl
  | readFe => exact full _
  | writeEf d => exact both _ _
  | writeXf d => exact both _ _
  | setEmpty => exact full _
  | setFull => exact full _
  | fetchAdd k => exact data _
  | cas a b =>
    simp only [State.syncEffect]
    split
    · exact data _
    · rfl
  | tallyAdd k =>
    simp only [State.syncEffect, State.tallyAdd_eq]
    exact State.syncWord_setTally_ne formed other _ _ _ _
  | tallySub k =>
    by_cases held : k.toNat ≤ tallyCount (s.syncWord w).data
    · simp only [State.syncEffect, State.tallySub_of_le held]
      exact State.syncWord_setTally_ne formed other _ _ _ _
    · simp only [State.syncEffect, State.tallySub_of_lt (Nat.lt_of_not_le held)]
      exact State.syncWord_countEvent _ _ _ _ _
  | status => rfl
  | claim => exact owner _
  | unclaim => rw [State.syncWord_unclaim, owner]

end

/-- Settles O17, operation by operation. -/
theorem syncEffects : Obligations.SyncEffects := by
  intro s who agent w a b formed
  have written (d : Nat) : (s.setData w d).syncWord w = { s.syncWord w with data := d % 2 ^ 64 } := by
    rw [State.syncWord_setData formed, if_pos rfl]
  have owned (o : Option SyncOwner) : (s.setSyncWord w { s.syncWord w with owner := o }).syncWord w =
      { s.syncWord w with owner := o } := by
    rw [State.syncWord_setSyncWord formed, if_pos rfl]
  have word (v : BitVec 64) : v.toNat % 2 ^ 64 = v.toNat := Nat.mod_eq_of_lt v.isLt
  refine ⟨fun op v other => State.syncWord_syncEffect_ne formed other who agent op, ⟨rfl, rfl⟩, ?write, ⟨rfl, rfl⟩, ?readFe,
    ?writeEf, ?writeXf, ?setEmpty, ?setFull, ?fetchAdd, ?cas, ?tallyAdd, ?tallySub, ?underflow, ⟨rfl, rfl⟩, ⟨rfl, owned _⟩,
    ?unclaim⟩
  case write => simp only [State.syncEffect, written, word, and_self]
  case readFe => exact ⟨rfl, State.data_setFull formed w false agent, State.full_setFull formed w false agent⟩
  case writeEf => exact State.syncWord_setData_setFull formed w agent a true
  case writeXf => exact State.syncWord_setData_setFull formed w agent a true
  case setEmpty => exact ⟨State.data_setFull formed w false agent, State.full_setFull formed w false agent⟩
  case setFull => exact ⟨State.data_setFull formed w true agent, State.full_setFull formed w true agent⟩
  case fetchAdd => simp only [State.syncEffect, written, and_self]
  case cas =>
    by_cases same : (s.syncWord w).data = a.toNat
    · simp only [State.syncEffect, same, beq_self_eq_true, if_true, written, word, and_self]
    · simp [State.syncEffect, same]
  case tallyAdd =>
    simp only [State.syncEffect, State.tallyAdd_eq, State.data_setTally formed, State.full_setTally formed, true_and]
    split <;> simp_all
  case tallySub =>
    intro held
    simp only [State.syncEffect, State.tallySub_of_le held, State.data_setTally formed, State.full_setTally formed, true_and]
    split <;> simp_all
  case underflow =>
    intro short
    simp only [State.syncEffect, State.tallySub_of_lt short, State.syncWord_countEvent, and_self]
  case unclaim => simp only [State.syncWord_unclaim, owned, and_self]

/-! The rows of the threads and of the sync window (R364, R367, R372) -/

section
variable {s : State} {t : Thread}

/-- A free thread of a core that runs performs its operation at once (R364). -/
theorem State.threadOp_free (free : s.threadBusy t = false) (runs : (s.core t.core).gated = false) (room : s.logFull t.core = false)
    (w : Nat) (op : SyncOp) : s.threadOp t w op = s.performSync t w op := by
  simp [State.threadOp, free, State.wakeCore, runs, room]

/-- An operation whose condition is not met registers its thread as a waiter (R364). -/
theorem State.performSync_unmet {w : Nat} {op : SyncOp} (unmet : SyncOp.met op (s.syncWord w).full = false) :
    s.performSync t w op = { s with sync := { s.sync with waiters := s.sync.waiters ++
      [{ who := t, word := w, op := op, frame := s.frame }] } } := by
  simp [State.performSync, unmet]

/-- A thread that waits leaves its wait with CANCELLED (R372). -/
theorem exec_waitCancel_waiting {y : Waiter} (up : s.mainUp = true) (runs : (s.core t.core).frozen = none)
    (waits : s.waiter? t = some y) :
    exec (.waitCancel t) s = .next ((((s.dropWaiter t).logEvent t.core (.sync t.thread (noteCode 4))).giveResult t y.word
      (noteCode 4)).observeSync) := by
  simp [exec, execWaitCancel, State.waitCancel, up, runs, waits]

end

section
variable {s : State} {p : CwPath} (opened : s.cwOpen p = true)
include opened

/-- A read of the sync window, by DEBUG too (R367). -/
theorem State.hostSync_read (w : Nat) (op : SyncOp) (f : Nat → Nat) :
    s.hostSync p w op true f =
      ((s.syncEffect (.agent p.agent) p.agent.code w op).2.send
        (.cwCpl p none 0 (f (s.syncEffect (.agent p.agent) p.agent.code w op).1))).wake w := by
  simp [State.hostSync, opened]

/-- A write of the sync window by a host (R367). -/
theorem State.hostSync_write (host : p ≠ .debug) (w : Nat) (op : SyncOp) (f : Nat → Nat) :
    s.hostSync p w op false f =
      ((s.syncEffect (.agent p.agent) p.agent.code w op).2.send (.cwCpl p none 0 0)).wake w := by
  simp [State.hostSync, opened, host]

end

/-- Settles O16: an operation of a thread is `State.threadOp`, one of a host `State.hostSync`. -/
theorem syncOperationsRun : Obligations.SyncOperationsRun := by
  intro s t w a b
  refine ⟨fun free runs room => ?_, fun p opened => ?_, fun y up runs waits => exec_waitCancel_waiting up runs waits⟩
  · have performs (op : SyncOp) : Host.Outcome.next (φ := Fault) (ρ := Refusal) (s.threadOp t w.toNat op) =
        .next (s.performSync t w.toNat op) :=
      congrArg Host.Outcome.next (State.threadOp_free free runs room w.toNat op)
    exact ⟨fun _ => performs .read, performs (.write a), performs .readFf, performs .readFe, performs (.writeEf a),
      performs (.writeXf a), performs .setEmpty, performs .setFull, performs (.fetchAdd a), performs (.cas a b),
      performs (.tallyAdd a), performs (.tallySub a), performs .status, performs .claim, performs .unclaim⟩
  · refine ⟨?wide, ?narrow, ?status, fun host => ⟨?writeXf, ?setEmpty, ?setFull, ?claim⟩⟩
    case wide | narrow =>
      simp only [exec, execSyncRead, State.syncFrom, State.hostSync_read opened, State.syncEffect, if_true, Bool.false_eq_true, if_false]
    case status => simp only [exec, execSyncStatus, State.syncFrom, State.hostSync_read opened, State.syncEffect]
    case writeXf => simp only [exec, execWriteXf, State.syncFrom, State.hostSync_write opened host, State.syncEffect]
    case setEmpty => simp only [exec, execSetEmpty, State.syncFrom, State.hostSync_write opened host, State.syncEffect]
    case setFull => simp only [exec, execSetFull, State.syncFrom, State.hostSync_write opened host, State.syncEffect]
    case claim => simp only [exec, execClaim, State.syncFrom, State.hostSync_write opened host, State.syncEffect]

/-- Settles O18: none of the three conditions is met. -/
theorem unmetConditionWaits : Obligations.UnmetConditionWaits := by
  intro s t w a free runs room
  have waits {op : SyncOp} (unmet : SyncOp.met op (s.syncWord w.toNat).full = false) :=
    (State.threadOp_free free runs room w.toNat op).trans (State.performSync_unmet unmet)
  exact ⟨fun empty => ⟨congrArg _ (waits (op := .readFf) empty), congrArg _ (waits (op := .readFe) empty)⟩,
    fun full => congrArg _ (waits (op := .writeEf a) (by simp [SyncOp.met, full]))⟩

/-! SYNC_OWNER_RESET (R373) -/

/-- In a list whose keys rise, a value is under its key just when the pair is listed. -/
theorem assoc_eq_some_iff {α : Type} {l : List (Nat × α)} (rising : (l.map (·.1)).Pairwise (· < ·)) {k : Nat} {v : α} :
    assoc l k = some v ↔ (k, v) ∈ l := by
  induction l with
  | nil => simp [assoc]
  | cons p l ih =>
    obtain ⟨first, rest⟩ := List.pairwise_cons.1 rising
    by_cases here : p.1 = k
    · have absent : (k, v) ∉ l := fun listed => absurd (first k (List.mem_map.2 ⟨_, listed, rfl⟩)) (by simp [here])
      simp [assoc, here, absent, Prod.ext_iff, eq_comm]
    · have other : (k, v) ≠ p := fun same => here (congrArg Prod.fst same).symm
      have tail : assoc (p :: l) k = assoc l k := by simp [assoc, here]
      rw [tail, ih rest, List.mem_cons, or_iff_right other]

section
variable {s : State} (formed : s.syncFormed)
include formed

theorem State.mem_ownedBy_iff {a : Agent} {w : Nat} : w ∈ s.ownedBy a ↔ (s.syncWord w).owner = some (.agent a) := by
  have listed {x : SyncWord} := assoc_eq_some_iff formed.1 (k := w) (v := x)
  unfold State.ownedBy State.syncWord
  constructor
  · intro owned
    obtain ⟨p, owns, rfl⟩ := List.mem_map.1 owned
    obtain ⟨there, owner⟩ := List.mem_filter.1 owns
    rw [listed.2 there]
    exact beq_iff_eq.1 owner
  · intro owner
    cases found : assoc s.sync.words w with
    | none => simp [found] at owner
    | some x =>
      rw [found] at owner
      exact List.mem_map.2 ⟨(w, x), List.mem_filter.2 ⟨listed.1 found, by simpa using owner⟩, rfl⟩

/-- The owners of a list of words taken off. -/
theorem State.syncWord_foldl_unowned (ws : List Nat) (v : Nat) :
    (ws.foldl (fun s w => let x := s.syncWord w; s.setSyncWord w { x with owner := none }) s).syncWord v =
      if v ∈ ws then { s.syncWord v with owner := none } else s.syncWord v := by
  induction ws generalizing s with
  | nil => rfl
  | cons w ws ih =>
    rw [List.foldl_cons, ih (State.syncFormed_setSyncWord formed w _), State.syncWord_setSyncWord formed]
    by_cases here : v = w <;> by_cases later : v ∈ ws <;> simp [here, later]

end

/-- Completing a wait leaves every word alone. -/
theorem State.syncWords_finishWait (s : State) (y : Waiter) (code : Nat) : (s.finishWait y code).sync.words = s.sync.words := by
  have woken (u : State) (c : Fin 20) : (u.wakeCore c).sync.words = u.sync.words := by
    unfold State.wakeCore
    dsimp only
    split_ifs <;> rfl
  have given (u : State) (t : Thread) (w n : Nat) : (u.giveResult t w n).sync.words = u.sync.words := by
    unfold State.giveResult
    split_ifs <;> rfl
  unfold State.finishWait State.deliver
  dsimp only
  split_ifs
  · rfl
  · exact woken _ _
  · exact (given _ _ _ _).trans (woken _ _)

theorem State.syncWord_ownerReset {s : State} (formed : s.syncFormed) (a : Agent) (v : Nat) :
    (s.ownerReset a).syncWord v =
      if (s.syncWord v).owner = some (.agent a) then { s.syncWord v with owner := none } else s.syncWord v := by
  have ends (u : State) (l : List Waiter) : (l.foldl (fun s y => s.finishWait y (noteCode 3)) u).syncWord v = u.syncWord v :=
    foldl_keeps (fun u => u.syncWord v) (fun u y => congrArg (fun words => (assoc words v).getD {}) (u.syncWords_finishWait y _)) l u
  simp only [State.ownerReset, ends, State.syncWord_foldl_unowned formed, State.mem_ownedBy_iff formed]

theorem State.sync_wakeUp (s : State) : s.wakeUp.sync = s.sync := by
  unfold State.wakeUp
  split <;> rfl

/-- Settles O19: the words are those of `State.ownerReset`, which takes effect in the row itself (log entry 24). -/
theorem ownerResetUnclaims : Obligations.OwnerResetUnclaims := by
  intro s agent value formed admitted
  refine ⟨fun own => ⟨_, rfl, fun w => ?_⟩, fun other => ?_⟩
  · have takes : s.odTakes agent Od.syncOwnerReset.key [value] (fun s => s.ownerResetWrite agent value.toNat) :=
      ⟨admitted, by simp [State.ownerResetWrite, own]⟩
    have words : (s.odDone agent fun s => s.ownerResetWrite agent value.toNat).syncWord w = (s.ownerReset agent).syncWord w := by
      have kept : (s.odDone agent fun s => s.ownerResetWrite agent value.toNat).sync = (s.ownerReset agent).sync := by
        simp only [State.odDone, State.ownerResetWrite, own, beq_self_eq_true, if_true]
        exact State.sync_wakeUp _
      rw [State.syncWord, kept]
      rfl
    rw [State.odRow_takes takes, words, State.syncWord_ownerReset formed]
    split <;> exact ⟨rfl, rfl, rfl⟩
  · have refused : (s.ownerResetWrite agent value.toNat).1 = abAccess := by simp [State.ownerResetWrite, other]
    have answer := State.odWriteWith_refused (f := fun s => s.ownerResetWrite agent value.toNat) admitted (refused.trans_ne (by decide))
    simp only [exec, execSyncOwnerReset, State.odRow, answer, refused]

/-! The rows of the cores and of the sync memory's faults (R361, R367, R368, R373, R375, R377) -/

section
variable {s : State} {core : Fin 20}

theorem exec_syncBadCmd_unknown {path : CwPath} {v : BitVec 32} (opened : s.cwOpen path = true) (host : path ≠ .debug)
    (unknown : v = 0 ∨ 4 < v.toNat) (w : BitVec 16) :
    exec (.syncBadCmd path w v) s = .next ((s.bump Od.syncBadCmdCount).send (.cwCpl path none 0 0)) := by
  have outside : ¬ (1 ≤ v.toNat ∧ v.toNat ≤ 4) := by
    rcases unknown with rfl | above
    · decide
    · omega
  simp [exec, execSyncBadCmd, opened, host, outside]

/-- An uncorrectable word is emptied, and its waiters end with WORD_LOST (R368). -/
theorem exec_syncWordUe_up (up : s.mainUp = true) (w : BitVec 16) :
    let x := s.syncWord w.toNat
    let t := (s.bump Od.syncUeCount).setSyncWord w.toNat { x with
      data := 0, full := false, owner := none, lastFrame := if x.full then s.frameNo else x.lastFrame }
    exec (.syncWordUe w) s = .next (((s.sync.waiters.filter (fun y => y.word == w.toNat)).foldl
      (fun s y => s.finishWait y (noteCode 2)) t).observeSync.event Od.syncUeCount w.toNat) := by
  simp only [exec, execSyncWordUe, up]
  rfl

theorem exec_syncOwnerReset_takes {agent : Agent} {value : BitVec 8}
    (taken : s.odTakes agent Od.syncOwnerReset.key [value] (fun s => s.ownerResetWrite agent value.toNat)) :
    exec (.syncOwnerReset agent value) s = .next (s.odDone agent fun s => s.ownerResetWrite agent value.toNat) :=
  congrArg (Host.Outcome.next (φ := Fault) (ρ := Refusal)) (State.odRow_takes taken)

theorem exec_coreGate_quiet {idle : BitVec 4} (up : s.mainUp = true) (lends : s.cfg Od.lendEnable = 1)
    (runs : (s.core core).frozen = none) (quiet : s.coreQuiet core idle = true) :
    exec (.coreGate core idle false) s = .next (s.setCore core fun x => { x with gated := true }) := by
  simp [exec, execCoreGate, up, lends, runs, quiet]

/-- A core that faults outside a trial freezes (R361). -/
theorem State.coreFault_running (up : s.mainUp = true) (runs : (s.core core).frozen = none)
    (untried : (s.bump Od.docentFaultCount).trialing = false) :
    s.coreFault core = (s.bump Od.docentFaultCount).setCore core fun x => { x with
      frozen := some (s.frame, x.phys), stalled := [], gated := false, waking := false, pinSwap := false } := by
  simp only [State.coreFault, up, runs, untried]
  rfl

/-- The repair frames have passed and a spare is left: the core runs on it (R361). -/
theorem exec_docentRepair_spare {fails : Bool} {lightest : Fin 20} {f phys spare : Nat} {rest : List Nat}
    (frozen : (s.core core).frozen = some (f, phys)) (due : f + 2 ≤ s.frame) (fault : (s.core core).pinSwap = false)
    (spares : s.docent.spares = spare :: rest) :
    exec (.docentRepair core fails lightest) s =
      .next (((State.odSet { s with docent := { s.docent with spares := rest } } Od.docentSparesLeft rest.length).remapCore
        core spare).settleCore phys (fails || s.pinned (partId 7 phys))) := by
  simp [exec, execDocentRepair, frozen, State.lapsed, due, fault, spares]

end

/-- Settles O20, row by row; that the first spare is taken is log entry 147. -/
theorem docentCompletes : Obligations.DocentCompletes := fun _ _ =>
  ⟨fun _ w _ opened host unknown => exec_syncBadCmd_unknown opened host unknown w,
   fun w up => exec_syncWordUe_up up w,
   fun _ _ => exec_syncOwnerReset_takes,
   fun _ => rfl,
   fun _ => exec_coreGate_quiet,
   fun up runs untried =>
    have freezes := congrArg (Host.Outcome.next (φ := Fault) (ρ := Refusal)) (State.coreFault_running up runs untried)
    ⟨freezes, fun due => (congrArg Host.Outcome.next (if_pos due)).trans freezes,
     fun early => congrArg Host.Outcome.next (if_neg early.not_ge)⟩,
   fun _ _ _ _ _ _ => exec_docentRepair_spare⟩

end Sys2Proof.Machine
end

section
/-!
PROOFS for chapter 14, the mailboxes (R379 to R382): one lemma for each row, by what its checks let through.
-/
namespace Sys2Proof.Machine

section
variable {s : State} {ch : Channel} {path : CwPath} {size : BitVec 8} {value : BitVec 32}

/-- A host access of a mailbox page that its status admits is performed and answered (R379). -/
theorem State.mboxAccess_admitted {offset size : Nat} (opened : s.cwOpen path = true) (admitted : mboxStatus path ch offset size = 0)
    (f : State → State) : s.mboxAccess path ch offset size f = (f s).send (.cwCpl path none 0 0) := by
  simp [State.mboxAccess, opened, admitted]

theorem exec_h2eDoorbell_admitted (opened : s.cwOpen path = true) (admitted : mboxStatus path ch 0x200 size.toNat = 0)
    (corrupt : Bool) : exec (.h2eDoorbell path ch size value corrupt) s =
      .next ((s.wakeUp.ringH2e ch path.agent.code value corrupt).send (.cwCpl path none 0 0)) :=
  congrArg Host.Outcome.next (State.mboxAccess_admitted opened admitted _)

/-- While no message is under way the area takes the four bytes (R381). -/
theorem exec_h2eMsg_idle {offset : BitVec 8} (opened : s.cwOpen path = true)
    (admitted : mboxStatus path ch offset.toNat size.toNat = 0) (idle : s.mboxes[ch].h2eBusy = false) :
    exec (.h2eMsg path ch offset size value) s = .next ((s.setMbox ch fun m => { m with
      h2eMsg := areaWrite m.h2eMsg offset.toNat (leBytes 4 value.toNat),
      writers := addOnce m.writers path.agent.code }).send (.cwCpl path none 0 0)) := by
  simp only [exec, execH2eMsg, State.mboxAccess_admitted opened admitted, State.writeH2e, idle]
  rfl

theorem exec_e2hAck_valid (opened : s.cwOpen path = true) (admitted : mboxStatus path ch 0x210 size.toNat = 0)
    (valid : s.mboxes[ch].e2hValid = true) :
    exec (.e2hAck path ch size value) s = .next ((s.setMbox ch fun m =>
      { m with e2hValid := false, e2hFrame := none, e2hCode := bitsOf value 15 0 }).send (.cwCpl path none 0 0)) := by
  simp only [exec, execE2hAck, State.mboxAccess_admitted opened admitted, valid]
  rfl

/-- The acknowledge of the message under way (R380). -/
theorem exec_mboxAck_current {seq : BitVec 16} (code : BitVec 16) (busy : s.mboxes[ch].h2eBusy = true)
    (current : s.mboxes[ch].snapshot.map msgSeq = some seq.toNat) :
    exec (.mboxAck ch seq code) s = .next (s.ackH2e ch seq.toNat code.toNat) := by
  simp [exec, execMboxAck, busy, current, -Fin.getElem_fin, -Option.map_eq_some_iff]

/-- The acknowledge that follows its timeout (R382). -/
theorem exec_mboxAck_late {seq : BitVec 16} (code : BitVec 16) (idle : s.mboxes[ch].h2eBusy = false)
    (late : seq.toNat ∈ s.mboxes[ch].late) :
    exec (.mboxAck ch seq code) s = .next ((s.bump Od.mboxLateAckCount).setMbox ch fun m =>
      { m with late := m.late.erase seq.toNat }) := by
  simp [exec, execMboxAck, idle, late, -Fin.getElem_fin]

theorem exec_e2hSend_bits (up : s.mainUp = true) (bits : BitVec 32) :
    exec (.e2hSend ch none bits) s = .next (s.ringE2h ch.val bits) := by
  simp [exec, execE2hSend, up]

theorem exec_e2hSend_message (up : s.mainUp = true) (bits : BitVec 32) (bytes : Bytes) (free : s.mboxes[ch].e2hValid = false) :
    exec (.e2hSend ch (some bytes) bits) s = .next ((s.setMbox ch fun m => { m with
      e2hMsg := areaWrite [] 0 (stampMsg (areaBytes (areaWrite [] 0 (bytes.take 256))) Agent.docent.code
        [Agent.docent.code]), e2hValid := true, e2hFrame := some s.frame }).ringE2h ch.val bits) := by
  simp [exec, execE2hSend, up, free, -Fin.getElem_fin]

/-- A message to the host that is not acknowledged in time; its report to firmware is log entry 26's empty output (R382). -/
theorem exec_mboxTimeout_e2h {f : Nat} (valid : s.mboxes[ch].e2hValid = true) (since : s.mboxes[ch].e2hFrame = some f)
    (due : f + s.cfg Od.mboxTimeoutFrames ≤ s.frame) :
    exec (.mboxTimeout ch true) s = .next ((((s.bump Od.mboxTimeoutCount).setMbox ch fun m =>
      { m with e2hValid := false, e2hTimeout := true, e2hFrame := none }).raise (.e2hTimeout ch.val)).send
        (.mailbox ch.val [])) := by
  simp [exec, execMboxTimeout, State.lapsed, valid, since, due, -Fin.getElem_fin]

/-- A message of the host that firmware does not acknowledge in time ends with code 0xFFFF (R382). -/
theorem exec_mboxTimeout_h2e {f seq : Nat} (busy : s.mboxes[ch].h2eBusy = true) (since : s.mboxes[ch].h2eFrame = some f)
    (current : s.mboxes[ch].snapshot.map msgSeq = some seq) (due : f + s.cfg Od.mboxTimeoutFrames ≤ s.frame) :
    exec (.mboxTimeout ch false) s = .next (((s.setMbox ch fun m => { m with late := addOnce m.late seq }).bump
      Od.mboxTimeoutCount).ackH2e ch seq 0xFFFF) := by
  simp [exec, execMboxTimeout, State.lapsed, busy, since, current, due, -Fin.getElem_fin, -Option.map_eq_some_iff]

end

/-- Settles O21, row by row; the empty output of a timeout is log entry 26. -/
theorem mailboxCompletes : Obligations.MailboxCompletes := fun _ _ =>
  ⟨fun _ _ _ opened =>
    ⟨fun corrupt admitted => exec_h2eDoorbell_admitted opened admitted corrupt,
     fun _ => exec_h2eMsg_idle opened,
     exec_e2hAck_valid opened⟩,
   fun _ => exec_mboxAck_current,
   fun _ => exec_mboxAck_late,
   fun bits up => exec_e2hSend_bits up bits,
   fun bits bytes up => exec_e2hSend_message up bits bytes,
   fun _ => exec_mboxTimeout_e2h,
   fun _ _ => exec_mboxTimeout_h2e⟩

end Sys2Proof.Machine
end

section
/-!
PROOFS for chapter 15, the power supplies and the stages (R386 to R400, R467, R468). What a start and a loss of power
leave of the time, the stage, the field side and the copies of the key slots; then one lemma for each row.
-/
namespace Sys2Proof.Machine

/-! What the steps of a start, and the losses of power, leave alone -/

/-- The time unit and the stage. -/
def State.started (s : State) : TimeUnit × Stage := (s.time, s.curator.stage)

theorem State.started_event (s : State) (r : OdRef) (detail detail2 : Nat) : (s.event r detail detail2).started = s.started :=
  congrArg (fun kept => (kept.1, kept.2.1)) (s.unreported_event r detail detail2)

theorem State.started_loadSlot (s : State) (i : Nat) (k : KeySlot) : (s.loadSlot i k).started = s.started := by
  have epoch (u : State) (passed : Prop) [Decidable passed] (n : Nat) :
      (if passed then u.event Od.ivEpoch n else u).started = u.started := by
    split
    · exact State.started_event _ _ _ _
    · rfl
  unfold State.loadSlot
  dsimp only
  split
  · rfl
  split
  · exact State.started_event _ _ _ _
  split
  · exact epoch _ _ _
  · exact epoch _ _ _

/-- With no copy that fails, a kept slot is loaded from one of its copies (R328). -/
theorem State.started_loadKept (s : State) (i : Nat) : (s.loadKept [] i).started = s.started := by
  unfold State.loadKept
  cases assoc s.sec.copyA i with
  | some k => exact State.started_loadSlot _ _ _
  | none =>
    cases assoc s.sec.copyB i with
    | some k => exact State.started_loadSlot _ _ _
    | none => rfl

/-- The kept slots, loaded in turn until an alarm stands. -/
theorem State.started_foldl_loadKept (s : State) (l : List Nat) :
    (l.foldl (fun s i => if s.alarmed then s else s.loadKept [] i) s).started = s.started :=
  foldl_keeps State.started (fun s i => by
    split
    · rfl
    · exact State.started_loadKept s i) l s

theorem State.started_deriveTransport (s : State) : s.deriveTransport.started = s.started := by
  unfold State.deriveTransport
  dsimp only
  split <;> rfl

/-- The choice of the image that runs counts bad images only (R403). -/
theorem State.started_bootSlot (s : State) : s.bootSlot.2.started = s.started := by
  unfold State.bootSlot
  induction s.bootOrder generalizing s with
  | nil => rfl
  | cons k rest ih =>
    rw [List.foldr_cons]
    split
    · split
      · rfl
      · exact ih _
    · exact ih _

theorem State.started_sendConfig (s : State) : s.sendConfig.started = s.started := rfl

/-- What a loss of the main rail leaves of the always-on domain: the field side and the copies of the key slots. -/
def State.unswitched (s : State) : FieldSide × List (Nat × KeySlot) × List (Nat × KeySlot) :=
  (s.curator.field, s.sec.copyA, s.sec.copyB)

theorem State.unswitched_loseMain (s : State) : s.loseMain.unswitched = s.unswitched := by
  unfold State.loseMain
  dsimp only
  rw [State.settleMaps_keeps State.unswitched (fun _ _ _ => rfl) (fun _ _ _ => rfl),
    State.reloadScores_keeps State.unswitched fun _ _ => rfl]
  split <;> rfl

/-! The rows -/

section
variable {s : State}

theorem exec_mainPowerGood_down (down : s.curator.powerGood = false) (cool : s.elec.shutdown = none) :
    exec .mainPowerGood s = .next s.raiseMain := by
  simp [exec, execMainPowerGood, down, cool]

/-- Stage A with the battery domain kept: the values the battery domain holds, the time, and the stage (R386, R389). -/
def State.wakeA (s : State) (obs : StageAObs) : State :=
  let secs := if obs.valid then obs.seconds.toNat else 0
  let standing := s.battery.alarmStanding
  let s := State.setBattery { s with od := s.battery.store } fun b => { b with canary := batteryCanary }
  let s := { s with time := { frameExt := secs * 10000, state := if obs.valid then .coarse else .unset } }
  let s := s.setBattery fun b => { b with seconds := secs, secondsValid := obs.valid }
  let us := s.free.1 % 2001
  let s := s.free.2.setCurator fun c => { c with
    stage := .a, vbatLost := false, stageUs := vmod c.stageUs 0 (fun _ => us),
    powerAt := if c.powerGood then some (secs * 1000000000 : Int) else none }
  s.setSec fun x => { x with alarm := standing }

/-- The keys of a start: ROOT and STORE, the kept slots, FIELD_TRANSPORT, until an alarm stands (R323, R328). -/
def State.startKeys (s : State) : State :=
  let s := if s.alarmed then s else s.deriveRoot
  let s := if s.alarmed then s else [1, 2, 3, 7].foldl (fun s i => if s.alarmed then s else s.loadKept [] i) s
  if s.alarmed then s else s.deriveTransport

/-- The rest of a start: the image that runs, the scores, the counts of the maps, and the field side's configuration (R403, R404). -/
def State.startImage (s : State) : State :=
  ((s.bootSlot.2.setCurator fun c => { c with slot := s.bootSlot.1 }).reloadScores.settleMaps).sendConfig

theorem State.started_startKeys (s : State) : s.startKeys.started = s.started := by
  have root : s.deriveRoot.started = s.started := rfl
  simp only [State.startKeys, apply_ite State.started, State.started_deriveTransport, State.started_foldl_loadKept, root, ite_self]

theorem State.started_startImage (s : State) : s.startImage.started = s.started := by
  rw [State.startImage, State.started_sendConfig, State.settleMaps_keeps State.started (fun _ _ _ => rfl) (fun _ _ _ => rfl),
    State.reloadScores_keeps State.started fun _ _ => rfl]
  exact State.started_bootSlot s

theorem exec_stageA_kept {obs : StageAObs} (off : s.curator.stage = .none) (dip : obs.dip = false)
    (canary : s.battery.canary = batteryCanary) (regions : obs.bad = []) (puf : obs.pufOk = true) (slots : obs.badSlots = []) :
    exec (.stageA obs) s = .next (s.wakeA obs).startKeys.startImage := by
  have kept : (obs.dip || s.battery.canary != batteryCanary) = false := by simp [dip, canary]
  have fresh : ¬ (s.curator.stage != .none) = true := by simp [off]
  simp -zeta only [exec, execStageA, if_neg fresh]
  refine congrArg Host.Outcome.next ?_
  extract_lets +onlyGivenNames lost
  have intact : lost = false := kept
  clear_value lost
  subst intact
  simp -zeta only [regions, puf, slots, Bool.not_false, Bool.and_true, Bool.or_false, Bool.or_true, Bool.false_eq_true, if_true, if_false,
    List.map_nil, List.eraseDups_nil, List.filter_nil]
  rfl

/-- What a loss of the always-on rail leaves of a state `s` whose main domain is already lost in `t`: the battery domain, whose seconds are
those of TIME_NS in `s` (log entry 77), and the field side (R468). -/
def State.onBattery (s t : State) : State :=
  let u := t.setBattery fun b => { b with
    seconds := s.timeNs / 1000000000 % 2 ^ 48, secondsValid := s.curator.stage != .none && s.time.state != .unset || b.secondsValid }
  { u with
    time := {}, dict := {}, curator := { field := u.curator.field }, elec := {}, od := u.battery.store,
    sec := { copyA := u.sec.copyA, copyB := u.sec.copyB, pairMap := u.sec.pairMap, pipesRetired := u.sec.pipesRetired,
             pairsRetired := u.sec.pairsRetired } }

theorem exec_aonPowerLoss : exec .aonPowerLoss s = .next (s.onBattery s.loseMain) := rfl

theorem State.onBattery_keeps {t : State} (kept : t.unswitched = s.unswitched) :
    (s.onBattery t).curator.stage = .none ∧ (s.onBattery t).curator.field = s.curator.field ∧
      (s.onBattery t).od = (s.onBattery t).battery.store ∧
      (s.onBattery t).battery.seconds = s.timeNs / 1000000000 % 2 ^ 48 ∧ (s.onBattery t).sec.copyA = s.sec.copyA ∧
      (s.onBattery t).sec.copyB = s.sec.copyB := by
  simp only [State.unswitched, Prod.mk.injEq] at kept
  obtain ⟨field, copyA, copyB⟩ := kept
  exact ⟨rfl, field, rfl, rfl, copyA, copyB⟩

theorem exec_stageB_trained (obs : StageBObs) (stage : s.curator.stage = .a) (power : s.curator.powerGood = true)
    (free : s.curator.held = none) (trained : s.carrier.mainband = true) (kept : s.curator.vbatLost = false) :
    exec (.stageB obs) s = .next ((s.loadRemap obs.badEntries).advance .b) := by
  simp [exec, execStageB, stage, power, free, trained, kept]

theorem exec_stageC_met (stage : s.curator.stage = .b) (free : s.curator.held = none) (met : s.unmetC = 0) :
    exec .stageC s = .next (s.advance .c) := by
  simp [exec, execStageC, stage, free, met]

/-- The deadline has passed before: Stage C with its unmet conditions latched (R392). -/
theorem exec_stageC_late (stage : s.curator.stage = .b) (free : s.curator.held = none) (unmet : s.unmetC ≠ 0)
    (late : s.curator.deadline = true) : exec .stageC s = .next (s.latchUnmet.advance .c) := by
  simp [exec, execStageC, stage, free, unmet, late]

theorem exec_stageD_checked (stage : s.curator.stage = .c) (free : s.curator.held = none) (checked : s.curator.checking = []) :
    exec .stageD s = .next (s.advance .d) := by
  simp [exec, execStageD, stage, free, checked]

/-- 3 s after main power-good (R391): at Stage B the engine goes on to Stage C with what is unmet latched. -/
theorem exec_stageCDeadline_due (power : s.curator.powerGood = true) (first : s.curator.deadline = false)
    (due : 3000000 ≤ s.sincePower) (started : s.curator.stage ≠ .none) :
    let u := (s.setCurator fun c => { c with deadline := true }).observeSync
    exec .stageCDeadline s = .next (
      if u.curator.stage = .b then
        if u.latchUnmet.curator.held.isSome then u.latchUnmet else u.latchUnmet.advance .c
      else u) := by
  simp [exec, execStageCDeadline, power, first, due, started]

theorem exec_holdRelease_free {st : Stage} (held : s.curator.held = some st) (free : s.holds st = []) (boundary : s.time.cycle = 0) :
    exec .holdRelease s = .next (s.advance st) := by
  simp [exec, execHoldRelease, held, free, boundary]

theorem exec_vbatLow_started (started : s.curator.stage ≠ .none) : exec .vbatLow s = .next (s.countEvent Od.vbatLowCount) := by
  simp [exec, execVbatLow, started]

/-- The counters marked P are stored once a second (R400). -/
theorem exec_pCounterStore_due (boundary : s.time.cycle = 0) (second : s.frame % 10000 = 0) (started : s.curator.stage ≠ .none)
    (runs : s.curatorPaused = false) :
    exec .pCounterStore s = .next (s.setBattery fun b => { b with store := s.od.filter (fun p => match odRowOf p.1 with
      | some r => r.persist
      | none => false) }) := by
  have due : (s.time.cycle == 0 && s.frame % 10000 == 0 && s.curator.stage != .none && !s.curatorPaused) = true := by
    simp [boundary, second, started, runs]
  exact congrArg Host.Outcome.next (if_pos due)

theorem exec_startHold_takes {agent : Agent} {v : BitVec 8}
    (taken : s.odTakes agent Od.startHold.key [v] (fun s => s.startHold v.toNat)) :
    exec (.startHold agent v) s = .next (s.odDone agent fun s => s.startHold v.toNat) :=
  congrArg Host.Outcome.next (State.odRow_takes taken)

theorem exec_engineId_takes {agent : Agent} {v : BitVec 32}
    (taken : s.odTakes agent Od.engineId.key (leBytes 4 v.toNat) (fun s => s.setEngineId v.toNat)) :
    exec (.engineId agent v) s = .next (s.odDone agent fun s => s.setEngineId v.toNat) :=
  congrArg Host.Outcome.next (State.odRow_takes taken)

theorem exec_pufHelper_takes {agent : Agent} {value : Bytes} {good : Bool}
    (taken : s.odTakes agent Od.pufHelper.key value (fun s => s.setHelper value good)) :
    exec (.pufHelper agent value good) s = .next (s.odDone agent fun s => s.setHelper value good) :=
  congrArg Host.Outcome.next (State.odRow_takes taken)

end

/-- Settles O47, row by row; the retention counter's value at a loss of the always-on rail is log entry 77. -/
theorem stagesComplete : Obligations.StagesComplete := by
  intro s
  refine ⟨exec_mainPowerGood_down, rfl, ⟨_, exec_aonPowerLoss, State.onBattery_keeps s.unswitched_loseMain⟩,
    fun obs off dip canary _ regions puf slots => ⟨_, exec_stageA_kept off dip canary regions puf slots, ?stageA⟩,
    exec_stageB_trained, exec_stageC_met, exec_stageD_checked, fun power first due => ⟨fun atA => ?early, fun atB was free => ?late⟩,
    exec_stageC_late, fun _ => exec_holdRelease_free, fun _ _ => exec_startHold_takes, fun _ _ => exec_engineId_takes,
    fun _ _ _ => exec_pufHelper_takes, exec_vbatLow_started, exec_pCounterStore_due⟩
  case stageA =>
    have kept := (State.started_startImage _).trans (State.started_startKeys (s.wakeA obs))
    simp only [State.started, Prod.mk.injEq] at kept
    obtain ⟨time, stage⟩ := kept
    rw [time, stage]
    exact ⟨rfl, rfl, by simp [State.wakeA], by simp [State.wakeA]⟩
  case early =>
    have stays : ((s.setCurator fun c => { c with deadline := true }).observeSync).curator.stage = .a := atA
    rw [exec_stageCDeadline_due power first due (by simp [atA]), if_neg (by rw [stays]; decide)]
  case late =>
    rw [exec_stageCDeadline_due power first due (by simp [was]), if_pos atB, if_neg (by simp [free])]

end Sys2Proof.Machine
end

section
/-!
PROOFS for chapter 15, the field side and the isolation barrier (R404 to R406, R478): one lemma for each row.
-/
namespace Sys2Proof.Machine

section
variable {s : State} {hdr : BitVec 64} {payload : Bytes}

/-! The bus and PoDL -/

theorem exec_podlPowerUp_off (off : s.curator.field.podl = false) :
    exec .podlPowerUp s = .next (s.setField fun _ => { podl := true }) := by
  simp [exec, execPodlPowerUp, off]

/-- A good Phoaz frame for the own address goes up (R405). -/
theorem exec_fieldFrame_own {dst : BitVec 48} (podl : s.curator.field.podl = true) (length : payload.length ≤ 1522)
    (own : s.curator.field.mac = some dst.toNat) (src : BitVec 48) :
    exec (.fieldFrame dst src 0x88B6 payload true) s = .next (s.fieldSend 0x01
      (beBytes 6 dst.toNat ++ beBytes 6 src.toNat ++ beBytes 2 0x88B6 ++ payload)) := by
  simp only [exec, execFieldFrame, podl, own, beq_self_eq_true, Bool.true_or, Bool.not_true, Bool.false_or, Bool.false_eq_true,
    if_false, decide_eq_true_eq, if_neg length.not_gt]
  rfl

/-- A frame of another EtherType is filtered (R405). -/
theorem exec_fieldFrame_other {etherType : BitVec 16} (podl : s.curator.field.podl = true) (length : payload.length ≤ 1522)
    (other : etherType.toNat ≠ 0x88B6) (dst src : BitVec 48) :
    exec (.fieldFrame dst src etherType payload true) s =
      .next (s.setField fun x => { x with filtered := up32 x.filtered }) := by
  simp [exec, execFieldFrame, podl, length.not_gt, other]

/-! Messages down the barrier (R405) -/

section
variable (podl : s.curator.field.podl = true) {type : Nat} (good : barrierGood hdr payload true type s.curator.field.rxSeq = true)
include podl good

/-- The field side takes a good message of its type (R406). -/
theorem State.barrierFar_good (f : State → State) :
    s.barrierFar hdr payload true type f = f (s.setField fun x => { x with rxSeq := barrierNext hdr true x.rxSeq }) := by
  simp [State.barrierFar, podl, good]

end

/-! Messages up the barrier (R404, R406) -/

/-- The Curator takes a good message of its type (R406). -/
theorem State.barrierUp_good {type : Nat} (started : s.curator.stage ≠ .none)
    (good : barrierGood hdr payload true type s.curator.rxSeq = true) (f : State → State) :
    s.barrierUp hdr payload true type f = f (s.setCurator fun c => { c with rxSeq := barrierNext hdr true c.rxSeq }) := by
  simp [State.barrierUp, started, good]

/-- A well-formed frame waits for its row (R404). -/
theorem exec_fFrame_wellFormed {frame : PhoazFrame} (started : s.curator.stage ≠ .none)
    (good : barrierGood hdr payload true 0x01 s.curator.rxSeq = true) (read : readPhoaz s.timeNs payload = some frame) :
    let u := s.setCurator fun c => { c with rxSeq := barrierNext hdr true c.rxSeq }
    u.curatorPaused = false →
      exec (.fFrame hdr payload true) s = .next (u.setDict fun d => { d with phoazIn := d.phoazIn ++ [frame] }) := by
  intro u runs
  have read' : readPhoaz u.timeNs payload = some frame := read
  simp only [exec, execFFrame, State.barrierUp_good started good]
  rw [if_neg (by rw [runs]; decide), read']

/-- F_STATUS while the link is up (R406). -/
theorem exec_fStatus_up (started : s.curator.stage ≠ .none) (good : barrierGood hdr payload true 0x02 s.curator.rxSeq = true)
    (length : payload.length = 16) (linked : s.curator.linkUp = true) :
    exec (.fStatus hdr payload true) s =
      .next ((s.setCurator fun c => { c with rxSeq := barrierNext hdr true c.rxSeq }).setCurator fun c =>
        { c with statusAt := some s.timeNs, status := some payload, linkUp := true }) := by
  have whole : (true && payload.length == 16) = true := by simp [length]
  simp only [exec, execFStatus, whole, State.barrierUp_good started good]
  exact congrArg Host.Outcome.next (if_pos linked)

/-! Silence (R405, R406) -/

theorem exec_heartbeatLoss_due {t : Nat} (podl : s.curator.field.podl = true) (configured : s.curator.field.config.isSome = true)
    (beat : s.curator.field.beat = some t) (due : t + 5000000 ≤ s.timeNs) :
    exec .heartbeatLoss s = .next (s.setField fun x => { x with config := none, queue := [] }) := by
  simp [exec, execHeartbeatLoss, podl, configured, beat, due]

theorem exec_fStatusTimeout_due {t : Nat} (started : s.curator.stage ≠ .none) (linked : s.curator.linkUp = true)
    (last : s.curator.statusAt = some t) (due : t + 5000000 ≤ s.timeNs) (down : s.mainUp = false) :
    exec .fStatusTimeout s = .next ((s.setCurator fun c => { c with linkUp := false }).bump Od.fieldLinkLossCount) := by
  have late : (s.curator.stage != .none && s.curator.linkUp && decide (t + 5000000 ≤ s.timeNs)) = true := by
    simp [started, linked, due]
  simp only [exec, execFStatusTimeout, last, late, if_true]
  exact congrArg Host.Outcome.next (if_neg (ne_true_of_eq_false down))

end

/-- Settles O50, row by row. -/
theorem fieldSideCompletes : Obligations.FieldSideCompletes := by
  intro s hdr payload
  refine ⟨exec_podlPowerUp_off, rfl, fun _ src podl length own => exec_fieldFrame_own podl length own src,
    fun dst src _ podl length other => exec_fieldFrame_other podl length other dst src, fun podl type good => ?down,
    fun started type good => ⟨?frame, ?status⟩, fun _ => exec_heartbeatLoss_due, fun _ => exec_fStatusTimeout_due⟩
  case down =>
    have takes := State.barrierFar_good podl good
    refine ⟨?_, ?_, ?_⟩
    · rintro rfl
      exact congrArg Host.Outcome.next (takes _)
    · rintro rfl length
      simp only [exec, execCConfig, takes, length, beq_self_eq_true, if_true]
      rfl
    · rintro rfl rfl
      exact congrArg Host.Outcome.next (takes _)
  case frame =>
    rintro frame rfl runs read
    exact exec_fFrame_wellFormed started good read runs
  case status =>
    rintro rfl length linked
    exact exec_fStatus_up started good length linked

end Sys2Proof.Machine
end

section
/-!
PROOFS for chapter 16, the banks of the OD window and the internal path (R412 to R420).
-/
namespace Sys2Proof.Machine

section
variable {s : State} {b : Host2}

@[simp] theorem State.bank_setBank_self (f : OdBank → OdBank) : (s.setBank b f).bank b = f (s.bank b) := by
  cases b <;> rfl

/-- A command of an idle bank in an open window (R54, R419). -/
theorem State.bankCommand_open (up : s.mainUp = true) (trained : s.carrier.mainband = true) (f : State → State) :
    s.bankCommand b false f = f s := by
  simp [State.bankCommand, up, trained]

/-- READ at offset 0 of a readable entry (R420). -/
theorem State.bankRead_first (first : (s.bank b).offset = 0) (readable : s.odReadCheck (bankAgent b) (s.bank b).key = 0) :
    s.bankRead b = ((s.odValue (s.bank b).key).2.setBank b fun y => y.part y.key (s.odValue (s.bank b).key).1
      (s.odValue (s.bank b).key).2.frame).bankEnd b 0 := by
  simp [State.bankRead, first, readable]

/-- The only part of a transfer (R420). -/
theorem State.bankPart_only {t : Transfer} {obs : ActionObs} (key : t.key = (s.bank b).key) (fresh : t.got = [])
    (first : (s.bank b).offset = 0) (one : (s.bank b).len = min 4096 t.total)
    (whole : ((s.bank b).bytes (s.bank b).len).length = t.total) :
    s.bankPart b t obs =
      let done := (s.setBank b fun x => { x with transfer := none }).odWriteAny (bankAgent b) false t.key
        ((s.bank b).bytes (s.bank b).len) obs
      done.2.bankEnd b done.1 := by
  have fits : (t.key != (s.bank b).key || (s.bank b).offset != t.got.length || (s.bank b).len != min 4096 (t.total - t.got.length)) =
      false := by
    simp [key, fresh, first, one]
  have ends : ((t.got ++ (s.bank b).bytes (s.bank b).len).length == t.total) = true := by simp [fresh, whole]
  simp only [State.bankPart, fits, ends, Bool.false_eq_true, if_false, if_true]
  rw [fresh, List.nil_append]

/-- WRITE of a whole value of one part (R420). -/
theorem State.bankWrite_whole {obs : ActionObs} {u : State} (first : (s.bank b).offset = 0) (idle : (s.bank b).transfer = none)
    (one : (s.bank b).total ≤ 4096) (length : (s.bank b).len = (s.bank b).total)
    (whole : ((s.bank b).bytes (s.bank b).len).length = (s.bank b).total)
    (accepted : ((s.setBank b fun y => { y with snapshot := none }).setBank b fun y => { y with transfer := none }).odWriteAny
      (bankAgent b) false (s.bank b).key ((s.bank b).bytes (s.bank b).len) obs = (0, u)) :
    s.bankWrite b obs = u.bankEnd b 0 := by
  have fits : (s.bank b).len = min 4096 (s.bank b).total := by omega
  have bank := State.bank_setBank_self (s := s) (b := b) fun x => { x with snapshot := none }
  simp only [State.bankWrite, bank, first, idle, Option.isSome_none, beq_self_eq_true, Bool.false_eq_true, if_true, if_false]
  rw [State.bankPart_only (by rw [bank]; rfl) rfl (by rw [bank]; exact first) (by rw [bank]; exact fits) (by rw [bank]; exact whole), bank]
  exact congrArg (fun w : Nat × State => w.2.bankEnd b w.1) accepted

end

section
variable {s : State} (up : s.mainUp = true) (i : BitVec 16) (k : BitVec 8) (value : Bytes)
include up

theorem exec_odRead_internal (readable : s.odReadCheck .docent (i.toNat * 256 + k.toNat) = 0) :
    exec (.odRead (.internal i k value) false) s = .next ((s.odValue (i.toNat * 256 + k.toNat)).2.send
      (.od Agent.docent.code 0 (s.odValue (i.toNat * 256 + k.toNat)).1)) := by
  simp [exec, execOdRead, up, State.internalRead, readable]

theorem exec_odWrite_internal {obs : ActionObs} {u : State}
    (accepted : s.odWriteAny .docent false (i.toNat * 256 + k.toNat) value obs = (0, u)) :
    exec (.odWrite (.internal i k value) false obs) s = .next (u.send (.od Agent.docent.code 0 [])) := by
  simp [exec, execOdWrite, up, State.internalWrite, accepted]

end

/-- Settles O51, row by row. -/
theorem dictionaryCompletes : Obligations.DictionaryCompletes := by
  intro s up
  refine ⟨fun trained b => ?window, fun i k value => exec_odRead_internal up i k value,
    fun i k value _ _ => exec_odWrite_internal up i k value, fun _ _ pending => congrArg Host.Outcome.next (if_pos pending)⟩
  have opened (f : State → State) : s.bankCommand b false f = f s := State.bankCommand_open up trained f
  refine ⟨fun first readable => ?_, fun obs u first idle one length whole accepted => ?_, congrArg Host.Outcome.next (opened _)⟩
  · exact congrArg Host.Outcome.next ((opened _).trans (State.bankRead_first first readable))
  · exact congrArg Host.Outcome.next ((opened _).trans (State.bankWrite_whole first idle one length whole accepted))

end Sys2Proof.Machine
end

section
/-!
PROOFS for chapter 16, the Phoaz field protocol (R425 to R434): one lemma for each row, on a frame that waits or a
request that passes its checks.
-/
namespace Sys2Proof.Machine

section
variable {s u : State} {f : PhoazFrame}

/-! Reads (R426) -/

/-- READ_REQ of a readable value that one answer holds. -/
theorem State.phoazRead_short (readable : s.odReadCheck .field (phKey f.hdr) = 0)
    (short : (phoazOrder (phKey f.hdr) (s.odValue (phKey f.hdr)).1).length ≤ 1024) :
    let v := phoazOrder (phKey f.hdr) (s.odValue (phKey f.hdr)).1
    s.phoazRead f = ((s.odValue (phKey f.hdr)).2.setDict fun d => { d with snapshot := none }).phoazComplete f 0x02 0 v.length v := by
  have staged : s.phoazTooLong (phoazOrder (phKey f.hdr) (s.odValue (phKey f.hdr)).1).length = false := by
    rw [State.phoazTooLong, decide_eq_false (by omega), Bool.and_false]
  simp only [State.phoazRead, readable, staged, if_pos short, bne_self_eq_false, Bool.false_eq_true, if_false]

theorem exec_readReq_short (taken : s.phoazTakes f 0x01 false u) (readable : u.odReadCheck .field (phKey f.hdr) = 0)
    (short : (phoazOrder (phKey f.hdr) (u.odValue (phKey f.hdr)).1).length ≤ 1024) :
    let v := phoazOrder (phKey f.hdr) (u.odValue (phKey f.hdr)).1
    exec (.readReq f.toPhoazText f.tag) s =
      .next (((u.odValue (phKey f.hdr)).2.setDict fun d => { d with snapshot := none }).phoazComplete f 0x02 0 v.length v) :=
  congrArg Host.Outcome.next ((State.phoazRequest_takes taken).trans (State.phoazRead_short readable short))

/-- SEG_READ_REQ of the next part of the held snapshot. -/
theorem exec_segReadReq_part {p : Snapshot} (taken : s.phoazTakes f 0x08 false u) (held : u.dict.snapshot = some p)
    (key : p.key = phKey f.hdr) (inside : phParam f.hdr < p.value.length) (aligned : phParam f.hdr % 1024 = 0) :
    exec (.segReadReq f.toPhoazText f.tag) s = .next (u.phoazComplete f 0x09
      (if p.value.length ≤ phParam f.hdr + 1024 then 2 else 0) (phParam f.hdr) ((p.value.drop (phParam f.hdr)).take 1024)) := by
  have part : u.phoazSegRead f = u.phoazComplete f 0x09 (if p.value.length ≤ phParam f.hdr + 1024 then 2 else 0) (phParam f.hdr)
      ((p.value.drop (phParam f.hdr)).take 1024) := by
    simp [State.phoazSegRead, held, key, inside.not_ge, aligned]
  exact congrArg Host.Outcome.next ((State.phoazRequest_takes taken).trans part)

/-! Writes (R427) -/

theorem exec_writeReq_stored {obs : ActionObs} {v : State} (taken : s.phoazTakes f 0x03 true u)
    (stored : u.phoazStore f f.body obs = (0, v)) :
    exec (.writeReq f.toPhoazText f.tag obs) s = .next (v.phoazComplete f 0x04 0 0 []) := by
  have written : u.phoazWrite f obs = v.phoazComplete f 0x04 0 0 [] := by simp [State.phoazWrite, stored]
  exact congrArg Host.Outcome.next ((State.phoazRequest_takes taken).trans written)

/-- SEG_WRITE_INIT with no transfer open. -/
theorem exec_segWriteInit_opens (taken : s.phoazTakes f 0x05 true u) (checked : u.segInitCheck (phKey f.hdr) (phParam f.hdr) = 0)
    (alone : u.dict.transfer = none) :
    exec (.segWriteInit f.toPhoazText f.tag) s = .next ((u.setDict fun d => { d with
      transfer := some { key := phKey f.hdr, total := phParam f.hdr, got := [], frame := u.frame, source := f.src.toNat,
                         trans := phTrans f.hdr }, segRsp := none }).phoazComplete f 0x07 0 0 []) := by
  have opens : u.phoazInit f = (u.setDict fun d => { d with
      transfer := some { key := phKey f.hdr, total := phParam f.hdr, got := [], frame := u.frame, source := f.src.toNat,
                         trans := phTrans f.hdr }, segRsp := none }).phoazComplete f 0x07 0 0 [] := by
    simp [State.phoazInit, checked, alone]
  exact congrArg Host.Outcome.next ((State.phoazRequest_takes taken).trans opens)

/-- The expected segment of a transfer that goes on after it. -/
theorem State.phoazSegment_next {t : Transfer} {obs : ActionObs} (key : phKey f.hdr = t.key) (next : phParam f.hdr = t.got.length)
    (whole : f.body.length = 1024) (more : 1024 < t.total - t.got.length) (last : phLast f.hdr = false) :
    s.phoazSegment f t obs = (s.setDict fun d => { d with
      transfer := some { t with got := t.got ++ f.body, frame := s.frame, last := some (t.got.length, 1024),
                                trans := phTrans f.hdr },
      segRsp := some (answerHdr f 0x07 0 0 (t.got ++ f.body).length) }).phoaz f.src.toNat
        (answerHdr f 0x07 0 0 (t.got ++ f.body).length) [] := by
  have goesOn : ¬ t.total - t.got.length ≤ 1024 := more.not_ge
  have expected : (phKey f.hdr == t.key && phParam f.hdr == t.got.length && f.body.length == min 1024 (t.total - t.got.length) &&
      phLast f.hdr == decide (t.total - t.got.length ≤ 1024)) = true := by
    simp [key, next, whole, last, more.le, -tsub_le_iff_right, goesOn]
  have open_ : ((t.got ++ f.body).length == t.total) = false := by
    rw [beq_eq_false_iff_ne, List.length_append]
    omega
  simp only [State.phoazSegment, if_pos expected]
  simp only [State.phoazNext, open_, whole, Bool.false_eq_true, if_false]

theorem exec_segWrite_next {w : State} {t : Transfer} {obs : ActionObs} (waits : s.phoazWaits f 0x06 w)
    (authentic : w.phoazAuth f true = (0, u)) (transfer : u.dict.transfer = some t) (key : phKey f.hdr = t.key)
    (next : phParam f.hdr = t.got.length) (whole : f.body.length = 1024) (more : 1024 < t.total - t.got.length)
    (last : phLast f.hdr = false) :
    exec (.segWrite f.toPhoazText f.tag obs) s = .next ((u.setDict fun d => { d with
      transfer := some { t with got := t.got ++ f.body, frame := u.frame, last := some (t.got.length, 1024),
                                trans := phTrans f.hdr },
      segRsp := some (answerHdr f 0x07 0 0 (t.got ++ f.body).length) }).phoaz f.src.toNat
        (answerHdr f 0x07 0 0 (t.got ++ f.body).length) []) := by
  simp only [exec, execSegWrite, State.phoazTake_waits waits, authentic, transfer, bne_self_eq_false, Bool.false_eq_true, if_false,
    State.phoazSegment_next key next whole more last]

/-! Messages that carry no request (R425, R432 to R434) -/

theorem exec_phoazAbort_waits (waits : s.phoazWaits f 0x0A u) : exec (.phoazAbort f) s = .next u :=
  congrArg Host.Outcome.next (State.phoazTake_waits waits)

/-- EVENT_ACK of the event that was sent (R433). -/
theorem exec_eventAck_sent {e : Event} {rest : List Event} (waits : s.phoazWaits f 0x0C u) (head : u.dict.waiting = e :: rest)
    (seq : e.seq = phParam f.hdr) (sent : u.dict.sends.isSome = true) : exec (.eventAck f) s = .next u.nextEvent := by
  simp [exec, execEventAck, State.phoazTake_waits waits, head, seq, sent]

theorem exec_timeSync_waits (waits : s.phoazWaits f 0x0D u) :
    exec (.timeSync f) s = .next (u.setDict fun d => { d with timeSync := some (phParam f.hdr, f.stamp) }) :=
  congrArg Host.Outcome.next (State.phoazTake_waits waits)

/-- An authenticated TIME_FOLLOW of the TIME_SYNC kept, within 100 ms of it (R432). -/
theorem exec_timeFollow_publishes {w : State} {stamp : Nat} (waits : s.phoazWaits f 0x0E w) (carries : phAuth f.hdr = true)
    (authentic : w.phoazAuth f true = (0, u)) (length : f.body.length = 10) (valid : beNat (f.body.drop 6) < 1000000000)
    (kept : u.dict.timeSync = some (phParam f.hdr, stamp)) (fresh : u.timeNs ≤ stamp + 100000000)
    (unsynced : u.time.state ≠ .synced) (slave : u.time.state ≠ .grandmaster) :
    exec (.timeFollow f.toPhoazText f.tag) s =
      .next ((u.setDict fun d => { d with timeSync := none }).publish (publishedNs f.body u.timeNs stamp)) := by
  have publishes : u.timeFollow f = (u.setDict fun d => { d with timeSync := none }).publish (publishedNs f.body u.timeNs stamp) := by
    simp [State.timeFollow, length, valid.not_ge, kept, fresh.not_gt, unsynced, slave]
  simp only [exec, execTimeFollow, State.phoazTake_waits waits, carries, authentic, publishes, if_true, bne_self_eq_false,
    Bool.false_eq_true, if_false]

theorem exec_discover_waits (waits : s.phoazWaits f 0x0F u) :
    exec (.discover f) s = .next (u.setDict fun d => { d with
      discover := d.discover ++ [(f.src.toNat, phTrans f.hdr, u.timeNs + u.deviceSerial % 100 * 1000000)] }) :=
  congrArg Host.Outcome.next (State.phoazTake_waits waits)

/-- The answers to DISCOVER that are due (R434). -/
theorem exec_discoverRsp_runs (runs : s.curatorPaused = false) :
    let v := s.setDict fun d => { d with discover := d.discover.filter (fun p => s.timeNs < p.2.2) }
    exec .discoverRsp s = .next ((s.dict.discover.filter (fun p => p.2.2 ≤ s.timeNs)).foldl
      (fun s p => s.phoaz p.1 (phoazHdr 0x10 0 p.2.1 24 0 0 0) s.discoverBody) v) :=
  congrArg Host.Outcome.next (if_neg (ne_true_of_eq_false runs))

/-! Timers (R427, R433) -/

/-- EVENT_RETRY_MS has passed since the last send to a unicast master (R433). -/
theorem exec_eventRetry_due {e : Event} {rest : List Event} {n t : Nat} (head : s.dict.waiting = e :: rest)
    (sent : s.dict.sends = some (n, t)) (due : t + s.cfg Od.eventRetryMs * 1000000 ≤ s.timeNs) (runs : s.curatorPaused = false)
    (unicast : s.masterAddr ≠ phoazGroup) :
    exec .eventRetry s = .next (if n < s.cfg Od.eventRetryLimit then
      (s.sendEvent e).setDict fun d => { d with sends := some (n + 1, s.timeNs) }
      else (s.bump Od.eventDropCount).nextEvent) := by
  simp [exec, execEventRetry, head, sent, due.not_gt, runs, unicast]

theorem exec_segIdleTimeout_due {t : Transfer} (transfer : s.dict.transfer = some t)
    (due : t.frame + s.cfg Od.segIdleFrames ≤ s.frame) :
    exec (.segIdleTimeout none) s = .next (s.phoazAbandon t abTimeout) := by
  simp [exec, execSegIdleTimeout, transfer, State.lapsed, due]

end

/-- Settles O52, row by row; that an ABORT has no effect is log entry 105. -/
theorem phoazCompletes : Obligations.PhoazCompletes := fun _ _ _ =>
  ⟨exec_readReq_short,
   fun _ => exec_segReadReq_part,
   fun _ _ => exec_writeReq_stored,
   exec_segWriteInit_opens,
   fun _ _ _ => exec_segWrite_next,
   exec_phoazAbort_waits,
   fun _ _ => exec_eventAck_sent,
   exec_timeSync_waits,
   fun _ _ => exec_timeFollow_publishes,
   exec_discover_waits,
   exec_discoverRsp_runs,
   fun _ _ _ _ head sent due runs unicast =>
    have retries := exec_eventRetry_due head sent due runs unicast
    ⟨fun again => retries.trans (congrArg _ (if_pos again)), fun limit => retries.trans (congrArg _ (if_neg limit.not_gt))⟩,
   fun _ => exec_segIdleTimeout_due⟩

end Sys2Proof.Machine
end

section
/-!
PROOFS for chapter 17, the scores, the images, the die temperatures and the test port (R390, R402, R403, R445 to R456,
R472 to R476): one lemma for each row.
-/
namespace Sys2Proof.Machine

section
variable {s : State}

/-! Scores (R445, R447, R448) -/

theorem exec_scoreHalving_due (boundary : s.time.cycle = 0) (due : s.frame % max 1 (s.cfg Od.scoreHalfLifeFrames) = 0)
    (enabled : s.cfg Od.scoreEnable = 1) : exec .scoreHalving s = .next s.halveScores.writeScores := by
  simp [exec, execScoreHalving, boundary, due, enabled]

theorem exec_pinEnd_clean {part : BitVec 16} {p : Pin} (pinned : s.service.pins.find? (fun p => p.part == part.toNat) = some p)
    (clean : s.cfg Od.pinFrames ≤ p.clean) : exec (.pinEnd part) s = .next (s.pinClean part.toNat) := by
  simp only [exec, execPinEnd, pinned, if_pos clean]

section
variable {part : BitVec 16} (known : partKnown part.toNat = true) (enabled : s.cfg Od.scoreEnable ≠ 0)
  (serves : (s.score part.toNat).state ≠ .retired) (above : s.cfg Od.retireThreshold ≤ (s.score part.toNat).score)
include known enabled serves above

/-- A part above the threshold, of a class that is only reported (R448). -/
theorem exec_predictiveRetire_reports (cls : part.toNat / 4096 = 8 ∨ part.toNat / 4096 = 11 ∨ part.toNat / 4096 = 12)
    (first : part.toNat ∉ s.service.reported) :
    exec (.predictiveRetire part) s = .next ((s.setService fun v =>
      { v with reported := v.reported ++ [part.toNat] }).event Od.predictiveRetireCount part.toNat) := by
  have reports : (part.toNat / 4096 == 8 || part.toNat / 4096 == 11 || part.toNat / 4096 == 12) = true := by simpa [or_assoc] using cls
  simp [exec, execPredictiveRetire, known, enabled, serves, above.not_gt, reports, first]

/-- A part above the threshold, of a class with planned means (R448). -/
theorem exec_predictiveRetire_plans (cls8 : part.toNat / 4096 ≠ 8) (cls11 : part.toNat / 4096 ≠ 11) (cls12 : part.toNat / 4096 ≠ 12)
    (allowed : s.cfg Od.predictiveRetire = 1) (spare : s.canPlan (part.toNat / 4096) (part.toNat % 4096) = true) :
    exec (.predictiveRetire part) s =
      .next ((s.planRetire (part.toNat / 4096) (part.toNat % 4096)).countEvent Od.predictiveRetireCount part.toNat) := by
  have plans : (part.toNat / 4096 == 8 || part.toNat / 4096 == 11 || part.toNat / 4096 == 12) = false := by simp [cls8, cls11, cls12]
  simp [exec, execPredictiveRetire, known, enabled, serves, above.not_gt, plans, allowed, spare]

end

theorem exec_svnWrite_takes {agent : Agent} {sub : BitVec 8} {v : BitVec 32} {ok : Bool} (low : 5 ≤ sub.toNat) (high : sub.toNat ≤ 8)
    (taken : s.odTakes agent (0x104000 + sub.toNat) (leBytes 4 v.toNat) (fun s => s.svnWrite (sub.toNat - 5) v.toNat ok)) :
    exec (.svnWrite agent sub v ok) s = .next (s.odDone agent fun s => s.svnWrite (sub.toNat - 5) v.toNat ok) := by
  simp only [exec, execSvnWrite, low, high, State.odRow_takes taken]
  rfl

/-! Temperatures and the test port (R474, R476) -/

/-- A part at its main-off threshold drops the main domain (R476). -/
theorem exec_thermalShutdown_hot {part : ThermalPart} {celsius off : Int} (limit : (thermalLimits part).2.2 = some off)
    (hot : off ≤ celsius) (power : s.curator.powerGood = true) :
    let u := (s.bump Od.thermHotCount).dropMain
    exec (.thermalShutdown part celsius) s =
      .next (State.event { u with elec := { u.elec with shutdown := some part } } Od.thermHotCount 255) := by
  simp only [exec, execThermalShutdown, limit, hot, power]
  rfl

/-- The part that shut the main domain down has cooled by 15 degrees (R476). -/
theorem exec_thermalRestart_cool {part : ThermalPart} {celsius off : Int} (down : s.elec.shutdown = some part)
    (limit : (thermalLimits part).2.2 = some off) (cool : celsius ≤ off - 15) (vin : Bool) :
    let u := { s with elec := { s.elec with shutdown := none } }
    exec (.thermalRestart part celsius vin) s = .next (if vin && s.curator.stage != .none then State.raiseMain u else u) := by
  have same : (part == part) = true := by cases part <;> rfl
  simp only [exec, execThermalRestart, down, limit, cool, same]
  rfl

theorem exec_tapInstruction_selects {i : TapInstr} (plain : i ≠ .scanChain) :
    ∃ t, exec (.tapInstruction i) s = .next t ∧ t.elec.tap = i := by
  cases i with
  | scanChain => exact absurd rfl plain
  | _ => exact ⟨_, rfl, rfl⟩

theorem exec_tapInstruction_scanChain :
    ∃ t, exec (.tapInstruction .scanChain) s = .next t ∧ t.elec.tap = if s.keyStoreState = 0 then .bypass else .scanChain := by
  refine ⟨_, rfl, ?_⟩
  by_cases normal : s.keyStoreState = 0
  · simp only [normal, beq_self_eq_true, if_true]
    rfl
  · simp [normal]

end

/-- Settles O48, row by row. -/
theorem serviceComplete : Obligations.ServiceComplete := fun s =>
  ⟨exec_scoreHalving_due,
   fun _ _ => exec_pinEnd_clean,
   fun _ known enabled serves above =>
    ⟨exec_predictiveRetire_reports known enabled serves above, exec_predictiveRetire_plans known enabled serves above⟩,
   fun _ _ _ _ => exec_svnWrite_takes,
   fun _ _ => rfl,
   fun _ _ _ => exec_thermalShutdown_hot,
   fun _ _ _ down limit cool =>
    have restarts := exec_thermalRestart_cool down limit cool
    ⟨restarts false, fun started => (restarts true).trans (congrArg _ (if_pos (by simp [started]))),
     fun off => (restarts true).trans (congrArg _ (if_neg (by simp [off])))⟩,
   fun _ => exec_tapInstruction_selects,
   fun normal => by simpa only [if_pos normal] using exec_tapInstruction_scanChain (s := s),
   fun other => by simpa only [if_neg other] using exec_tapInstruction_scanChain (s := s)⟩

/-! Images (R390, R403, R452 to R456) -/

section
variable {s : State} {agent : Agent}

/-- An image that the checks and its owner accept (R390). -/
theorem State.imageRow_takes {key : Nat} {f : State → Nat × State} (taken : s.odTakes agent key [] f) :
    s.imageRow agent key f = s.odDone agent f := by
  obtain ⟨admitted, accepted⟩ := taken
  simp [State.imageRow, State.imageWrite, State.odDone, admitted, accepted]

theorem exec_docentBundleLoad_takes {bundle : Bundle}
    (taken : s.odTakes agent Od.docentBundleLoad.key [] (fun s => s.bundleLoad bundle)) :
    exec (.docentBundleLoad agent bundle) s = .next (s.odDone agent fun s => s.bundleLoad bundle) :=
  congrArg Host.Outcome.next (State.imageRow_takes taken)

theorem exec_bundleStage_takes {bundle : Bundle} (taken : s.odTakes agent Od.bundleStage.key [] (fun s => s.bundleStage bundle)) :
    exec (.bundleStage agent bundle) s = .next (s.odDone agent fun s => s.bundleStage bundle) :=
  congrArg Host.Outcome.next (State.imageRow_takes taken)

theorem exec_curatorImageLoad_takes {image : CuratorImage}
    (taken : s.odTakes agent Od.curatorImageLoad.key [] (fun s => s.imageLoad image)) :
    exec (.curatorImageLoad agent image) s = .next (s.odDone agent fun s => s.imageLoad image) :=
  congrArg Host.Outcome.next (State.imageRow_takes taken)

theorem exec_bundleActivate_takes {v : BitVec 32}
    (taken : s.odTakes agent Od.bundleActivate.key (leBytes 4 v.toNat) (fun s => s.bundleActivate v.toNat)) :
    exec (.bundleActivate agent v) s = .next (s.odDone agent fun s => s.bundleActivate v.toNat) :=
  congrArg Host.Outcome.next (State.odRow_takes taken)

theorem exec_bundleCommit_takes {v : BitVec 8} (taken : s.odTakes agent Od.bundleCommit.key [v] (fun s => s.bundleCommit v.toNat)) :
    exec (.bundleCommit agent v) s = .next (s.odDone agent fun s => s.bundleCommit v.toNat) :=
  congrArg Host.Outcome.next (State.odRow_takes taken)

theorem exec_curatorActivate_takes {v : BitVec 8}
    (taken : s.odTakes agent Od.curatorActivate.key [v] (fun s => s.curatorActivate v.toNat)) :
    exec (.curatorActivate agent v) s = .next (s.odDone agent fun s => s.curatorActivate v.toNat) :=
  congrArg Host.Outcome.next (State.odRow_takes taken)

theorem exec_curatorCommit_takes {v : BitVec 8}
    (taken : s.odTakes agent Od.curatorCommit.key [v] (fun s => s.curatorCommit v.toNat)) :
    exec (.curatorCommit agent v) s = .next (s.odDone agent fun s => s.curatorCommit v.toNat) :=
  congrArg Host.Outcome.next (State.odRow_takes taken)

/-- The first quiet boundary after the activation (R453). -/
theorem exec_bundleSwitch_quiet {f : Nat} {b : Bundle} (armed : s.service.armed = some f) (staged : s.service.staged = some b)
    (boundary : s.time.cycle = 0) (later : f < s.frame) (quiet : s.quiet = true) :
    exec .bundleSwitch s = .next ((s.setService fun v => { v with
      previous := v.active, active := some b, staged := none, armed := none, trial := some s.frame, trialBad := false }).armKernels
        (some b)) := by
  simp [exec, execBundleSwitch, armed, staged, boundary, later, quiet]

theorem exec_activateWaitTimeout_due {f : Nat} (armed : s.service.armed = some f)
    (due : f + s.cfg Od.activateWaitFrames ≤ s.frame) :
    exec .activateWaitTimeout s = .next ((s.setService fun v => { v with armed := none }).countEvent Od.activateAbandonCount) := by
  simp [exec, execActivateWaitTimeout, armed, State.lapsed, due]

/-- A trial that has failed: the previous bundle resumes (R455). -/
theorem exec_bundleTrialFail_bad (trial : s.service.trial.isSome = true) (bad : s.service.trialBad = true) (missed : Bool) :
    let u := s.setService fun v => { v with
      active := s.service.previous, previous := none, staged := none, trial := none, trialBad := false }
    let w := { u with docent := { u.docent with cores := u.docent.cores.map (fun (c : DocentCore) => { c with stalled := [] }) } }
    exec (.bundleTrialFail missed) s = .next ((State.armKernels w s.service.previous).countEvent Od.revertCount) := by
  simp only [exec, execBundleTrialFail, trial, bad]
  rfl

theorem exec_trialEnd_autoCommit (trial : s.service.trial.isSome = true) (ended : s.trialing = false)
    (good : s.service.trialBad = false) (auto : s.cfg Od.autoCommit = 1) : exec .trialEnd s = .next s.commitBundle := by
  simp [exec, execTrialEnd, trial, ended, good, auto]

theorem exec_curatorRestart_due {k f : Nat} (activated : s.curator.activate = some (k, f)) (boundary : s.time.cycle = 0)
    (later : f < s.frame) : exec .curatorRestart s = .next (s.restartCurator k (some s.frame)) := by
  simp [exec, execCuratorRestart, activated, boundary, later]

theorem exec_curatorTrialFail_trialing (trialing : s.curatorTrialing = true) :
    exec .curatorTrialFail s = .next ((s.bootSlot.2.restartCurator s.bootSlot.1 none).countEvent Od.revertCount) := by
  simp [exec, execCuratorTrialFail, trialing]

end

/-- Settles O49, row by row. -/
theorem imagesComplete : Obligations.ImagesComplete := fun _ _ =>
  ⟨fun _ => exec_docentBundleLoad_takes,
   fun _ => exec_bundleStage_takes,
   fun _ => exec_curatorImageLoad_takes,
   fun _ => exec_bundleActivate_takes,
   fun _ => exec_bundleCommit_takes,
   fun _ => exec_curatorActivate_takes,
   fun _ => exec_curatorCommit_takes,
   fun _ _ => exec_bundleSwitch_quiet,
   fun _ => exec_activateWaitTimeout_due,
   fun missed trial bad => exec_bundleTrialFail_bad trial bad missed,
   exec_trialEnd_autoCommit,
   fun _ _ => exec_curatorRestart_due,
   exec_curatorTrialFail_trialing⟩

end Sys2Proof.Machine
end

section
/-!
PROOFS for chapter 17, the counters (R462): counting in an entry is one write of it, and every other entry answers
what it answered.
-/
namespace Sys2Proof.Machine

section
variable {s : State} {r q : OdRef} {n : Nat} (formed : s.storeFormed)
include formed

theorem State.odGet_bumpBy_self : (s.bumpBy r n).odGet r = min (s.odGet r + n) (2 ^ r.width - 1) :=
  State.odGet_odSet_self formed

theorem State.odGet_bumpBy_ne (other : q.key ≠ r.key) : (s.bumpBy r n).odGet q = s.odGet q :=
  State.odGet_odSet_ne formed other

/-- A counter at the largest value of its type stays there. -/
theorem State.odGet_bumpBy_saturated (full : s.odGet r = 2 ^ r.width - 1) : (s.bumpBy r n).odGet r = s.odGet r := by
  rw [State.odGet_bumpBy_self formed, full]
  exact Nat.min_eq_right (Nat.le_add_right _ n)

theorem State.odGet_total_self : (s.total r n).odGet r = (s.odGet r + n) % 2 ^ r.width :=
  State.odGet_odSet_self formed

theorem State.odGet_total_ne (other : q.key ≠ r.key) : (s.total r n).odGet q = s.odGet q :=
  State.odGet_odSet_ne formed other

end

/-- Settles O58. -/
theorem countersSaturate : Obligations.CountersSaturate := fun _ _ _ _ formed =>
  ⟨State.odGet_bumpBy_self formed, State.odGet_bumpBy_saturated formed,
   fun wide => wide ▸ State.odGet_total_self formed,
   fun other => ⟨State.odGet_bumpBy_ne formed other, State.odGet_total_ne formed other⟩⟩

end Sys2Proof.Machine
end

section
/-!
PROOFS about runs: what every step keeps, from what every command keeps, and the state after reset.
-/
namespace Sys2Proof.Machine

/-- Settles O1. -/
theorem stepRunsTheFront : Obligations.StepRunsTheFront := fun _ _ _ => step_of_cons rfl

/-- Settles O3: it is part of what every command keeps. -/
theorem everyCommandGoesOn : Obligations.EveryCommandGoesOn := fun c s =>
  have ⟨t, next, queue, _⟩ := exec_next c s
  ⟨t, next, queue⟩

/-- Settles O4, for the command at the front and for the idle cycle. -/
theorem nothingSentIsTakenBack : Obligations.NothingSentIsTakenBack := by
  intro s
  cases queue : s.pending with
  | nil =>
    obtain ⟨-, ⟨l, sent⟩, drawn, -⟩ := idle_next s
    exact ⟨s.idle, step_of_empty queue, ⟨l, sent.symm⟩, drawn⟩
  | cons c rest =>
    obtain ⟨t, next, -, ⟨l, sent⟩, drawn, -⟩ := exec_next c { s with pending := rest }
    exact ⟨t, (step_of_cons queue).trans next, ⟨l, sent.symm⟩, drawn⟩

/-- n steps from a state that has the form end in a state that has it. -/
theorem State.after_formed (n : Nat) : ∀ s : State, s.formed → ∃ t, s.after n = some t ∧ t.formed := by
  induction n with
  | zero => exact fun s formed => ⟨s, rfl, formed⟩
  | succ n ih =>
    intro s formed
    obtain ⟨t, next, kept⟩ := stepsKeepTheForm s formed
    obtain ⟨u, rest, formedEnd⟩ := ih t kept
    exact ⟨u, by rw [State.after, next]; exact rest, formedEnd⟩

/-- Settles O7: the queue is no part of the form, and every step keeps the form. -/
theorem runsNeverStop : Obligations.RunsNeverStop := fun _ cs n formed =>
  State.after_formed n _ (State.formed_setPending formed cs)

/-- Settles O6: the stores, the sync memory, the history and the groups are empty. -/
theorem resetHasTheForm : Obligations.ResetHasTheForm :=
  ⟨(by decide : 0 < 160000), .nil, .nil, Nat.zero_le _, Nat.zero_le _, Nat.zero_le _, .nil, fun _ listed => (List.not_mem_nil listed).elim⟩

/-- Settles O8. -/
theorem resetState : Obligations.ResetState := by
  refine ⟨rfl, rfl, rfl, rfl, rfl, rfl, rfl, rfl, ?_, rfl, rfl, rfl, rfl, rfl, rfl, rfl, rfl, rfl⟩
  decide

end Sys2Proof.Machine
end
